-- ==== Sys2Proof/Word.lean ====
section
/-!
DEFINITION. The word types of the Clesavo (00_scope.md, "Conventions"), the names of its dies, units and
agents, and the plain records that the commands carry as operands.
-/

namespace Sys2Proof

/-- One byte. -/
abbrev Byte := BitVec 8
/-- A register word: registers are 32 bits wide (00_scope.md, "Registers"). -/
abbrev W32 := BitVec 32
/-- A 64-bit value: a register pair (R9), a bowstring time (R210). -/
abbrev W64 := BitVec 64
/-- A device address: the device address space is 48 bits wide (00_scope.md, "Device addresses"). -/
abbrev DevAddr := BitVec 48

/-- A Body die BD00-BD31 (R13). -/
abbrev BodyDie := Fin 32
/-- A Brim die BM0-BM3 (R16). -/
abbrev BrimDie := Fin 4
/-- A Crown die CW0-CW3 (R13). -/
abbrev CrownDie := Fin 4
/-- A die index that names a die: bits [47:42] of a device address below 0x28. -/
abbrev DieIdx := Fin 40
/-- A partition number (R36). -/
abbrev PartIdx := Fin 16
/-- A request-table slot (R233). -/
abbrev SlotIdx := Fin 4096
/-- A photonic link L00-L47 (R330). -/
abbrev LinkIdx := Fin 48
/-- A lane of a link (R330). -/
abbrev LaneIdx := Fin 4
/-- A laser module LM0-LM7 (R372). -/
abbrev ModuleIdx := Fin 8
/-- A vector register VR0-VR31 (R154). -/
abbrev VReg := Fin 32

/-- A tile: its Body die and its tile region (R27). -/
structure TileId where
  die    : BodyDie
  region : Fin 512
  deriving DecidableEq, Repr

/-- A physical array: its tile and its index in the tile (R90). -/
structure ArrayId where
  tile : TileId
  phys : Fin 64
  deriving DecidableEq, Repr

/-- The access ports of R10: the PCIe endpoint and each control core of each Brim die. -/
inductive Port where
  | pcie
  | core (brim : BrimDie) (n : Fin 8)
  deriving DecidableEq, Repr

/-- A control core, and not the PCIe endpoint. -/
def Port.isCore : Port → Bool
  | .pcie => false
  | .core _ _ => true

/-- The six firmware components of R461. -/
inductive Component where
  | supervisor | servingAssist | linkManager | powerSteward | calibration | telemetry
  deriving DecidableEq, Repr

/-- The component ID of R461. -/
def Component.id : Component → Nat
  | .supervisor => 1 | .servingAssist => 2 | .linkManager => 3
  | .powerSteward => 4 | .calibration => 5 | .telemetry => 6

/-- The regulator outputs of R398. The first index of `edgeBrim` and `edgeCrown` is the die; the Bool is the
second output of that edge regulator (1.80 V). -/
inductive Rail where
  | vcore (d : BodyDie)
  | varr (d : BodyDie)
  | vful (d : BodyDie)
  | edgeBrim (b : BrimDie) (second : Bool)
  | edgeCrown (c : CrownDie) (second : Bool)
  deriving DecidableEq, Repr

/-- The PLLs of calibration target 4 (R406). -/
inductive Pll where
  | fabric (d : BodyDie)
  | mesh (d : BodyDie)
  | controlCore (b : BrimDie)
  | linkPhy (l : LinkIdx)
  | crownIf (c : CrownDie)
  | pcie
  | ethernet (b : BrimDie)
  | sensor (b : BrimDie)
  deriving DecidableEq, Repr

/-- A vector-unit element format (R195, FMT bits [1:0]). -/
inductive VFmt where
  | fp16 | bf16 | int32 | int8
  deriving DecidableEq, Repr

/-- A CMP predicate (R195, FMT bits [6:4]). -/
inductive CmpPred where
  | eq | ne | lt | le | gt | ge
  deriving DecidableEq, Repr

/-- How a pass closes (R194, MODE bits [3:2]). -/
inductive CloseFmt where
  | none | fp16 | bf16
  deriving DecidableEq, Repr

/-- A DMA access that falls on a scratchpad row (offset / 64) in the cycle of an engine access (R141): the tile that issued its
transfer, the transfer's number there, and whether it writes. -/
structure Collision where
  row   : Nat
  owner : TileId
  xfer  : Nat
  write : Bool
  deriving DecidableEq, Repr

/-- What the silicon meets while an operation runs, which no register or memory byte decides: scratchpad words
(offset / 8) that its reads find in error, true for an uncorrectable one (R143); the DMA accesses that meet its own (R141); and
whether the vector unit's residue check of the operation fails (R421). -/
structure OpEnv where
  ecc     : List (Nat × Bool)
  collide : List Collision
  residue : Bool
  deriving DecidableEq, Repr

/-- Nothing met. -/
def OpEnv.quiet : OpEnv := ⟨[], [], false⟩

/-- What every operation of a tile's step program carries beside its operands: the tile, the scheduled step
cycle CYCLE and the form operation index (R182), and what the silicon meets. -/
structure OpHdr where
  tile  : TileId
  cycle : Nat
  opidx : Nat
  env   : OpEnv
  deriving DecidableEq, Repr

/-- The operands of a main pass (R194). `swatches` holds the scratchpad offsets of its s = 1 to 4 swatches in
units of 32 bytes; `accExp` is the accumulator exponent A. -/
structure PassOps where
  larray   : Fin 64
  close    : CloseFmt
  accExp   : Int
  layer    : Fin 256
  swatches : List (Fin 12288)
  deriving DecidableEq, Repr

/-- An analogue deviation met by a pass: converter `conv` (0-511 data column, 512-543 checksum digit cell
column 512 + 4k + j), in row group `group` and plane `plane`, reads `delta` away from the exact sum. R99 makes
converters exact; what a defective cell or converter reads is not the machine's to compute, so it comes with the
command that completes the pass. Half h of a split-retry of group g is group 64 + 2g + h; a nap pass numbers its blocks
0 to 15. -/
structure Glitch where
  conv  : Nat
  group : Nat
  plane : Nat
  delta : Int
  deriving DecidableEq, Repr

/-- What the hardware meets while a pass converts: deviations of the first run and of the repeat (R121), and the
columns whose residue does not match in the residue check (R421); the weight scale entries it reads whose parity is bad (R89); and
the cycles its retries and repeat waited for tickets (R102). -/
structure PassEnv where
  first   : List Glitch
  again   : List Glitch
  residue : List Nat
  parity  : List Nat
  waited  : Nat
  deriving DecidableEq, Repr

/-- The means of a column converter in one mode (R406), in 1/100 LSB: at 0 Q_u and at the positive and the negative level. -/
structure ConvMeans where
  zero  : Int
  plus  : Int
  minus : Int
  deriving DecidableEq, Repr

/-- The measurements of one array calibration (targets 0 and 1 of R406): the means of its column converters in 8-bit and in 6-bit mode,
the DAC levels -2, -1, +1, +2, +3 of each row in 1/1,000 of a unit, and what the verification finds, the worst over the array: the
residual offset in 1/100 LSB, the residual gain error at ±127 in 1/1,000 LSB and the residual DAC error in 1/1,000 of a unit. -/
structure ArrayCalMeasure where
  conv8     : List ConvMeans
  conv6     : List ConvMeans
  dac       : List (List Int)
  resOffset : Nat
  resGain   : Nat
  resDac    : Nat
  deriving DecidableEq, Repr

/-- A unit whose calibration result is applied by glide or at a boundary (R419). -/
inductive CalUnit where
  | ring (l : LinkIdx) (n : LaneIdx)
  | equaliser (l : LinkIdx) (n : LaneIdx)
  | sensor (b : BrimDie)
  | bowtrim (d : DieIdx)
  deriving DecidableEq, Repr

/-- Who sends a mesh packet (R40, R161): a tile, a unit of a Body die, or Brim die `d` (0 to 3) or Crown die `d - 4` (4 to 7),
which sends for a partition. -/
inductive Sender where
  | tile (t : TileId)
  | body (d : BodyDie)
  | outer (d : Fin 8) (p : PartIdx)
  deriving DecidableEq, Repr

/-- A mesh packet as its sender injects it (R158, R159): the sender, the destination device address, whether it carries a
response, whether it is service traffic, its poison sideband, and its payload bytes. The partition number (R40) and the
virtual channel (R159, R165) are the hardware's to insert. -/
structure Packet where
  src     : Sender
  dst     : DevAddr
  resp    : Bool
  service : Bool
  poison  : Bool
  payload : List Byte
  deriving DecidableEq, Repr

/-- Who becomes ready for a step (R216): a Body die, or the principal. -/
inductive ReadyUnit where
  | die (d : BodyDie)
  | principal
  deriving DecidableEq, Repr

/-- A cell that reads away from its code in the analogue path: its row, its converter (0-511 a data column, 512-543 checksum digit
column 512 + 4k + j), and by how much it reads away at the levels −2, −1, 0, 1, 2, 3 that can drive its row (R98, R410). -/
structure WeakCell where
  row  : Fin 512
  conv : Fin 544
  dev  : List Int
  deriving DecidableEq, Repr

/-- The outcome of one round of a fulling as the silicon gives it (R123): the rows that the digital read-back finds wrong, and the
cells that read away from their codes in the probe passes. -/
structure FullRound where
  badRows : List (Fin 512)
  cells   : List WeakCell
  deriving DecidableEq, Repr

/-- One request of a SUBMIT: the fields of fragment 0 of R364 that both SUBMIT paths carry. -/
structure SubmitBody where
  promptLen : W32
  maxNew    : W32
  partition : Byte
  ctrl      : Byte
  tenant    : BitVec 16
  deadline  : W64
  seed      : W64
  temp      : BitVec 16
  topP      : BitVec 16
  minP      : BitVec 16
  repPen    : BitVec 16
  topK      : BitVec 16
  adapter   : BitVec 16
  res44     : Byte
  rpWindow  : Byte
  draft     : Byte
  res47     : Byte
  stops     : List W32
  deriving DecidableEq, Repr

/-- The addresses of one accepted frame (R358, R360): source MAC, IP (IPv4 in the low 32 bits) and UDP port. -/
structure PeerAddr where
  mac : BitVec 48
  ip  : BitVec 128
  v6  : Bool
  udp : BitVec 16
  deriving DecidableEq, Repr

/-- The 16-byte header of a service-protocol message (R359). -/
structure OspHdr where
  magic    : BitVec 16
  version  : Byte
  type     : Byte
  channel  : BitVec 16
  reserved : BitVec 16
  seq      : W32
  ack      : W32
  deriving DecidableEq, Repr

/-- What a boundary-scan instruction register selects (R535): the four instructions that are always available, and the others, by their
8-bit codes. -/
inductive TapInstr where
  | bypass | idcode | samplePreload | extest
  | other (code : Byte)
  deriving DecidableEq, Repr

/-- The body of a SUBMIT fragment (R364). -/
structure SubmitFrag where
  frag   : Nat
  body   : Option SubmitBody
  tokens : List W32
  deriving DecidableEq, Repr

/-- What a service port finds in a received frame below the service protocol (R356, R357): each flag names a
reason to drop, and `pause` a PAUSE frame. -/
structure EthFrame where
  badFcs      : Bool
  tooShort    : Bool
  tooLong     : Bool
  stackedTag  : Bool
  vid         : Option (BitVec 12)
  pause       : Bool
  fragment    : Bool
  ipOptions   : Bool
  notUdp      : Bool
  udpPort     : BitVec 16
  badChecksum : Bool
  src         : PeerAddr
  hdr         : OspHdr
  deriving DecidableEq, Repr

/-- One partial list as it arrives at the sampling unit, in the layout of R157. Entries are (FP16 value, local
index). -/
structure PartialList where
  slot    : SlotIdx
  pos     : Nat
  poison  : Bool
  base    : Nat
  entries : List (BitVec 16 × Nat)
  deriving DecidableEq, Repr

/-- A flit as it arrives on a lane (R332, R333). `bad` says that its CRC check fails (a flit of an uncorrectable
codeword fails it, R331). -/
structure Flit where
  bad     : Bool
  fecBad  : Bool
  uncorr  : Nat
  fixed   : Nat
  seq     : BitVec 16
  ack     : BitVec 16
  type    : BitVec 2
  vc      : Bool
  poison  : Bool
  valid   : Byte
  credits : Byte
  cvc     : Bool
  symbol  : Byte
  arg     : BitVec 24
  deriving DecidableEq, Repr

/-- The transaction header that opens each link packet (R351). `object` is the bolt and the chunk that a read request of the rack
bolt tree names (R304): where a packet carries them the spec does not say (log 56). -/
structure LinkHdr where
  channel : Nat
  kind    : Nat
  land    : BitVec 16
  offset  : Nat
  len     : Nat
  xfer    : BitVec 16
  packets : Nat
  object  : Option (W64 × W32)
  deriving DecidableEq, Repr

/-- A partner's identity record (R346), as one lane received it. -/
structure Identity where
  serial  : W64
  link    : Nat
  rackPos : Nat
  rackId  : W32
  deriving DecidableEq, Repr

/-- What the monitors of a laser module read once per second (R377): per wavelength the bias in 0.1 mA and the
power in 0.01 dBm, and the case temperature in 0.1 °C. -/
structure LaserReading where
  bias  : List Nat
  power : List Int
  tcase : Int
  deriving DecidableEq, Repr

/-- The host submission entry fields of R477. -/
structure SqEntry where
  seq      : W32
  type     : Byte
  reserved : BitVec 24
  addr     : W64
  len      : W32
  subSeq   : W32
  fromPos  : W32
  boltId   : W64
  chunk    : W32
  deriving DecidableEq, Repr

/-- Why the endpoint was reset (R472, R494 DETAIL of 0x7001). -/
inductive EndpointCause where
  | linkLoss | perst | hotReset | flr
  deriving DecidableEq, Repr

/-- What start-up meets that no register or flash byte decides (R416, R450 to R452): dies that stay silent or
fail, edges that do not train, what BIST and the census find, with the results of the arrays' calibrations in their order, the diode idealities measured and the stability of
the cold-plate thermistors, and the board's PRI_SEL. -/
structure BootEnv where
  priSel        : Bool
  flashOk       : Bool
  silentBrims   : List BrimDie
  failedBodies  : List BodyDie
  failedCrowns  : List CrownDie
  deadEdges     : List (BodyDie × Fin 4)
  bistTiles     : List TileId
  calArrays     : List (ArrayId × ArrayCalMeasure)
  fullArrays    : List ArrayId
  diodesStable  : Bool
  diodes        : List (BrimDie × Fin 9 × BitVec 16 × BitVec 16)
  trips         : List (DieIdx × Nat)
  deriving DecidableEq, Repr

/-- A sensor register written by SENSOR_ENTRY_WRITE (R503): an entry or a sequence. -/
inductive SnsTarget where
  | ent (e : Fin 16)
  | seq (s : Fin 4)
  deriving DecidableEq, Repr

/-- A finding of the sweep in the row it visits (R424, R425); a scale entry is that of the row's four. -/
inductive Finding where
  | single (bit : Fin 1024)
  | checkCells
  | uncorrectable
  | scaleParity (i : Fin 4)
  deriving DecidableEq, Repr

/-- What a Crown controller's check of a line finds (R422). -/
inductive LineEcc where
  | clean
  | corrected
  | bad
  deriving DecidableEq, Repr

/-- The repair of a repair hold (R436): one fenced array refulled into a SPARE array of its tile, one slice of a weight page
rewritten, or a logical tile moved (R439). -/
inductive RepairKind where
  | array (old : ArrayId) (spare : Fin 64)
  | slice (page : Nat) (d : BodyDie) (layer : Fin 64)
  | tileMove (ltile : Nat)
  deriving DecidableEq, Repr

end Sys2Proof
end

