-- ==== Sys2Proof/Syntax.lean ====
section
/-!
DEFINITION. The commands of the Clesavo: one constructor per row of spec/opcode_table.json, in the table's order.
A constructor's operands are what the row's own event carries from outside the device: the addressed unit, the
value written, the bytes that arrive, and what the silicon or the environment decides (a measured count, a fault of
a rail) where the spec does not compute it. Everything else a row does is computed from the state.
-/

namespace Sys2Proof

/-- A command to the device (spec/opcode_table.json, row by row). -/
inductive Instr where
  -- Registers (00_scope.md)
  | registerWrite (port : Port) (addr : DevAddr) (data : W32) (be : BitVec 4)
  | rcFieldRead (port : Port) (addr : DevAddr)
  | pairLoRead (port : Port) (addr : DevAddr)
  | pairHiWrite (port : Port) (addr : DevAddr) (data : W32)
  -- Power and reset (12, 15, 19)
  | vin48Rise
  | pgoodRise (env : BootEnv)
  | pgoodFall
  | resetNAssert (ns : Nat)
  | resetCommand (port : Port) (data : W32)
  | resetNRelease (env : BootEnv)
  | vin48Remove
  | busConverterUvlo (c : Fin 20)
  | busConverterRestart (c : Fin 20)
  | vlasOutOfRange (b : BrimDie)
  -- Firmware (15)
  | watchdogKick (port : Port) (data : W32)
  | watchdogExpiry
  | componentFault (c : Component)
  | componentHeartbeatStale (c : Component)
  | updateStage (port : Port) (data : W32) (fetched : List Byte) (writeOk : Bool)
  | updateActivate (port : Port) (data : W32)
  | updateAbort (port : Port) (data : W32)
  | updateQuiescentPoint
  | updateHeartbeatTimeout (c : Component)
  | firmwareTrialConfirm
  | startRecordTrialConfirm
  | ownerHashWrite (port : Port) (k : Fin 12) (data : W32)
  | ownerBurn (port : Port) (data : W32)
  | fenceMapWrite
  -- Bowstring symbols and commands (06)
  | idle (corrected : Option DieIdx)
  | freeze
  | thaw
  | emergency
  | launch (p : PartIdx)
  | hold (p : PartIdx)
  | skip (release : Bool) (div : BitVec 2) (m : BitVec 4)
  | bowSymbolUncorrectable (d : DieIdx) (frame : BitVec 26)
  | bowTimeFrame (d : DieIdx) (frame : W64)
  | emergencyForce (port : Port) (data : W32)
  | skipIssue (port : Port) (data : W32)
  | releaseIssue (port : Port) (data : W32)
  | bowEmergWrite (port : Port) (data : W32)
  | freezeArm (port : Port) (data : W32)
  | freezeTimeReached
  | thawIssue (port : Port) (data : W32)
  | stepBarrier (p : PartIdx)
  | dieReady (p : PartIdx) (u : ReadyUnit)
  | holdLimitExpiry (p : PartIdx)
  -- Power leave, throttling, thermal protection (12)
  | leaveWindow
  | ticketDrawGranted (t : TileId) (cycles : Nat)
  | stewardKUpdate (unitW : List Nat) (edgeW : Nat)
  | powerSkipUpdate (inputW : Nat) (vin : Nat)
  | thermalSkipUpdate
  | normalDeclared
  | overcurrentTrip (r : Rail)
  | railShutdown (r : Rail)
  | thermalTrip (d : DieIdx)
  | thmLimitsWrite (port : Port) (b : BrimDie) (data : W32)
  -- Sensor converter (17)
  | sensorFastTick (b : BrimDie)
  | sensorSlowTick (b : BrimDie)
  | sensorConversion (b : BrimDie) (e : Fin 16) (raw : Nat)
  | sensorRefSelect (port : Port) (b : BrimDie) (data : W32)
  | sensorRefSettled (b : BrimDie)
  | sensorEntryWrite (port : Port) (b : BrimDie) (t : SnsTarget) (data : W32)
  | sensorLimitWrite (port : Port) (b : BrimDie) (e : Fin 16) (data : W32)
  -- Conformer (13)
  | arrayCalStart (a : ArrayId)
  | arrayCalComplete (a : ArrayId) (m : ArrayCalMeasure) (refull : Bool)
  | calQueueDispatch (d : BodyDie)
  | ringHeaterCal (l : LinkIdx) (n : LaneIdx) (drive : Nat)
  | equaliserCal (l : LinkIdx) (n : LaneIdx) (eye : Nat) (taps : List Nat)
  | pllCountCheck (pll : Pll) (count : Nat)
  | sensorCal (b : BrimDie) (rawOffset : Int) (rawGain : Int)
  | bowtrimCal (rt : List Nat)
  | glideStep (u : CalUnit)
  -- Passes (03)
  | pass32 (h : OpHdr) (o : PassOps)
  | pass16 (h : OpHdr) (o : PassOps)
  | nap (h : OpHdr) (o : PassOps)
  | passOutputReady (a : ArrayId) (env : PassEnv)
  | tileParityError (t : TileId)
  -- The vector unit (04, 05)
  | aout (h : OpHdr) (dst : VReg) (larray : Fin 64) (fmt : VFmt)
  | load (h : OpHdr) (dst : VReg) (addr : BitVec 19)
  | eccWriteback (t : TileId) (addr : BitVec 19)
  | store (h : OpHdr) (src : VReg) (addr : BitVec 19)
  | swload (h : OpHdr) (dst : VReg) (addr : BitVec 19) (layer : Fin 256) (fmt : VFmt)
  | gather (h : OpHdr) (dst : VReg) (addr : BitVec 19) (n1 : Fin 256) (width : BitVec 2) (stride : BitVec 16)
  | transpose (h : OpHdr) (dst : VReg) (addr : BitVec 19) (width : BitVec 2) (stride : BitVec 16)
  | add (h : OpHdr) (dst a b : VReg) (fmt : VFmt)
  | sub (h : OpHdr) (dst a b : VReg) (fmt : VFmt)
  | mul (h : OpHdr) (dst a b : VReg) (fmt : VFmt)
  | fma (h : OpHdr) (dst a b c : VReg) (fmt : VFmt)
  | min (h : OpHdr) (dst a b : VReg) (fmt : VFmt)
  | max (h : OpHdr) (dst a b : VReg) (fmt : VFmt)
  | abs (h : OpHdr) (dst a : VReg) (fmt : VFmt)
  | neg (h : OpHdr) (dst a : VReg) (fmt : VFmt)
  | cmp (h : OpHdr) (dst a b : VReg) (fmt : VFmt) (pred : CmpPred)
  | sel (h : OpHdr) (dst a b c : VReg) (fmt : VFmt)
  | i8add (h : OpHdr) (dst a b : VReg)
  | i8sub (h : OpHdr) (dst a b : VReg)
  | i8min (h : OpHdr) (dst a b : VReg)
  | i8max (h : OpHdr) (dst a b : VReg)
  | i8dot4 (h : OpHdr) (dst a b : VReg)
  | cvt (h : OpHdr) (dst a : VReg) (src tgt : VFmt)
  | exp2 (h : OpHdr) (dst a : VReg) (fmt : VFmt)
  | log2 (h : OpHdr) (dst a : VReg) (fmt : VFmt)
  | rcp (h : OpHdr) (dst a : VReg) (fmt : VFmt)
  | rsqrt (h : OpHdr) (dst a : VReg) (fmt : VFmt)
  | rsum (h : OpHdr) (dst a : VReg) (fmt : VFmt)
  | rdot (h : OpHdr) (dst a b : VReg) (fmt : VFmt)
  | rsumsq (h : OpHdr) (dst a : VReg) (fmt : VFmt)
  | rmax (h : OpHdr) (dst a : VReg) (fmt : VFmt)
  | rargmax (h : OpHdr) (dst a : VReg) (fmt : VFmt)
  | bcast (h : OpHdr) (dst a : VReg) (fmt : VFmt) (elem : BitVec 16)
  | rot (h : OpHdr) (dst a : VReg) (fmt : VFmt) (lanes : BitVec 16)
  | gatherr (h : OpHdr) (dst a b : VReg) (fmt : VFmt)
  | tagset (h : OpHdr) (dst : VReg) (slot : SlotIdx) (wgen : Byte) (pos : BitVec 24)
  | quant (h : OpHdr) (src : VReg) (addr : BitVec 19) (layer : Fin 256) (fmt : VFmt)
  | nsamp (h : OpHdr) (addr : BitVec 19) (window : Fin 8)
  | topk (h : OpHdr) (src : VReg) (inp : BitVec 19) (n1 : Fin 8192) (out : BitVec 19) (k1 : Fin 256) (base : BitVec 17)
  -- Sequencer, DMA engine and mesh (04, 05)
  | dma (h : OpHdr) (desc : Fin 1024)
  | waitl (h : OpHdr) (counter : Fin 32) (target : BitVec 16)
  | endOp (h : OpHdr)
  | operationWaitEnd (t : TileId) (cycles : Nat)
  | meshPacketArrival (d : BodyDie) (region : Fin 512) (p : Packet)
  | dmaLanding (t : TileId) (xfer : Nat) (env : OpEnv)
  | dmaRelease (t : TileId) (xfer : Nat)
  | d2dCrcRetry (d : DieIdx) (edge : Fin 4)
  | d2dLinkDown (d : DieIdx) (edge : Fin 4)
  | mshPartWrite (port : Port) (d : BodyDie) (data : W32)
  | mshBorderWrite (port : Port) (d : BodyDie) (data : W32)
  | descriptorWrite (port : Port) (t : TileId) (offset : BitVec 16) (data : W32)
  | arrMapWrite (port : Port) (t : TileId) (bank : Bool) (n : Fin 64) (data : W32)
  | arrBankWrite (port : Port) (t : TileId) (data : W32)
  -- Crown (08)
  | crownStreamRead (c : CrownDie) (src : TileId) (offset len : Nat) (ecc : LineEcc)
  | crownAppendWrite (c : CrownDie) (src : TileId) (offset : Nat) (data : List Byte) (poison : Bool)
  | crownPoolAccess (c : CrownDie) (src : TileId) (addr : BitVec 35) (write : Option (List Byte × Bool)) (len : Nat) (ecc : LineEcc)
  | adapterWindowRead (c : CrownDie) (src : TileId) (addr : BitVec 35) (len : Nat)
  | crownRefreshWindow (c : CrownDie) (granule : Fin 32)
  | crownPatrolScrub (c : CrownDie) (line : BitVec 29) (corrected uncorrectable : Bool)
  -- Fulling and maintenance (03, 09, 14)
  | fullingJobPush (port : Port) (d : BodyDie) (data : W32)
  | fullingJobStart (d : BodyDie)
  | fullingComplete (a : ArrayId) (rounds : List FullRound)
  | fullingTimeout (a : ArrayId)
  | fulResultRead (port : Port) (d : BodyDie)
  | fulCommitArm (port : Port) (d : BodyDie) (data : W32)
  | fulCommitDisarm (port : Port) (d : BodyDie) (data : W32)
  | arrayRelease (a : ArrayId)
  | maintenanceStart (a : ArrayId)
  | pounceVisit (findings : List (ArrayId × Finding))
  -- Faults (14)
  | poisonReportArrive (p : PartIdx) (slot : SlotIdx) (step : W32)
  | repairBegin (p : PartIdx) (k : RepairKind)
  | repairTimeout (p : PartIdx)
  | faultLogAppend (d : DieIdx)
  | flipFenceResponse (p : PartIdx) (a : ArrayId)
  -- Forms, bolts, jobs (05, 09, 10)
  | formLoad (p : PartIdx) (image : List Byte)
  | boltLoadRequest (p : PartIdx) (boltId : W64)
  | boltData (port : BrimDie) (boltId : W64) (chunk : W32) (offset total : Nat) (data : List Byte)
  | boltPieceTimeout (p : PartIdx) (chunk : W32)
  | jobStart (p : PartIdx)
  | adapterUnload (p : PartIdx) (adapter : Fin 1024)
  -- Requests and steps (07, 08)
  | submit (port : BrimDie) (src : PeerAddr) (hdr : OspHdr) (f : SubmitFrag)
  | prefixLookupComplete (slot : SlotIdx)
  | coldFetchComplete (slot : SlotIdx) (block : Nat)
  | stepCut (p : PartIdx)
  | partialListArrive (p : PartIdx) (l : PartialList)
  | stepStaging (p : PartIdx)
  | stagingComplete (p : PartIdx)
  | messageRelease (p : PartIdx)
  | cancel (port : BrimDie) (src : PeerAddr) (hdr : OspHdr) (subSeq : W32)
  | reqKill (port : Port) (data : W32)
  | hotPromotionComplete (p : PartIdx) (page : Nat) (hot : Nat)
  | coldCopyComplete (p : PartIdx) (page : Nat) (coldSlot : Nat)
  -- Links (10)
  | flitReceive (l : LinkIdx) (n : LaneIdx) (f : Flit)
  | linkNak (l : LinkIdx) (n : LaneIdx) (seq : BitVec 16)
  | retryTimeout (l : LinkIdx) (n : LaneIdx)
  | laneSignalLoss (l : LinkIdx) (n : LaneIdx)
  | laneRetrainTimer (l : LinkIdx) (n : LaneIdx)
  | linkTrainingComplete (l : LinkIdx) (n : LaneIdx)
  | identityRecord (l : LinkIdx) (n : LaneIdx) (id : Identity)
  | timePing (l : LinkIdx) (n : LaneIdx) (value : BitVec 24)
  | timeEcho (l : LinkIdx) (n : LaneIdx) (value : BitVec 24) (arrival : BitVec 24) (turnaround : Nat)
  | latencyMeasureTimer (l : LinkIdx) (n : LaneIdx)
  | linkBarrier (l : LinkIdx) (arg : BitVec 24)
  | linkHold (l : LinkIdx) (arg : BitVec 24)
  | linkJobEnd (l : LinkIdx) (arg : BitVec 24)
  | linkTransferStart (p : PartIdx) (xfer : Nat)
  | linkJobWrite (l : LinkIdx) (h : LinkHdr) (data : List Byte) (badFlits : List Nat)
  | linkJobAck (l : LinkIdx) (h : LinkHdr)
  | linkStoreWrite (l : LinkIdx) (h : LinkHdr) (data : List Byte)
  | linkStoreReadReq (l : LinkIdx) (h : LinkHdr)
  | linkStoreReadResp (l : LinkIdx) (h : LinkHdr) (boltId : W64) (chunk : W32) (data : List Byte)
  | linkStoreRefusal (l : LinkIdx) (h : LinkHdr)
  | linkChannelWrite (port : Port) (c : Fin 64) (word : Fin 3) (data : W32)
  -- Service ports (10)
  | ethFrameReceive (port : BrimDie) (f : EthFrame)
  | arpRequest (port : BrimDie) (target : BitVec 32) (src : PeerAddr)
  | neighbourSolicitation (port : BrimDie) (target : BitVec 128) (src : PeerAddr)
  | statusRequest (port : BrimDie) (src : PeerAddr) (hdr : OspHdr) (subSeq : W32)
  | resync (port : BrimDie) (src : PeerAddr) (hdr : OspHdr) (replayFrom flags : W32)
  -- Laser modules (11)
  | moduleInserted (m : ModuleIdx) (eeprom : List Byte)
  | presenceDebounced (m : ModuleIdx)
  | laserOutputReached (m : ModuleIdx)
  | laserLocked (m : ModuleIdx)
  | moduleRemoved (m : ModuleIdx)
  | laserMonitorPoll (m : ModuleIdx) (r : LaserReading)
  | laserHourTick (m : ModuleIdx)
  | laserOff (port : Port) (m : ModuleIdx) (data : W32)
  | laserOn (port : Port) (m : ModuleIdx) (data : W32)
  | lasSpsrcWrite (port : Port) (b : BrimDie) (data : W32)
  -- Host interface (16)
  | endpointReset (c : EndpointCause)
  | bar2OutOfRange (offset : BitVec 30) (write : Bool)
  | sq0TailWrite (port : Port) (data : W32)
  | sq1TailWrite (port : Port) (data : W32)
  | hostSubmit (e : SqEntry)
  | hostSubmitBody (seq : W32) (body : SubmitBody) (tokens : List W32)
  | hostCancel (e : SqEntry)
  | hostStatus (e : SqEntry)
  | hostResume (e : SqEntry)
  | hostBoltData (e : SqEntry) (data : List Byte)
  | cqEntryWrite
  | cqHeadWrite (port : Port) (data : W32)
  | statusBlockWrite
  | sessionOpen (port : Port) (data : W32)
  | sessionClose (port : Port) (data : W32)
  | heartbeat (port : Port) (data : W32)
  | heartbeatStale
  | hostAccessError (addr : W64) (status : Byte)
  | orphanHoldExpiry (slot : SlotIdx)
  -- Counters (18)
  | counterSelectWrite (port : Port) (addr : DevAddr) (data : W32)
  | counterWrap (addr : DevAddr) (n : Fin 8) (events : Fin 11)
  | readerArm (port : Port) (data : W32)
  | readerDone
  -- Rows the table adds at its end
  | laneTrainingTimeout (l : LinkIdx) (n : LaneIdx)
  | overcurrentComparatorClear (r : Rail)
  | vlasInRange (b : BrimDie)
  | pllRecalibration (pll : Pll)
  | operatorEndsJob (p : PartIdx)
  deriving DecidableEq, Repr

end Sys2Proof
end

