-- ==== Sys2Proof/Decode.lean ====
section
/-!
DEFINITION. What a table word spells. No row of spec/opcode_table.json gives bits, so no word spells a command (log 1).
-/

namespace Sys2Proof

/-- The command that a word of `nbits` bits spells by the opcode table's bits: none, since no row gives any. -/
def decodeTableWord (_nbits _w : Nat) : Option Instr := none

end Sys2Proof
end

