-- ==== Sys2Proof/Config.lean ====
section
/-!
DEFINITION. What the spec leaves open, as constants without a body: no proof can see a value of them, so a statement
holds whatever they are. `State.fresh` counts the values drawn, so every draw is a new argument (log 5).
-/

namespace Sys2Proof.Config

/-- A value the spec does not state: draw number `n`. -/
opaque freeValue : Nat → Nat

/-- A choice the spec leaves between acting and not acting: draw number `n`. -/
opaque freeChoice : Nat → Bool

/-- What an element of a compare holds where the predicate is true or false, by format code; the spec gives CMP its
predicates and no encoding of its result. -/
opaque cmpResult : Nat → Bool → Nat

/-- Whether SEL takes an element of its first source as true, by format code. -/
opaque selTrue : Nat → Nat → Bool

/-- Whether ROT moves lane l to lane l + IMM (true) or to lane l - IMM (false). -/
opaque rotUp : Bool

/-- The place, among the entries of a complete group, of the token that R254 states no rank or weight for: a NaN among the entries, or two
infinities on top. It is a function of what R256 names: the request's fields that choose, SEED, the position, the tokens before it,
and the entries. -/
opaque oddToken : List Nat → Nat → Nat → List Nat → List (Nat × Nat) → Nat

/-- The 5 SECDED check bits that a byte of a bowstring frame is sent with (R208); the spec names no code. -/
opaque bowCheck : Nat → Nat

/-- The SHA-384 hash of each of the four vendor keys that the ROM holds (R454), byte by byte; the spec prints no key. -/
opaque vendorHash : Nat → List Nat

/-- Where in the range of a cold store a cold slot of a partition lies (R282); the spec gives the slot no address. -/
opaque coldPlace : Nat → Nat → Nat

/-- Which byte of the bolt cache's objects, laid end to end, an offset of the cache's range on a Crown die holds (R305), by the objects held;
beyond their end it is no object's. The spec gives the objects no addresses and the striping no unit. -/
opaque cachePlace : List (Nat × Nat) → Nat → Nat → Nat

/-- ln N of a remote diode's measured current ratio N (R499), in units of 0.00001, by Brim die and diode: the Conformer measures N, and no
register shows it. -/
opaque lnRatio : Nat → Nat → Nat

/-- The voltage on the SNS_VREF pin of a Brim die (R501), in µV. -/
opaque snsVref : Nat → Nat

/-- Which of two equally near steps a rounded trim takes (R406): the spec rounds to a step and states no tie. -/
opaque tieUp : Int → Int → Bool

/-- The cycles in 1 ms of a PLL whose rate the spec does not state (R206): 0 link PHY, 1 Crown interface, 2 PCIe, 3 Ethernet. -/
opaque pllNominal : Nat → Nat

end Sys2Proof.Config
end

