-- ==== Sys2Proof/Machine/Bits.lean ====
section
/-!
DEFINITION. Bit fields of words, little-endian bytes (R5), sign extension, and saturating counters.
-/

namespace Sys2Proof.Machine

/-- The value of the `len` bits of `x` from bit `lo` up. -/
def fld (x lo len : Nat) : Nat := x / 2 ^ lo % 2 ^ len

/-- `x` with the `len` bits from bit `lo` up replaced by the low bits of `v`. -/
def putFld (x lo len v : Nat) : Nat := x - fld x lo len * 2 ^ lo + v % 2 ^ len * 2 ^ lo

/-- A bit of a number. -/
def bit (x i : Nat) : Bool := x / 2 ^ i % 2 == 1

/-- 1 for true, 0 for false. -/
def boolN (b : Bool) : Nat := if b then 1 else 0

/-- The number that little-endian bytes spell (R5). -/
def leNat : List Byte → Nat
  | [] => 0
  | b :: r => b.toNat + 256 * leNat r

/-- The number that big-endian bytes spell. -/
def beNat (l : List Byte) : Nat := leNat l.reverse

/-- The low `n` bytes of a number, little-endian (R5). -/
def leBytes : Nat → Nat → List Byte
  | 0, _ => []
  | n + 1, v => BitVec.ofNat 8 v :: leBytes n (v / 256)

/-- The `n` bytes of a byte list from `off` up, zero where the list ends. -/
def sliceB (l : List Byte) (off n : Nat) : List Byte :=
  let r := (l.drop off).take n
  r ++ List.replicate (n - r.length) 0

/-- The little-endian number of `n` bytes at `off` (R5). -/
def leAt (l : List Byte) (off n : Nat) : Nat := leNat (sliceB l off n)

/-- The two's-complement value of the low `n` bits of `x`. -/
def sext (n x : Nat) : Int :=
  let y := x % 2 ^ n
  if y < 2 ^ (n - 1) then (y : Int) else (y : Int) - (2 ^ n : Nat)

/-- The low `n` bits of an integer in two's complement. -/
def toBits (n : Nat) (v : Int) : Nat := (v % (2 ^ n : Nat)).toNat

/-- An integer held to `lo` to `hi`. -/
def clampI (lo hi v : Int) : Int := if v < lo then lo else if hi < v then hi else v

/-- A counter field of `len` bits that saturates. -/
def satAddN (len a b : Nat) : Nat := Nat.min (2 ^ len - 1) (a + b)

/-- `a / b` rounded up. -/
def ceilDiv (a b : Nat) : Nat := (a + b - 1) / b

/-- The distance from `a` up to `b` modulo 2³². -/
def dist32 (a b : Nat) : Nat := (b % 2 ^ 32 + 2 ^ 32 - a % 2 ^ 32) % 2 ^ 32

end Sys2Proof.Machine
end

