-- ==== Sys2Proof/Machine/RegNames.lean ====
section
/-!
DEFINITION. The names of the device's registers, one constructor for each register of the register tables of the
section files (an indexed register, NAME_n, is one name and an index).
-/

namespace Sys2Proof.Machine

/-- A register name. -/
inductive Reg where
  /-- TIL_ID, R167. -/
  | tilId
  /-- TIL_STATUS, R167. -/
  | tilStatus
  /-- TIL_OPIDX, R167. -/
  | tilOpidx
  /-- TIL_DMA_STATUS, R167. -/
  | tilDmaStatus
  /-- TIL_TICKET, R390. -/
  | tilTicket
  /-- TIL_METER, R198. -/
  | tilMeter
  /-- TIL_LAND, R152. -/
  | tilLand
  /-- SCP_EVENTS, R140. -/
  | scpEvents
  /-- SCP_CONFLICT, R140. -/
  | scpConflict
  /-- SCP_COLLIDE, R141. -/
  | scpCollide
  /-- SCP_ECC, R143. -/
  | scpEcc
  /-- TIL_BOUND_LO, R149. -/
  | tilBoundLo
  /-- TIL_BOUND_HI, R149. -/
  | tilBoundHi
  /-- TIL_BOUND_LEN, R149. -/
  | tilBoundLen
  /-- ARR_STATE, R127. -/
  | arrState
  /-- ARR_MAP0, R131. -/
  | arrMap0
  /-- ARR_MAP1, R131. -/
  | arrMap1
  /-- ARR_BANK, R131. -/
  | arrBank
  /-- ARR_STAGE, R131. -/
  | arrStage
  /-- ARR_GOOD, R128. -/
  | arrGood
  /-- ARR_EVENTS, R108. -/
  | arrEvents
  /-- ARR_MISMATCH, R121. -/
  | arrMismatch
  /-- TIL_DESC, R148. -/
  | tilDesc
  /-- MSH_PART, R168. -/
  | mshPart
  /-- MSH_BORDER, R168. -/
  | mshBorder
  /-- MSH_EDGE, R163. -/
  | mshEdge
  /-- MSH_DISCARD, R166. -/
  | mshDiscard
  /-- MSH_TFENCE, R438. -/
  | mshTfence
  /-- MSH_BEDGE, R169. -/
  | mshBedge
  /-- BOW_STATUS, R228. -/
  | bowStatus
  /-- BOW_TIME_LO, R210. -/
  | bowTimeLo
  /-- BOW_TIME_HI, R210. -/
  | bowTimeHi
  /-- BOW_SKIP_CMD, R226. -/
  | bowSkipCmd
  /-- BOW_EMERG, R228. -/
  | bowEmerg
  /-- BOW_EMERG_SRC, R228. -/
  | bowEmergSrc
  /-- BOW_FREEZE_AT_LO, R232. -/
  | bowFreezeAtLo
  /-- BOW_FREEZE_AT_HI, R232. -/
  | bowFreezeAtHi
  /-- BOW_FREEZE_CMD, R232. -/
  | bowFreezeCmd
  /-- BOW_FREEZE_LAST_LO, R232. -/
  | bowFreezeLastLo
  /-- BOW_FREEZE_LAST_HI, R232. -/
  | bowFreezeLastHi
  /-- BOW_SLOT_ERR, R213. -/
  | bowSlotErr
  /-- BOW_STEP, R217. -/
  | bowStep
  /-- BOW_HOLDLIM, R221. -/
  | bowHoldlim
  /-- BOW_LASTHOLD, R219. -/
  | bowLasthold
  /-- BOW_JOB, R223. -/
  | bowJob
  /-- BOW_TRIM, R409. -/
  | bowTrim
  /-- REQ_STATUS, R236. -/
  | reqStatus
  /-- REQ_KILL, R262. -/
  | reqKill
  /-- REQ_ADMIT_LO, R237. -/
  | reqAdmitLo
  /-- REQ_ADMIT_HI, R237. -/
  | reqAdmitHi
  /-- REQ_SHARE, R233. -/
  | reqShare
  /-- REQ_PTGT, R245. -/
  | reqPtgt
  /-- REQ_OCC, R242. -/
  | reqOcc
  /-- REQ_LAST, R245. -/
  | reqLast
  /-- REQ_REFUSE, R241. -/
  | reqRefuse
  /-- REQ_DLMISS, R251. -/
  | reqDlmiss
  /-- REQ_EVENTS, R247. -/
  | reqEvents
  /-- REQ_SLOT, R236. -/
  | reqSlot
  /-- SMP_STATUS, R253. -/
  | smpStatus
  /-- SMP_LOOKUP, R257. -/
  | smpLookup
  /-- SMP_EVENTS, R252. -/
  | smpEvents
  /-- SMP_DRAWN_LO, R254. -/
  | smpDrawnLo
  /-- SMP_DRAWN_HI, R254. -/
  | smpDrawnHi
  /-- SMP_PROPOSED_LO, R259. -/
  | smpProposedLo
  /-- SMP_PROPOSED_HI, R259. -/
  | smpProposedHi
  /-- SMP_ACCEPTED_LO, R259. -/
  | smpAcceptedLo
  /-- SMP_ACCEPTED_HI, R259. -/
  | smpAcceptedHi
  /-- SMP_LISTS, R252. -/
  | smpLists
  /-- KVP_EVENTS, R283. -/
  | kvpEvents
  /-- KVP_LOWATER, R283. -/
  | kvpLowater
  /-- KVP_GEOM, R265. -/
  | kvpGeom
  /-- KVP_TOTAL, R270. -/
  | kvpTotal
  /-- KVP_FREE, R283. -/
  | kvpFree
  /-- KVP_IDLE, R283. -/
  | kvpIdle
  /-- KVP_HOT, R278. -/
  | kvpHot
  /-- KVP_LAYERS, R265. -/
  | kvpLayers
  /-- KVP_CW_ZERO, R273. -/
  | kvpCwZero
  /-- PFX_CTRL, R290. -/
  | pfxCtrl
  /-- PFX_BASE, R288. -/
  | pfxBase
  /-- PFX_USED, R288. -/
  | pfxUsed
  /-- PFX_EVENTS, R293. -/
  | pfxEvents
  /-- PFX_HIT_LO, R291. -/
  | pfxHitLo
  /-- PFX_HIT_HI, R291. -/
  | pfxHitHi
  /-- PFX_EPOCH, R285. -/
  | pfxEpoch
  /-- FUL_STATUS, R309. -/
  | fulStatus
  /-- FUL_EVENTS, R309. -/
  | fulEvents
  /-- FUL_JOB_SRC_LO, R309. -/
  | fulJobSrcLo
  /-- FUL_JOB_SRC_HI, R309. -/
  | fulJobSrcHi
  /-- FUL_JOB_TGT, R309. -/
  | fulJobTgt
  /-- FUL_JOB_PUSH, R309. -/
  | fulJobPush
  /-- FUL_RESULT, R309. -/
  | fulResult
  /-- FUL_COMMIT_STEP, R321. -/
  | fulCommitStep
  /-- FUL_COMMIT_CTRL, R321. -/
  | fulCommitCtrl
  /-- FUL_GEN, R319. -/
  | fulGen
  /-- FUL_STAGED, R309. -/
  | fulStaged
  /-- LNK_EVENTS, R337. -/
  | lnkEvents
  /-- LNK_CFG, R347. -/
  | lnkCfg
  /-- LNK_STATE, R344. -/
  | lnkState
  /-- LNK_PARTNER_LO, R346. -/
  | lnkPartnerLo
  /-- LNK_PARTNER_HI, R346. -/
  | lnkPartnerHi
  /-- LNK_PINFO, R346. -/
  | lnkPinfo
  /-- LNK_LAT, R345. -/
  | lnkLat
  /-- LNK_ERR, R335. -/
  | lnkErr
  /-- LNK_RETRY, R336. -/
  | lnkRetry
  /-- LNK_CHAN, R349. -/
  | lnkChan
  /-- LNK_CWIN, R349. -/
  | lnkCwin
  /-- LNK_CNOTE, R349. -/
  | lnkCnote
  /-- ETH_CTRL, R356. -/
  | ethCtrl
  /-- ETH_STATUS, R356. -/
  | ethStatus
  /-- ETH_MAC_LO, R357. -/
  | ethMacLo
  /-- ETH_MAC_HI, R357. -/
  | ethMacHi
  /-- ETH_IPV4, R357. -/
  | ethIpv4
  /-- ETH_IPV6, R357. -/
  | ethIpv6
  /-- ETH_UDP, R357. -/
  | ethUdp
  /-- ETH_CHANNELS, R360. -/
  | ethChannels
  /-- ETH_DROP_HDR, R357. -/
  | ethDropHdr
  /-- ETH_DROP_OSP, R361. -/
  | ethDropOsp
  /-- ETH_EVENTS, R356. -/
  | ethEvents
  /-- LAS_EVENTS, R380. -/
  | lasEvents
  /-- LAS_SPSRC, R383. -/
  | lasSpsrc
  /-- LAS_CTRL, R384. -/
  | lasCtrl
  /-- LAS_STATE, R380. -/
  | lasState
  /-- LAS_HOURS, R378. -/
  | lasHours
  /-- LAS_EQHOURS, R378. -/
  | lasEqhours
  /-- LAS_RISE, R377. -/
  | lasRise
  /-- LAS_TCASE, R377. -/
  | lasTcase
  /-- LAS_OPT0, R377. -/
  | lasOpt0
  /-- LAS_OPT1, R377. -/
  | lasOpt1
  /-- PWR_STATUS, R403. -/
  | pwrStatus
  /-- PWR_DEV, R385. -/
  | pwrDev
  /-- PWR_INPUT, R395. -/
  | pwrInput
  /-- PWR_EVENTS, R399. -/
  | pwrEvents
  /-- PWR_ALLOT, R385. -/
  | pwrAllot
  /-- PWR_BASE, R385. -/
  | pwrBase
  /-- PWR_PLAN, R387. -/
  | pwrPlan
  /-- PWR_MEAS, R393. -/
  | pwrMeas
  /-- PWR_K, R394. -/
  | pwrK
  /-- PWR_WAIT, R391. -/
  | pwrWait
  /-- THM_STATUS, R396. -/
  | thmStatus
  /-- THM_LIMITS, R401. -/
  | thmLimits
  /-- THM_TH, R400. -/
  | thmTh
  /-- THM_TH_LIM, R400. -/
  | thmThLim
  /-- THM_BODY, R400. -/
  | thmBody
  /-- THM_CROWN, R400. -/
  | thmCrown
  /-- PWR_DIE_K, R390. -/
  | pwrDieK
  /-- PWR_DIE_CORE, R398. -/
  | pwrDieCore
  /-- PWR_DIE_ARR, R398. -/
  | pwrDieArr
  /-- PWR_DIE_OC, R399. -/
  | pwrDieOc
  /-- THM_DIE, R402. -/
  | thmDie
  /-- CNF_STATUS, R411. -/
  | cnfStatus
  /-- CNF_MODE, R419. -/
  | cnfMode
  /-- CNF_EVENTS, R415. -/
  | cnfEvents
  /-- CNF_LASTFAIL, R415. -/
  | cnfLastfail
  /-- CNF_FAILS, R415. -/
  | cnfFails
  /-- CNF_PERIOD, R412. -/
  | cnfPeriod
  /-- CNF_BANDGAP, R405. -/
  | cnfBandgap
  /-- CNF_DIODE, R416. -/
  | cnfDiode
  /-- CNF_DIE_STATUS, R413. -/
  | cnfDieStatus
  /-- CNF_DIE_BOWTRIM, R409. -/
  | cnfDieBowtrim
  /-- CNF_DIE_PLL, R417. -/
  | cnfDiePll
  /-- CNF_DIE_ARRAY, R413. -/
  | cnfDieArray
  /-- FLT_STATUS, R442. -/
  | fltStatus
  /-- FLT_CLASS, R442. -/
  | fltClass
  /-- FLT_POUNCE, R425. -/
  | fltPounce
  /-- FLT_REC, R442. -/
  | fltRec
  /-- FLT_BSTATUS, R442. -/
  | fltBstatus
  /-- FLT_BCLASS, R442. -/
  | fltBclass
  /-- FLT_REPAIRLIM, R437. -/
  | fltRepairlim
  /-- FLT_HEAD, R442. -/
  | fltHead
  /-- FLT_LOST, R442. -/
  | fltLost
  /-- FLT_REPLAY, R430. -/
  | fltReplay
  /-- FLT_BPOUNCE, R425. -/
  | fltBpounce
  /-- FLT_BREC, R442. -/
  | fltBrec
  /-- FLT_LOG, R442. -/
  | fltLog
  /-- BOOT_ID, R469. -/
  | bootId
  /-- BOOT_BID, R469. -/
  | bootBid
  /-- BOOT_ROLE, R444. -/
  | bootRole
  /-- BOOT_STATUS, R450. -/
  | bootStatus
  /-- BOOT_COMP, R462. -/
  | bootComp
  /-- BOOT_SERIAL_LO, R469. -/
  | bootSerialLo
  /-- BOOT_SERIAL_HI, R469. -/
  | bootSerialHi
  /-- BOOT_CENSUS, R451. -/
  | bootCensus
  /-- BOOT_FW_VER, R455. -/
  | bootFwVer
  /-- BOOT_WDOG, R464. -/
  | bootWdog
  /-- BOOT_RESET, R531. -/
  | bootReset
  /-- BOOT_GOOD, R451. -/
  | bootGood
  /-- BOOT_UPD_CMD, R465. -/
  | bootUpdCmd
  /-- BOOT_UPD_ADDR, R465. -/
  | bootUpdAddr
  /-- BOOT_UPD_LEN, R465. -/
  | bootUpdLen
  /-- BOOT_UPD_STATUS, R465. -/
  | bootUpdStatus
  /-- BOOT_OWNER, R469. -/
  | bootOwner
  /-- BOOT_OWNER_BURN, R469. -/
  | bootOwnerBurn
  /-- HIF_STATUS, R486. -/
  | hifStatus
  /-- HIF_SESSION_VER, R486. -/
  | hifSessionVer
  /-- HIF_SESSION_CMD, R486. -/
  | hifSessionCmd
  /-- HIF_HEARTBEAT, R488. -/
  | hifHeartbeat
  /-- HIF_APERTURE_LO, R473. -/
  | hifApertureLo
  /-- HIF_APERTURE_HI, R473. -/
  | hifApertureHi
  /-- HIF_CQ_BASE_LO, R486. -/
  | hifCqBaseLo
  /-- HIF_CQ_BASE_HI, R486. -/
  | hifCqBaseHi
  /-- HIF_SB_BASE_LO, R485. -/
  | hifSbBaseLo
  /-- HIF_SB_BASE_HI, R485. -/
  | hifSbBaseHi
  /-- HIF_RINGCFG, R486. -/
  | hifRingcfg
  /-- HIF_SQ0_TAIL, R476. -/
  | hifSq0Tail
  /-- HIF_SQ1_TAIL, R476. -/
  | hifSq1Tail
  /-- HIF_SQ_HEAD, R479. -/
  | hifSqHead
  /-- HIF_CQ_HEAD, R482. -/
  | hifCqHead
  /-- HIF_CQ_TAIL, R482. -/
  | hifCqTail
  /-- HIF_LAST_ACC, R478. -/
  | hifLastAcc
  /-- HIF_LAST_EMIT, R480. -/
  | hifLastEmit
  /-- HIF_HB_MS, R488. -/
  | hifHbMs
  /-- HIF_ORPHAN_S, R491. -/
  | hifOrphanS
  /-- HIF_EVENTS, R494. -/
  | hifEvents
  /-- HIF_ERRCNT, R475. -/
  | hifErrcnt
  /-- HIF_PARKED, R490. -/
  | hifParked
  /-- SNS_CTRL, R501. -/
  | snsCtrl
  /-- SNS_STATUS, R507. -/
  | snsStatus
  /-- SNS_EVENTS, R506. -/
  | snsEvents
  /-- SNS_TRIM, R497. -/
  | snsTrim
  /-- SNS_SEQ, R502. -/
  | snsSeq
  /-- SNS_ENT, R498. -/
  | snsEnt
  /-- SNS_LIM, R505. -/
  | snsLim
  /-- SNS_REL, R506. -/
  | snsRel
  /-- SNS_RES, R497. -/
  | snsRes
  /-- CTR_CYCLE_LO, R510. -/
  | ctrCycleLo
  /-- CTR_CYCLE_HI, R510. -/
  | ctrCycleHi
  /-- CTR_STATUS, R511. -/
  | ctrStatus
  /-- CTR_SEL, R512. -/
  | ctrSel
  /-- CTR_VAL_LO, R512. -/
  | ctrValLo
  /-- CTR_VAL_HI, R512. -/
  | ctrValHi
  /-- CTR_SH_CYCLE_LO, R516. -/
  | ctrShCycleLo
  /-- CTR_SH_CYCLE_HI, R516. -/
  | ctrShCycleHi
  /-- CTR_SH_LO, R516. -/
  | ctrShLo
  /-- CTR_SH_HI, R516. -/
  | ctrShHi
  /-- CTR_LAY_A, R515. -/
  | ctrLayA
  /-- CTR_LAY_B, R515. -/
  | ctrLayB
  /-- CTR_RD_CTRL, R517. -/
  | ctrRdCtrl
  /-- CTR_RD_STATUS, R517. -/
  | ctrRdStatus
  /-- CTR_RD_BUF, R520. -/
  | ctrRdBuf
  /-- CTR_RD_COUNT, R520. -/
  | ctrRdCount
  /-- CTR_RD_LIST, R520. -/
  | ctrRdList
  deriving DecidableEq, Repr

end Sys2Proof.Machine
end

