-- ==== Sys2Proof/Machine/State.lean ====
section
/-!
DEFINITION. The state of the Clesavo as plain data: its registers, its one memory, its tiles and arrays, its
partitions with their schedules, its request table, its KV page sets and prefix index, its links, service ports and
laser modules, its power, thermal, calibration and boot state, its host session, its fault logs, its outputs, and the
queue of commands that wait.
-/

namespace Sys2Proof.Machine

/-- A sparse table: what is not listed has the table's default value. -/
abbrev Tbl (κ α : Type) := List (κ × α)

/-! ## Registers and memory -/

/-- A register instance: the die, the region of a device address (R27 to R32), the register and its index n. -/
structure RegKey where
  die    : Nat
  region : Nat
  reg    : Reg
  idx    : Nat
  deriving DecidableEq, Repr

/-! ## Tiles and arrays -/

/-- The tag of a vector register (R191). -/
structure Tag where
  slot   : Nat
  pos    : Nat
  wgen   : Nat
  poison : Bool
  deriving DecidableEq, Repr

/-- A bank occupation by an engine access of the running step (R138, R140). -/
structure Access where
  cycle : Nat
  bank  : Nat
  row   : Nat
  write : Bool
  issue : Nat
  opidx : Nat
  deriving DecidableEq, Repr

/-- A transfer of a tile in flight (R151, R153). `landed` once its last byte is written; `linkXfer` is the number
of the link transfer it becomes when its destination is an out-window (R350). -/
structure Xfer where
  id     : Nat
  src    : DevAddr
  dst    : DevAddr
  len    : Nat
  land   : BitVec 16
  opidx  : Nat
  desc   : Nat
  ordered : Bool
  landed : Bool
  deriving DecidableEq, Repr

/-- A response of a Crown controller on its way to a tile (R273, R277): the device address read, the bytes, and whether
they are poisoned. -/
structure Resp where
  addr   : Nat
  bytes  : List Byte
  poison : Bool
  deriving DecidableEq, Repr

/-- A norm window (R75, R77): the layer it finishes, the mean in units of 1/256 of L, the sample count. -/
structure NormWindow where
  used  : Bool
  layer : Nat
  mu    : Int
  count : Nat
  deriving DecidableEq, Repr

/-- A norm sample staged in the running step (R80). -/
structure NormSample where
  window : Nat
  slot   : Nat
  opidx  : Nat
  level  : Int
  deriving DecidableEq, Repr

/-- An engine write that a read issued in its own cycle or earlier does not see (R138): the cycle it was issued in, the
device address, the bytes, and whether they are poisoned. -/
structure PendWrite where
  cycle  : Nat
  addr   : Nat
  bytes  : List Byte
  poison : Bool
  deriving DecidableEq, Repr

/-- Bytes that a row collision keeps from a transfer of the tile (R141): what the transfer reads at an address, or what stays there
after the transfer's write; with the words (address / 8) of them that are poisoned. -/
structure Shield where
  xfer  : Nat
  addr  : Nat
  bytes : List Byte
  bad   : List Nat
  deriving DecidableEq, Repr

/-- A result that a vector operation releases to its register at its contract cycle (R187, R193): the bytes, none from an operation
that sets the tag alone; the tag (R191), of which POISON alone is written where `keep`; whether the bytes derive from a saturated
pass output (R107); and their element format, if they are computed. -/
structure VRes where
  reg   : Nat
  ready : Nat
  bytes : Option (List Byte)
  tag   : Tag
  keep  : Bool
  sat   : Bool
  fmt   : Option VFmt
  deriving DecidableEq, Repr

/-- The output slice of a token that a window's samples cover in the running step (R75): the token, the operation that sampled its
last swatch, the sum of squares so far as a binary32 word, whether one of its swatches was poisoned (R79), and whether it is a gradient
tensor's (R82). -/
structure Slice where
  slot   : Nat
  pos    : Nat
  opidx  : Nat
  sum    : Nat
  poison : Bool
  grad   : Bool
  deriving DecidableEq, Repr

/-- A swatch that the tile quantised in the running step (R81). -/
structure Emitted where
  layer : Nat
  slot  : Nat
  addr  : Nat
  deriving DecidableEq, Repr

/-- A tile. Its scratchpad, its arrays' cells and its descriptor memory lie in the device memory and the register
file at their device addresses. -/
structure Tile where
  vr        : Tbl Nat (List Byte)
  tags      : Tbl Nat Tag
  satRegs   : List Nat
  vpend     : List VRes
  vfmt      : Tbl Nat VFmt
  grads     : Tbl Nat (VFmt × Tag)
  slices    : Tbl Nat Slice
  emits     : List Emitted
  nextOp    : Nat
  opTickets   : Nat
  opFrac      : Nat
  fullTickets : Nat
  fullFrac    : Nat
  meter     : Nat
  waitDraw  : Bool
  lastOut   : Tbl Nat (Option Nat)
  lastMain  : Tbl Nat Nat
  reports   : List Nat
  delta     : Nat
  slackUse  : Nat
  resUse    : Nat
  overSlack : Bool
  vecFree   : Nat
  dmaFree   : Nat
  access    : List Access
  waitq     : List Instr
  ended     : Bool
  ltile     : Option Nat
  windows   : List NormWindow
  samples   : List NormSample
  nwHits    : List (Nat × Nat)
  residues  : List Nat
  fenced    : Bool
  xfers     : List Xfer
  nextXfer  : Nat
  reported  : List Nat
  inbuf     : List Resp
  mapStage  : List (Bool × Nat × W32)
  bankStage : Option W32
  heldNotes : List Nat
  wpend     : List PendWrite
  shields   : List Shield
  eccPend   : List Nat
  deriving DecidableEq, Repr

/-- The states of R127. -/
inductive ArrState where
  | spare | fulling | staged | mapped | maint | fenced
  deriving DecidableEq, Repr

/-- A pass in an array between its launch and its output (R101). While a retry or the repeat waits inside it (R102): the draws already
made, and what the pass has met. -/
structure Pass where
  isNap   : Bool
  g32     : Bool
  ops     : PassOps
  opidx   : Nat
  segs    : Nat
  fires   : Bool
  tag     : Tag
  fmt     : Nat
  data    : List (List Byte)
  launch  : Nat
  ready   : Nat
  draw    : Nat
  paid    : Nat
  met     : Option PassEnv
  deriving DecidableEq, Repr

/-- A physical array beyond its cells: its state (R127), the pass in flight, the wide accumulators and residues that
run through a main pass and its nap pass (R112, R114, R421), the output register (R103), and the trims last accepted: offset and gain of
each column converter in its two modes, in steps of 0.25 LSB and of 1/800, and of each row's DAC levels in steps of 0.01 (R406). -/
structure Arr where
  st         : ArrState
  suspect    : Bool
  cause      : Byte
  busyUntil  : Nat
  passes     : List Pass
  extra      : Nat
  lastSwatch : List (List Byte)
  lastPoison : Bool
  acc        : List Int
  satCols    : List Nat
  accPoison  : Bool
  satFlag    : Bool
  out        : List (BitVec 16)
  outTag     : Tag
  outSat     : Bool
  outReady   : Nat
  transients : List Nat
  calTime    : Nat
  calTemp    : Int
  trim8      : List (Int × Int)
  trim6      : List (Int × Int)
  dacTrim    : List (List Int)
  remapOf    : Option Nat
  deriving DecidableEq, Repr

/-! ## Fulling controllers -/

/-- What a fulling serves: a job pushed through FUL_JOB_PUSH (R309), chunk `chunk` of a partition's bolt load (R308), the copy
of array `src` of a maintenance remap (R134), a refulling of an array in MAINT (R425), the replacement of array `old` in a
partition in repair hold (R436), the image of array `old` of tile region `from'` for a logical tile that moves (R439), or nothing any
more: a bolt load that has failed, so that the array is released once it is fulled (R302). -/
inductive FulWhy where
  | pushed
  | bolt (p chunk : Nat)
  | remap (src : Nat)
  | refull
  | repair (p old : Nat)
  | move (p : Nat) (from' : Fin 512) (old : Nat)
  | dropped
  deriving DecidableEq, Repr

/-- A queued or running fulling job (R309); `start` is when a running one began and `paid` how many of its ticket draws are made
(R126). -/
structure FulJob where
  tile   : Fin 512
  phys   : Fin 64
  fmt    : Nat
  src    : DevAddr
  tag    : BitVec 16
  why    : FulWhy
  start  : Nat
  paid   : Nat
  deriving DecidableEq, Repr

/-- A posted fulling result (FUL_RESULT). -/
structure FulResult where
  tag     : BitVec 16
  rounds  : Nat
  outcome : Nat
  deriving DecidableEq, Repr

/-! ## Fault records -/

/-- A fault record (R441), field by field. -/
structure FaultRec where
  code   : BitVec 16
  flags  : Byte
  part   : Option Nat
  die    : Nat
  unit   : Nat
  region : Nat
  opidx  : Nat
  step   : W32
  time   : Nat
  detail : Nat
  deriving DecidableEq, Repr

/-! ## Dies -/

/-- A calibration that runs on an array (R408): the cycle count of its die up to which its activity is settled, and the cycles of activity
that its tickets are drawn for. -/
structure CalRun where
  region : Nat
  phys   : Nat
  last   : Nat
  act    : Nat
  deriving DecidableEq, Repr

/-- Per-die state outside registers: the emergency latch and throttle each die holds (R225, R228), its copy of the
time (R210), its cycle counts (R510), whether it runs, its trip latch (R402), its fulling queue (R309) with the jobs that the serving
assist has not pushed into it yet, its calibration queue and the calibrations that run (R413), its local fault log (R442), and whether the frame of
the slot now sent reached it uncorrectable (R211); `eccFixed` counts the lines that a Crown controller corrected (R422). -/
structure Die where
  alive     : Bool
  emerg     : Bool
  emergOn   : Bool
  skipDiv   : Nat
  skipM     : Nat
  timeCopy  : Nat
  cycles    : Nat
  shCycles  : Nat
  skipped   : Nat
  frozen    : Bool
  tripped   : Bool
  railsOn   : Bool
  full      : List FulJob
  queue     : List FulJob
  backlog   : List FulJob
  results   : List FulResult
  calQueue  : List (Nat × Nat)
  calRun    : List CalRun
  flog      : Tbl Nat FaultRec
  fnext     : Nat
  toCentral : List FaultRec
  edgeRetry : Nat
  eccFixed  : Nat
  deaf      : Bool
  deriving DecidableEq, Repr

/-! ## Forms -/

/-- A step shape (R180). -/
structure Shape where
  d        : Nat
  maxDraft : Nat
  p        : Nat
  length   : Nat
  planEnd  : Nat
  slack    : Nat
  reserve  : Nat
  sampleAt : Nat
  deriving DecidableEq, Repr

/-- A layer numerics record (R83). -/
structure Numerics where
  napSlots  : Nat
  napFactor : Nat
  satPolicy : Nat
  nwPolicy  : Nat
  nwShift   : Nat
  threshold : Nat
  deriving DecidableEq, Repr

/-- A tile directory entry (R176). -/
structure TileDir where
  die  : Nat
  home : Nat
  alt1 : Nat
  alt2 : Nat
  deriving DecidableEq, Repr

/-- A bound image entry (R179). -/
structure BoundImg where
  kind   : Nat
  target : Nat
  region : Nat
  offset : Nat
  length : Nat
  deriving DecidableEq, Repr

/-- A scratchpad map region (R196). -/
structure ScpRegion where
  start  : Nat
  len    : Nat
  shared : Bool
  hotKv  : Bool
  deriving DecidableEq, Repr

/-- A 16-byte operation word of a step program (R182): scheduled cycle, opcode, operand bytes 4 to 15. -/
structure FormOp where
  cycle   : Nat
  opcode  : Nat
  oper    : List Byte
  deriving DecidableEq, Repr

/-- A patch entry (R202). -/
structure Patch where
  ltile    : Nat
  shape    : Nat
  target   : Nat
  index    : Nat
  quantity : Nat
  lsb      : Nat
  width    : Nat
  draft    : Nat
  prefill  : Bool
  slot     : Nat
  addend   : Int
  mult     : Nat
  deriving DecidableEq, Repr

/-- A traffic plan entry (R200). -/
structure Traffic where
  shape   : Nat
  kind    : Nat
  object  : Nat
  dir     : Nat
  own     : Nat
  transit : Nat
  deriving DecidableEq, Repr

/-- A ticket plan entry (R197). -/
structure TicketPlan where
  ltile : Nat
  shape : Nat
  grant : Nat
  full  : Nat
  deriving DecidableEq, Repr

/-- One logical tile of a form: its directory entry, programs by shape, descriptor images, bound images, scratchpad
map and array request. -/
structure FormTile where
  dir      : TileDir
  programs : List (List FormOp)
  descs    : List (List Byte)
  bounds   : List BoundImg
  scpMap   : List ScpRegion
  arrays   : List (Option Nat)
  deriving DecidableEq, Repr

/-- A loaded form (R171 to R203). -/
structure Form where
  formId     : W64
  fmtVersion : Nat
  contract   : Nat
  calib      : Bool
  units      : Nat
  unitBase   : Nat
  maxContext : Nat
  vocab      : Nat
  linkLatMax : Nat
  keyId      : Nat
  shapes     : List Shape
  layers     : List Numerics
  tiles      : List FormTile
  tickets    : List TicketPlan
  traffic    : List Traffic
  patches    : List Patch
  detok      : List (List Byte)
  deriving DecidableEq, Repr

/-! ## Bolts -/

/-- A manifest header (R295) with its chunk table (R297). -/
structure Chunk where
  type   : Nat
  fmt    : Nat
  larray : Nat
  layer  : Nat
  target : Nat
  page   : Nat
  len    : Nat
  digest : List Byte
  res    : Nat
  deriving DecidableEq, Repr

/-- A verified bolt manifest. -/
structure Bolt where
  kind     : Nat
  formId   : W64
  boltId   : W64
  parentId : W64
  wpages   : Nat
  adpPages : Nat
  rank     : Nat
  adapter  : Nat
  tenant   : Nat
  chunks   : List Chunk
  deriving DecidableEq, Repr

/-- A bolt load in progress (R300 to R303): the manifest once it is verified, how often each chunk failed its digest (R301),
the chunks that are verified and those whose array is STAGED or whose slice is written, the next chunk to request, the page sets
an adapter takes (R312), and the array that each type 1 chunk goes to. -/
structure BoltLoad where
  boltId    : W64
  bolt      : Option Bolt
  failures  : Tbl Nat Nat
  verified  : List Nat
  done      : List Nat
  nextAsk   : Nat
  adpSets   : List Nat
  arrays    : Tbl Nat ArrayId
  deriving DecidableEq, Repr

/-- An object fetched from a source (R303, R370, R484): source number, partition, bolt and chunk, the length requested, whether
it belongs to a bolt load, the pieces received with their offsets, when the last one arrived, and how often an object that no load asked
for has failed its digest (R301). -/
structure Fetch where
  src    : Nat
  part   : Nat
  boltId : W64
  chunk  : Nat
  len    : Nat
  isLoad : Bool
  pieces : List (Nat × List Byte)
  lastAt : Nat
  fails  : Nat
  deriving DecidableEq, Repr

/-- A cached chunk, or the manifest as chunk 0xFFFFFFFF (R305). -/
structure Cached where
  boltId : W64
  chunk  : Nat
  data   : List Byte
  used   : Nat
  deriving DecidableEq, Repr

/-- An adapter of a partition (R315, R318). -/
inductive AdpState where
  | loading | pending | resident | unloading
  deriving DecidableEq, Repr

structure Adapter where
  id     : Nat
  tenant : Nat
  state  : AdpState
  pages  : List Nat
  deriving DecidableEq, Repr

/-! ## Requests and steps -/

/-- The states of a slot (R236, R242). -/
inductive SlotState where
  | free | queued | prefill | decode | parked | done | cancelled | failed
  deriving DecidableEq, Repr

/-- A request-table slot (R236), with the request's context tokens, its page vector (R269), its prefix key (R285),
what a host-origin request has acknowledged (R483), and where it stands between commits. -/
structure Slot where
  state      : SlotState
  prev       : SlotState
  priority   : Nat
  pin        : Bool
  spec       : Nat
  host       : Bool
  part       : Nat
  port       : Nat
  reason     : Byte
  promptLen  : Nat
  genLen     : Nat
  maxNew     : Nat
  pos        : Nat
  deadline   : Nat
  seed       : W64
  temp       : BitVec 16
  topP       : BitVec 16
  minP       : BitVec 16
  repPen     : BitVec 16
  topK       : Nat
  adapter    : Nat
  wgen       : Nat
  rpWindow   : Nat
  channel    : Nat
  subSeq     : W32
  draft      : Nat
  draftPart  : Nat
  stops      : List W32
  admitSeq   : Nat
  lastToken  : Option Nat
  admitTime  : Nat
  endTime    : Nat
  cancelTime : Nat
  parkTime   : Nat
  tenant     : Nat
  text       : Bool
  ctx        : List Nat
  vector     : List (Option Nat)
  key        : Nat
  fetching   : List Nat
  matched    : Nat
  eligible   : Bool
  assigned   : Nat
  cancelReq  : Option (Nat × Byte)
  poisoned   : Bool
  replaying  : Bool
  wantReplay : Bool
  dlMissed   : Bool
  twin       : Option Nat
  twinOf     : Option Nat
  ackPos     : Nat
  deriving DecidableEq, Repr

/-- A decode slot of a composed step (R245, R246): the request, its input position, input token and drafts. -/
structure DecodeSlot where
  slot   : Option Nat
  pos    : Nat
  token  : Nat
  drafts : List Nat
  deriving DecidableEq, Repr

/-- A prefill position of a composed step. -/
structure PrefillPos where
  slot : Nat
  pos  : Nat
  deriving DecidableEq, Repr

/-- A step as the request engine composes it. `streams` numbers the prefill requests in chunk order (R271), `adapters` gives the
adapter bound to each stream (R317), and `filled` says that its decode slots are completed and its patches staged (R246). -/
structure Step where
  shape   : Nat
  dec     : List DecodeSlot
  pre     : List PrefillPos
  filled  : Bool
  streams : List (Option Nat)
  adapters : List (Option Nat)
  deriving DecidableEq, Repr

/-- A group of partial lists of one token (R252). `draw` says that a token is to be chosen from it: not from that of a prompt token
before the last. -/
structure Group where
  slot    : Nat
  pos     : Nat
  draw    : Bool
  lists   : Nat
  poison  : Bool
  entries : List (BitVec 16 × Nat)
  deriving DecidableEq, Repr

/-- Tokens chosen in the running step for a decode slot, in order (R259), or for a last prompt token; `final` once no further
one is chosen. -/
structure Chosen where
  slot   : Nat
  tokens : List Nat
  final  : Bool
  deriving DecidableEq, Repr

/-- The result a commit leaves for the message release of R250. -/
structure Outgoing where
  slot   : Nat
  first  : Nat
  tokens : List Nat
  ended  : Bool
  deriving DecidableEq, Repr

/-- Where a partition's form and job stand (R174, R311, R327). -/
inductive JobState where
  | noForm | loaded | running | ended
  deriving DecidableEq, Repr

/-- A link transfer of a partition (R350, R353). -/
structure LinkXfer where
  xfer    : Nat
  channel : Nat
  group   : Nat
  land    : BitVec 16
  dst     : DevAddr
  len     : Nat
  started : Bool
  deriving DecidableEq, Repr

/-- A job transfer arriving from a peer (R352). -/
structure InXfer where
  channel : Nat
  xfer    : Nat
  got     : Nat
  total   : Nat
  deriving DecidableEq, Repr

/-- A partition: what the start record grants it (R459), its form and job, its generations (R319), its schedule
(R215 to R223) with the schedule cycles run since the LAUNCH (R215), the steps composed and running, the POS and page vector of each of
its requests at the LAUNCH (R273), sampling, repair hold (R435) and bolt loads. -/
structure Part where
  present    : Bool
  started    : Bool
  unitBase   : Nat
  units      : Nat
  crownBase  : Nat
  crownLen   : Nat
  grantBase  : Nat
  grantLen   : Nat
  shareBase  : Nat
  shareLen   : Nat
  startAllot : Nat
  kvt        : Nat
  lanes      : Nat
  formSrc    : Option Nat
  weightSrc  : Option Nat
  form       : Option Form
  placed     : Tbl Nat Nat
  assign     : Tbl (Nat × Nat) Nat
  job        : JobState
  launched   : Bool
  planMicro  : Nat
  stepNo     : W32
  curGen     : Nat
  curBank    : Bool
  held       : Option Nat
  chain      : List Bolt
  wpages     : Nat
  adpPages   : Nat
  adapters   : List Adapter
  retired    : List Nat
  pageCount  : Nat
  hotCap     : Nat
  hotFreed   : List Nat
  running    : Option Step
  next       : Option Step
  staged     : Bool
  stagedAt   : Nat
  idle       : Bool
  cutDone    : Bool
  launchTime : Nat
  barrier    : Option Nat
  readyDies  : List Nat
  prinReady  : Bool
  readyAt    : Option Nat
  heldSince  : Option Nat
  holdSent   : Bool
  overrun    : Bool
  barrierTx  : Bool
  barriersRx : List (Nat × Nat × Nat)
  groups     : List Group
  chosen     : List Chosen
  outgoing   : List Outgoing
  repair     : Option Nat
  repairCause : Byte
  repairStep : Option Nat
  flipStep   : Option Nat
  flipBolt   : Option W64
  flipHolds  : Bool
  load       : Option BoltLoad
  pfill      : Nat
  xfers      : List LinkXfer
  inXfers    : List InXfer
  nextXfer   : Tbl Nat Nat
  cursors    : Tbl Nat Nat
  readers    : Tbl Nat TileId
  hotSnap    : Tbl Nat Nat
  heldNotes  : List (TileId × Nat × Nat × Nat × Nat)
  hostGated  : Bool
  cyc        : Nat
  atLaunch   : Tbl Nat (Nat × List (Option Nat))
  deriving DecidableEq, Repr

/-- The states of a page set (R268). -/
inductive PageState where
  | free | priv | indexed | void
  deriving DecidableEq, Repr

/-- A page-set record (R268). -/
structure PageSet where
  ref     : Nat
  state   : PageState
  out     : Bool
  fill    : Nat
  tent    : W64
  hash    : W64
  owner   : Nat
  hotIdx  : Option Nat
  earmark : Option Nat
  tokens  : List Nat
  deriving DecidableEq, Repr

/-- What a cold slot holds: a page set's record and all its slices (R282). -/
structure ColdPage where
  record : PageSet
  slices : List (List Byte)
  deriving DecidableEq, Repr

/-- A prefix index entry (R289). -/
structure IdxEntry where
  valid    : Bool
  hash     : W64
  page     : Nat
  cold     : Bool
  coldSlot : Nat
  lastUse  : Nat
  hits     : Nat
  part     : Nat
  tenant   : Nat
  deriving DecidableEq, Repr

/-! ## Start record -/

/-- A link group of the start record (R347, R458). -/
structure LGroup where
  present : Bool
  part    : Nat
  store   : Bool
  partner : W64
  storeCw : Nat
  storeBase : Nat
  storeLen : Nat
  links   : List Nat
  deriving DecidableEq, Repr

/-- A source entry (R458). -/
structure Source where
  present : Bool
  kind    : Nat
  via     : Nat
  udp     : Nat
  ipv4    : W32
  ipv6    : BitVec 128
  object  : W64
  deriving DecidableEq, Repr

/-- What the running start record gives the whole device (R458). -/
structure StartRec where
  present   : Bool
  valid     : Bool
  serial    : W64
  devAllot  : Nat
  boltCache : Nat
  spareRes  : Nat
  rackId    : W32
  rackPos   : Nat
  pfxBase   : Nat
  repairMs  : Nat
  groups    : Tbl Nat LGroup
  linkExpect : Tbl Nat (Option Nat)
  sources   : Tbl Nat Source
  formKeys  : Tbl Nat (List Byte)
  boltKeys  : Tbl Nat (List Byte)
  parent    : Option Nat
  children  : List Nat
  cold      : Tbl Nat (Nat × Nat)
  deriving DecidableEq, Repr

/-! ## Links and service ports -/

/-- A data flit of a lane's own (R332, R333): its channel, whether it is the first of its packet, whether its payload is poisoned, and the
payload bytes in use. -/
structure TxFlit where
  vc      : Bool
  first   : Bool
  poison  : Bool
  payload : List Byte
  deriving DecidableEq, Repr

/-- A lane (R330, R334 to R339, R344). `held` are the flits kept for retry, oldest first: SEQ, how often it has been sent, the flit; the
last `again` of them are to be sent again before any new one (R336). `txq0` and `txq1` are the flits still to send on VC 0 and VC 1, `due0`
and `due1` the credits to return, and `ackTold` the last ACK sent. -/
structure Lane where
  trained   : Bool
  training  : Bool
  lockTime  : Nat
  txSeq     : Nat
  held      : List (Nat × Nat × TxFlit)
  again     : Nat
  ackSeen   : Nat
  ackTime   : Nat
  rxNext    : Nat
  nakFor    : Option (Nat × Nat)
  credit0   : Nat
  credit1   : Nat
  pings     : Nat
  latest    : Nat
  lastSym   : Tbl Nat (Nat × Nat)
  identity  : Option Identity
  retryAt   : Nat
  txq0      : List TxFlit
  txq1      : List TxFlit
  vcRun     : Nat
  lat       : Nat
  holds     : Nat
  symq      : List (Byte × BitVec 24)
  pingsDue  : Nat
  fecFixed  : Nat
  due0      : Nat
  due1      : Nat
  ackTold   : Nat
  deriving DecidableEq, Repr

/-- A device message on a channel (R362), with its sequence number. -/
inductive Msg where
  | tokens (subSeq : W32) (first : Nat) (toks : List Nat) (text : List Byte)
  | done (subSeq : W32) (code : Byte) (answer : Bool) (genLen matched : Nat)
  | statusReq (subSeq : W32) (state : Nat) (reason : Byte) (pos genLen : Nat)
  | statusDev (hasPart : Bool) (jobs : BitVec 16) (active time : Nat)
  | resyncReply (lastAcc lastEmit earliest : Nat) (gap : Bool)
  | boltReq (boltId : W64) (chunk : Nat) (offset len : Nat)
  deriving DecidableEq, Repr

/-- A SUBMIT whose fragments are still arriving (R364). -/
structure PendingSubmit where
  body   : SubmitBody
  subSeq : W32
  next   : Nat
  tokens : List W32
  deriving DecidableEq, Repr

/-- A channel of a service port (R360 to R362). `lost` is the highest SEQ that a full replay store discarded. -/
structure Chan where
  isOpen   : Bool
  addr     : PeerAddr
  lastAcc  : Nat
  lastEmit : Nat
  lost     : Nat
  pend     : Option PendingSubmit
  deriving DecidableEq, Repr

/-- What leaves the device, in order: datagrams of a service port, link control symbols, link packets, link
flits sent again, writes into host memory, and replies of the address protocols. -/
inductive Output where
  | osp (port channel seq : Nat) (dest : PeerAddr) (m : Msg)
  | boltFetch (port : Nat) (src : Nat) (m : Msg)
  | arpReply (port : Nat) (dest : PeerAddr)
  | ndAdvert (port : Nat) (dest : PeerAddr)
  | flit (link lane : Nat) (b : List Byte)
  | identity (link lane : Nat) (b : List Byte)
  | packet (group : Nat) (lane : Nat) (h : LinkHdr) (data : List Byte) (badFlits : List Nat)
  | cq (index seq : Nat) (phase : Bool) (m : Msg)
  | statusBlock (time lastAcc lastEmit sq0 sq1 cqTail session flags jobs active fltHead parked hbSeen : Nat)
  | hostRead (addr : W64) (len : Nat)
  | forward (group : Nat) (boltId : W64) (chunk : Nat) (data : List Byte)
  deriving DecidableEq, Repr

/-! ## Laser modules -/

/-- A laser module (R372 to R384): its EEPROM bytes, and what the device keeps of it while it is present. `secs` are the
powered seconds of the hour, `eqSecs` the equivalent ones not yet a whole hour, in units of 2⁻³² s; `since` is when its debounce began
(R380), and `lowPower` how many readings in a row of each wavelength were too low (R379). -/
structure Laser where
  inCage   : Bool
  eeprom   : List Byte
  debounced : Bool
  powered  : Bool
  atPower  : Bool
  secs     : Nat
  eqSecs   : Nat
  biasSum  : List Nat
  since    : Nat
  lowPower : List Nat
  logSeq   : Nat
  logNext  : Nat
  deriving DecidableEq, Repr

/-! ## Power, thermal, bowstring -/

/-- A bowstring command waiting to be sent (R213). -/
inductive BowCmd where
  | emergency
  | skip (release : Bool) (div m : Nat)
  | freeze
  | thaw
  | launch (p : Nat)
  | hold (p : Nat)
  deriving DecidableEq, Repr

/-- The bowstring source (R208 to R214, R228, R232): `sendq` holds the commands due in the slot now sent, `newq` those
raised since that slot began (R214). `readSeq` numbers the snapshots (R518), and `frame` is the last frame sent (R208). -/
structure Bow where
  time       : Nat
  sendq      : List BowCmd
  newq       : List BowCmd
  emergHeld  : Bool
  freezeAt   : Nat
  thawWaits  : Bool
  anyHeld    : Bool
  readSeq    : Nat
  frame      : Nat
  deriving DecidableEq, Repr

/-- Supplies, converters, regulators and pins (R398, R399, R402, R525 to R531); `ocAt` is when a trip began to persist under EMERGENCY,
`jtag` is whether TRST_N has released the boundary-scan
chain, and `tapIr` the instruction registers of BM0 to BM3 (R535). -/
structure Power where
  vin48     : Bool
  pgood     : Bool
  resetN    : Bool
  priSel    : Bool
  crystal   : Bool
  v18       : Bool
  perst     : Bool
  thermtrip : Bool
  vlas      : List Bool
  downBus   : List Nat
  ocActive  : List Rail
  ocAt      : Tbl Rail Nat
  railsOff  : List Rail
  lostRail  : Option Rail
  jtag      : Bool
  tapIr     : List TapInstr
  deriving DecidableEq, Repr

/-- The power steward's and thermal loops (R393 to R397, R403). -/
structure Steward where
  mT        : Nat
  mP        : Nat
  lastSkip  : Nat
  lastAbove : Option Nat
  lastActive : Option Nat
  normalAt  : Nat
  deriving DecidableEq, Repr

/-- A sensor converter (R496 to R508) beside its registers: the entries still to convert, in order, of the passes that are
due; the entries with a result of this 1 ms that lay not below release; the sequences that join the fast table at the next
20 µs tick; its emergency line; whether its calibration is SUSPECT; when the reference last changed; and the die temperature
read, in 0.1 °C. -/
structure Sensor where
  due     : List Nat
  above   : List Nat
  toFast  : List Nat
  line    : Bool
  suspect : Bool
  settleFrom : Nat
  temp    : Int
  deriving DecidableEq, Repr

/-- The calibration state of one glide or boundary unit (R415, R419, R420): the values applied and accepted (one drive, the
taps of an equaliser, an offset and a gain, one delay), whether a boundary correction waits, the round trip last accepted
(target 7), and the consecutive failures. -/
structure CalState where
  applied  : List Int
  accepted : List Int
  pending  : Bool
  last     : Option Nat
  fails    : Nat
  deriving DecidableEq, Repr

/-- The Conformer (R405 to R420): its units, the consecutive failures of arrays, PLLs and diodes, and the PLLs whose count
check failed and that are not recalibrated yet (R417). -/
structure Conf where
  units    : Tbl CalUnit CalState
  arrFails : Tbl ArrayId Nat
  pllFails : Tbl Pll Nat
  pllBad   : List Pll
  diodeFails : Tbl (Nat × Nat) Nat
  deriving DecidableEq, Repr

/-! ## Boot, flash and firmware -/

/-- Firmware components and updates (R461 to R469). -/
structure Boot where
  principal : Nat
  running   : Bool
  booted    : Bool
  compTimes : Tbl Nat (List Nat)
  superAt   : Nat
  restarted : Bool
  checkFail : Bool
  wdogKick  : Nat
  expiries  : List Nat
  protFaults : List Nat
  bank      : Bool
  slot      : Bool
  updKind   : Bool
  updStart  : Nat
  replaced  : List Nat
  oldBank   : Bool
  matrix    : List Byte
  newMatrix : List Byte
  fenceNew  : List (Nat × Nat × Nat × Nat × Bool)
  anyForm   : Bool
  deriving DecidableEq, Repr

/-- Fuses (R451, R454, R469). -/
structure Fuses where
  stepping   : Nat
  contracts  : Nat
  grade      : Nat
  serial     : W64
  firstGood  : Nat
  censusDone : Bool
  ownerSet   : Bool
  owner      : List W32
  revoked    : List Nat
  romRev     : Nat
  bandgap    : List (BitVec 16)
  deriving DecidableEq, Repr

/-! ## Host interface -/

/-- The host session beside its registers (R477 to R493). -/
structure HostSess where
  linkUp    : Bool
  hbSeen    : Nat
  waiting   : List Msg
  retained  : List Msg
  inCq      : List (Nat × Msg)
  bodyFor   : Option W32
  asked     : List (Nat × Nat)
  bar2Seen  : Bool
  sbDue     : Nat
  deriving DecidableEq, Repr

/-! ## Crown refresh -/

/-- The refresh of a granule of a Crown die (R190): when its last owed window began, and when that window ends, in bowstring time. -/
structure Refresh where
  last : Nat
  ends : Nat
  deriving DecidableEq, Repr

/-! ## The die mesh -/

/-- A buffer of a virtual channel (R159): the input of a router by a side (0 north, 1 east, 2 south, 3 west, 4 its tile), or the edge
router of a die edge (R163). -/
inductive MeshBuf where
  | input (t : TileId) (side channel : Nat)
  | edge (die edge channel : Nat)
  deriving DecidableEq, Repr

/-! ## Intervals -/

/-- What the device does again and again at an interval of its own: the steward's and the thermal loops (R394 to R396), a ticket counter's
leave windows (R390), a laser module's monitors (R377), a lane's latency measurement (R345), the Conformer's corrections and count checks
(R412, R414), the steps of a glide (R419), the pounce sweep (R424), and the ticks of a sensor converter (R502). -/
inductive Timer where
  | stewardK
  | thermSkip
  | powerSkip
  | leave
  | laser (m : Nat)
  | latency (l n : Nat)
  | cal (u : CalUnit)
  | glide (u : CalUnit)
  | bowtrim
  | pll (p : Pll)
  | pounce
  | fastTick (b : Nat)
  | slowTick (b : Nat)
  deriving DecidableEq, Repr

/-! ## The machine -/

/-- Who raises a fault, and whether it is safe. The device's own faults are fault records in the state, and a command
that meets one answers a next state, so the machine itself never stops on one. -/
inductive Fault where
  /-- Raised by no meaning: the spec gives no command after which the device as a whole stops. Safe: a
  machine that does not stop admits every continuation. -/
  | none
  deriving DecidableEq, Repr

/-- Why a command has no meaning in a state. -/
inductive Refusal where
  /-- Raised by the arm of a row that has no meaning in this model yet. Safe: nothing is claimed of it. -/
  | notModelled (mnemonic : String)
  deriving DecidableEq, Repr

/-- The Clesavo. `timers` says from when on each interval has its next turn, in bowstring time; one that is not listed has it now. -/
structure State where
  pending  : List Instr
  regs     : Tbl RegKey W32
  snaps    : Tbl (Port × RegKey) W32
  loHeld   : Tbl (Port × RegKey) W32
  readOut  : Tbl Port W32
  mem      : List Host.Cell
  poison   : List Nat
  badScale : List Nat
  tiles    : Tbl TileId Tile
  arrays   : Tbl ArrayId Arr
  dies     : Tbl Nat Die
  parts    : Tbl Nat Part
  slots    : Tbl Nat Slot
  slotRec  : Tbl Nat (List Byte)
  admitSeq : Nat
  pages    : Tbl (Nat × Nat) PageSet
  index    : Tbl (Nat × Nat) IdxEntry
  coldUsed : Tbl (Nat × Nat) ColdPage
  pfxCache : Tbl Nat (List (Nat × Nat))
  cache    : List Cached
  cacheMiss : Nat
  unmerged : Nat
  staging  : Tbl (Nat × Nat) (List Byte)
  fetches  : List Fetch
  childAsks : List (Nat × W64 × Nat)
  start    : StartRec
  lanes    : Tbl (Nat × Nat) Lane
  chans    : Tbl (Nat × Nat) Chan
  replay   : List (Nat × Nat × Nat × Msg)
  lasers   : Tbl Nat Laser
  bow      : Bow
  power    : Power
  steward  : Steward
  sensors  : Tbl Nat Sensor
  conf     : Conf
  boot     : Boot
  fuses    : Fuses
  flash    : Tbl Nat Byte
  recovery : Tbl Nat Byte
  host     : HostSess
  central  : Tbl Nat FaultRec
  centralN : Nat
  shadow   : Tbl RegKey W32
  mesh     : Tbl MeshBuf (List (Packet × Bool))
  meshTurn : Tbl (TileId × Nat) (Nat × Nat)
  refresh  : Tbl (Nat × Nat) Refresh
  deferred : List Instr
  timers   : Tbl Timer Nat
  outputs  : List Output
  fresh    : Nat
  deriving DecidableEq, Repr


/-! ## The machine right after reset

Each `reset` below is what a unit holds while RESET_N is low (R529, R531): nothing runs, every queue is empty. Where the
spec states no reset value the value is zero, false or empty (DESIGN CHOICE, log 3). -/

def Tag.reset : Tag := ⟨0, 0, 0, false⟩

def NormWindow.reset : NormWindow := ⟨false, 0, 0, 0⟩

def Tile.reset : Tile :=
  { vr := [], tags := [], satRegs := [], vpend := [], vfmt := [], grads := [], slices := [], emits := [], nextOp := 0, opTickets := 0, opFrac := 0, fullTickets := 0, fullFrac := 0, meter := 0,
    waitDraw := false, lastOut := [], lastMain := [], reports := [], delta := 0,
    slackUse := 0, resUse := 0, overSlack := false, vecFree := 0, dmaFree := 0, access := [], waitq := [], ended := false,
    ltile := none, windows := List.replicate 8 NormWindow.reset, samples := [], nwHits := [], residues := [], fenced := false,
    xfers := [], nextXfer := 0, reported := [], inbuf := [], mapStage := [], bankStage := none, heldNotes := [],
    wpend := [], shields := [], eccPend := [] }

def Arr.reset : Arr :=
  { st := .spare, suspect := false, cause := 0, busyUntil := 0, passes := [], extra := 0, lastSwatch := [], lastPoison := false, acc := [], satCols := [],
    accPoison := false, satFlag := false, out := [], outTag := Tag.reset, outSat := false, outReady := 0,
    transients := [], calTime := 0, calTemp := 0, trim8 := [], trim6 := [], dacTrim := [], remapOf := none }

def Die.reset : Die :=
  { alive := false, emerg := false, emergOn := false, skipDiv := 0, skipM := 0, timeCopy := 0, cycles := 0, shCycles := 0,
    skipped := 0, frozen := false, tripped := false, railsOn := false, full := [], queue := [], backlog := [], results := [],
    calQueue := [], calRun := [], flog := [], fnext := 0, toCentral := [], edgeRetry := 0, eccFixed := 0, deaf := false }

def Slot.reset : Slot :=
  { state := .free, prev := .free, priority := 0, pin := false, spec := 0, host := false, part := 0, port := 0, reason := 0,
    promptLen := 0, genLen := 0, maxNew := 0, pos := 0, deadline := 0, seed := 0, temp := 0, topP := 0, minP := 0,
    repPen := 0, topK := 0, adapter := 0, wgen := 0, rpWindow := 0, channel := 0, subSeq := 0, draft := 0,
    draftPart := 0, stops := [], admitSeq := 0, lastToken := none, admitTime := 0, endTime := 0, cancelTime := 0,
    parkTime := 0, tenant := 0, text := false, ctx := [], vector := [], key := 0, fetching := [], matched := 0, eligible := false,
    assigned := 0, cancelReq := none, poisoned := false, replaying := false, wantReplay := false, dlMissed := false,
    twin := none, twinOf := none, ackPos := 0 }

def Part.reset : Part :=
  { present := false, started := false, unitBase := 0, units := 0, crownBase := 0, crownLen := 0, grantBase := 0,
    grantLen := 0, shareBase := 0, shareLen := 0, startAllot := 0, kvt := 0, lanes := 0, formSrc := none,
    weightSrc := none, form := none, placed := [], assign := [], job := .noForm, launched := false, planMicro := 0, stepNo := 0, curGen := 0,
    curBank := false, held := none, chain := [], wpages := 0, adpPages := 0, adapters := [], retired := [],
    pageCount := 0, hotCap := 0, hotFreed := [], running := none, next := none, staged := false, stagedAt := 0,
    idle := false, cutDone := false, launchTime := 0, barrier := none, readyDies := [], prinReady := false,
    readyAt := none, heldSince := none, holdSent := false, overrun := false, barrierTx := false, barriersRx := [],
    groups := [], chosen := [], outgoing := [], repair := none, repairCause := 0, repairStep := none,
    flipStep := none, flipBolt := none, flipHolds := false, load := none, pfill := 0, xfers := [], inXfers := [],
    nextXfer := [], cursors := [], readers := [], hotSnap := [], heldNotes := [], hostGated := false, cyc := 0,
    atLaunch := [] }

def PageSet.reset : PageSet :=
  { ref := 0, state := .free, out := false, fill := 0, tent := 0, hash := 0, owner := 0, hotIdx := none,
    earmark := none, tokens := [] }

def IdxEntry.reset : IdxEntry :=
  { valid := false, hash := 0, page := 0, cold := false, coldSlot := 0, lastUse := 0, hits := 0, part := 0, tenant := 0 }

def LGroup.reset : LGroup :=
  { present := false, part := 0, store := false, partner := 0, storeCw := 0, storeBase := 0, storeLen := 0, links := [] }

def Source.reset : Source :=
  { present := false, kind := 0, via := 0, udp := 0, ipv4 := 0, ipv6 := 0, object := 0 }

def StartRec.reset : StartRec :=
  { present := false, valid := false, serial := 0, devAllot := 0, boltCache := 0, spareRes := 0, rackId := 0,
    rackPos := 0, pfxBase := 0, repairMs := 0, groups := [], linkExpect := [], sources := [], formKeys := [],
    boltKeys := [], parent := none, children := [], cold := [] }

def Lane.reset : Lane :=
  { trained := false, training := false, lockTime := 0, txSeq := 0, held := [], again := 0, ackSeen := 0, ackTime := 0, rxNext := 0,
    nakFor := none, credit0 := 0, credit1 := 0, pings := 0, latest := 0, lastSym := [],
    identity := none, retryAt := 0, txq0 := [], txq1 := [], vcRun := 0, lat := 0, holds := 0,
    symq := [], pingsDue := 0, fecFixed := 0, due0 := 0, due1 := 0, ackTold := 0 }

def Refresh.reset : Refresh := ⟨0, 0⟩

def PeerAddr.reset : PeerAddr := ⟨0, 0, false, 0⟩

def Chan.reset : Chan :=
  { isOpen := false, addr := PeerAddr.reset, lastAcc := 0, lastEmit := 0, lost := 0, pend := none }

def Laser.reset : Laser :=
  { inCage := false, eeprom := [], debounced := false, powered := false, atPower := false, secs := 0, eqSecs := 0,
    biasSum := [], since := 0, lowPower := [], logSeq := 0, logNext := 0 }

def Bow.reset : Bow :=
  { time := 0, sendq := [], newq := [], emergHeld := false, freezeAt := 0, thawWaits := false, anyHeld := false, readSeq := 0, frame := 0 }

/-- The supplies are up and RESET_N is low, with BM0 strapped in as principal: the state of R529 in which a start-up
can begin (DESIGN CHOICE, log 2). The boundary-scan port is unconnected, and its instruction registers hold what IEEE 1149.1 gives them in
reset (PRESUMED, log 60). -/
def Power.reset : Power :=
  { vin48 := true, pgood := true, resetN := false, priSel := false, crystal := true, v18 := true, perst := false,
    thermtrip := false, vlas := [true, true, true, true], downBus := [], ocActive := [], ocAt := [], railsOff := [],
    lostRail := none, jtag := false,
    tapIr := [.idcode, .idcode, .idcode, .idcode] }

def Steward.reset : Steward :=
  { mT := 0, mP := 0, lastSkip := 0, lastAbove := none, lastActive := none, normalAt := 0 }

def Sensor.reset : Sensor :=
  { due := [], above := [], toFast := [], line := false, suspect := false, settleFrom := 0, temp := 0 }

def CalState.reset : CalState :=
  { applied := [], accepted := [], pending := false, last := none, fails := 0 }

def Conf.reset : Conf :=
  { units := [], arrFails := [], pllFails := [], pllBad := [], diodeFails := [] }

def Boot.reset : Boot :=
  { principal := 0, running := false, booted := false, compTimes := [], superAt := 0, restarted := false,
    checkFail := false, wdogKick := 0, expiries := [], protFaults := [], bank := false, slot := false, updKind := false, updStart := 0,
    replaced := [], oldBank := false, matrix := [], newMatrix := [], fenceNew := [], anyForm := false }

/-- The fuses of a production device before its first census: stepping B0 with contracts LC-1 and LC-2 (R3, R469),
nothing else blown (DESIGN CHOICE, log 2). -/
def Fuses.reset : Fuses :=
  { stepping := 1, contracts := 3, grade := 0, serial := 0, firstGood := 0, censusDone := false, ownerSet := false,
    owner := List.replicate 12 0, revoked := [], romRev := 0, bandgap := [0, 0, 0, 0] }

def HostSess.reset : HostSess :=
  { linkUp := false, hbSeen := 0, waiting := [], retained := [], inCq := [], bodyFor := none, asked := [],
    bar2Seen := false, sbDue := 0 }

/-- The device with its supplies up and RESET_N low: every register at its reset value, no unit running, memory with
nothing listed, and no command waiting. -/
def State.reset : State :=
  { pending := [], regs := [], snaps := [], loHeld := [], readOut := [], mem := [], poison := [], badScale := [],
    tiles := [], arrays := [], dies := [], parts := [], slots := [], slotRec := [], admitSeq := 0, pages := [], index := [],
    coldUsed := [], pfxCache := [], cache := [], cacheMiss := 0, unmerged := 0, staging := [], fetches := [], childAsks := [], start := StartRec.reset, lanes := [], chans := [], replay := [],
    lasers := [], bow := Bow.reset, power := Power.reset, steward := Steward.reset, sensors := [], conf := Conf.reset,
    boot := Boot.reset, fuses := Fuses.reset, flash := [], recovery := [], host := HostSess.reset, central := [],
    centralN := 0, shadow := [], mesh := [], meshTurn := [], refresh := [], deferred := [], timers := [],
    outputs := [], fresh := 0 }

end Sys2Proof.Machine
end

