-- ==== Sys2Proof/Machine/Regs.lean ====
section
/-!
DEFINITION. The register table: for every register its unit, its offset, its index stride and count, and its fields
with their access types and reset values, as the register tables of the section files give them; and the device
address map (R27 to R33) that finds a register or a memory byte.
-/

namespace Sys2Proof.Machine

/-- The access types of R6. -/
inductive Acc where
  | ro | rw | w1c | w1s | wo | rc
  deriving DecidableEq, Repr

/-- Which unit holds a register (R28 to R32): a tile; a Body-die or Brim-die unit region; a Brim-die region of the
principal only (`prin`: elsewhere it reads 0 and ignores writes, R31); a Brim-die register of the principal only
within a region that every Brim die has (`brimP`, 12_power_thermal.md; `prinB`, 15_boot_firmware.md); a Crown-die
region; a counter set (R509). -/
inductive RUnit where
  | tile
  | body (r : Nat)
  | brim (r : Nat)
  | prin (r : Nat)
  | brimP (r : Nat)
  | prinB (r : Nat)
  | crown (r : Nat)
  | ctr
  deriving DecidableEq, Repr

/-- Whether a register is half of a 64-bit pair (R9). -/
inductive Half where
  | single | lo | hi
  deriving DecidableEq, Repr

/-- A field of a register: name, lowest bit, width, access type, reset value. -/
structure RField where
  name : String
  lo   : Nat
  len  : Nat
  acc  : Acc
  rst  : Nat
  deriving DecidableEq, Repr

/-- A row of the register tables. -/
structure RegRow where
  unit   : RUnit
  offset : Nat
  stride : Nat
  count  : Nat
  half   : Half
  fields : List RField
  deriving DecidableEq, Repr

/-! ### The register tables of the section files, register by register -/

def rowTilId : RegRow := ⟨.tile, 0x2000000, 0, 1, .single, [⟨"TCOL", 0, 5, .ro, 0x0⟩, ⟨"TROW", 8, 4, .ro, 0x0⟩, ⟨"DIE", 16, 5, .ro, 0x0⟩]⟩
def rowTilStatus : RegRow := ⟨.tile, 0x2000004, 0, 1, .single, [⟨"STATE", 0, 3, .ro, 0x0⟩, ⟨"HOLD", 3, 1, .ro, 0x0⟩, ⟨"PART", 8, 4, .ro, 0x0⟩]⟩
def rowTilOpidx : RegRow := ⟨.tile, 0x2000008, 0, 1, .single, [⟨"OPIDX", 0, 24, .ro, 0x0⟩]⟩
def rowTilDmaStatus : RegRow := ⟨.tile, 0x200000c, 0, 1, .single, [⟨"INFLIGHT", 0, 4, .ro, 0x0⟩, ⟨"LAST_DESC", 16, 10, .ro, 0x0⟩]⟩
def rowTilTicket : RegRow := ⟨.tile, 0x2000010, 0, 1, .single, [⟨"OPS", 0, 16, .ro, 0x0⟩, ⟨"FULL", 16, 16, .ro, 0x0⟩]⟩
def rowTilMeter : RegRow := ⟨.tile, 0x2000014, 0, 1, .single, [⟨"METER", 0, 16, .ro, 0x0⟩, ⟨"WAITING", 16, 1, .ro, 0x0⟩]⟩
def rowTilLand : RegRow := ⟨.tile, 0x2000040, 4, 32, .single, [⟨"COUNT", 0, 16, .ro, 0x0⟩]⟩
def rowScpEvents : RegRow := ⟨.tile, 0x2001000, 0, 1, .single, [⟨"CONFLICT", 0, 1, .w1c, 0x0⟩, ⟨"OVERCOMMIT", 1, 1, .w1c, 0x0⟩, ⟨"COLLIDE", 2, 1, .w1c, 0x0⟩, ⟨"COLLIDE_FAULT", 3, 1, .w1c, 0x0⟩, ⟨"ECC_CORR", 4, 1, .w1c, 0x0⟩, ⟨"ECC_UNCORR", 5, 1, .w1c, 0x0⟩]⟩
def rowScpConflict : RegRow := ⟨.tile, 0x2001004, 0, 1, .single, [⟨"BANK", 0, 5, .ro, 0x0⟩, ⟨"ROW", 5, 8, .ro, 0x0⟩, ⟨"KIND", 13, 1, .ro, 0x0⟩]⟩
def rowScpCollide : RegRow := ⟨.tile, 0x2001008, 0, 1, .single, [⟨"COUNT", 0, 32, .rc, 0x0⟩]⟩
def rowScpEcc : RegRow := ⟨.tile, 0x200100c, 0, 1, .single, [⟨"CORR", 0, 16, .rc, 0x0⟩, ⟨"BANK", 16, 5, .ro, 0x0⟩, ⟨"ROW", 21, 8, .ro, 0x0⟩, ⟨"WORD", 29, 3, .ro, 0x0⟩]⟩
def rowTilBoundLo : RegRow := ⟨.tile, 0x2002000, 16, 256, .lo, [⟨"BASE", 0, 32, .rw, 0x0⟩]⟩
def rowTilBoundHi : RegRow := ⟨.tile, 0x2002004, 16, 256, .hi, [⟨"BASE", 0, 16, .rw, 0x0⟩]⟩
def rowTilBoundLen : RegRow := ⟨.tile, 0x2002008, 16, 256, .single, [⟨"LEN", 0, 32, .rw, 0x0⟩]⟩
def rowArrState : RegRow := ⟨.tile, 0x2004000, 4, 64, .single, [⟨"STATE", 0, 3, .ro, 0x0⟩, ⟨"SUSPECT", 3, 1, .ro, 0x0⟩, ⟨"FENCE_CAUSE", 8, 8, .ro, 0x0⟩, ⟨"REF0", 16, 1, .ro, 0x0⟩, ⟨"REF1", 17, 1, .ro, 0x0⟩]⟩
def rowArrMap0 : RegRow := ⟨.tile, 0x2004100, 4, 64, .single, [⟨"PHYS", 0, 6, .rw, 0x0⟩, ⟨"FMT", 6, 2, .rw, 0x0⟩, ⟨"VALID", 8, 1, .rw, 0x0⟩]⟩
def rowArrMap1 : RegRow := ⟨.tile, 0x2004200, 4, 64, .single, [⟨"PHYS", 0, 6, .rw, 0x0⟩, ⟨"FMT", 6, 2, .rw, 0x0⟩, ⟨"VALID", 8, 1, .rw, 0x0⟩]⟩
def rowArrBank : RegRow := ⟨.tile, 0x2004300, 0, 1, .single, [⟨"GEN0", 0, 8, .rw, 0x0⟩, ⟨"LIVE0", 8, 1, .rw, 0x0⟩, ⟨"GEN1", 16, 8, .rw, 0x0⟩, ⟨"LIVE1", 24, 1, .rw, 0x0⟩]⟩
def rowArrStage : RegRow := ⟨.tile, 0x2004304, 0, 1, .single, [⟨"PENDING", 0, 1, .ro, 0x0⟩, ⟨"COUNT", 8, 7, .ro, 0x0⟩]⟩
def rowArrGood : RegRow := ⟨.tile, 0x2004308, 0, 1, .single, [⟨"GOOD", 0, 7, .ro, 0x0⟩, ⟨"SPARE", 8, 7, .ro, 0x0⟩, ⟨"MAPPED", 16, 7, .ro, 0x0⟩]⟩
def rowArrEvents : RegRow := ⟨.tile, 0x200430c, 0, 1, .single, [⟨"CONV_SAT", 0, 1, .w1c, 0x0⟩, ⟨"SPLIT_RETRY", 1, 1, .w1c, 0x0⟩, ⟨"WIDE_SAT", 2, 1, .w1c, 0x0⟩, ⟨"CHK_MISMATCH", 3, 1, .w1c, 0x0⟩, ⟨"CHK_UNCHECKED", 4, 1, .w1c, 0x0⟩, ⟨"SCALE_PARITY", 5, 1, .w1c, 0x0⟩, ⟨"MAP_REFUSED", 6, 1, .w1c, 0x0⟩]⟩
def rowArrMismatch : RegRow := ⟨.tile, 0x2004310, 0, 1, .single, [⟨"PHYS", 0, 6, .ro, 0x0⟩, ⟨"GROUP", 6, 5, .ro, 0x0⟩, ⟨"PLANE", 11, 2, .ro, 0x0⟩, ⟨"CHKCOL", 13, 3, .ro, 0x0⟩, ⟨"REPEAT", 16, 1, .ro, 0x0⟩, ⟨"NAP", 17, 1, .ro, 0x0⟩, ⟨"SPLIT", 18, 1, .ro, 0x0⟩]⟩
def rowTilDesc : RegRow := ⟨.tile, 0x2008000, 4, 8192, .single, [⟨"WORD", 0, 32, .rw, 0x0⟩]⟩
def rowMshPart : RegRow := ⟨(.body 0x201), 0x0, 0, 1, .single, [⟨"PART", 0, 4, .rw, 0x0⟩, ⟨"ASSIGNED", 4, 1, .rw, 0x0⟩]⟩
def rowMshBorder : RegRow := ⟨(.body 0x201), 0x4, 0, 1, .single, [⟨"BORDER", 0, 4, .rw, 0x0⟩]⟩
def rowMshEdge : RegRow := ⟨(.body 0x201), 0x10, 4, 4, .single, [⟨"UP", 0, 1, .ro, 0x0⟩, ⟨"TRAINED", 1, 1, .ro, 0x0⟩, ⟨"RETRY", 8, 16, .rc, 0x0⟩]⟩
def rowMshDiscard : RegRow := ⟨(.body 0x201), 0x20, 0, 1, .single, [⟨"FENCED", 0, 16, .rc, 0x0⟩, ⟨"BORDER", 16, 16, .rc, 0x0⟩]⟩
def rowMshTfence : RegRow := ⟨(.body 0x201), 0x40, 4, 16, .single, [⟨"FENCED", 0, 32, .ro, 0x0⟩]⟩
def rowMshBedge : RegRow := ⟨(.brim 0x211), 0x10, 4, 2, .single, [⟨"UP", 0, 1, .ro, 0x0⟩, ⟨"TRAINED", 1, 1, .ro, 0x0⟩, ⟨"RETRY", 8, 16, .rc, 0x0⟩]⟩
def rowBowStatus : RegRow := ⟨(.brim 0x201), 0x0, 0, 1, .single, [⟨"SOURCE", 0, 1, .ro, 0x0⟩, ⟨"LOCKED", 1, 1, .ro, 0x0⟩, ⟨"EMERG", 2, 1, .ro, 0x0⟩, ⟨"FROZEN", 3, 1, .ro, 0x0⟩, ⟨"M", 4, 4, .ro, 0x0⟩, ⟨"DIV", 8, 2, .ro, 0x0⟩]⟩
def rowBowTimeLo : RegRow := ⟨(.brim 0x201), 0x8, 0, 1, .lo, [⟨"TIME", 0, 32, .ro, 0x0⟩]⟩
def rowBowTimeHi : RegRow := ⟨(.brim 0x201), 0xc, 0, 1, .hi, [⟨"TIME", 0, 32, .ro, 0x0⟩]⟩
def rowBowSkipCmd : RegRow := ⟨(.brim 0x201), 0x10, 0, 1, .single, [⟨"M", 0, 4, .wo, 0x0⟩, ⟨"DIV", 4, 2, .wo, 0x0⟩, ⟨"RELEASE", 6, 1, .wo, 0x0⟩]⟩
def rowBowEmerg : RegRow := ⟨(.brim 0x201), 0x14, 0, 1, .single, [⟨"EM_M", 0, 4, .rw, 0x0⟩, ⟨"EM_DIV", 4, 2, .rw, 0x2⟩]⟩
def rowBowEmergSrc : RegRow := ⟨(.brim 0x201), 0x18, 0, 1, .single, [⟨"THERM", 0, 1, .w1c, 0x0⟩, ⟨"OVERCURRENT", 1, 1, .w1c, 0x0⟩, ⟨"FORCED", 2, 1, .w1c, 0x0⟩, ⟨"THERM_ACTIVE", 8, 1, .ro, 0x0⟩, ⟨"OC_ACTIVE", 9, 1, .ro, 0x0⟩, ⟨"FORCE", 16, 1, .wo, 0x0⟩]⟩
def rowBowFreezeAtLo : RegRow := ⟨(.brim 0x201), 0x20, 0, 1, .lo, [⟨"AT", 4, 28, .rw, 0x0⟩]⟩
def rowBowFreezeAtHi : RegRow := ⟨(.brim 0x201), 0x24, 0, 1, .hi, [⟨"AT", 0, 32, .rw, 0x0⟩]⟩
def rowBowFreezeCmd : RegRow := ⟨(.brim 0x201), 0x28, 0, 1, .single, [⟨"ARM", 0, 1, .w1s, 0x0⟩, ⟨"THAW", 1, 1, .wo, 0x0⟩]⟩
def rowBowFreezeLastLo : RegRow := ⟨(.brim 0x201), 0x30, 0, 1, .lo, [⟨"LAST", 0, 32, .ro, 0x0⟩]⟩
def rowBowFreezeLastHi : RegRow := ⟨(.brim 0x201), 0x34, 0, 1, .hi, [⟨"LAST", 0, 32, .ro, 0x0⟩]⟩
def rowBowSlotErr : RegRow := ⟨(.brim 0x201), 0x38, 0, 1, .single, [⟨"CORRECTED", 0, 16, .rc, 0x0⟩, ⟨"DISPLACED", 16, 16, .rc, 0x0⟩]⟩
def rowBowStep : RegRow := ⟨(.brim 0x201), 0x100, 16, 16, .single, [⟨"STEP", 0, 32, .ro, 0x0⟩]⟩
def rowBowHoldlim : RegRow := ⟨(.brim 0x201), 0x104, 16, 16, .single, [⟨"LIMIT", 0, 16, .rw, 0x3e8⟩]⟩
def rowBowLasthold : RegRow := ⟨(.brim 0x201), 0x108, 16, 16, .single, [⟨"LENGTH", 0, 24, .ro, 0x0⟩]⟩
def rowBowJob : RegRow := ⟨(.brim 0x201), 0x10c, 16, 16, .single, [⟨"PEERS", 0, 8, .rw, 0x0⟩]⟩
def rowBowTrim : RegRow := ⟨(.brim 0x201), 0x200, 4, 40, .single, [⟨"TRIM", 0, 8, .ro, 0x0⟩, ⟨"GLIDING", 8, 1, .ro, 0x0⟩]⟩
def rowReqStatus : RegRow := ⟨(.prin 0x205), 0x0, 0, 1, .single, [⟨"ACTIVE", 0, 13, .ro, 0x0⟩]⟩
def rowReqKill : RegRow := ⟨(.prin 0x205), 0x4, 0, 1, .single, [⟨"SLOT", 0, 12, .wo, 0x0⟩]⟩
def rowReqAdmitLo : RegRow := ⟨(.prin 0x205), 0x10, 0, 1, .lo, [⟨"COUNT", 0, 32, .ro, 0x0⟩]⟩
def rowReqAdmitHi : RegRow := ⟨(.prin 0x205), 0x14, 0, 1, .hi, [⟨"COUNT", 0, 32, .ro, 0x0⟩]⟩
def rowReqShare : RegRow := ⟨(.prin 0x205), 0x100, 32, 16, .single, [⟨"BASE", 0, 12, .ro, 0x0⟩, ⟨"LEN", 16, 13, .ro, 0x0⟩]⟩
def rowReqPtgt : RegRow := ⟨(.prin 0x205), 0x104, 32, 16, .single, [⟨"TARGET", 0, 13, .rw, 0x1000⟩]⟩
def rowReqOcc : RegRow := ⟨(.prin 0x205), 0x108, 32, 16, .single, [⟨"WAITING", 0, 13, .ro, 0x0⟩, ⟨"DECODE", 16, 13, .ro, 0x0⟩]⟩
def rowReqLast : RegRow := ⟨(.prin 0x205), 0x10c, 32, 16, .single, [⟨"SHAPE", 0, 4, .ro, 0x0⟩, ⟨"DUSED", 4, 9, .ro, 0x0⟩, ⟨"PUSED", 13, 13, .ro, 0x0⟩, ⟨"IDLE", 26, 1, .ro, 0x0⟩]⟩
def rowReqRefuse : RegRow := ⟨(.prin 0x205), 0x110, 32, 16, .single, [⟨"LAST", 0, 8, .ro, 0x0⟩, ⟨"COUNT", 16, 16, .rc, 0x0⟩]⟩
def rowReqDlmiss : RegRow := ⟨(.prin 0x205), 0x114, 32, 16, .single, [⟨"COUNT", 0, 32, .rc, 0x0⟩]⟩
def rowReqEvents : RegRow := ⟨(.prin 0x205), 0x118, 32, 16, .single, [⟨"STAGE_HOLD", 0, 1, .w1c, 0x0⟩, ⟨"JOB_FAILED", 1, 1, .w1c, 0x0⟩]⟩
def rowReqSlot : RegRow := ⟨(.prin 0x205), 0x10000, 4, 131072, .single, [⟨"WORD", 0, 32, .ro, 0x0⟩]⟩
def rowSmpStatus : RegRow := ⟨(.prin 0x206), 0x0, 0, 1, .single, [⟨"BACKLOG", 0, 16, .ro, 0x0⟩, ⟨"PENDING", 16, 8, .ro, 0x0⟩]⟩
def rowSmpLookup : RegRow := ⟨(.prin 0x206), 0x4, 0, 1, .single, [⟨"N", 0, 4, .rw, 0x3⟩, ⟨"WINDOW", 16, 11, .rw, 0x80⟩]⟩
def rowSmpEvents : RegRow := ⟨(.prin 0x206), 0x8, 0, 1, .single, [⟨"POISON_LIST", 0, 1, .w1c, 0x0⟩, ⟨"LATE", 1, 1, .w1c, 0x0⟩, ⟨"STRAY", 2, 1, .w1c, 0x0⟩]⟩
def rowSmpDrawnLo : RegRow := ⟨(.prin 0x206), 0x10, 0, 1, .lo, [⟨"COUNT", 0, 32, .ro, 0x0⟩]⟩
def rowSmpDrawnHi : RegRow := ⟨(.prin 0x206), 0x14, 0, 1, .hi, [⟨"COUNT", 0, 32, .ro, 0x0⟩]⟩
def rowSmpProposedLo : RegRow := ⟨(.prin 0x206), 0x18, 0, 1, .lo, [⟨"COUNT", 0, 32, .ro, 0x0⟩]⟩
def rowSmpProposedHi : RegRow := ⟨(.prin 0x206), 0x1c, 0, 1, .hi, [⟨"COUNT", 0, 32, .ro, 0x0⟩]⟩
def rowSmpAcceptedLo : RegRow := ⟨(.prin 0x206), 0x20, 0, 1, .lo, [⟨"COUNT", 0, 32, .ro, 0x0⟩]⟩
def rowSmpAcceptedHi : RegRow := ⟨(.prin 0x206), 0x24, 0, 1, .hi, [⟨"COUNT", 0, 32, .ro, 0x0⟩]⟩
def rowSmpLists : RegRow := ⟨(.prin 0x206), 0x100, 4, 16, .single, [⟨"LISTS", 0, 7, .rw, 0x0⟩]⟩
def rowKvpEvents : RegRow := ⟨(.prin 0x207), 0x0, 0, 1, .single, [⟨"DROPPED", 0, 1, .w1c, 0x0⟩, ⟨"COLD_DROP", 1, 1, .w1c, 0x0⟩, ⟨"WINDOW_FAULT", 2, 1, .w1c, 0x0⟩]⟩
def rowKvpLowater : RegRow := ⟨(.prin 0x207), 0x4, 0, 1, .single, [⟨"PAGES", 0, 24, .rw, 0x400⟩]⟩
def rowKvpGeom : RegRow := ⟨(.prin 0x207), 0x100, 32, 16, .single, [⟨"KVT", 0, 16, .ro, 0x0⟩, ⟨"LANES", 16, 3, .ro, 0x0⟩]⟩
def rowKvpTotal : RegRow := ⟨(.prin 0x207), 0x104, 32, 16, .single, [⟨"COUNT", 0, 28, .ro, 0x0⟩]⟩
def rowKvpFree : RegRow := ⟨(.prin 0x207), 0x108, 32, 16, .single, [⟨"COUNT", 0, 28, .ro, 0x0⟩]⟩
def rowKvpIdle : RegRow := ⟨(.prin 0x207), 0x10c, 32, 16, .single, [⟨"COUNT", 0, 28, .ro, 0x0⟩]⟩
def rowKvpHot : RegRow := ⟨(.prin 0x207), 0x110, 32, 16, .single, [⟨"CAPACITY", 0, 16, .ro, 0x0⟩, ⟨"USED", 16, 16, .ro, 0x0⟩]⟩
def rowKvpLayers : RegRow := ⟨(.prin 0x207), 0x400, 4, 32, .single, [⟨"LAYERS", 0, 6, .ro, 0x0⟩]⟩
def rowKvpCwZero : RegRow := ⟨(.crown 0x200), 0x0, 0, 1, .single, [⟨"COUNT", 0, 32, .rc, 0x0⟩]⟩
def rowPfxCtrl : RegRow := ⟨(.prin 0x208), 0x0, 0, 1, .single, [⟨"WEIGHT", 0, 16, .rw, 0x3e8⟩, ⟨"EPOCH_ON_FLIP", 16, 1, .rw, 0x1⟩]⟩
def rowPfxBase : RegRow := ⟨(.prin 0x208), 0x4, 0, 1, .single, [⟨"BASE", 0, 15, .ro, 0x0⟩]⟩
def rowPfxUsed : RegRow := ⟨(.prin 0x208), 0x8, 0, 1, .single, [⟨"COUNT", 0, 21, .ro, 0x0⟩]⟩
def rowPfxEvents : RegRow := ⟨(.prin 0x208), 0xc, 0, 1, .single, [⟨"DUPLICATE", 0, 1, .w1c, 0x0⟩, ⟨"NOT_INSERTED", 1, 1, .w1c, 0x0⟩, ⟨"POISON_OUT", 2, 1, .w1c, 0x0⟩]⟩
def rowPfxHitLo : RegRow := ⟨(.prin 0x208), 0x10, 0, 1, .lo, [⟨"COUNT", 0, 32, .ro, 0x0⟩]⟩
def rowPfxHitHi : RegRow := ⟨(.prin 0x208), 0x14, 0, 1, .hi, [⟨"COUNT", 0, 32, .ro, 0x0⟩]⟩
def rowPfxEpoch : RegRow := ⟨(.prin 0x208), 0x100, 4, 16, .single, [⟨"EPOCH", 0, 16, .rw, 0x0⟩]⟩
def rowFulStatus : RegRow := ⟨(.body 0x202), 0x0, 0, 1, .single, [⟨"INFLIGHT", 0, 10, .ro, 0x0⟩, ⟨"QFREE", 16, 7, .ro, 0x40⟩]⟩
def rowFulEvents : RegRow := ⟨(.body 0x202), 0x4, 0, 1, .single, [⟨"FULL_FAIL", 0, 1, .w1c, 0x0⟩, ⟨"JOB_REFUSED", 1, 1, .w1c, 0x0⟩, ⟨"LATE_ARM", 2, 1, .w1c, 0x0⟩, ⟨"COMMITTED", 3, 1, .w1c, 0x0⟩]⟩
def rowFulJobSrcLo : RegRow := ⟨(.body 0x202), 0x8, 0, 1, .lo, [⟨"SRC", 6, 26, .rw, 0x0⟩]⟩
def rowFulJobSrcHi : RegRow := ⟨(.body 0x202), 0xc, 0, 1, .hi, [⟨"SRC", 0, 16, .rw, 0x0⟩]⟩
def rowFulJobTgt : RegRow := ⟨(.body 0x202), 0x10, 0, 1, .single, [⟨"TILE", 0, 9, .rw, 0x0⟩, ⟨"PHYS", 9, 6, .rw, 0x0⟩, ⟨"FMT", 15, 2, .rw, 0x0⟩]⟩
def rowFulJobPush : RegRow := ⟨(.body 0x202), 0x14, 0, 1, .single, [⟨"GO", 0, 1, .wo, 0x0⟩, ⟨"TAG", 16, 16, .wo, 0x0⟩]⟩
def rowFulResult : RegRow := ⟨(.body 0x202), 0x18, 0, 1, .single, [⟨"TAG", 0, 16, .rc, 0x0⟩, ⟨"ROUNDS", 16, 4, .rc, 0x0⟩, ⟨"OUTCOME", 20, 2, .rc, 0x0⟩, ⟨"VALID", 31, 1, .rc, 0x0⟩]⟩
def rowFulCommitStep : RegRow := ⟨(.body 0x202), 0x20, 0, 1, .single, [⟨"STEP", 0, 32, .rw, 0x0⟩]⟩
def rowFulCommitCtrl : RegRow := ⟨(.body 0x202), 0x24, 0, 1, .single, [⟨"ARM", 0, 1, .w1s, 0x0⟩, ⟨"DISARM", 1, 1, .wo, 0x0⟩]⟩
def rowFulGen : RegRow := ⟨(.body 0x202), 0x28, 0, 1, .single, [⟨"CUR", 0, 8, .ro, 0x0⟩, ⟨"CUR_BANK", 8, 1, .ro, 0x0⟩, ⟨"HELD", 16, 8, .ro, 0x0⟩, ⟨"HELD_VALID", 24, 1, .ro, 0x0⟩]⟩
def rowFulStaged : RegRow := ⟨(.body 0x202), 0x2c, 0, 1, .single, [⟨"COUNT", 0, 32, .rc, 0x0⟩]⟩
def rowLnkEvents : RegRow := ⟨(.brim 0x209), 0x0, 0, 1, .single, [⟨"LANE_FAIL", 0, 1, .w1c, 0x0⟩, ⟨"MISMATCH", 1, 1, .w1c, 0x0⟩, ⟨"LAT_RISE", 2, 1, .w1c, 0x0⟩, ⟨"BAD_SYMBOL", 3, 1, .w1c, 0x0⟩, ⟨"STORE_REFUSED", 4, 1, .w1c, 0x0⟩]⟩
def rowLnkCfg : RegRow := ⟨(.brim 0x209), 0x100, 32, 12, .single, [⟨"GROUP", 0, 5, .ro, 0x0⟩, ⟨"USED", 5, 1, .ro, 0x0⟩, ⟨"PART", 6, 4, .ro, 0x0⟩, ⟨"USE", 10, 1, .ro, 0x0⟩, ⟨"ANY", 11, 1, .ro, 0x0⟩]⟩
def rowLnkState : RegRow := ⟨(.brim 0x209), 0x104, 32, 12, .single, [⟨"STATE", 0, 3, .ro, 0x0⟩, ⟨"RATE_LIMITED", 3, 1, .ro, 0x0⟩, ⟨"LANES", 4, 4, .ro, 0x0⟩]⟩
def rowLnkPartnerLo : RegRow := ⟨(.brim 0x209), 0x108, 32, 12, .lo, [⟨"SERIAL", 0, 32, .ro, 0x0⟩]⟩
def rowLnkPartnerHi : RegRow := ⟨(.brim 0x209), 0x10c, 32, 12, .hi, [⟨"SERIAL", 0, 32, .ro, 0x0⟩]⟩
def rowLnkPinfo : RegRow := ⟨(.brim 0x209), 0x110, 32, 12, .single, [⟨"LINK", 0, 6, .ro, 0x0⟩, ⟨"RACK_POS", 8, 8, .ro, 0x0⟩]⟩
def rowLnkLat : RegRow := ⟨(.brim 0x209), 0x114, 32, 12, .single, [⟨"NS", 0, 16, .ro, 0x0⟩]⟩
def rowLnkErr : RegRow := ⟨(.brim 0x209), 0x118, 32, 12, .single, [⟨"CRC", 0, 16, .rc, 0x0⟩, ⟨"FEC_UNCORR", 16, 16, .rc, 0x0⟩]⟩
def rowLnkRetry : RegRow := ⟨(.brim 0x209), 0x11c, 32, 12, .single, [⟨"REPLAYS", 0, 16, .rc, 0x0⟩, ⟨"LANE_FAILS", 16, 8, .rc, 0x0⟩]⟩
def rowLnkChan : RegRow := ⟨(.prin 0x209), 0x1000, 16, 64, .single, [⟨"VALID", 0, 1, .rw, 0x0⟩, ⟨"DIR", 1, 1, .rw, 0x0⟩, ⟨"PART", 2, 4, .rw, 0x0⟩, ⟨"GROUP", 6, 5, .rw, 0x0⟩, ⟨"RCHAN", 11, 6, .rw, 0x0⟩]⟩
def rowLnkCwin : RegRow := ⟨(.prin 0x209), 0x1004, 16, 64, .single, [⟨"OFFSET", 0, 14, .rw, 0x0⟩, ⟨"LEN", 16, 14, .rw, 0x0⟩]⟩
def rowLnkCnote : RegRow := ⟨(.prin 0x209), 0x1008, 16, 64, .single, [⟨"DIE", 0, 5, .rw, 0x0⟩, ⟨"REGION", 5, 9, .rw, 0x0⟩]⟩
def rowEthCtrl : RegRow := ⟨(.brim 0x20B), 0x0, 0, 1, .single, [⟨"ENABLE", 0, 1, .ro, 0x0⟩, ⟨"VLAN", 1, 1, .ro, 0x0⟩, ⟨"VID", 2, 12, .ro, 0x0⟩]⟩
def rowEthStatus : RegRow := ⟨(.brim 0x20B), 0x4, 0, 1, .single, [⟨"PCS_LOCK", 0, 1, .ro, 0x0⟩, ⟨"LINK_UP", 1, 1, .ro, 0x0⟩]⟩
def rowEthMacLo : RegRow := ⟨(.brim 0x20B), 0x8, 0, 1, .lo, [⟨"MAC", 0, 32, .ro, 0x0⟩]⟩
def rowEthMacHi : RegRow := ⟨(.brim 0x20B), 0xc, 0, 1, .hi, [⟨"MAC", 0, 16, .ro, 0x0⟩]⟩
def rowEthIpv4 : RegRow := ⟨(.brim 0x20B), 0x10, 0, 1, .single, [⟨"ADDR", 0, 32, .ro, 0x0⟩]⟩
def rowEthIpv6 : RegRow := ⟨(.brim 0x20B), 0x20, 4, 4, .single, [⟨"ADDR", 0, 32, .ro, 0x0⟩]⟩
def rowEthUdp : RegRow := ⟨(.brim 0x20B), 0x30, 0, 1, .single, [⟨"PORT", 0, 16, .ro, 0xb7fc⟩]⟩
def rowEthChannels : RegRow := ⟨(.brim 0x20B), 0x34, 0, 1, .single, [⟨"OPEN", 0, 11, .ro, 0x0⟩]⟩
def rowEthDropHdr : RegRow := ⟨(.brim 0x20B), 0x38, 0, 1, .single, [⟨"FRAME", 0, 16, .rc, 0x0⟩, ⟨"CHECKSUM", 16, 16, .rc, 0x0⟩]⟩
def rowEthDropOsp : RegRow := ⟨(.brim 0x20B), 0x3c, 0, 1, .single, [⟨"SEQUENCE", 0, 16, .rc, 0x0⟩, ⟨"VIOLATION", 16, 16, .rc, 0x0⟩]⟩
def rowEthEvents : RegRow := ⟨(.brim 0x20B), 0x40, 0, 1, .single, [⟨"PAUSE_RX", 0, 1, .w1c, 0x0⟩, ⟨"REPLAY_GAP", 1, 1, .w1c, 0x0⟩, ⟨"VIOLATION", 2, 1, .w1c, 0x0⟩]⟩
def rowLasEvents : RegRow := ⟨(.brim 0x20A), 0x0, 0, 1, .single, [⟨"INSERTED", 0, 1, .w1c, 0x0⟩, ⟨"REMOVED", 1, 1, .w1c, 0x0⟩, ⟨"REFUSED", 2, 1, .w1c, 0x0⟩, ⟨"FAULT", 3, 1, .w1c, 0x0⟩, ⟨"SP_SWITCH", 4, 1, .w1c, 0x0⟩]⟩
def rowLasSpsrc : RegRow := ⟨(.brim 0x20A), 0x4, 0, 1, .single, [⟨"SOURCE", 0, 1, .rw, 0x0⟩, ⟨"AUTO", 1, 1, .rw, 0x1⟩]⟩
def rowLasCtrl : RegRow := ⟨(.brim 0x20A), 0x100, 64, 2, .single, [⟨"LASER_EN", 0, 1, .rw, 0x1⟩]⟩
def rowLasState : RegRow := ⟨(.brim 0x20A), 0x104, 64, 2, .single, [⟨"STATE", 0, 3, .ro, 0x0⟩, ⟨"PRESENT", 3, 1, .ro, 0x0⟩, ⟨"WEAR", 4, 1, .ro, 0x0⟩, ⟨"EOL", 5, 1, .ro, 0x0⟩]⟩
def rowLasHours : RegRow := ⟨(.brim 0x20A), 0x108, 64, 2, .single, [⟨"HOURS", 0, 32, .ro, 0x0⟩]⟩
def rowLasEqhours : RegRow := ⟨(.brim 0x20A), 0x10c, 64, 2, .single, [⟨"HOURS", 0, 32, .ro, 0x0⟩]⟩
def rowLasRise : RegRow := ⟨(.brim 0x20A), 0x110, 64, 2, .single, [⟨"RISE", 0, 16, .ro, 0x0⟩, ⟨"WORST", 16, 2, .ro, 0x0⟩]⟩
def rowLasTcase : RegRow := ⟨(.brim 0x20A), 0x114, 64, 2, .single, [⟨"TCASE", 0, 16, .ro, 0x0⟩]⟩
def rowLasOpt0 : RegRow := ⟨(.brim 0x20A), 0x120, 4, 4, .single, [⟨"BIAS", 0, 16, .ro, 0x0⟩, ⟨"POWER", 16, 16, .ro, 0x0⟩]⟩
def rowLasOpt1 : RegRow := ⟨(.brim 0x20A), 0x160, 4, 4, .single, [⟨"BIAS", 0, 16, .ro, 0x0⟩, ⟨"POWER", 16, 16, .ro, 0x0⟩]⟩
def rowPwrStatus : RegRow := ⟨(.brim 0x202), 0x0, 0, 1, .single, [⟨"STATE", 0, 1, .ro, 0x0⟩, ⟨"THERMAL", 1, 1, .ro, 0x0⟩, ⟨"POWER", 2, 1, .ro, 0x0⟩, ⟨"K_FLOOR", 3, 1, .ro, 0x0⟩, ⟨"M_T", 4, 4, .ro, 0x0⟩, ⟨"M_P", 8, 4, .ro, 0x0⟩]⟩
def rowPwrDev : RegRow := ⟨(.brim 0x202), 0x4, 0, 1, .single, [⟨"ALLOT", 0, 16, .ro, 0x0⟩]⟩
def rowPwrInput : RegRow := ⟨(.brim 0x202), 0x8, 0, 1, .single, [⟨"POWER", 0, 16, .ro, 0x0⟩, ⟨"VIN", 16, 12, .ro, 0x0⟩]⟩
def rowPwrEvents : RegRow := ⟨(.brim 0x202), 0xc, 0, 1, .single, [⟨"OC_TRIP", 0, 1, .w1c, 0x0⟩, ⟨"RAIL_OFF", 1, 1, .w1c, 0x0⟩, ⟨"UVLO", 2, 1, .w1c, 0x0⟩, ⟨"OVER_ALLOT", 3, 1, .w1c, 0x0⟩, ⟨"K_FLOOR", 4, 1, .w1c, 0x0⟩]⟩
def rowPwrAllot : RegRow := ⟨(.brimP 0x202), 0x100, 32, 16, .single, [⟨"WATTS", 0, 16, .rw, 0x0⟩]⟩
def rowPwrBase : RegRow := ⟨(.brimP 0x202), 0x104, 32, 16, .single, [⟨"WATTS", 0, 16, .ro, 0x0⟩]⟩
def rowPwrPlan : RegRow := ⟨(.brimP 0x202), 0x108, 32, 16, .single, [⟨"WATTS", 0, 16, .ro, 0x0⟩]⟩
def rowPwrMeas : RegRow := ⟨(.brimP 0x202), 0x10c, 32, 16, .single, [⟨"WATTS", 0, 16, .ro, 0x0⟩]⟩
def rowPwrK : RegRow := ⟨(.brimP 0x202), 0x110, 32, 16, .single, [⟨"K", 0, 9, .ro, 0x100⟩]⟩
def rowPwrWait : RegRow := ⟨(.brimP 0x202), 0x114, 32, 16, .single, [⟨"CYCLES", 0, 32, .rc, 0x0⟩]⟩
def rowThmStatus : RegRow := ⟨(.brim 0x203), 0x0, 0, 1, .single, [⟨"TMAX", 0, 16, .ro, 0x0⟩, ⟨"HOT_DIE", 16, 6, .ro, 0x0⟩, ⟨"WARN", 22, 1, .ro, 0x0⟩, ⟨"TRIP", 23, 1, .ro, 0x0⟩, ⟨"COOLANT", 24, 1, .ro, 0x0⟩]⟩
def rowThmLimits : RegRow := ⟨(.brim 0x203), 0x4, 0, 1, .single, [⟨"WARN", 0, 8, .rw, 0x5f⟩, ⟨"RELEASE", 8, 8, .rw, 0x5d⟩, ⟨"EMERG", 16, 8, .rw, 0x66⟩]⟩
def rowThmTh : RegRow := ⟨(.brim 0x203), 0x8, 0, 1, .single, [⟨"TH_EVEN", 0, 16, .ro, 0x0⟩, ⟨"TH_ODD", 16, 16, .ro, 0x0⟩]⟩
def rowThmThLim : RegRow := ⟨(.brim 0x203), 0xc, 0, 1, .single, [⟨"EVEN", 0, 8, .rw, 0x2d⟩, ⟨"ODD", 8, 8, .rw, 0x3c⟩]⟩
def rowThmBody : RegRow := ⟨(.brimP 0x203), 0x100, 4, 32, .single, [⟨"TEMP", 0, 16, .ro, 0x0⟩, ⟨"FAST", 16, 1, .ro, 0x0⟩]⟩
def rowThmCrown : RegRow := ⟨(.brimP 0x203), 0x180, 4, 4, .single, [⟨"TEMP", 0, 16, .ro, 0x0⟩, ⟨"FAST", 16, 1, .ro, 0x0⟩]⟩
def rowPwrDieK : RegRow := ⟨(.body 0x203), 0x0, 0, 1, .single, [⟨"K", 0, 9, .ro, 0x100⟩]⟩
def rowPwrDieCore : RegRow := ⟨(.body 0x203), 0x4, 0, 1, .single, [⟨"MV", 0, 12, .ro, 0x0⟩, ⟨"AMPS", 16, 12, .ro, 0x0⟩]⟩
def rowPwrDieArr : RegRow := ⟨(.body 0x203), 0x8, 0, 1, .single, [⟨"MV", 0, 12, .ro, 0x0⟩, ⟨"AMPS", 16, 12, .ro, 0x0⟩]⟩
def rowPwrDieOc : RegRow := ⟨(.body 0x203), 0xc, 0, 1, .single, [⟨"CORE_OC", 0, 1, .ro, 0x0⟩, ⟨"ARR_OC", 1, 1, .ro, 0x0⟩, ⟨"RAIL_OFF", 2, 1, .ro, 0x0⟩, ⟨"TRIPS", 8, 16, .rc, 0x0⟩]⟩
def rowThmDie : RegRow := ⟨(.body 0x203), 0x100, 0, 1, .single, [⟨"TRIP", 0, 1, .ro, 0x0⟩]⟩
def rowCnfStatus : RegRow := ⟨(.brim 0x204), 0x0, 0, 1, .single, [⟨"BOOT_DONE", 0, 1, .ro, 0x0⟩, ⟨"BUSY", 1, 1, .ro, 0x0⟩, ⟨"TARGET", 2, 3, .ro, 0x0⟩, ⟨"DEFERRED", 5, 1, .ro, 0x0⟩]⟩
def rowCnfMode : RegRow := ⟨(.brim 0x204), 0x4, 0, 1, .single, [⟨"GLIDE", 0, 8, .rw, 0x8c⟩]⟩
def rowCnfEvents : RegRow := ⟨(.brim 0x204), 0x8, 0, 1, .single, [⟨"FAIL", 0, 1, .w1c, 0x0⟩, ⟨"SUSPECT", 1, 1, .w1c, 0x0⟩, ⟨"ABORTED", 2, 1, .w1c, 0x0⟩, ⟨"DEFERRED", 3, 1, .w1c, 0x0⟩, ⟨"SKIPPED", 4, 1, .w1c, 0x0⟩]⟩
def rowCnfLastfail : RegRow := ⟨(.brim 0x204), 0xc, 0, 1, .single, [⟨"TARGET", 0, 3, .ro, 0x0⟩, ⟨"DIE", 8, 6, .ro, 0x0⟩, ⟨"UNIT", 14, 15, .ro, 0x0⟩, ⟨"COUNT", 29, 2, .ro, 0x0⟩]⟩
def rowCnfFails : RegRow := ⟨(.brim 0x204), 0x10, 0, 1, .single, [⟨"FAILS", 0, 16, .rc, 0x0⟩, ⟨"SUSPECTS", 16, 16, .rc, 0x0⟩]⟩
def rowCnfPeriod : RegRow := ⟨(.brim 0x204), 0x14, 0, 1, .single, [⟨"ARRAY_H", 0, 8, .rw, 0x18⟩, ⟨"SENSOR_S", 8, 8, .rw, 0xa⟩]⟩
def rowCnfBandgap : RegRow := ⟨(.brim 0x204), 0x18, 0, 1, .single, [⟨"VBG", 0, 16, .ro, 0x0⟩]⟩
def rowCnfDiode : RegRow := ⟨(.brim 0x204), 0x40, 4, 9, .single, [⟨"IDEAL", 0, 16, .ro, 0x20c⟩, ⟨"STORED", 16, 1, .ro, 0x0⟩, ⟨"SUSPECT", 17, 1, .ro, 0x0⟩]⟩
def rowCnfDieStatus : RegRow := ⟨(.body 0x206), 0x0, 0, 1, .single, [⟨"CALIBRATING", 0, 10, .ro, 0x0⟩, ⟨"SUSPECT", 16, 10, .ro, 0x0⟩]⟩
def rowCnfDieBowtrim : RegRow := ⟨(.body 0x206), 0x4, 0, 1, .single, [⟨"TRIM", 0, 8, .ro, 0x0⟩, ⟨"GLIDING", 8, 1, .ro, 0x0⟩]⟩
def rowCnfDiePll : RegRow := ⟨(.body 0x206), 0x8, 0, 1, .single, [⟨"FABRIC_OK", 0, 1, .ro, 0x0⟩, ⟨"MESH_OK", 1, 1, .ro, 0x0⟩, ⟨"MISMATCHES", 8, 8, .rc, 0x0⟩]⟩
def rowCnfDieArray : RegRow := ⟨(.body 0x206), 0xc, 0, 1, .single, [⟨"TILE", 0, 9, .ro, 0x0⟩, ⟨"PHYS", 9, 6, .ro, 0x0⟩, ⟨"FAILED", 15, 1, .ro, 0x0⟩, ⟨"DUE", 16, 16, .ro, 0x0⟩]⟩
def rowFltStatus : RegRow := ⟨(.body 0x205), 0x0, 0, 1, .single, [⟨"NEWEST", 0, 4, .ro, 0x0⟩, ⟨"ANY", 4, 1, .ro, 0x0⟩, ⟨"COUNT", 8, 16, .rc, 0x0⟩]⟩
def rowFltClass : RegRow := ⟨(.body 0x205), 0x4, 0, 1, .single, [⟨"SCHEDULE", 0, 4, .rc, 0x0⟩, ⟨"MEMORY", 4, 4, .rc, 0x0⟩, ⟨"ARITH", 8, 4, .rc, 0x0⟩, ⟨"LINK", 12, 4, .rc, 0x0⟩, ⟨"POWER", 16, 4, .rc, 0x0⟩, ⟨"FIRMWARE", 20, 4, .rc, 0x0⟩, ⟨"HOST", 24, 4, .rc, 0x0⟩]⟩
def rowFltPounce : RegRow := ⟨(.body 0x205), 0x18, 0, 1, .single, [⟨"CORRECTED", 0, 16, .rc, 0x0⟩, ⟨"UNCORR", 16, 8, .rc, 0x0⟩, ⟨"PARITY", 24, 8, .rc, 0x0⟩]⟩
def rowFltRec : RegRow := ⟨(.body 0x205), 0x100, 4, 128, .single, [⟨"WORD", 0, 32, .ro, 0x0⟩]⟩
def rowFltBstatus : RegRow := ⟨(.brim 0x20F), 0x0, 0, 1, .single, [⟨"NEWEST", 0, 4, .ro, 0x0⟩, ⟨"ANY", 4, 1, .ro, 0x0⟩, ⟨"COUNT", 8, 16, .rc, 0x0⟩]⟩
def rowFltBclass : RegRow := ⟨(.brim 0x20F), 0x4, 0, 1, .single, [⟨"SCHEDULE", 0, 4, .rc, 0x0⟩, ⟨"MEMORY", 4, 4, .rc, 0x0⟩, ⟨"ARITH", 8, 4, .rc, 0x0⟩, ⟨"LINK", 12, 4, .rc, 0x0⟩, ⟨"POWER", 16, 4, .rc, 0x0⟩, ⟨"FIRMWARE", 20, 4, .rc, 0x0⟩, ⟨"HOST", 24, 4, .rc, 0x0⟩]⟩
def rowFltRepairlim : RegRow := ⟨(.prin 0x20F), 0x8, 0, 1, .single, [⟨"MS", 0, 16, .rw, 0x2710⟩, ⟨"ACTIVE", 16, 16, .ro, 0x0⟩]⟩
def rowFltHead : RegRow := ⟨(.prin 0x20F), 0xc, 0, 1, .single, [⟨"INDEX", 0, 12, .ro, 0x0⟩]⟩
def rowFltLost : RegRow := ⟨(.prin 0x20F), 0x10, 0, 1, .single, [⟨"COUNT", 0, 32, .rc, 0x0⟩]⟩
def rowFltReplay : RegRow := ⟨(.prin 0x20F), 0x14, 0, 1, .single, [⟨"RUNS", 0, 16, .rc, 0x0⟩, ⟨"REPEATS", 16, 16, .rc, 0x0⟩]⟩
def rowFltBpounce : RegRow := ⟨(.brim 0x20F), 0x18, 0, 1, .single, [⟨"CORRECTED", 0, 16, .rc, 0x0⟩, ⟨"UNCORR", 16, 8, .rc, 0x0⟩, ⟨"PARITY", 24, 8, .rc, 0x0⟩]⟩
def rowFltBrec : RegRow := ⟨(.brim 0x20F), 0x100, 4, 128, .single, [⟨"WORD", 0, 32, .ro, 0x0⟩]⟩
def rowFltLog : RegRow := ⟨(.prin 0x20F), 0x10000, 4, 32768, .single, [⟨"WORD", 0, 32, .ro, 0x0⟩]⟩
def rowBootId : RegRow := ⟨(.brim 0x200), 0x0, 0, 1, .single, [⟨"DIE", 0, 6, .ro, 0x0⟩, ⟨"STEPPING", 8, 4, .ro, 0x0⟩, ⟨"CONTRACTS", 12, 4, .ro, 0x0⟩, ⟨"GRADE", 16, 2, .ro, 0x0⟩]⟩
def rowBootBid : RegRow := ⟨(.body 0x200), 0x0, 0, 1, .single, [⟨"DIE", 0, 6, .ro, 0x0⟩, ⟨"STEPPING", 8, 4, .ro, 0x0⟩, ⟨"CONTRACTS", 12, 4, .ro, 0x0⟩, ⟨"GRADE", 16, 2, .ro, 0x0⟩]⟩
def rowBootRole : RegRow := ⟨(.brim 0x200), 0x4, 0, 1, .single, [⟨"BRIM", 0, 2, .ro, 0x0⟩, ⟨"PRI_SEL", 2, 1, .ro, 0x0⟩, ⟨"PRINCIPAL", 3, 1, .ro, 0x0⟩, ⟨"PRINCIPAL_DIE", 4, 2, .ro, 0x0⟩]⟩
def rowBootStatus : RegRow := ⟨(.brim 0x200), 0x8, 0, 1, .single, [⟨"PHASE", 0, 5, .ro, 0x1⟩, ⟨"FAIL_CODE", 8, 8, .ro, 0x0⟩, ⟨"BANK", 16, 1, .ro, 0x0⟩, ⟨"SR_SLOT", 17, 1, .ro, 0x0⟩, ⟨"RECOVERY", 18, 1, .ro, 0x0⟩, ⟨"TRIAL", 19, 1, .ro, 0x0⟩, ⟨"OWNER_SET", 20, 1, .ro, 0x0⟩, ⟨"NO_START", 21, 1, .ro, 0x0⟩, ⟨"DEGRADED", 22, 1, .ro, 0x0⟩]⟩
def rowBootComp : RegRow := ⟨(.brim 0x200), 0xc, 0, 1, .single, [⟨"STATE", 0, 12, .ro, 0x0⟩, ⟨"RESTARTS", 16, 8, .rc, 0x0⟩]⟩
def rowBootSerialLo : RegRow := ⟨(.brim 0x200), 0x10, 0, 1, .lo, [⟨"SERIAL", 0, 32, .ro, 0x0⟩]⟩
def rowBootSerialHi : RegRow := ⟨(.brim 0x200), 0x14, 0, 1, .hi, [⟨"SERIAL", 0, 32, .ro, 0x0⟩]⟩
def rowBootCensus : RegRow := ⟨(.brim 0x200), 0x18, 0, 1, .single, [⟨"FIRST_GOOD", 0, 21, .ro, 0x0⟩, ⟨"CENSUS_DONE", 31, 1, .ro, 0x0⟩]⟩
def rowBootFwVer : RegRow := ⟨(.brim 0x200), 0x1c, 0, 1, .single, [⟨"SET_VERSION", 0, 32, .ro, 0x0⟩]⟩
def rowBootWdog : RegRow := ⟨(.brim 0x200), 0x20, 0, 1, .single, [⟨"KICK", 0, 1, .wo, 0x0⟩, ⟨"EXPIRIES", 8, 8, .rc, 0x0⟩]⟩
def rowBootReset : RegRow := ⟨(.brim 0x200), 0x24, 0, 1, .single, [⟨"KEY", 16, 16, .wo, 0x0⟩]⟩
def rowBootGood : RegRow := ⟨(.brim 0x200), 0x28, 0, 1, .single, [⟨"GOOD", 0, 21, .ro, 0x0⟩]⟩
def rowBootUpdCmd : RegRow := ⟨(.prinB 0x200), 0x30, 0, 1, .single, [⟨"OP", 0, 2, .wo, 0x0⟩, ⟨"KIND", 2, 1, .wo, 0x0⟩, ⟨"FETCH", 3, 1, .wo, 0x0⟩, ⟨"SOURCE", 4, 8, .wo, 0x0⟩]⟩
def rowBootUpdAddr : RegRow := ⟨(.prinB 0x200), 0x34, 0, 1, .single, [⟨"OFFSET", 6, 20, .rw, 0x0⟩]⟩
def rowBootUpdLen : RegRow := ⟨(.prinB 0x200), 0x38, 0, 1, .single, [⟨"BYTES", 0, 25, .rw, 0x0⟩]⟩
def rowBootUpdStatus : RegRow := ⟨(.prinB 0x200), 0x3c, 0, 1, .single, [⟨"STATE", 0, 3, .ro, 0x0⟩, ⟨"REASON", 8, 8, .ro, 0x0⟩]⟩
def rowBootOwner : RegRow := ⟨(.prinB 0x200), 0x40, 4, 12, .single, [⟨"HASH", 0, 32, .rw, 0x0⟩]⟩
def rowBootOwnerBurn : RegRow := ⟨(.prinB 0x200), 0x70, 0, 1, .single, [⟨"BURN", 0, 1, .w1s, 0x0⟩]⟩
def rowHifStatus : RegRow := ⟨(.prin 0x20C), 0x0, 0, 1, .single, [⟨"LINK_UP", 0, 1, .ro, 0x0⟩, ⟨"SPEED", 1, 3, .ro, 0x0⟩, ⟨"WIDTH", 4, 2, .ro, 0x0⟩, ⟨"SESSION", 6, 2, .ro, 0x0⟩, ⟨"REFUSE", 8, 2, .ro, 0x0⟩]⟩
def rowHifSessionVer : RegRow := ⟨(.prin 0x20C), 0x4, 0, 1, .single, [⟨"MINOR", 0, 16, .rw, 0x0⟩, ⟨"MAJOR", 16, 16, .rw, 0x0⟩]⟩
def rowHifSessionCmd : RegRow := ⟨(.prin 0x20C), 0x8, 0, 1, .single, [⟨"OPEN", 0, 1, .wo, 0x0⟩, ⟨"CLOSE", 1, 1, .wo, 0x0⟩]⟩
def rowHifHeartbeat : RegRow := ⟨(.prin 0x20C), 0xc, 0, 1, .single, [⟨"VALUE", 0, 32, .wo, 0x0⟩]⟩
def rowHifApertureLo : RegRow := ⟨(.prin 0x20C), 0x10, 0, 1, .lo, [⟨"BASE", 25, 7, .rw, 0x0⟩]⟩
def rowHifApertureHi : RegRow := ⟨(.prin 0x20C), 0x14, 0, 1, .hi, [⟨"BASE", 0, 16, .rw, 0x0⟩]⟩
def rowHifCqBaseLo : RegRow := ⟨(.prin 0x20C), 0x18, 0, 1, .lo, [⟨"BASE", 6, 26, .rw, 0x0⟩]⟩
def rowHifCqBaseHi : RegRow := ⟨(.prin 0x20C), 0x1c, 0, 1, .hi, [⟨"BASE", 0, 32, .rw, 0x0⟩]⟩
def rowHifSbBaseLo : RegRow := ⟨(.prin 0x20C), 0x20, 0, 1, .lo, [⟨"BASE", 6, 26, .rw, 0x0⟩]⟩
def rowHifSbBaseHi : RegRow := ⟨(.prin 0x20C), 0x24, 0, 1, .hi, [⟨"BASE", 0, 32, .rw, 0x0⟩]⟩
def rowHifRingcfg : RegRow := ⟨(.prin 0x20C), 0x28, 0, 1, .single, [⟨"SQ0_LOG", 0, 4, .rw, 0xc⟩, ⟨"SQ1_LOG", 4, 4, .rw, 0xc⟩, ⟨"CQ_LOG", 8, 4, .rw, 0xc⟩, ⟨"SB_PERIOD", 16, 10, .rw, 0xa⟩]⟩
def rowHifSq0Tail : RegRow := ⟨(.prin 0x20C), 0x2c, 0, 1, .single, [⟨"TAIL", 0, 12, .rw, 0x0⟩]⟩
def rowHifSq1Tail : RegRow := ⟨(.prin 0x20C), 0x30, 0, 1, .single, [⟨"TAIL", 0, 12, .rw, 0x0⟩]⟩
def rowHifSqHead : RegRow := ⟨(.prin 0x20C), 0x34, 0, 1, .single, [⟨"SQ0", 0, 12, .ro, 0x0⟩, ⟨"SQ1", 16, 12, .ro, 0x0⟩]⟩
def rowHifCqHead : RegRow := ⟨(.prin 0x20C), 0x38, 0, 1, .single, [⟨"HEAD", 0, 12, .rw, 0x0⟩]⟩
def rowHifCqTail : RegRow := ⟨(.prin 0x20C), 0x3c, 0, 1, .single, [⟨"TAIL", 0, 12, .ro, 0x0⟩, ⟨"PHASE", 12, 1, .ro, 0x1⟩]⟩
def rowHifLastAcc : RegRow := ⟨(.prin 0x20C), 0x40, 0, 1, .single, [⟨"SEQ", 0, 32, .ro, 0x0⟩]⟩
def rowHifLastEmit : RegRow := ⟨(.prin 0x20C), 0x44, 0, 1, .single, [⟨"SEQ", 0, 32, .ro, 0x0⟩]⟩
def rowHifHbMs : RegRow := ⟨(.prin 0x20C), 0x48, 0, 1, .single, [⟨"MS", 0, 32, .ro, 0x7d0⟩]⟩
def rowHifOrphanS : RegRow := ⟨(.prin 0x20C), 0x4c, 0, 1, .single, [⟨"S", 0, 32, .ro, 0x1e⟩]⟩
def rowHifEvents : RegRow := ⟨(.prin 0x20C), 0x50, 0, 1, .single, [⟨"LINK_DOWN", 0, 1, .w1c, 0x0⟩, ⟨"REFUSED", 1, 1, .w1c, 0x0⟩, ⟨"SEQ_DROP", 2, 1, .w1c, 0x0⟩, ⟨"MALFORMED", 3, 1, .w1c, 0x0⟩, ⟨"DMA_ERR", 4, 1, .w1c, 0x0⟩, ⟨"OUT_OF_RANGE", 5, 1, .w1c, 0x0⟩, ⟨"STALE", 6, 1, .w1c, 0x0⟩, ⟨"RETAIN_DROP", 7, 1, .w1c, 0x0⟩]⟩
def rowHifErrcnt : RegRow := ⟨(.prin 0x20C), 0x54, 0, 1, .single, [⟨"DROPS", 0, 16, .rc, 0x0⟩, ⟨"RETAIN_LOST", 16, 16, .rc, 0x0⟩]⟩
def rowHifParked : RegRow := ⟨(.prin 0x20C), 0x58, 0, 1, .single, [⟨"PARKED", 0, 13, .ro, 0x0⟩, ⟨"RETAINED", 16, 13, .ro, 0x0⟩]⟩
def rowSnsCtrl : RegRow := ⟨(.brim 0x20D), 0x0, 0, 1, .single, [⟨"ENABLE", 0, 1, .rw, 0x1⟩, ⟨"REF", 1, 2, .rw, 0x0⟩]⟩
def rowSnsStatus : RegRow := ⟨(.brim 0x20D), 0x4, 0, 1, .single, [⟨"FAST", 0, 4, .ro, 0x0⟩, ⟨"SETTLING", 4, 1, .ro, 0x0⟩, ⟨"BUSY", 5, 1, .ro, 0x0⟩, ⟨"BUDGET", 16, 10, .ro, 0x2c2⟩]⟩
def rowSnsEvents : RegRow := ⟨(.brim 0x20D), 0x8, 0, 1, .single, [⟨"WARN", 0, 1, .w1c, 0x0⟩, ⟨"EMERG", 1, 1, .w1c, 0x0⟩, ⟨"BUDGET", 2, 1, .w1c, 0x0⟩, ⟨"WARNS", 16, 16, .rc, 0x0⟩]⟩
def rowSnsTrim : RegRow := ⟨(.brim 0x20D), 0xc, 0, 1, .single, [⟨"OFFSET", 0, 6, .rw, 0x0⟩, ⟨"GAIN", 8, 8, .rw, 0x0⟩]⟩
def rowSnsSeq : RegRow := ⟨(.brim 0x20D), 0x10, 4, 4, .single, [⟨"CONT", 0, 1, .rw, 0x0⟩, ⟨"FAST_EN", 1, 1, .rw, 0x1⟩]⟩
def rowSnsEnt : RegRow := ⟨(.brim 0x20D), 0x100, 16, 16, .single, [⟨"CHAN", 0, 5, .rw, 0x0⟩, ⟨"SEQ", 5, 2, .rw, 0x0⟩, ⟨"VALID", 7, 1, .rw, 0x0⟩, ⟨"SAMPLE", 8, 10, .rw, 0x0⟩, ⟨"GAIN", 18, 2, .rw, 0x0⟩, ⟨"DIODE", 20, 1, .rw, 0x0⟩, ⟨"WARN_EN", 21, 1, .rw, 0x0⟩, ⟨"EM_EN", 22, 1, .rw, 0x0⟩]⟩
def rowSnsLim : RegRow := ⟨(.brim 0x20D), 0x104, 16, 16, .single, [⟨"WARN", 0, 12, .rw, 0xfff⟩, ⟨"EMERG", 16, 12, .rw, 0xfff⟩]⟩
def rowSnsRel : RegRow := ⟨(.brim 0x20D), 0x108, 16, 16, .single, [⟨"RELEASE", 0, 12, .rw, 0x0⟩]⟩
def rowSnsRes : RegRow := ⟨(.brim 0x20D), 0x10c, 16, 16, .single, [⟨"CODE", 0, 12, .ro, 0x0⟩, ⟨"WARN", 12, 1, .ro, 0x0⟩, ⟨"EMERG", 13, 1, .ro, 0x0⟩, ⟨"BELOW_REL", 14, 1, .ro, 0x0⟩, ⟨"SETTLING", 15, 1, .ro, 0x0⟩, ⟨"COUNT", 16, 16, .ro, 0x0⟩]⟩
def rowCtrCycleLo : RegRow := ⟨.ctr, 0x0, 0, 1, .lo, [⟨"CYCLE", 0, 32, .ro, 0x0⟩]⟩
def rowCtrCycleHi : RegRow := ⟨.ctr, 0x4, 0, 1, .hi, [⟨"CYCLE", 0, 32, .ro, 0x0⟩]⟩
def rowCtrStatus : RegRow := ⟨.ctr, 0x8, 0, 1, .single, [⟨"OVF", 0, 8, .w1c, 0x0⟩, ⟨"SH_OVF", 8, 8, .ro, 0x0⟩, ⟨"FROZEN", 16, 1, .ro, 0x0⟩]⟩
def rowCtrSel : RegRow := ⟨.ctr, 0x10, 16, 8, .single, [⟨"EVENT", 0, 8, .rw, 0x0⟩, ⟨"EN", 8, 1, .rw, 0x0⟩, ⟨"LAYER", 9, 8, .rw, 0x0⟩, ⟨"LAYER_EN", 17, 1, .rw, 0x0⟩]⟩
def rowCtrValLo : RegRow := ⟨.ctr, 0x14, 16, 8, .lo, [⟨"VAL", 0, 32, .rw, 0x0⟩]⟩
def rowCtrValHi : RegRow := ⟨.ctr, 0x18, 16, 8, .hi, [⟨"VAL", 0, 16, .rw, 0x0⟩]⟩
def rowCtrShCycleLo : RegRow := ⟨.ctr, 0x100, 0, 1, .lo, [⟨"CYCLE", 0, 32, .ro, 0x0⟩]⟩
def rowCtrShCycleHi : RegRow := ⟨.ctr, 0x104, 0, 1, .hi, [⟨"CYCLE", 0, 32, .ro, 0x0⟩]⟩
def rowCtrShLo : RegRow := ⟨.ctr, 0x110, 8, 8, .lo, [⟨"SH", 0, 32, .ro, 0x0⟩]⟩
def rowCtrShHi : RegRow := ⟨.ctr, 0x114, 8, 8, .hi, [⟨"SH", 0, 16, .ro, 0x0⟩]⟩
def rowCtrLayA : RegRow := ⟨.tile, 0x2003200, 8, 8, .single, [⟨"LAYER", 0, 8, .ro, 0x0⟩, ⟨"VALID", 8, 1, .ro, 0x0⟩, ⟨"NAP_OVF", 16, 16, .rc, 0x0⟩]⟩
def rowCtrLayB : RegRow := ⟨.tile, 0x2003204, 8, 8, .single, [⟨"QSAT", 0, 16, .rc, 0x0⟩, ⟨"JUMPS", 16, 16, .rc, 0x0⟩]⟩
def rowCtrRdCtrl : RegRow := ⟨(.prin 0x20E), 0x1000, 0, 1, .single, [⟨"ARM", 0, 1, .w1s, 0x0⟩]⟩
def rowCtrRdStatus : RegRow := ⟨(.prin 0x20E), 0x1004, 0, 1, .single, [⟨"STATE", 0, 2, .ro, 0x0⟩, ⟨"SEQ", 16, 16, .ro, 0x0⟩]⟩
def rowCtrRdBuf : RegRow := ⟨(.prin 0x20E), 0x1008, 0, 1, .single, [⟨"OFFSET", 6, 19, .rw, 0x0⟩]⟩
def rowCtrRdCount : RegRow := ⟨(.prin 0x20E), 0x100c, 0, 1, .single, [⟨"BLOCKS", 0, 9, .rw, 0x0⟩]⟩
def rowCtrRdList : RegRow := ⟨(.prin 0x20E), 0x1100, 4, 256, .single, [⟨"DIE", 0, 6, .rw, 0x0⟩, ⟨"REGION", 6, 10, .rw, 0x0⟩]⟩

/-- The row of a register. -/
def Reg.row : Reg → RegRow
  | .tilId => rowTilId
  | .tilStatus => rowTilStatus
  | .tilOpidx => rowTilOpidx
  | .tilDmaStatus => rowTilDmaStatus
  | .tilTicket => rowTilTicket
  | .tilMeter => rowTilMeter
  | .tilLand => rowTilLand
  | .scpEvents => rowScpEvents
  | .scpConflict => rowScpConflict
  | .scpCollide => rowScpCollide
  | .scpEcc => rowScpEcc
  | .tilBoundLo => rowTilBoundLo
  | .tilBoundHi => rowTilBoundHi
  | .tilBoundLen => rowTilBoundLen
  | .arrState => rowArrState
  | .arrMap0 => rowArrMap0
  | .arrMap1 => rowArrMap1
  | .arrBank => rowArrBank
  | .arrStage => rowArrStage
  | .arrGood => rowArrGood
  | .arrEvents => rowArrEvents
  | .arrMismatch => rowArrMismatch
  | .tilDesc => rowTilDesc
  | .mshPart => rowMshPart
  | .mshBorder => rowMshBorder
  | .mshEdge => rowMshEdge
  | .mshDiscard => rowMshDiscard
  | .mshTfence => rowMshTfence
  | .mshBedge => rowMshBedge
  | .bowStatus => rowBowStatus
  | .bowTimeLo => rowBowTimeLo
  | .bowTimeHi => rowBowTimeHi
  | .bowSkipCmd => rowBowSkipCmd
  | .bowEmerg => rowBowEmerg
  | .bowEmergSrc => rowBowEmergSrc
  | .bowFreezeAtLo => rowBowFreezeAtLo
  | .bowFreezeAtHi => rowBowFreezeAtHi
  | .bowFreezeCmd => rowBowFreezeCmd
  | .bowFreezeLastLo => rowBowFreezeLastLo
  | .bowFreezeLastHi => rowBowFreezeLastHi
  | .bowSlotErr => rowBowSlotErr
  | .bowStep => rowBowStep
  | .bowHoldlim => rowBowHoldlim
  | .bowLasthold => rowBowLasthold
  | .bowJob => rowBowJob
  | .bowTrim => rowBowTrim
  | .reqStatus => rowReqStatus
  | .reqKill => rowReqKill
  | .reqAdmitLo => rowReqAdmitLo
  | .reqAdmitHi => rowReqAdmitHi
  | .reqShare => rowReqShare
  | .reqPtgt => rowReqPtgt
  | .reqOcc => rowReqOcc
  | .reqLast => rowReqLast
  | .reqRefuse => rowReqRefuse
  | .reqDlmiss => rowReqDlmiss
  | .reqEvents => rowReqEvents
  | .reqSlot => rowReqSlot
  | .smpStatus => rowSmpStatus
  | .smpLookup => rowSmpLookup
  | .smpEvents => rowSmpEvents
  | .smpDrawnLo => rowSmpDrawnLo
  | .smpDrawnHi => rowSmpDrawnHi
  | .smpProposedLo => rowSmpProposedLo
  | .smpProposedHi => rowSmpProposedHi
  | .smpAcceptedLo => rowSmpAcceptedLo
  | .smpAcceptedHi => rowSmpAcceptedHi
  | .smpLists => rowSmpLists
  | .kvpEvents => rowKvpEvents
  | .kvpLowater => rowKvpLowater
  | .kvpGeom => rowKvpGeom
  | .kvpTotal => rowKvpTotal
  | .kvpFree => rowKvpFree
  | .kvpIdle => rowKvpIdle
  | .kvpHot => rowKvpHot
  | .kvpLayers => rowKvpLayers
  | .kvpCwZero => rowKvpCwZero
  | .pfxCtrl => rowPfxCtrl
  | .pfxBase => rowPfxBase
  | .pfxUsed => rowPfxUsed
  | .pfxEvents => rowPfxEvents
  | .pfxHitLo => rowPfxHitLo
  | .pfxHitHi => rowPfxHitHi
  | .pfxEpoch => rowPfxEpoch
  | .fulStatus => rowFulStatus
  | .fulEvents => rowFulEvents
  | .fulJobSrcLo => rowFulJobSrcLo
  | .fulJobSrcHi => rowFulJobSrcHi
  | .fulJobTgt => rowFulJobTgt
  | .fulJobPush => rowFulJobPush
  | .fulResult => rowFulResult
  | .fulCommitStep => rowFulCommitStep
  | .fulCommitCtrl => rowFulCommitCtrl
  | .fulGen => rowFulGen
  | .fulStaged => rowFulStaged
  | .lnkEvents => rowLnkEvents
  | .lnkCfg => rowLnkCfg
  | .lnkState => rowLnkState
  | .lnkPartnerLo => rowLnkPartnerLo
  | .lnkPartnerHi => rowLnkPartnerHi
  | .lnkPinfo => rowLnkPinfo
  | .lnkLat => rowLnkLat
  | .lnkErr => rowLnkErr
  | .lnkRetry => rowLnkRetry
  | .lnkChan => rowLnkChan
  | .lnkCwin => rowLnkCwin
  | .lnkCnote => rowLnkCnote
  | .ethCtrl => rowEthCtrl
  | .ethStatus => rowEthStatus
  | .ethMacLo => rowEthMacLo
  | .ethMacHi => rowEthMacHi
  | .ethIpv4 => rowEthIpv4
  | .ethIpv6 => rowEthIpv6
  | .ethUdp => rowEthUdp
  | .ethChannels => rowEthChannels
  | .ethDropHdr => rowEthDropHdr
  | .ethDropOsp => rowEthDropOsp
  | .ethEvents => rowEthEvents
  | .lasEvents => rowLasEvents
  | .lasSpsrc => rowLasSpsrc
  | .lasCtrl => rowLasCtrl
  | .lasState => rowLasState
  | .lasHours => rowLasHours
  | .lasEqhours => rowLasEqhours
  | .lasRise => rowLasRise
  | .lasTcase => rowLasTcase
  | .lasOpt0 => rowLasOpt0
  | .lasOpt1 => rowLasOpt1
  | .pwrStatus => rowPwrStatus
  | .pwrDev => rowPwrDev
  | .pwrInput => rowPwrInput
  | .pwrEvents => rowPwrEvents
  | .pwrAllot => rowPwrAllot
  | .pwrBase => rowPwrBase
  | .pwrPlan => rowPwrPlan
  | .pwrMeas => rowPwrMeas
  | .pwrK => rowPwrK
  | .pwrWait => rowPwrWait
  | .thmStatus => rowThmStatus
  | .thmLimits => rowThmLimits
  | .thmTh => rowThmTh
  | .thmThLim => rowThmThLim
  | .thmBody => rowThmBody
  | .thmCrown => rowThmCrown
  | .pwrDieK => rowPwrDieK
  | .pwrDieCore => rowPwrDieCore
  | .pwrDieArr => rowPwrDieArr
  | .pwrDieOc => rowPwrDieOc
  | .thmDie => rowThmDie
  | .cnfStatus => rowCnfStatus
  | .cnfMode => rowCnfMode
  | .cnfEvents => rowCnfEvents
  | .cnfLastfail => rowCnfLastfail
  | .cnfFails => rowCnfFails
  | .cnfPeriod => rowCnfPeriod
  | .cnfBandgap => rowCnfBandgap
  | .cnfDiode => rowCnfDiode
  | .cnfDieStatus => rowCnfDieStatus
  | .cnfDieBowtrim => rowCnfDieBowtrim
  | .cnfDiePll => rowCnfDiePll
  | .cnfDieArray => rowCnfDieArray
  | .fltStatus => rowFltStatus
  | .fltClass => rowFltClass
  | .fltPounce => rowFltPounce
  | .fltRec => rowFltRec
  | .fltBstatus => rowFltBstatus
  | .fltBclass => rowFltBclass
  | .fltRepairlim => rowFltRepairlim
  | .fltHead => rowFltHead
  | .fltLost => rowFltLost
  | .fltReplay => rowFltReplay
  | .fltBpounce => rowFltBpounce
  | .fltBrec => rowFltBrec
  | .fltLog => rowFltLog
  | .bootId => rowBootId
  | .bootBid => rowBootBid
  | .bootRole => rowBootRole
  | .bootStatus => rowBootStatus
  | .bootComp => rowBootComp
  | .bootSerialLo => rowBootSerialLo
  | .bootSerialHi => rowBootSerialHi
  | .bootCensus => rowBootCensus
  | .bootFwVer => rowBootFwVer
  | .bootWdog => rowBootWdog
  | .bootReset => rowBootReset
  | .bootGood => rowBootGood
  | .bootUpdCmd => rowBootUpdCmd
  | .bootUpdAddr => rowBootUpdAddr
  | .bootUpdLen => rowBootUpdLen
  | .bootUpdStatus => rowBootUpdStatus
  | .bootOwner => rowBootOwner
  | .bootOwnerBurn => rowBootOwnerBurn
  | .hifStatus => rowHifStatus
  | .hifSessionVer => rowHifSessionVer
  | .hifSessionCmd => rowHifSessionCmd
  | .hifHeartbeat => rowHifHeartbeat
  | .hifApertureLo => rowHifApertureLo
  | .hifApertureHi => rowHifApertureHi
  | .hifCqBaseLo => rowHifCqBaseLo
  | .hifCqBaseHi => rowHifCqBaseHi
  | .hifSbBaseLo => rowHifSbBaseLo
  | .hifSbBaseHi => rowHifSbBaseHi
  | .hifRingcfg => rowHifRingcfg
  | .hifSq0Tail => rowHifSq0Tail
  | .hifSq1Tail => rowHifSq1Tail
  | .hifSqHead => rowHifSqHead
  | .hifCqHead => rowHifCqHead
  | .hifCqTail => rowHifCqTail
  | .hifLastAcc => rowHifLastAcc
  | .hifLastEmit => rowHifLastEmit
  | .hifHbMs => rowHifHbMs
  | .hifOrphanS => rowHifOrphanS
  | .hifEvents => rowHifEvents
  | .hifErrcnt => rowHifErrcnt
  | .hifParked => rowHifParked
  | .snsCtrl => rowSnsCtrl
  | .snsStatus => rowSnsStatus
  | .snsEvents => rowSnsEvents
  | .snsTrim => rowSnsTrim
  | .snsSeq => rowSnsSeq
  | .snsEnt => rowSnsEnt
  | .snsLim => rowSnsLim
  | .snsRel => rowSnsRel
  | .snsRes => rowSnsRes
  | .ctrCycleLo => rowCtrCycleLo
  | .ctrCycleHi => rowCtrCycleHi
  | .ctrStatus => rowCtrStatus
  | .ctrSel => rowCtrSel
  | .ctrValLo => rowCtrValLo
  | .ctrValHi => rowCtrValHi
  | .ctrShCycleLo => rowCtrShCycleLo
  | .ctrShCycleHi => rowCtrShCycleHi
  | .ctrShLo => rowCtrShLo
  | .ctrShHi => rowCtrShHi
  | .ctrLayA => rowCtrLayA
  | .ctrLayB => rowCtrLayB
  | .ctrRdCtrl => rowCtrRdCtrl
  | .ctrRdStatus => rowCtrRdStatus
  | .ctrRdBuf => rowCtrRdBuf
  | .ctrRdCount => rowCtrRdCount
  | .ctrRdList => rowCtrRdList

def allRegs0 : List Reg :=
  [.tilId, .tilStatus, .tilOpidx, .tilDmaStatus, .tilTicket, .tilMeter, .tilLand, .scpEvents, .scpConflict, .scpCollide, .scpEcc, .tilBoundLo, .tilBoundHi, .tilBoundLen, .arrState, .arrMap0, .arrMap1, .arrBank, .arrStage, .arrGood, .arrEvents, .arrMismatch, .tilDesc, .mshPart, .mshBorder, .mshEdge, .mshDiscard, .mshTfence, .mshBedge, .bowStatus, .bowTimeLo, .bowTimeHi, .bowSkipCmd, .bowEmerg, .bowEmergSrc, .bowFreezeAtLo, .bowFreezeAtHi, .bowFreezeCmd, .bowFreezeLastLo, .bowFreezeLastHi, .bowSlotErr, .bowStep, .bowHoldlim, .bowLasthold, .bowJob, .bowTrim, .reqStatus, .reqKill]
def allRegs1 : List Reg :=
  [.reqAdmitLo, .reqAdmitHi, .reqShare, .reqPtgt, .reqOcc, .reqLast, .reqRefuse, .reqDlmiss, .reqEvents, .reqSlot, .smpStatus, .smpLookup, .smpEvents, .smpDrawnLo, .smpDrawnHi, .smpProposedLo, .smpProposedHi, .smpAcceptedLo, .smpAcceptedHi, .smpLists, .kvpEvents, .kvpLowater, .kvpGeom, .kvpTotal, .kvpFree, .kvpIdle, .kvpHot, .kvpLayers, .kvpCwZero, .pfxCtrl, .pfxBase, .pfxUsed, .pfxEvents, .pfxHitLo, .pfxHitHi, .pfxEpoch, .fulStatus, .fulEvents, .fulJobSrcLo, .fulJobSrcHi, .fulJobTgt, .fulJobPush, .fulResult, .fulCommitStep, .fulCommitCtrl, .fulGen, .fulStaged, .lnkEvents]
def allRegs2 : List Reg :=
  [.lnkCfg, .lnkState, .lnkPartnerLo, .lnkPartnerHi, .lnkPinfo, .lnkLat, .lnkErr, .lnkRetry, .lnkChan, .lnkCwin, .lnkCnote, .ethCtrl, .ethStatus, .ethMacLo, .ethMacHi, .ethIpv4, .ethIpv6, .ethUdp, .ethChannels, .ethDropHdr, .ethDropOsp, .ethEvents, .lasEvents, .lasSpsrc, .lasCtrl, .lasState, .lasHours, .lasEqhours, .lasRise, .lasTcase, .lasOpt0, .lasOpt1, .pwrStatus, .pwrDev, .pwrInput, .pwrEvents, .pwrAllot, .pwrBase, .pwrPlan, .pwrMeas, .pwrK, .pwrWait, .thmStatus, .thmLimits, .thmTh, .thmThLim, .thmBody, .thmCrown]
def allRegs3 : List Reg :=
  [.pwrDieK, .pwrDieCore, .pwrDieArr, .pwrDieOc, .thmDie, .cnfStatus, .cnfMode, .cnfEvents, .cnfLastfail, .cnfFails, .cnfPeriod, .cnfBandgap, .cnfDiode, .cnfDieStatus, .cnfDieBowtrim, .cnfDiePll, .cnfDieArray, .fltStatus, .fltClass, .fltPounce, .fltRec, .fltBstatus, .fltBclass, .fltRepairlim, .fltHead, .fltLost, .fltReplay, .fltBpounce, .fltBrec, .fltLog, .bootId, .bootBid, .bootRole, .bootStatus, .bootComp, .bootSerialLo, .bootSerialHi, .bootCensus, .bootFwVer, .bootWdog, .bootReset, .bootGood, .bootUpdCmd, .bootUpdAddr, .bootUpdLen, .bootUpdStatus, .bootOwner, .bootOwnerBurn]
def allRegs4 : List Reg :=
  [.hifStatus, .hifSessionVer, .hifSessionCmd, .hifHeartbeat, .hifApertureLo, .hifApertureHi, .hifCqBaseLo, .hifCqBaseHi, .hifSbBaseLo, .hifSbBaseHi, .hifRingcfg, .hifSq0Tail, .hifSq1Tail, .hifSqHead, .hifCqHead, .hifCqTail, .hifLastAcc, .hifLastEmit, .hifHbMs, .hifOrphanS, .hifEvents, .hifErrcnt, .hifParked, .snsCtrl, .snsStatus, .snsEvents, .snsTrim, .snsSeq, .snsEnt, .snsLim, .snsRel, .snsRes, .ctrCycleLo, .ctrCycleHi, .ctrStatus, .ctrSel, .ctrValLo, .ctrValHi, .ctrShCycleLo, .ctrShCycleHi, .ctrShLo, .ctrShHi, .ctrLayA, .ctrLayB, .ctrRdCtrl, .ctrRdStatus, .ctrRdBuf, .ctrRdCount]
def allRegs5 : List Reg :=
  [.ctrRdList]

/-- Every register. -/
def allRegs : List Reg :=
  List.flatten [allRegs0, allRegs1, allRegs2, allRegs3, allRegs4, allRegs5]

/-- The _HI half of the pair that a _LO register opens (R9). -/
def Reg.hiOf : Reg → Option Reg
  | .tilBoundLo => some .tilBoundHi
  | .bowTimeLo => some .bowTimeHi
  | .bowFreezeAtLo => some .bowFreezeAtHi
  | .bowFreezeLastLo => some .bowFreezeLastHi
  | .reqAdmitLo => some .reqAdmitHi
  | .smpDrawnLo => some .smpDrawnHi
  | .smpProposedLo => some .smpProposedHi
  | .smpAcceptedLo => some .smpAcceptedHi
  | .pfxHitLo => some .pfxHitHi
  | .fulJobSrcLo => some .fulJobSrcHi
  | .lnkPartnerLo => some .lnkPartnerHi
  | .ethMacLo => some .ethMacHi
  | .bootSerialLo => some .bootSerialHi
  | .hifApertureLo => some .hifApertureHi
  | .hifCqBaseLo => some .hifCqBaseHi
  | .hifSbBaseLo => some .hifSbBaseHi
  | .ctrCycleLo => some .ctrCycleHi
  | .ctrValLo => some .ctrValHi
  | .ctrShCycleLo => some .ctrShCycleHi
  | .ctrShLo => some .ctrShHi
  | _ => none

/-- The _LO half of the pair that a _HI register closes (R9). -/
def Reg.loOf (r : Reg) : Option Reg := allRegs.find? (fun q => q.hiOf == some r)

/-! ## Device addresses -/

/-- Bits [47:42], the die index. -/
def addrDie (a : Nat) : Nat := a / 2 ^ 42
/-- Bits [41:32], the region. -/
def addrRegion (a : Nat) : Nat := a / 2 ^ 32 % 1024
/-- Bits [31:0], the offset. -/
def addrOff (a : Nat) : Nat := a % 2 ^ 32
/-- A device address from its parts. -/
def mkAddr (die region off : Nat) : Nat := die * 2 ^ 42 + region * 2 ^ 32 + off

/-- Die index of a Brim die. -/
def brimIdx (b : Nat) : Nat := 0x20 + b
/-- Die index of a Crown die. -/
def crownIdx (c : Nat) : Nat := 0x24 + c

/-- The offset of unit `u`'s register table in a region, if the region is the unit's (R27 to R32, R509). -/
def RUnit.base (u : RUnit) (die region : Nat) : Option Nat :=
  let isBody := decide (die < 0x20)
  let isBrim := decide (0x20 ≤ die ∧ die < 0x24)
  let isCrown := decide (0x24 ≤ die ∧ die < 0x28)
  match u with
  | .tile    => if isBody && decide (region < 512) then some 0 else none
  | .body r  => if isBody && region == r then some 0 else none
  | .brim r  => if isBrim && region == r then some 0 else none
  | .prin r  => if isBrim && region == r then some 0 else none
  | .brimP r => if isBrim && region == r then some 0 else none
  | .prinB r => if isBrim && region == r then some 0 else none
  | .crown r => if isCrown && region == r then some 0 else none
  | .ctr     =>
    if isBody && decide (region < 512) then some 0x02003000
    else if (isBody && region == 0x204) || (isBrim && region == 0x20E) then some 0 else none

/-- The index of a register of row `w` at an offset. -/
def RegRow.idxAt (w : RegRow) (die region off : Nat) : Option Nat :=
  match w.unit.base die region with
  | none => none
  | some b =>
    let o := b + w.offset
    if off < o then none
    else if w.stride = 0 then (if off = o then some 0 else none)
    else if (off - o) % w.stride = 0 ∧ (off - o) / w.stride < w.count then some ((off - o) / w.stride) else none

def regAtAux (die region off : Nat) : List Reg → Option RegKey
  | [] => none
  | r :: rs =>
    match r.row.idxAt die region off with
    | some i => some ⟨die, region, r, i⟩
    | none => regAtAux die region off rs

/-- The register at a device address. -/
def regAt (a : Nat) : Option RegKey := regAtAux (addrDie a) (addrRegion a) (addrOff a) allRegs

/-- The device address of a register. -/
def RegKey.addr (k : RegKey) : Nat :=
  let b := match k.reg.row.unit.base k.die k.region with
    | some b => b
    | none => 0
  mkAddr k.die k.region (b + k.reg.row.offset + k.reg.row.stride * k.idx)

/-- The memories of the address map (R28, R30, R32): a scratchpad, an array window, Brim SRAM, Crown DRAM. -/
inductive MemKind where
  | scratchpad | arrayWindow | sram | dram
  deriving DecidableEq, Repr

/-- The memory that a device address lies in. -/
def memAt (a : Nat) : Option MemKind :=
  let d := addrDie a; let r := addrRegion a; let o := addrOff a
  if d < 0x20 then
    if r < 512 then
      if o < 0x60000 then some .scratchpad
      else if 0x01000000 ≤ o ∧ o < 0x01800000 then some .arrayWindow else none
    else none
  else if d < 0x24 then (if r = 0 ∧ o < 0x04000000 then some .sram else none)
  else if d < 0x28 then (if r < 8 then some .dram else none)
  else none

/-- The reset value of the fields of a register row. -/
def resetFields : List RField → Nat
  | [] => 0
  | f :: r => f.rst % 2 ^ f.len * 2 ^ f.lo + resetFields r

/-- A SNS_ENT word from its fields (17_sensor_converter.md, SNS_ENT_e). -/
def snsEntWord (chan seq sample gain diode warnEn emEn : Nat) : Nat :=
  chan + seq <<< 5 + 1 <<< 7 + sample <<< 8 + gain <<< 18 + diode <<< 20 + warnEn <<< 21 + emEn <<< 22

/-- The default sequence of R504. Gain ×8 is code 3 and gain ×1 code 0; the entries of 74 clocks are in diode mode
(R497). Entries 10 and 11 are unused on BM2 and BM3. -/
def snsEntReset (die e : Nat) : Nat :=
  if e ≤ 7 then snsEntWord e 0 30 3 1 1 1
  else if e = 8 then snsEntWord 8 1 30 3 1 1 1
  else if e = 9 then snsEntWord 9 1 26 0 0 1 1
  else if e = 10 ∨ e = 11 then (if die = 0x20 ∨ die = 0x21 then snsEntWord e 2 26 0 0 0 0 else 0)
  else snsEntWord e 3 26 0 0 0 0

/-- The value of a register that nothing has written since reset: the reset column of its table. -/
def RegKey.resetVal (k : RegKey) : W32 :=
  match k.reg with
  | .snsEnt => BitVec.ofNat 32 (snsEntReset k.die k.idx)
  | r => BitVec.ofNat 32 (resetFields r.row.fields)

end Sys2Proof.Machine
end

