-- ==== Sys2Proof/Machine/Ops.lean ====
section
/-!
DEFINITION. The named operations over the state: sparse tables, the one memory in its canonical form, registers and
their fields, the units of the device, free values, and which Brim die guards each die.
-/

namespace Sys2Proof.Machine

/-! ## Sparse tables -/

/-- The value at `k`, if the table lists one. -/
def Tbl.find {κ α : Type} [DecidableEq κ] : Tbl κ α → κ → Option α
  | [], _ => none
  | (k', v) :: r, k => if k' = k then some v else Tbl.find r k

/-- The value at `k`, or `d` where the table lists none. -/
def Tbl.get {κ α : Type} [DecidableEq κ] (t : Tbl κ α) (k : κ) (d : α) : α := (Tbl.find t k).getD d

/-- The table with `v` at `k`. -/
def Tbl.put {κ α : Type} [DecidableEq κ] : Tbl κ α → κ → α → Tbl κ α
  | [], k, v => [(k, v)]
  | (k', v') :: r, k, v => if k' = k then (k', v) :: r else (k', v') :: Tbl.put r k v

/-- The table without `k`. -/
def Tbl.del {κ α : Type} [DecidableEq κ] : Tbl κ α → κ → Tbl κ α
  | [], _ => []
  | (k', v') :: r, k => if k' = k then Tbl.del r k else (k', v') :: Tbl.del r k

/-- Every listed value changed by `f`. -/
def Tbl.mapV {κ α : Type} (t : Tbl κ α) (f : κ → α → α) : Tbl κ α := t.map (fun e => (e.1, f e.1 e.2))

/-! ## Memory

The memory is one list of (device address, byte) pairs: addresses strictly rising, no pair equal to what an unlisted
address reads as. The spec gives RAM no power-on contents; an unlisted byte reads 0 (DESIGN CHOICE, log 4). -/

/-- What a byte that nothing has written reads as. -/
def Memory.blank : Byte := 0

/-- The byte at an address. -/
def Memory.read : List Host.Cell → Nat → Byte
  | [], _ => Memory.blank
  | (c, d) :: r, a => if c = a then d else Memory.read r a

/-- Every listed address lies above `lo`, they rise strictly, and no entry is blank. -/
def Memory.above : Nat → List Host.Cell → Bool
  | _, [] => true
  | lo, (c, d) :: r => decide (lo < c) && decide (d ≠ Memory.blank) && Memory.above c r

/-- The canonical form. -/
def Memory.wf : List Host.Cell → Bool
  | [] => true
  | (c, d) :: r => decide (d ≠ Memory.blank) && Memory.above c r

/-- The cells that consecutive bytes from an address up make: blank ones are not listed. -/
def Memory.cells : Nat → List Byte → List Host.Cell
  | _, [] => []
  | a, b :: r => if b = Memory.blank then Memory.cells (a + 1) r else (a, b) :: Memory.cells (a + 1) r

/-- The memory with consecutive bytes written from an address up. Writing the blank value removes the entry. -/
def Memory.writeN (m : List Host.Cell) (a : Nat) (l : List Byte) : List Host.Cell :=
  m.filter (fun c => decide (c.1 < a)) ++ Memory.cells a l ++ m.filter (fun c => decide (a + l.length ≤ c.1))

/-- The memory with one byte written. -/
def Memory.write (m : List Host.Cell) (a : Nat) (b : Byte) : List Host.Cell := Memory.writeN m a [b]

/-- Consecutive bytes from an address up. -/
def Memory.readN (m : List Host.Cell) : Nat → Nat → List Byte
  | _, 0 => []
  | a, n + 1 => Memory.read m a :: Memory.readN m (a + 1) n

/-- `n` bytes from `a` up, from cells in rising order of which none lies below `a`. -/
def Memory.spread : Nat → List Host.Cell → Nat → List Byte
  | 0, _, _ => []
  | n + 1, [], a => Memory.blank :: Memory.spread n [] (a + 1)
  | n + 1, (c, d) :: r, a =>
    if c = a then d :: Memory.spread n r (a + 1) else Memory.blank :: Memory.spread n ((c, d) :: r) (a + 1)

/-- `n` bytes from `a` up of a memory in canonical form, in one pass over it. -/
def Memory.bulk (m : List Host.Cell) (a n : Nat) : List Byte :=
  Memory.spread n (m.filter (fun c => decide (a ≤ c.1) && decide (c.1 < a + n))) a

/-- `n` bytes of the device memory from an address up. -/
def State.bytes (s : State) (a n : Nat) : List Byte := Memory.readN s.mem a n

/-- The poison marks of the 8-byte words that bytes `a` to `a + n - 1` touch. -/
def State.poisonedIn (s : State) (a n : Nat) : Bool :=
  s.poison.any (fun w => decide (a / 8 ≤ w) && decide (w ≤ (a + n - 1) / 8) && decide (0 < n))

/-- Marks poisoned every word that bytes `a` to `a + n - 1` touch. -/
def State.poisonOn (s : State) (a n : Nat) : State :=
  let first := a / 8
  let cnt := if n = 0 then 0 else (a + n - 1) / 8 - first + 1
  let add := ((List.range cnt).map (first + ·)).filter (fun w => !s.poison.contains w)
  { s with poison := s.poison ++ add }

/-- Marks good every word that bytes `a` to `a + n - 1` cover whole (R143: a write of only some bytes of a poisoned word
leaves it poisoned). -/
def State.poisonOff (s : State) (a n : Nat) : State :=
  { s with poison := s.poison.filter (fun w => decide (8 * w < a) || decide (a + n < 8 * w + 8)) }

/-- Writes bytes: poisoned ones mark every word touched, good ones make good every word written whole (R143). -/
def State.setBytesP (s : State) (a : Nat) (b : List Byte) (p : Bool) : State :=
  let s1 := { s with mem := Memory.writeN s.mem a b }
  if p then s1.poisonOn a b.length else s1.poisonOff a b.length

/-- Writes good bytes. -/
def State.setBytes (s : State) (a : Nat) (b : List Byte) : State := s.setBytesP a b false

/-- A little-endian number in memory. -/
def State.memLe (s : State) (a n : Nat) : Nat := leNat (s.bytes a n)

/-! ## Free values (log 5) -/

/-- A value the spec does not state, and the state with the draw counted. -/
def State.draw (s : State) : Nat × State := (Config.freeValue s.fresh, { s with fresh := s.fresh + 1 })

/-- A choice the spec leaves open, and the state with the draw counted. -/
def State.drawB (s : State) : Bool × State := (Config.freeChoice s.fresh, { s with fresh := s.fresh + 1 })

/-! ## Registers -/

/-- The stored word of a register. -/
def State.reg (s : State) (k : RegKey) : W32 := Tbl.get s.regs k k.resetVal

/-- Stores a register word. -/
def State.setReg (s : State) (k : RegKey) (v : W32) : State := { s with regs := Tbl.put s.regs k v }

/-- A register word as a number. -/
def State.regN (s : State) (k : RegKey) : Nat := (s.reg k).toNat

/-- A field of a stored register. -/
def State.fldOf (s : State) (k : RegKey) (lo len : Nat) : Nat := fld (s.reg k).toNat lo len

/-- Writes a field of a stored register. -/
def State.setFld (s : State) (k : RegKey) (lo len v : Nat) : State :=
  s.setReg k (BitVec.ofNat 32 (putFld (s.reg k).toNat lo len v))

/-- Sets an event bit. -/
def State.setBit (s : State) (k : RegKey) (i : Nat) : State := s.setFld k i 1 1

/-- Adds to a counter field that saturates. -/
def State.bump (s : State) (k : RegKey) (lo len n : Nat) : State := s.setFld k lo len (satAddN len (s.fldOf k lo len) n)

/-- A register of a unit region of die index `d`. -/
def uReg (d region : Nat) (r : Reg) (i : Nat := 0) : RegKey := ⟨d, region, r, i⟩

/-- The principal's die index. -/
def State.prinDie (s : State) : Nat := brimIdx s.boot.principal

/-- A register of the principal Brim die. -/
def State.pReg (s : State) (region : Nat) (r : Reg) (i : Nat := 0) : RegKey := ⟨s.prinDie, region, r, i⟩

/-- A register of a tile. -/
def tReg (t : TileId) (r : Reg) (i : Nat := 0) : RegKey := ⟨t.die.val, t.region.val, r, i⟩

/-- A 64-bit pair. -/
def State.pair (s : State) (lo hi : RegKey) : Nat := s.regN lo + 2 ^ 32 * s.regN hi

/-- Stores a 64-bit pair. -/
def State.setPair (s : State) (lo hi : RegKey) (v : Nat) : State :=
  (s.setReg lo (BitVec.ofNat 32 v)).setReg hi (BitVec.ofNat 32 (v / 2 ^ 32))

/-- Adds to a 64-bit count held in a pair. -/
def State.bumpPair (s : State) (lo hi : RegKey) (n : Nat) : State := s.setPair lo hi (s.pair lo hi + n)

/-! ## Units -/

/-- The tile at a position. -/
def State.tile (s : State) (t : TileId) : Tile := Tbl.get s.tiles t Tile.reset
/-- Replaces a tile. -/
def State.setTile (s : State) (t : TileId) (x : Tile) : State := { s with tiles := Tbl.put s.tiles t x }
/-- Changes a tile. -/
def State.modTile (s : State) (t : TileId) (f : Tile → Tile) : State := s.setTile t (f (s.tile t))

/-- A physical array. -/
def State.arr (s : State) (a : ArrayId) : Arr := Tbl.get s.arrays a Arr.reset
/-- Replaces an array. -/
def State.setArr (s : State) (a : ArrayId) (x : Arr) : State := { s with arrays := Tbl.put s.arrays a x }
/-- Changes an array. -/
def State.modArr (s : State) (a : ArrayId) (f : Arr → Arr) : State := s.setArr a (f (s.arr a))

/-- A die by its die index. -/
def State.die (s : State) (d : Nat) : Die := Tbl.get s.dies d Die.reset
/-- Replaces a die. -/
def State.setDie (s : State) (d : Nat) (x : Die) : State := { s with dies := Tbl.put s.dies d x }
/-- Changes a die. -/
def State.modDie (s : State) (d : Nat) (f : Die → Die) : State := s.setDie d (f (s.die d))

/-- A partition. -/
def State.part (s : State) (p : Nat) : Part := Tbl.get s.parts p Part.reset
/-- Replaces a partition. -/
def State.setPart (s : State) (p : Nat) (x : Part) : State := { s with parts := Tbl.put s.parts p x }
/-- Changes a partition. -/
def State.modPart (s : State) (p : Nat) (f : Part → Part) : State := s.setPart p (f (s.part p))

/-- A request-table slot. -/
def State.slot (s : State) (i : Nat) : Slot := Tbl.get s.slots i Slot.reset
/-- Replaces a slot. -/
def State.setSlot (s : State) (i : Nat) (x : Slot) : State := { s with slots := Tbl.put s.slots i x }
/-- Changes a slot. -/
def State.modSlot (s : State) (i : Nat) (f : Slot → Slot) : State := s.setSlot i (f (s.slot i))

/-- A page set of a partition. -/
def State.page (s : State) (p i : Nat) : PageSet := Tbl.get s.pages (p, i) PageSet.reset
/-- Replaces a page set. -/
def State.setPage (s : State) (p i : Nat) (x : PageSet) : State := { s with pages := Tbl.put s.pages (p, i) x }
/-- Changes a page set. -/
def State.modPage (s : State) (p i : Nat) (f : PageSet → PageSet) : State := s.setPage p i (f (s.page p i))

/-- A prefix index entry by set and way. -/
def State.idx (s : State) (e : Nat × Nat) : IdxEntry := Tbl.get s.index e IdxEntry.reset
/-- Replaces a prefix index entry. -/
def State.setIdx (s : State) (e : Nat × Nat) (x : IdxEntry) : State := { s with index := Tbl.put s.index e x }

/-- A lane of a link. -/
def State.lane (s : State) (l n : Nat) : Lane := Tbl.get s.lanes (l, n) Lane.reset
/-- Replaces a lane. -/
def State.setLane (s : State) (l n : Nat) (x : Lane) : State := { s with lanes := Tbl.put s.lanes (l, n) x }
/-- Changes a lane. -/
def State.modLane (s : State) (l n : Nat) (f : Lane → Lane) : State := s.setLane l n (f (s.lane l n))

/-- A channel of a service port. -/
def State.chan (s : State) (port c : Nat) : Chan := Tbl.get s.chans (port, c) Chan.reset
/-- Replaces a channel. -/
def State.setChan (s : State) (port c : Nat) (x : Chan) : State := { s with chans := Tbl.put s.chans (port, c) x }

/-- A laser module. -/
def State.laser (s : State) (m : Nat) : Laser := Tbl.get s.lasers m Laser.reset
/-- Replaces a laser module. -/
def State.setLaser (s : State) (m : Nat) (x : Laser) : State := { s with lasers := Tbl.put s.lasers m x }

/-- A sensor converter of a Brim die. -/
def State.sensor (s : State) (b : Nat) : Sensor := Tbl.get s.sensors b Sensor.reset
/-- Replaces a sensor converter. -/
def State.setSensor (s : State) (b : Nat) (x : Sensor) : State := { s with sensors := Tbl.put s.sensors b x }

/-- Whether a PLL's count check failed and its recalibration has not completed: its unit stays down or stops (R417). -/
def State.pllDown (s : State) (p : Pll) : Bool := s.conf.pllBad.contains p

/-- A component's state in BOOT_COMP (R462): 0 RUNNING, 1 RESTARTING, 2 DOWN, 3 ABSENT. -/
def State.compState (s : State) (c : Nat) : Nat := s.fldOf (s.pReg 0x200 .bootComp) (2 * c - 2) 2

/-- Without the serving assist no bolt load, flip or repair proceeds (R462). -/
def State.servingUp (s : State) : Bool := s.compState 2 != 2

/-- Whether an interval has its next turn (log 61). -/
def State.due (s : State) (t : Timer) : Bool := decide (Tbl.get s.timers t 0 ≤ s.bow.time)

/-- An interval has its next turn from a time on. -/
def State.armTimer (s : State) (t : Timer) (next : Nat) : State := { s with timers := Tbl.put s.timers t next }

/-- The first multiple of a period after a time. -/
def nextTick (now period : Nat) : Nat := (now / period + 1) * period

/-- What happens at an interval: nothing before its next turn, which is `next` once it has happened (log 61). -/
def State.every (s : State) (t : Timer) (next : Nat) (f : State → State) : State := if s.due t then f (s.armTimer t next) else s

/-- Appends to what leaves the device. -/
def State.emit (s : State) (o : Output) : State := { s with outputs := s.outputs ++ [o] }

/-- The device address of a byte of a tile's region (R28). -/
def tAddr (t : TileId) (off : Nat) : Nat := mkAddr t.die.val t.region.val off

/-- The tile at a die and region number. -/
def tileOf (die region : Nat) : TileId := ⟨Fin.ofNat 32 die, Fin.ofNat 512 region⟩

/-! ## The guard of each die (12_power_thermal.md, "Temperatures") -/

/-- The first Body die that a Brim die's converter reads. -/
def guardBase (b : Nat) : Nat :=
  match b with
  | 0 => 0 | 1 => 16 | 2 => 4 | _ => 20

/-- The Body die of remote diode k < 8 of a Brim die, in ascending order. -/
def diodeBody (b k : Nat) : Nat := if k < 4 then guardBase b + k else guardBase b + 8 + (k - 4)

/-- The Crown die of remote diode 8 of a Brim die. -/
def diodeCrown (b : Nat) : Nat :=
  match b with
  | 0 => 0 | 1 => 2 | 2 => 1 | _ => 3

/-- The die index of remote diode k of a Brim die. -/
def diodeDie (b k : Nat) : Nat := if k < 8 then diodeBody b k else crownIdx (diodeCrown b)

/-- The Brim die whose converter reads a die. -/
def guardOf (d : Nat) : Nat :=
  if d < 0x20 then (if d / 8 < 2 then 0 else 1) + (if d % 8 < 4 then 0 else 2)
  else if d < 0x24 then d - 0x20
  else (if d - 0x24 < 2 then 0 else 1) + (if (d - 0x24) % 2 = 0 then 0 else 2)

end Sys2Proof.Machine
end

