-- ==== Sys2Proof/Machine/Flags.lean ====
section
/-!
DEFINITION. Every flag a command raises beside its result: the counted events of the programmable counters with their
overflow bits (R511, R514), and fault records with their action bits, local logs and class counts (R441 to R443).
-/

namespace Sys2Proof.Machine

/-! ## Counter events (R511, R514) -/

/-- The events of R514 that the layer filter applies to. -/
def eventHasLayer (ev : Nat) : Bool :=
  (decide (0x02 ≤ ev) && decide (ev ≤ 0x08)) || (decide (0x0F ≤ ev) && decide (ev ≤ 0x12))

/-- One programmable counter counts `n` events (R511): it wraps modulo 2⁴⁸ and sets its OVF bit. -/
def State.ctrAdd (s : State) (d region k n : Nat) : State :=
  let lo := uReg d region .ctrValLo k
  let hi := uReg d region .ctrValHi k
  let v := s.pair lo hi + n
  let s1 := s.setPair lo hi (v % 2 ^ 48)
  if v < 2 ^ 48 then s1 else s1.setBit (uReg d region .ctrStatus) k

/-- Whether counter `k` of a set counts event `ev` of a layer. -/
def State.ctrCounts (s : State) (d region k ev : Nat) (layer : Option Nat) : Bool :=
  let sel := s.regN (uReg d region .ctrSel k)
  bit sel 8 && fld sel 0 8 == ev &&
    (!bit sel 17 || !eventHasLayer ev || layer == some (fld sel 9 8))

/-- `n` events `ev` in the counter set of a region. -/
def State.event (s : State) (d region ev n : Nat) (layer : Option Nat := none) : State :=
  (List.range 8).foldl (fun s k => if s.ctrCounts d region k ev layer then s.ctrAdd d region k n else s) s

/-- `n` events of a tile. -/
def State.tileEvent (s : State) (t : TileId) (ev n : Nat) (layer : Option Nat := none) : State :=
  s.event t.die.val t.region.val ev n layer

/-- The layer row of a tile's window (R515): the index k whose row counts the layer. -/
def State.layerRow (s : State) (t : TileId) (layer : Nat) : Option Nat :=
  (List.range 8).find? (fun k =>
    let a := s.regN (tReg t .ctrLayA k)
    bit a 8 && fld a 0 8 == layer)

/-! ## Fault records (R441 to R443) -/

/-- The partition of a Body die, by its units (R34). -/
def unitOfDie (d : Nat) : Nat := d / 8 + 4 * (d % 8 / 2)

/-- The Body dies of unit u (R34). -/
def unitDies (u : Nat) : List Nat := [8 * (u % 4) + 2 * (u / 4), 8 * (u % 4) + 2 * (u / 4) + 1]

/-- The Body dies of a partition's run of units (R35). -/
def Part.dies (x : Part) : List Nat := ((List.range x.units).map (fun i => unitDies (x.unitBase + i))).flatten

/-- The partition that owns a Body die, from MSH_PART (R40, R168). -/
def State.partOfDie (s : State) (d : Nat) : Option Nat :=
  let w := s.regN (uReg d 0x201 .mshPart)
  if bit w 4 then some (fld w 0 4) else none

/-- The step number of a partition (BOW_STEP_p, R217). -/
def State.stepOf (s : State) (p : Nat) : W32 := (s.part p).stepNo

/-- The action bits of FLAGS for a fault code (R441, R443). -/
def faultFlags (code : Nat) : Byte :=
  let job : List Nat := [0x1004, 0x1010, 0x1011, 0x1012, 0x1013, 0x1014, 0x1015, 0x1016, 0x1017, 0x1018, 0x1019, 0x101B, 0x101C,
    0x3007, 0x4004, 0x5001]
  let fence : List Nat := [0x2004, 0x2005, 0x2007, 0x2010, 0x2011, 0x3002]
  let replay : List Nat := [0x2001, 0x2005, 0x3002, 0x3003, 0x3004, 0x3005]
  let load : List Nat := [0x1001, 0x1002, 0x1003, 0x1005, 0x6010, 0x6011, 0x6012, 0x6013, 0x6014, 0x6015]
  let repair : List Nat := [0x2004, 0x2011, 0x3002]
  BitVec.ofNat 8 (boolN (job.contains code) + 2 * boolN (fence.contains code) + 4 * boolN (replay.contains code)
    + 8 * boolN (load.contains code) + 16 * boolN (repair.contains code))

/-- The 32 bytes of a fault record (R441). -/
def FaultRec.bytes (r : FaultRec) : List Byte :=
  leBytes 2 r.code.toNat ++ [r.flags] ++
  [BitVec.ofNat 8 ((r.part.map (· % 16)).getD 0x80)] ++
  [BitVec.ofNat 8 (r.die % 64), BitVec.ofNat 8 r.unit] ++ leBytes 2 (r.region % 1024) ++
  leBytes 4 r.opidx ++ leBytes 4 r.step.toNat ++ leBytes 8 r.time ++ leBytes 8 r.detail

/-- The FLT_STATUS, FLT_CLASS and region of a die's local log (R442). -/
def fltRegs (d : Nat) : RegKey × RegKey :=
  if d < 0x20 then (uReg d 0x205 .fltStatus, uReg d 0x205 .fltClass)
  else (uReg d 0x20F .fltBstatus, uReg d 0x20F .fltBclass)

/-- Writes a fault record: into the die's local log, counted by class, and on its way to the central log (R442). A
Crown die has no local log. -/
def State.putFault (s : State) (r : FaultRec) : State :=
  let d := s.die r.die
  let s1 := s.setDie r.die { d with toCentral := d.toCentral ++ [r] }
  if r.die < 0x24 then
    let k := d.fnext % 16
    let s2 := s1.modDie r.die (fun d => { d with flog := Tbl.put d.flog k r, fnext := (k + 1) % 16 })
    let (st, cl) := fltRegs r.die
    let s3 := ((s2.setFld st 0 4 k).setBit st 4).bump st 8 16 1
    let c := r.code.toNat / 4096
    if 1 ≤ c ∧ c ≤ 7 then s3.bump cl (4 * (c - 1)) 4 1 else s3
  else s1

/-- Records a fault (R441) at the running bowstring time, with the partition's step number. -/
def State.fault (s : State) (code die unit region detail : Nat) (part : Option Nat := none) (opidx : Nat := 0) : State :=
  s.putFault ⟨BitVec.ofNat 16 code, faultFlags code, part, die, unit, region, opidx, (part.map s.stepOf).getD 0,
    s.bow.time, detail⟩

/-- The fault-record DIE and UNIT of an access port (R33): the PCIe endpoint is the host interface of the principal, a
control core the firmware component of its Brim die. -/
def State.portDU (s : State) (port : Port) : Nat × Nat :=
  match port with
  | .pcie => (s.prinDie, 0x8B)
  | .core b _ => (brimIdx b.val, 0x87)

/-- Whether an address lies in a principal's region of a Brim die that does not hold the role (R31). -/
def State.otherRole (s : State) (a : Nat) : Bool :=
  decide (0x20 ≤ addrDie a) && decide (addrDie a < 0x24) && addrDie a != s.prinDie &&
    [0x205, 0x206, 0x207, 0x208, 0x20C, 0x210].contains (addrRegion a)

/-- An address fault naming the requesting port (R33, R544); an access that only meets the wrong role records none (R31). -/
def State.addrFault (s : State) (port : Port) (a : Nat) : State :=
  let du := s.portDU port
  if s.otherRole a then s else s.fault 0x2008 du.1 du.2 0 a

/-- An address fault naming a tile (R33, R31). -/
def State.addrFaultTile (s : State) (t : TileId) (unit a opidx : Nat) : State :=
  if s.otherRole a then s else s.fault 0x2008 t.die.val unit t.region.val a (s.partOfDie t.die.val) opidx

/-- A firmware fault naming a register (R545, R443): UNIT firmware component. -/
def State.fwFault (s : State) (a : Nat) : State := s.fault 0x6001 (addrDie a) 0x87 (addrRegion a) a

/-- A host fault, class 0x7 (R443, R494). -/
def State.hostFault (s : State) (code detail : Nat) : State := s.fault code s.prinDie 0x8B 0x20C detail

end Sys2Proof.Machine
end

