-- ==== Sys2Proof/Machine/Pages.lean ====
section
/-!
DEFINITION. KV page sets and the prefix index (08_kv_and_prefixes.md): earmarks (R238), hot indices (R278 to R280),
the prefix key and block hash (R285, R286), scores and eviction (R290), lookup (R291), insertion (R293), release (R284)
and poison (R294).
-/

namespace Sys2Proof.Machine

/-! ## Hashing -/

/-- mix of R285: the steps of R255 after its first line, modulo 2⁶⁴. -/
def mix64 (x : Nat) : Nat :=
  let m := 2 ^ 64
  let x := (x ^^^ (x / 2 ^ 30)) * 0xBF58476D1CE4E5B9 % m
  let x := (x ^^^ (x / 2 ^ 27)) * 0x94D049BB133111EB % m
  x ^^^ (x / 2 ^ 31)

/-- The generator of R255. -/
def u24 (seed pos : Nat) : Nat := mix64 (seed ^^^ (pos * 0x9E3779B97F4A7C15 % 2 ^ 64)) / 2 ^ 40

/-- The prefix key of R285. -/
def prefixKey (epoch adapter tenant part : Nat) : Nat :=
  let a := if adapter = 0xFFFF then 0 else adapter + 1
  mix64 ((epoch * 2 ^ 48 + a * 2 ^ 32 + tenant * 2 ^ 8 + part) % 2 ^ 64)

/-- The digest of a block's tokens (R286), numbered from `j`. -/
def blockDigest : List Nat → Nat → Nat → Nat
  | [], _, g => g
  | t :: r, j, g => blockDigest r (j + 1) ((g + mix64 ((t + j * 2 ^ 32 + 0x9E3779B97F4A7C15) % 2 ^ 64)) % 2 ^ 64)

/-- The hash of block `b` of a context (R286). -/
def blockHash (key : Nat) (ctx : List Nat) : Nat → Nat
  | 0 => mix64 (key ^^^ blockDigest (ctx.take 64) 0 0)
  | b + 1 => mix64 (blockHash key ctx b ^^^ blockDigest ((ctx.drop (64 * (b + 1))).take 64) 0 0)

/-! ## Page sets and index entries -/

/-- The code of a page set's STATE (R268). -/
def PageState.code : PageState → Nat
  | .free => 0 | .priv => 1 | .indexed => 2 | .void => 3

/-- The 320 bytes of a page-set record, with its HOT_REF (R268). -/
def PageSet.bytes (x : PageSet) (hotRef : Nat) : List Byte :=
  leBytes 4 (x.ref % 2 ^ 24) ++ [BitVec.ofNat 8 (x.state.code + 4 * boolN x.out), BitVec.ofNat 8 x.fill] ++ leBytes 2 (Nat.min hotRef 65535) ++
  leBytes 8 x.tent.toNat ++ leBytes 8 x.hash.toNat ++ leBytes 2 (x.owner % 2 ^ 12) ++ leBytes 2 (x.hotIdx.getD 0xFFFF) ++
  leBytes 2 (match x.earmark with
    | some e => e % 2 ^ 12 + 2 ^ 15
    | none => 0) ++ List.replicate 34 (0 : Byte) ++
  (List.range 64).flatMap (fun r => match x.tokens[r]? with
    | some t => leBytes 4 (t % 2 ^ 17 + 2 ^ 31)
    | none => leBytes 4 0)

/-- The page set of a record's bytes; HOT_REF is counted, not kept. -/
def PageSet.ofBytes (b : List Byte) : PageSet :=
  let w (o : Nat) : Nat := leAt b o 4
  let e := leAt b 28 2
  { ref := w 0 % 2 ^ 24, state := match leAt b 4 1 % 4 with
      | 0 => .free | 1 => .priv | 2 => .indexed | _ => .void,
    out := bit (leAt b 4 1) 2, fill := leAt b 5 1, tent := BitVec.ofNat 64 (leAt b 8 8), hash := BitVec.ofNat 64 (leAt b 16 8),
    owner := leAt b 24 2 % 2 ^ 12, hotIdx := if leAt b 26 2 = 0xFFFF then none else some (leAt b 26 2),
    earmark := if bit e 15 then some (e % 2 ^ 12) else none,
    tokens := ((List.range 64).map (fun r => w (64 + 4 * r))).takeWhile (fun v => bit v 31) |>.map (fun v => v % 2 ^ 17) }

/-- The 4 bytes of an entry of a page vector (R269). -/
def vecBytes (v : Option Nat) : List Byte := leBytes 4 (match v with
  | some i => i % 2 ^ 28 + 2 ^ 31
  | none => 0)

/-- The 32 bytes of an index entry (R289). -/
def IdxEntry.bytes (e : IdxEntry) : List Byte :=
  leBytes 8 e.hash.toNat ++ leBytes 4 (e.page % 2 ^ 28 + 2 ^ 29 * boolN e.cold + 2 ^ 31 * boolN e.valid) ++ leBytes 4 e.coldSlot ++
  leBytes 8 e.lastUse ++ leBytes 2 e.hits ++ leBytes 1 (e.part % 16) ++ leBytes 1 0 ++ leBytes 2 e.tenant ++ leBytes 2 0

/-- The index entry of its bytes. -/
def IdxEntry.ofBytes (b : List Byte) : IdxEntry :=
  let w := leAt b 8 4
  { valid := bit w 31, hash := BitVec.ofNat 64 (leAt b 0 8), page := w % 2 ^ 28, cold := bit w 29, coldSlot := leAt b 12 4,
    lastUse := leAt b 16 8, hits := leAt b 24 2, part := leAt b 26 1 % 16, tenant := leAt b 28 2 }

/-- The index entry that names page set `i` of partition `p`. -/
def State.entryOfPage (s : State) (p i : Nat) : Option ((Nat × Nat) × IdxEntry) :=
  s.index.find? (fun e => e.2.valid && !e.2.cold && e.2.part == p && e.2.page == i)

/-- The valid entry with this hash, partition and tenant. -/
def State.entryOfHash (s : State) (h p tenant : Nat) : Option ((Nat × Nat) × IdxEntry) :=
  s.index.find? (fun e => e.2.valid && e.2.hash.toNat == h && e.2.part == p && e.2.tenant == tenant)

/-- The score of an entry in nanoseconds (R290). -/
def State.score (s : State) (e : IdxEntry) : Nat :=
  e.lastUse + e.hits * (s.fldOf (s.pReg 0x208 .pfxCtrl) 0 16 * 1000000)

/-- The cache of the prefix index in BM0 SRAM (R288): an entry of the index is used in its set, the one of HASH[12:0], whose least recently
used of 8 gives way. It holds the entries as Crown does, so it shows in time only. -/
def State.pfxTouch (s : State) (k : Nat × Nat) : State :=
  let l := Tbl.get s.pfxCache (k.1 % 2 ^ 13) []
  { s with pfxCache := Tbl.put s.pfxCache (k.1 % 2 ^ 13) ((k :: l.erase k).take 8) }

/-- Removes an index entry, and drops its cold copy if it has one. -/
def State.dropEntry (s : State) (k : Nat × Nat) : State :=
  let e := s.idx k
  let s1 := s.setIdx k IdxEntry.reset
  if e.cold then { s1 with coldUsed := Tbl.del s1.coldUsed (e.part, e.coldSlot) } else s1

/-- A page set is IDLE: INDEXED, unreferenced and earmarked by no request (R238). -/
def PageSet.idle (x : PageSet) : Bool := x.state == .indexed && x.ref == 0 && x.earmark.isNone

/-- The IDLE page sets of a partition with their scores. -/
def State.idlePages (s : State) (p : Nat) : List (Nat × Nat) :=
  (s.pages.filter (fun e => e.1.1 == p && e.2.idle)).map (fun e =>
    (match s.entryOfPage p e.1.2 with
     | some en => s.score en.2
     | none => 0, e.1.2))

/-- FREE page sets that no request has earmarked, ascending (the choice among them is the model's: DESIGN CHOICE,
log 12). Page set 0 is the void page set (R267). -/
def State.freePages (s : State) (p : Nat) : List Nat :=
  ((List.range (s.part p).pageCount).drop 1).filter (fun i =>
    let x := s.page p i
    x.state == .free && x.earmark.isNone)

/-- Inserts a pair in ascending order. -/
def insPair (x : Nat × Nat) : List (Nat × Nat) → List (Nat × Nat)
  | [] => [x]
  | y :: r => if x.1 < y.1 ∨ (x.1 = y.1 ∧ x.2 < y.2) then x :: y :: r else y :: insPair x r

/-- Ascending score, ties to the lowest page-set index (R290). -/
def sortPairs (l : List (Nat × Nat)) : List (Nat × Nat) := l.foldl (fun acc x => insPair x acc) []

/-- The page sets that R238 earmarks, in its order, or none where there are not enough. -/
def State.earmarkPick (s : State) (p n : Nat) : Option (List Nat) :=
  let free := (s.freePages p).take n
  let idle := ((sortPairs (s.idlePages p)).map (·.2)).take (n - free.length)
  if free.length + idle.length = n then some (free ++ idle) else none

/-- Marks page sets earmarked by a slot. -/
def State.earmarkAll (s : State) (p slot : Nat) (l : List Nat) : State :=
  l.foldl (fun s i => s.modPage p i (fun x => { x with earmark := some slot })) s

/-- The page sets a slot has earmarked: FREE ones first, then the others, ascending. -/
def State.earmarksOf (s : State) (p slot : Nat) : List Nat :=
  let l := (sortPairs ((s.pages.filter (fun e => e.1.1 == p && e.2.earmark == some slot)).map
    (fun e => (boolN (e.2.state != .free), e.1.2)))).map (·.2)
  l

/-- Releases earmarks. -/
def State.unearmark (s : State) (p : Nat) (l : List Nat) : State :=
  l.foldl (fun s i => s.modPage p i (fun x => { x with earmark := none })) s

/-! ## Hot indices (R278, R279) -/

/-- A slot is hot-eligible while its PRIORITY is 0 and its state is PREFILL or DECODE. -/
def Slot.hotEligible (x : Slot) : Bool := x.priority == 0 && (x.state == .prefill || x.state == .decode)

/-- HOT_REF of a page set: the hot-eligible requests whose vectors name it. -/
def State.hotRef (s : State) (p i : Nat) : Nat :=
  (s.slots.filter (fun e => e.2.part == p && e.2.hotEligible && e.2.vector.contains (some i))).length

/-- The hot indices in use by page sets. -/
def State.hotUsed (s : State) (p : Nat) : List Nat :=
  (s.pages.filter (fun e => e.1.1 == p)).filterMap (fun e => e.2.hotIdx)

/-- The lowest free hot index; one freed by demotion is free only after the next LAUNCH (R280). -/
def State.freeHot (s : State) (p : Nat) : Option Nat :=
  let x := s.part p
  let used := s.hotUsed p
  (List.range x.hotCap).find? (fun h => !used.contains h && !x.hotFreed.contains h)

/-- Demotion: a page set whose HOT_REF is 0 loses its hot index (R279). -/
def State.demote (s : State) (p : Nat) : State :=
  s.pages.foldl (fun st e =>
    match e.2.hotIdx with
    | none => st
    | some h =>
      if e.1.1 = p ∧ s.hotRef p e.1.2 = 0 then
        (st.modPage p e.1.2 (fun x => { x with hotIdx := none })).modPart p
          (fun x => { x with hotFreed := x.hotFreed ++ [h] })
      else st) s

/-! ## Allocation and release -/

/-- Frees a page set, keeping its earmark (R238, R284). -/
def PageSet.freed (x : PageSet) : PageSet := { PageSet.reset with earmark := x.earmark }

/-- A page set becomes FREE; a hot index it had is free only after the next LAUNCH (R280). -/
def State.freePageSet (s : State) (p i : Nat) : State :=
  let x := s.page p i
  (s.setPage p i x.freed).modPart p (fun y => { y with hotFreed := y.hotFreed ++ x.hotIdx.toList })

/-- Drops an indexed page set from the index; it becomes FREE. -/
def State.dropIndexed (s : State) (p i : Nat) : State :=
  let s1 := match s.entryOfPage p i with
    | some e => s.dropEntry e.1
    | none => s
  s1.freePageSet p i

/-- Takes one of the slot's earmarks for a new page set (R238): a FREE one, or an IDLE one dropped from the index. -/
def State.allocPage (s : State) (p slot : Nat) : Option (Nat × State) :=
  match s.earmarksOf p slot with
  | [] => none
  | i :: _ =>
    let x := s.page p i
    let s1 := if x.state = .indexed then (s.dropIndexed p i).setBit (s.pReg 0x207 .kvpEvents) 0 else s
    let hot := if (s1.slot slot).hotEligible then s1.freeHot p else none
    some (i, s1.setPage p i { PageSet.reset with state := .priv, ref := 1, owner := slot, hotIdx := hot })

/-- One vector entry fewer names a page set (R284, R294). -/
def State.derefPage (s : State) (p i : Nat) : State :=
  let x := s.page p i
  let r := x.ref - 1
  if r = 0 ∧ x.state = .priv then s.freePageSet p i else s.setPage p i { x with ref := r }

/-- Releases the pages and earmarks of a slot that becomes terminal (R284, R238). -/
def State.releasePages (s : State) (slot : Nat) : State :=
  let x := s.slot slot
  let s1 := (x.vector.filterMap id).foldl (fun s i => s.derefPage x.part i) s
  let s2 := s1.modSlot slot (fun y => { y with vector := [], fetching := [] })
  s2.unearmark x.part (s2.earmarksOf x.part slot)

/-- Removes a page set from the index for poison and keeps it out (R294). -/
def State.poisonPage (s : State) (p i : Nat) : State :=
  let x := s.page p i
  if x.state = .indexed ∨ x.state = .priv then
    let s1 := match s.entryOfPage p i with
      | some e => (s.dropEntry e.1).setBit (s.pReg 0x208 .pfxEvents) 2
      | none => s
    if x.ref = 0 then s1.freePageSet p i else s1.setPage p i { x with state := .priv, out := true }
  else s

/-! ## Lookup (R291) -/

/-- Whether a probe of `slot` may match an entry: its page set is earmarked by no other request. -/
def State.probeOk (s : State) (slot : Nat) (e : IdxEntry) : Bool :=
  e.cold || (match (s.page e.part e.page).earmark with
    | none => true
    | some o => o == slot)

/-- Replaces entry `k` of a page vector. -/
def setVec : List (Option Nat) → Nat → Nat → List (Option Nat)
  | [], 0, v => [some v]
  | [], n + 1, v => none :: setVec [] n v
  | _ :: r, 0, v => some v :: r
  | x :: r, n + 1, v => x :: setVec r n v

/-- The warm page set for a COLD hit: an earmarked FREE one of the request, else a FREE one no request has earmarked. -/
def State.coldTarget (s : State) (p slot : Nat) : Option Nat :=
  match (s.earmarksOf p slot).find? (fun i => (s.page p i).state == .free) with
  | some i => some i
  | none => (s.freePages p).head?

/-- One hit on block `b`: REF, HITS, LAST_USE, the vector entry, and a fetch for a COLD entry. None = a miss. -/
def State.lookupHit (s : State) (slot b : Nat) (k : Nat × Nat) (e : IdxEntry) : Option State :=
  let x := s.slot slot
  let hits := Nat.min 65535 (e.hits + 1)
  if e.cold then
    match s.coldTarget x.part slot with
    | none => none
    | some i =>
      let s1 := s.setPage x.part i { PageSet.reset with
        state := .priv, ref := 1, fill := 64, hash := e.hash, owner := slot, tokens := (x.ctx.drop (64 * b)).take 64 }
      let s2 := s1.setIdx k { e with hits := hits, lastUse := s.bow.time }
      some (s2.modSlot slot (fun y => { y with vector := setVec y.vector b i, fetching := y.fetching ++ [b] }))
  else
    let s1 := s.modPage e.part e.page (fun y => { y with ref := y.ref + 1, earmark := none })
    let s2 := s1.setIdx k { e with hits := hits, lastUse := s.bow.time }
    some (s2.modSlot slot (fun y => { y with vector := setVec y.vector b e.page }))

/-- Probes blocks from `b` up, at most `n` of them, and stops at the first miss: the blocks matched. -/
def State.probe (slot : Nat) : Nat → Nat → State → Nat × State
  | 0, b, s => (b, s)
  | n + 1, b, s =>
    let x := s.slot slot
    match s.entryOfHash (blockHash x.key x.ctx b) x.part x.tenant with
    | none => (b, s)
    | some e =>
      if s.probeOk slot e.2 then
        match (s.pfxTouch e.1).lookupHit slot b e.1 e.2 with
        | none => (b, s)
        | some s1 => State.probe slot n (b + 1) s1
      else (b, s)

/-! ## Insertion (R293) -/

/-- Inserts the full committed block `b` of a slot into the index. -/
def State.insertBlock (s : State) (slot b : Nat) : State :=
  let x := s.slot slot
  match (x.vector[b]?).join with
  | none => s
  | some i =>
    let pg := s.page x.part i
    if pg.state = .priv ∧ pg.out = false ∧ pg.fill = 64 then
      let h := blockHash x.key x.ctx b
      match s.entryOfHash h x.part x.tenant with
      | some _ => s.setBit (s.pReg 0x208 .pfxEvents) 0
      | none =>
        let set := h % 2 ^ 17
        let ways := List.range 8
        let put (s : State) (w : Nat) : State :=
          let e : IdxEntry := ⟨true, BitVec.ofNat 64 h, i, false, 0, s.bow.time, 0, x.part, x.tenant⟩
          ((s.pfxTouch (set, w)).setIdx (set, w) e).setPage x.part i
            { pg with state := .indexed, hash := BitVec.ofNat 64 h, tokens := (x.ctx.drop (64 * b)).take 64 }
        match ways.find? (fun w => !(s.idx (set, w)).valid) with
        | some w => put s w
        | none =>
          let cands := ways.filter (fun w =>
            let e := s.idx (set, w)
            e.cold || (s.page e.part e.page).ref == 0)
          match sortPairs (cands.map (fun w => (s.score (s.idx (set, w)), w))) with
          | [] => s.setBit (s.pReg 0x208 .pfxEvents) 1
          | (_, w) :: _ =>
            let e := s.idx (set, w)
            let s1 := s.dropEntry (set, w)
            let s2 := if e.cold then s1 else s1.freePageSet e.part e.page
            put s2 w
    else s

end Sys2Proof.Machine
end

