-- ==== Sys2Proof/Machine/Jobs.lean ====
section
/-!
DEFINITION. How a request ends and how a partition's job ends (R224, R242, R243, R284), and the faults of R443 whose
action ends a job.
-/

namespace Sys2Proof.Machine

/-! ## Slots -/

/-- QUEUED, PREFILL, DECODE or PARKED. -/
def SlotState.live : SlotState → Bool
  | .queued | .prefill | .decode | .parked => true
  | .free | .done | .cancelled | .failed => false

/-- DONE, CANCELLED or FAILED. -/
def SlotState.terminal : SlotState → Bool
  | .done | .cancelled | .failed => true
  | .free | .queued | .prefill | .decode | .parked => false

/-- The STATE code of R236. -/
def SlotState.code : SlotState → Nat
  | .free => 0 | .queued => 1 | .prefill => 2 | .decode => 3 | .parked => 4 | .done => 5 | .cancelled => 6 | .failed => 7

/-- The 128 bytes of a slot record (R236). -/
def Slot.bytes (x : Slot) : List Byte :=
  let head := match (x.vector.head?).join with
    | some i => i % 2 ^ 28 + 2 ^ 31
    | none => 0xFFFFFFFF
  [BitVec.ofNat 8 (x.state.code + 16 * (if x.state = .parked then x.prev.code else 0)),
   BitVec.ofNat 8 (x.priority % 8 + 8 * boolN x.pin + 16 * (x.spec % 4) + 64 * boolN x.host),
   BitVec.ofNat 8 (x.part % 16 + 16 * (x.port % 4)), x.reason] ++
  leBytes 4 x.promptLen ++ leBytes 4 x.genLen ++ leBytes 4 x.maxNew ++ leBytes 4 x.pos ++ leBytes 4 head ++
  leBytes 8 x.deadline ++ leBytes 8 x.seed.toNat ++ leBytes 2 x.temp.toNat ++ leBytes 2 x.topP.toNat ++
  leBytes 2 x.minP.toNat ++ leBytes 2 x.repPen.toNat ++ leBytes 2 x.topK ++ leBytes 2 x.adapter ++
  leBytes 1 x.wgen ++ leBytes 1 x.rpWindow ++ leBytes 2 x.channel ++ leBytes 4 x.subSeq.toNat ++
  leBytes 1 (x.draft % 16 + 16 * (x.draftPart % 16)) ++ List.replicate 3 (0 : Byte) ++
  (sliceB ((x.stops.map (fun w => leBytes 4 w.toNat)).flatten) 0 16) ++
  leBytes 4 x.admitSeq ++ leBytes 4 (match x.lastToken with | some t => t + 2 ^ 31 | none => 0) ++
  leBytes 8 x.admitTime ++ leBytes 8 x.endTime ++ leBytes 8 x.cancelTime ++ leBytes 8 x.parkTime ++
  List.replicate 8 (0 : Byte)

/-- Refreshes the readable slot record (REQ_SLOT, "as of the partition's last commit"). -/
def State.publish (s : State) (i : Nat) : State := { s with slotRec := Tbl.put s.slotRec i (s.slot i).bytes }

/-- The slots of a partition's share, the void slot first (R233, R234). -/
def Part.share (x : Part) : List Nat := (List.range x.shareLen).map (x.shareBase + ·)

/-- The void slot of a partition (R234). -/
def Part.voidSlot (x : Part) : Nat := x.shareBase

/-- The slots of a partition that hold a request. -/
def State.heldSlots (s : State) (p : Nat) : List Nat :=
  (s.slots.filter (fun e => e.2.part == p && e.2.state != .free)).map (·.1)

/-- Frees a slot record. -/
def State.freeSlot (s : State) (i : Nat) : State := s.setSlot i Slot.reset

/-- Ends the twin of a request (R258): it holds its slot only until its request is terminal, and emits no message. -/
def State.endTwin (s : State) (i : Nat) : State :=
  match (s.slot i).twin with
  | none => s
  | some t => ((s.releasePages t).freeSlot t).modSlot i (fun x => { x with twin := none })

/-- A request becomes terminal (R242): its reason and end time are set, its pages and earmarks released (R284), its hot
copies dropped (R279), its twin ended (R258), and its last tokens and final message left for the message release. -/
def State.endRequest (s : State) (i : Nat) (st : SlotState) (reason : Nat) (first : Nat) (tokens : List Nat) : State :=
  let p := (s.slot i).part
  let s1 := s.modSlot i (fun x => { x with
    state := st, reason := BitVec.ofNat 8 reason, endTime := s.bow.time, eligible := false, cancelReq := none,
    poisoned := false, replaying := false, wantReplay := false })
  let s2 := (((s1.releasePages i).endTwin i).demote p)
  match (s2.slot i).twinOf with
  | some o => (s2.freeSlot i).modSlot o (fun x => { x with twin := none })
  | none => s2.modPart p (fun x => { x with outgoing := x.outgoing ++ [⟨i, first, tokens, true⟩] })

/-! ## Tiles of a partition -/

/-- The tiles that hold a partition's placed logical tiles (R177). -/
def Part.tiles (x : Part) : List TileId := x.placed.map (fun e => tileOf (e.2 / 512) (e.2 % 512))

/-- Sets TIL_STATUS.STATE of a tile, unless the tile is fenced (STATE 5). -/
def State.setTileState (s : State) (t : TileId) (v : Nat) : State :=
  if s.fldOf (tReg t .tilStatus) 0 3 = 5 then s else s.setFld (tReg t .tilStatus) 0 3 v

/-- Whether the sequencer of a tile runs (STATE 2). -/
def State.running (s : State) (t : TileId) : Bool := s.fldOf (tReg t .tilStatus) 0 3 == 2

/-! ## The end of a job -/

/-- The job of a partition ends (R224, R242): its tiles go to HALTED, every live request becomes FAILED with REASON
0x38 and its record shows it at once, and its schedule stops. -/
def State.jobEnd (s : State) (p : Nat) : State :=
  if (s.part p).job = .running then
    let s1 := (s.part p).tiles.foldl (fun s t => (s.setTileState t 4).modTile t (fun x => { x with waitq := [] })) s
    let live := (s1.heldSlots p).filter (fun i => (s1.slot i).state.live)
    let s2 := live.foldl (fun s i => if (s.slot i).state.live then (s.endRequest i .failed 0x38 0 []).publish i else s) s1
    let s3 := s2.modPart p (fun x => { x with
      job := .ended, running := none, next := none, staged := false, idle := false, barrier := none, readyDies := [],
      prinReady := false, readyAt := none, heldSince := none, holdSent := false, overrun := false, repair := none,
      repairStep := none, groups := [], chosen := [], xfers := [], inXfers := [], heldNotes := [], barriersRx := [] })
    let s4 := if live.isEmpty then s3 else s3.setBit (s3.pReg 0x205 .reqEvents p) 1
    s4.setFld (s4.pReg 0x20F .fltRepairlim) (16 + p) 1 0
  else s

/-- The job of the partition that owns a Body die, if any, ends. -/
def State.jobEndOn (s : State) (d : Nat) : State :=
  match s.partOfDie d with
  | some p => s.jobEnd p
  | none => s

/-- Records a fault of a partition and ends its job (R443, action "Job"). -/
def State.jobFault (s : State) (code die unit region detail : Nat) (part : Option Nat) (opidx : Nat := 0) : State :=
  let s1 := s.fault code die unit region detail part opidx
  match part with
  | some p => s1.jobEnd p
  | none => s1

/-- The shape field that a record of a running partition carries in OPIDX bits [27:24] (R441). -/
def State.shapeBits (s : State) (p : Option Nat) : Nat :=
  match p with
  | none => 0
  | some q => match (s.part q).running with
    | some st => st.shape * 2 ^ 24
    | none => 0

/-- Records a fault of a tile's operation, with form operation index and shape (R205, R441). -/
def State.tileFault (s : State) (t : TileId) (code unit detail opidx : Nat) : State :=
  let p := s.partOfDie t.die.val
  s.fault code t.die.val unit t.region.val detail p (opidx % 2 ^ 24 + s.shapeBits p)

/-- Records a fault of a tile's operation and ends the job of its partition. -/
def State.tileJobFault (s : State) (t : TileId) (code unit detail opidx : Nat) : State :=
  let p := s.partOfDie t.die.val
  s.jobFault code t.die.val unit t.region.val detail p (opidx % 2 ^ 24 + s.shapeBits p)

end Sys2Proof.Machine
end

