-- ==== Sys2Proof/Machine/Compose.lean ====
section
/-!
DEFINITION. The step scheduler (R245, R248, R435): ranks, the choice of a shape, decode slots and the prefill chunk of the next
step; and what a poisoned request loses of a composed step (R428).
-/

namespace Sys2Proof.Machine

/-! ## Ranks (R245) -/

/-- PRIORITY ascending, then DEADLINE ascending with 0 later than any time, then ADMIT_SEQ ascending, as one number. -/
def Slot.rank (x : Slot) : Nat :=
  x.priority * 2 ^ 97 + (if x.deadline = 0 then 2 ^ 64 else x.deadline) * 2 ^ 32 + x.admitSeq

/-- Slots in ascending order of a key. -/
def State.slotsBy (s : State) (key : Slot → Nat) (l : List Nat) : List Nat := (sortPairs (l.map (fun i => (key (s.slot i), i)))).map (·.2)

/-- Whether the last prompt token of a slot's request is in a step. -/
def Step.hasLast (x : Step) (i promptLen : Nat) : Bool := x.pre.any (fun q => q.slot == i && q.pos + 1 == promptLen)

/-- Whether the last prompt token of a request is in the running step. -/
def State.lastInStep (s : State) (p i : Nat) : Bool :=
  match (s.part p).running with
  | some st => st.hasLast i (s.slot i).promptLen
  | none => false

/-- A host-origin request with 4,096 emitted tokens at or beyond its ACK_POS is no decode candidate (R483); a twin emits none. -/
def Slot.undelivered (x : Slot) : Bool := x.host && x.twinOf.isNone && decide (x.ackPos + 4096 ≤ x.promptLen + x.genLen)

/-- Whether a token ID is one of a request's stop tokens. -/
def Slot.stopsAt (x : Slot) (t : Nat) : Bool := x.stops.any (fun w => bit w.toNat 31 && fld w.toNat 0 17 == t)

/-- A twin that has reached its end waits for its request to set it back (R258). -/
def Slot.twinWaits (x : Slot) : Bool :=
  x.twinOf.isSome && (decide (x.maxNew ≤ x.genLen) || (match x.lastToken with
    | some t => x.stopsAt t
    | none => false))

/-- The decode candidates of the next step. -/
def State.decodeCands (s : State) (p : Nat) : List Nat :=
  s.slotsBy Slot.rank ((s.heldSlots p).filter (fun i =>
    let x := s.slot i
    (x.state == .decode && x.eligible && x.cancelReq.isNone && !x.undelivered && !x.twinWaits) || (x.state == .prefill && s.lastInStep p i)))

/-- The prefill candidates of the next step. -/
def State.prefillCands (s : State) (p : Nat) : List Nat :=
  s.slotsBy Slot.rank ((s.heldSlots p).filter (fun i =>
    let x := s.slot i
    (x.state == .queued || x.state == .prefill) && x.eligible && decide (x.assigned < x.promptLen)))

/-! ## The shape (R245) -/

/-- A member of some numbered shapes that is least by a key, the lowest index on ties. -/
def leastBy (key : Shape → Nat) (l : List (Nat × Shape)) : Option (Nat × Shape) :=
  l.foldl (fun a e => match a with
    | none => some e
    | some b => if key e.2 < key b.2 then some e else some b) none

/-- The largest value of a key over some shapes. -/
def mostOf (key : Shape → Nat) (l : List (Nat × Shape)) : Nat := l.foldl (fun a e => Nat.max a (key e.2)) 0

/-- The shape of R245 for a decode and a prefill demand. -/
def Form.pickShape (f : Form) (wantD wantP : Nat) : Option (Nat × Shape) :=
  let all := (List.range f.shapes.length).zip f.shapes
  let fits := all.filter (fun e => decide (wantD ≤ e.2.d))
  let both := fits.filter (fun e => decide (wantP ≤ e.2.p))
  let wide := fits.filter (fun e => e.2.p == mostOf (·.p) fits)
  let deep := all.filter (fun e => e.2.d == mostOf (·.d) all)
  leastBy (·.length) (if both.isEmpty then (if wide.isEmpty then deep else wide) else both)

/-! ## The prefill chunk (R245, R271) -/

/-- The takes of the chunk: slot and token count, at most `n` requests and `room` tokens. -/
def State.chunkTakes (s : State) : Nat → Nat → List Nat → List (Nat × Nat)
  | 0, _, _ => []
  | _, _, [] => []
  | n + 1, room, i :: r =>
    if room = 0 then []
    else
      let x := s.slot i
      let t := Nat.min room (x.promptLen - x.assigned)
      (i, t) :: State.chunkTakes s n (room - t) r

/-- The first `n` of a list, padded with a value. -/
def padTo {α : Type} (n : Nat) (d : α) (l : List α) : List α := l.take n ++ List.replicate (n - l.length) d

/-! ## Composition -/

/-- REQ_LAST of a partition. -/
def State.showLast (s : State) (p shape dused pused : Nat) (idle : Bool) : State :=
  s.setReg (s.pReg 0x205 .reqLast p) (BitVec.ofNat 32 (shape % 2 ^ 4 + dused % 2 ^ 9 * 2 ^ 4 + pused % 2 ^ 13 * 2 ^ 13 + boolN idle * 2 ^ 26))

/-- BOW_JOB.PEERS of a partition. -/
def State.peers (s : State) (p : Nat) : Nat := s.fldOf (s.pReg 0x201 .bowJob p) 0 8

/-- Whether the next step of a partition is all void: in repair hold (R435), before the step with which composition resumes
(R436). -/
def Part.allVoid (x : Part) : Bool := x.repair.isSome && x.repairStep != some ((x.stepNo.toNat + 1) % 2 ^ 32)

/-- compose of R245: the next step of a partition, or the mark that it is idle (R248). -/
def State.compose (s : State) (p : Nat) : State :=
  let x := s.part p
  match x.form with
  | none => s
  | some f =>
    let dec := if x.allVoid then [] else s.decodeCands p
    let pre := if x.allVoid then [] else s.prefillCands p
    let open' := pre.foldl (fun a i => a + ((s.slot i).promptLen - (s.slot i).assigned)) 0
    let wantD := Nat.min dec.length (f.shapes.foldl (fun a e => Nat.max a e.d) 0)
    let wantP := Nat.min open' (s.fldOf (s.pReg 0x205 .reqPtgt p) 0 13)
    if wantD = 0 ∧ wantP = 0 ∧ s.peers p = 0 ∧ x.repair.isNone = true then
      (s.modPart p (fun y => { y with idle := true })).setFld (s.pReg 0x205 .reqLast p) 26 1 1
    else match f.pickShape wantD wantP with
      | none => s
      | some e =>
        let takes := s.chunkTakes 64 e.2.p pre
        let chunk := takes.flatMap (fun t => (List.range t.2).map (fun j => (⟨t.1, (s.slot t.1).assigned + j⟩ : PrefillPos)))
        let slots := dec.take e.2.d
        let st : Step := {
          shape := e.1, dec := padTo e.2.d ⟨none, 0, 0, []⟩ (slots.map (fun i => ⟨some i, 0, 0, []⟩)),
          pre := padTo e.2.p ⟨x.voidSlot, 0⟩ chunk, filled := false, streams := takes.map (fun t => some t.1), adapters := [] }
        let s1 := takes.foldl (fun s t => s.modSlot t.1 (fun y => { y with assigned := y.assigned + t.2 })) s
        (s1.modPart p (fun y => { y with next := some st, idle := false, staged := false })).showLast p e.1 slots.length chunk.length false

/-- An idle partition composes a step at once (R248): one that runs no step, or whose running step went past its cut with nothing
to compose. Readiness waits for the new step's patches. -/
def State.wake (s : State) (p : Nat) : State :=
  let x := s.part p
  if x.job = .running ∧ x.next.isNone = true ∧ (x.running.isNone || x.cutDone) = true then
    (s.compose p).modPart p (fun y => if y.next.isSome then { y with prinReady := false, readyAt := none } else y)
  else s

/-! ## Poison (R427, R428) -/

/-- A request loses its part of a composed step: its decode slot and prefill positions become void. `void` is the partition's void
slot. -/
def Step.without (x : Step) (slot void : Nat) : Step :=
  { x with
    dec := x.dec.map (fun d => if d.slot = some slot then { d with slot := none, pos := 0, token := 0, drafts := [] } else d),
    pre := x.pre.map (fun q => if q.slot = slot then ⟨void, 0⟩ else q),
    streams := x.streams.map (fun q => if q = some slot then none else q) }

/-- The patches staged for a request in the next step are replaced with void patches (R428). -/
def State.voidNext (s : State) (p slot : Nat) : State :=
  s.modPart p (fun x => { x with next := x.next.map (fun n => n.without slot x.voidSlot) })

/-- A request is poisoned in the running step. -/
def State.poisonRequest (s : State) (p slot : Nat) : State := (s.modSlot slot (fun y => { y with poisoned := true })).voidNext p slot

/-- Whether a slot holds a request that a step carries. -/
def Step.carries (st : Step) (slot : Nat) : Bool := st.dec.any (fun d => d.slot == some slot) || st.pre.any (fun q => q.slot == slot)

/-- Whether a slot holds a request that the running step of a partition carries. -/
def Part.carriesSlot (x : Part) (slot : Nat) : Bool :=
  match x.running with
  | none => false
  | some st => st.carries slot

end Sys2Proof.Machine
end

