-- ==== Sys2Proof/Machine/Fences.lean ====
section
/-!
DEFINITION. The array map (R130 to R133), array and tile fences (R128, R433, R438), repair hold (R435), and the hot
frames of a form (R278).
-/

namespace Sys2Proof.Machine

/-! ## The array map -/

/-- The map register of logical array `n` in bank 0 or 1. -/
def mapKey (t : TileId) (bank : Bool) (n : Nat) : RegKey := tReg t (if bank then .arrMap1 else .arrMap0) n

/-- The generation number of a bank. -/
def State.bankGen (s : State) (t : TileId) (bank : Bool) : Nat := s.fldOf (tReg t .arrBank) (if bank then 16 else 0) 8

/-- Whether a bank is live. -/
def State.bankLive (s : State) (t : TileId) (bank : Bool) : Bool := s.fldOf (tReg t .arrBank) (if bank then 24 else 8) 1 == 1

/-- Entry of a bank: physical array, format, valid. -/
def State.mapEntry (s : State) (t : TileId) (bank : Bool) (n : Nat) : Nat × Nat × Bool :=
  let w := s.regN (mapKey t bank n)
  (fld w 0 6, fld w 6 2, bit w 8)

/-- Whether a valid entry of a bank references physical array `phys`. -/
def State.bankRefs (s : State) (t : TileId) (bank : Bool) (phys : Nat) : Bool :=
  (List.range 64).any (fun n => let e := s.mapEntry t bank n; e.2.2 && e.1 == phys)

/-- Whether a valid entry of a live bank references physical array `phys`. -/
def State.liveRefs (s : State) (t : TileId) (phys : Nat) : Bool :=
  [false, true].any (fun b => s.bankLive t b && s.bankRefs t b phys)

/-- The live bank whose generation is `gen` (R96). -/
def State.bankOf (s : State) (t : TileId) (gen : Nat) : Option Bool :=
  [false, true].find? (fun b => s.bankLive t b && s.bankGen t b == gen)

/-- The generations a tile's swatches may name: those of its live banks (R63). -/
def State.liveGens (s : State) (t : TileId) : List Nat := ([false, true].filter (s.bankLive t)).map (s.bankGen t)

/-- A physical array of a tile. -/
def arrOf (t : TileId) (phys : Nat) : ArrayId := ⟨t, Fin.ofNat 64 phys⟩

/-- The physical arrays of a tile in a state. -/
def State.arraysIn (s : State) (t : TileId) (st : ArrState) : List Nat :=
  (List.range 64).filter (fun n => (s.arr (arrOf t n)).st == st)

/-! ## Hot frames (R278) -/

/-- The bytes of a slice of one layer (R266). -/
def Part.fr (x : Part) : Nat := 64 * x.kvt

/-- L_d of a Body die (R265, KVP_LAYERS_d). -/
def State.layersOn (s : State) (d : Nat) : Nat := s.fldOf (s.pReg 0x207 .kvpLayers d) 0 6

/-- Inserts by tile region. -/
def insTile (x : Nat × FormTile) : List (Nat × FormTile) → List (Nat × FormTile)
  | [] => [x]
  | y :: r => if x.1 < y.1 then x :: y :: r else y :: insTile x r

/-- The placed logical tiles of a form on a die, ascending by tile region. -/
def Part.tilesOn (x : Part) (d : Nat) : List (Nat × FormTile) :=
  match x.form with
  | none => []
  | some f =>
    (x.placed.filterMap (fun e => if e.2 / 512 = d then (f.tiles[e.1]?).map (fun t => (e.2 % 512, t)) else none)).foldl
      (fun acc y => insTile y acc) []

/-- The hot frames of a die: tile region and scratchpad offset, in their numbering. -/
def Part.hotFrames (x : Part) (d : Nat) : List (Nat × Nat) :=
  if x.fr = 0 then []
  else ((x.tilesOn d).map (fun y => ((y.2.scpMap.filter (·.hotKv)).map (fun r =>
    (List.range (r.len / x.fr)).map (fun i => (y.1, r.start + i * x.fr)))).flatten)).flatten

/-- The frame of layer j of hot index h on a die. -/
def State.hotFrame (s : State) (x : Part) (d h j : Nat) : Option (Nat × Nat) :=
  (x.hotFrames d)[h * s.layersOn d + j]?

/-- H of R278. -/
def State.hotCapacity (s : State) (x : Part) : Nat :=
  let l := (x.dies.filter (fun d => s.layersOn d != 0)).map (fun d => (x.hotFrames d).length / s.layersOn d)
  match l with
  | [] => 0
  | a :: r => r.foldl Nat.min a

/-- Drops every hot copy that has a frame in a tile (R438). -/
def State.dropHotOf (s : State) (p : Nat) (t : TileId) : State :=
  let x := s.part p
  let l := s.layersOn t.die.val
  let fr := x.hotFrames t.die.val
  let hit (h : Nat) : Bool := (List.range l).any (fun j => match fr[h * l + j]? with
    | some f => f.1 == t.region.val
    | none => false)
  s.pages.foldl (fun st e => match e.2.hotIdx with
    | some h => if e.1.1 = p ∧ hit h = true then
        (st.modPage p e.1.2 (fun y => { y with hotIdx := none })).modPart p (fun y => { y with hotFreed := y.hotFreed ++ [h] })
      else st
    | none => st) s

/-! ## Repair hold and fences -/

/-- A partition with a running job enters repair hold (R435): its limit runs from now (R437), and it does not idle, so an idle one
composes a void step at once (R248). -/
def State.repairEnter (s : State) (p : Nat) (cause : Nat) : State :=
  let x := s.part p
  if x.job = .running ∧ x.repair.isNone then
    let s1 := s.modPart p (fun y => { y with repair := some s.bow.time, repairCause := BitVec.ofNat 8 cause })
    let s2 := s1.setFld (s1.pReg 0x20F .fltRepairlim) (16 + p) 1 1
    if x.idle then s2.wake p else s2
  else s

/-- CNF_STATUS of the Brim die that reports a Body die's calibrations, and CALIBRATING of the Body die: an array calibration
shows as target 0, though it runs targets 0 and 1 in turn. -/
def State.showCal (s : State) (d : Nat) : State :=
  let b := guardOf d
  let busy := s.dies.any (fun e => decide (e.1 < 0x20) && guardOf e.1 == b && !e.2.calRun.isEmpty)
  let s1 := s.setFld (uReg d 0x206 .cnfDieStatus) 0 10 (s.die d).calRun.length
  (s1.setFld (uReg (brimIdx b) 0x204 .cnfStatus) 1 1 (boolN busy)).setFld (uReg (brimIdx b) 0x204 .cnfStatus) 2 3 0

/-- ABORTED: a calibration was abandoned (R418). -/
def State.calAborted (s : State) (b : Nat) : State := s.setBit (uReg (brimIdx b) 0x204 .cnfEvents) 2

/-- A calibration of an array that is lost is abandoned without counting a failure, and the array leaves the queue (R418). -/
def State.calAbandon (s : State) (a : ArrayId) : State :=
  let k := (a.tile.region.val, a.phys.val)
  let d := a.tile.die.val
  let ran := (s.die d).calRun.any (fun c => c.region == k.1 && c.phys == k.2)
  let s1 := s.modDie d (fun x => { x with
    calQueue := x.calQueue.filter (· != k), calRun := x.calRun.filter (fun c => !(c.region == k.1 && c.phys == k.2)) })
  if ran then (s1.calAborted (guardOf d)).showCal d else s1

/-- Every calibration on a lost die is abandoned (R418). -/
def State.calDieLost (s : State) (d : Nat) : State :=
  if (s.die d).calRun.isEmpty then s
  else ((s.modDie d (fun x => { x with calQueue := [], calRun := [] })).calAborted (guardOf d)).showCal d

/-- A FUL_ register of a Body die. -/
def fulReg (d : Nat) (r : Reg) : RegKey := uReg d 0x202 r

/-- FUL_STATUS, and the oldest unread result in FUL_RESULT. -/
def State.showFul (s : State) (d : Nat) : State :=
  let x := s.die d
  let word := match x.results with
    | [] => 0
    | r :: _ => r.tag.toNat + r.rounds % 16 * 2 ^ 16 + r.outcome % 4 * 2 ^ 20 + 2 ^ 31
  ((s.setFld (fulReg d .fulStatus) 0 10 x.full.length).setFld (fulReg d .fulStatus) 16 7 (64 - x.queue.length)).setReg
    (fulReg d .fulResult) (BitVec.ofNat 32 word)

/-- Posts the result of a job (R309). -/
def State.postResult (s : State) (d : Nat) (j : FulJob) (rounds outcome : Nat) : State :=
  (s.modDie d (fun x => { x with results := x.results ++ [⟨j.tag, rounds, outcome⟩] })).showFul d

/-- The fulling of an array that is fenced stops, with its result (R128). How many rounds it ran is not stated. -/
def State.fullStop (s : State) (a : ArrayId) : State :=
  let d := a.tile.die.val
  match (s.die d).full.find? (fun j => j.tile == a.tile.region && j.phys == a.phys) with
  | none => s
  | some j =>
    let v := s.draw
    (v.2.modDie d (fun x => { x with full := x.full.erase j })).postResult d j (v.1 % 9) 2

/-- FENCED with a cause, recorded (R128, fault 0x2010). -/
def State.fenceOne (s : State) (a : ArrayId) (cause : Nat) : State :=
  let s1 := ((s.modArr a (fun x => { x with st := .fenced, cause := BitVec.ofNat 8 cause, remapOf := none })).calAbandon a).fullStop a
  s1.fault 0x2010 a.tile.die.val (0x40 + a.phys.val) a.tile.region.val cause (s1.partOfDie a.tile.die.val)

/-- The fenced arrays of a tile whose cause is not 0x07 (R438). -/
def State.ownFences (s : State) (t : TileId) : Nat :=
  ((List.range 64).filter (fun n => let x := s.arr (arrOf t n); x.st == .fenced && x.cause != 7)).length

/-- The tile of R438 is fenced: its arrays become FENCED with cause 0x07, its bit in MSH_TFENCE is set, its sequencer
stops, its hot copies are dropped, and a partition with a running job that has a logical tile there enters repair hold (DEDUCED of a tile that holds none, log 35). -/
def State.fenceTile (s : State) (t : TileId) (cause : Nat) : State :=
  if (s.tile t).fenced then s
  else
    let p := s.partOfDie t.die.val
    let s1 := (List.range 64).foldl (fun s n =>
      if (s.arr (arrOf t n)).st = .fenced then s else s.fenceOne (arrOf t n) 7) s
    let s2 := s1.modTile t (fun x => { x with fenced := true, waitq := [] })
    let s3 := s2.setFld (uReg t.die.val 0x201 .mshTfence (t.region.val / 32)) (t.region.val % 32) 1 1
    let s4 := s3.setFld (tReg t .tilStatus) 0 3 5
    let s5 := s4.fault 0x2011 t.die.val 0x00 t.region.val cause p
    match p with
    | none => s5
    | some q =>
      let s6 := s5.dropHotOf q t
      if (s6.tile t).ltile.isSome then s6.repairEnter q cause else s6

/-- An array becomes FENCED (R128). Where a live bank references it, a running job enters repair hold (R435); a tile
that then holds 3 such arrays is fenced (R438). -/
def State.fenceArray (s : State) (a : ArrayId) (cause : Nat) : State :=
  if (s.arr a).st = .fenced then s
  else
    let live := s.liveRefs a.tile a.phys.val
    let s1 := s.fenceOne a cause
    let s2 := match s1.partOfDie a.tile.die.val with
      | some p => if live then s1.repairEnter p cause else s1
      | none => s1
    if 3 ≤ s2.ownFences a.tile then s2.fenceTile a.tile 2 else s2

/-- A residue fault of a tile (R421): recorded, and the third within 1 s fences the tile (R433). -/
def State.residueFault (s : State) (t : TileId) (code unit detail opidx : Nat) : State :=
  let s1 := s.tileFault t code unit detail opidx
  let now := s1.bow.time
  let recent := ((s1.tile t).residues ++ [now]).filter (fun x => decide (now < x + 1000000000))
  let s2 := s1.modTile t (fun x => { x with residues := recent })
  if 3 ≤ recent.length then s2.fenceTile t 1 else s2

end Sys2Proof.Machine
end

