-- ==== Sys2Proof/Machine/Program.lean ====
section
/-!
DEFINITION. The step programs that tiles hold (R170, R182, R183, R194, R195): the operation words of the running form, and the
operation that each stands for.
-/

namespace Sys2Proof.Machine

/-! ## The running form -/

/-- The partition of a tile, 0 where its die has none. -/
def State.partOf (s : State) (t : TileId) : Nat := (s.partOfDie t.die.val).getD 0

/-- The form that a tile's partition runs. -/
def State.formOf (s : State) (t : TileId) : Option Form := (s.part (s.partOf t)).form

/-- The running shape of a partition. -/
def Part.shape? (x : Part) : Option Shape :=
  match x.form, x.running with
  | some f, some st => f.shapes[st.shape]?
  | _, _ => none

/-- A layer's numerics record (R83); all zero where the form has none. -/
def State.layerOf (s : State) (t : TileId) (layer : Nat) : Numerics :=
  match s.formOf t with
  | some f => (f.layers[layer]?).getD ⟨0, 0, 0, 0, 0, 0⟩
  | none => ⟨0, 0, 0, 0, 0, 0⟩

/-- Whether the form names contract LC-1 (R187, R193). -/
def State.isLc1 (s : State) (t : TileId) : Bool :=
  match s.formOf t with
  | some f => f.contract == 1
  | none => false

/-! ## Operation words (R182, R194, R195) -/

/-- The segments of a pass. -/
def FormOp.segs (o : FormOp) : Nat := fld (leNat o.oper) 8 2 + 1
/-- CLOSE of a pass. -/
def FormOp.close (o : FormOp) : Nat := fld (leNat o.oper) 10 2
/-- The logical array of a pass. -/
def FormOp.larray (o : FormOp) : Nat := fld (leNat o.oper) 0 6
/-- The layer of a pass. -/
def FormOp.passLayer (o : FormOp) : Nat := fld (leNat o.oper) 24 8
/-- The swatches of a pass, in units of 32 bytes. -/
def FormOp.swatch (o : FormOp) (k : Nat) : Nat := fld (leNat o.oper) (32 + 14 * k) 14
/-- AUX, ADDR and IMM. -/
def FormOp.aux (o : FormOp) : Nat := fld (leNat o.oper) 40 8
def FormOp.addr (o : FormOp) : Nat := fld (leNat o.oper) 48 19
def FormOp.imm (o : FormOp) : Nat := fld (leNat o.oper) 80 16

/-- A field of the operands. -/
def FormOp.f (o : FormOp) (lo len : Nat) : Nat := fld (leNat o.oper) lo len
/-- DST, SRC1, SRC2 and SRC3. -/
def FormOp.vreg (o : FormOp) (lo : Nat) : VReg := Fin.ofNat 32 (o.f lo 5)
/-- A format that FMT codes. -/
def fmtOf (n : Nat) : VFmt :=
  match n with
  | 0 => .fp16 | 1 => .bf16 | 2 => .int32 | _ => .int8
/-- FMT of an operation. -/
def FormOp.fmt (o : FormOp) : VFmt := fmtOf (o.f 32 2)
/-- A CMP predicate. -/
def predOf (n : Nat) : CmpPred :=
  match n with
  | 0 => .eq | 1 => .ne | 2 => .lt | 3 => .le | 4 => .gt | _ => .ge
/-- The operands of a pass. -/
def FormOp.pass (o : FormOp) : PassOps :=
  { larray := Fin.ofNat 64 o.larray, close := if o.close = 1 then .fp16 else if o.close = 2 then .bf16 else .none,
    accExp := sext 8 (o.f 16 8), layer := Fin.ofNat 256 o.passLayer,
    swatches := (List.range o.segs).map (fun k => Fin.ofNat 12288 (o.swatch k)) }

/-- The operation that a word of a step program stands for, issued with a header. -/
def FormOp.instr (h : OpHdr) (o : FormOp) : Option Instr :=
  let d := o.vreg 0
  let a := o.vreg 8
  let b := o.vreg 16
  let c := o.vreg 24
  let at' := BitVec.ofNat 19 o.addr
  match o.opcode with
  | 0x01 => some (.pass32 h o.pass)
  | 0x02 => some (.pass16 h o.pass)
  | 0x03 => some (.nap h o.pass)
  | 0x08 => some (.aout h d (Fin.ofNat 64 o.aux) o.fmt)
  | 0x10 => some (.load h d at')
  | 0x11 => some (.store h a at')
  | 0x12 => some (.swload h d at' (Fin.ofNat 256 o.aux) o.fmt)
  | 0x13 => some (.gather h d at' (Fin.ofNat 256 (o.f 67 8)) (BitVec.ofNat 2 o.aux) (BitVec.ofNat 16 o.imm))
  | 0x14 => some (.transpose h d at' (BitVec.ofNat 2 o.aux) (BitVec.ofNat 16 o.imm))
  | 0x20 => some (.add h d a b o.fmt)
  | 0x21 => some (.sub h d a b o.fmt)
  | 0x22 => some (.mul h d a b o.fmt)
  | 0x23 => some (.fma h d a b c o.fmt)
  | 0x24 => some (.min h d a b o.fmt)
  | 0x25 => some (.max h d a b o.fmt)
  | 0x26 => some (.abs h d a o.fmt)
  | 0x27 => some (.neg h d a o.fmt)
  | 0x28 => some (.cmp h d a b o.fmt (predOf (o.f 36 3)))
  | 0x29 => some (.sel h d a b c o.fmt)
  | 0x30 => some (.i8add h d a b)
  | 0x31 => some (.i8sub h d a b)
  | 0x32 => some (.i8min h d a b)
  | 0x33 => some (.i8max h d a b)
  | 0x34 => some (.i8dot4 h d a b)
  | 0x38 => some (.cvt h d a o.fmt (fmtOf (o.f 34 2)))
  | 0x40 => some (.exp2 h d a o.fmt)
  | 0x41 => some (.log2 h d a o.fmt)
  | 0x42 => some (.rcp h d a o.fmt)
  | 0x43 => some (.rsqrt h d a o.fmt)
  | 0x48 => some (.rsum h d a o.fmt)
  | 0x49 => some (.rdot h d a b o.fmt)
  | 0x4A => some (.rsumsq h d a o.fmt)
  | 0x4B => some (.rmax h d a o.fmt)
  | 0x4C => some (.rargmax h d a o.fmt)
  | 0x50 => some (.bcast h d a o.fmt (BitVec.ofNat 16 o.imm))
  | 0x51 => some (.rot h d a o.fmt (BitVec.ofNat 16 o.imm))
  | 0x52 => some (.gatherr h d a b o.fmt)
  | 0x53 => some (.tagset h d (Fin.ofNat 4096 (o.f 32 12)) (BitVec.ofNat 8 (o.f 44 8)) (BitVec.ofNat 24 (o.f 52 24)))
  | 0x58 => some (.quant h a at' (Fin.ofNat 256 o.aux) o.fmt)
  | 0x59 => some (.nsamp h at' (Fin.ofNat 8 o.aux))
  | 0x5A => some (.topk h (o.vreg 88) (BitVec.ofNat 19 (o.f 0 19)) (Fin.ofNat 8192 (o.f 19 13)) (BitVec.ofNat 19 (o.f 32 19))
      (Fin.ofNat 256 (o.f 51 8)) (BitVec.ofNat 17 (o.f 64 17)))
  | 0x60 => some (.dma h (Fin.ofNat 1024 (o.f 0 10)))
  | 0x70 => some (.waitl h (Fin.ofNat 32 (o.f 0 5)) (BitVec.ofNat 16 (o.f 16 16)))
  | 0x7F => some (.endOp h)
  | _ => none

/-! ## What a tile issues (R170, R183) -/

/-- The step program that a tile runs: its logical tile's operations for the running shape, as they stand patched. -/
def State.program (s : State) (t : TileId) : List FormOp :=
  match s.formOf t, (s.part (s.partOf t)).running, (s.tile t).ltile with
  | some f, some st, some l => ((f.tiles[l]?).bind (fun y => y.programs[st.shape]?)).getD []
  | _, _, _ => []

/-- Whether an operation is the one that a tile's sequencer comes to: the next of its step program in list order, with its cycle and
its operand bits. A tile that holds no program takes the operations it is given (log 50). -/
def State.inProgram (s : State) (h : OpHdr) (i : Instr) : Bool :=
  match s.program h.tile with
  | [] => true
  | prog =>
    let x := s.tile h.tile
    h.opidx == x.nextOp + x.waitq.length &&
    (match prog[h.opidx]? with
     | some o => o.cycle == h.cycle && o.instr h == some i
     | none => false)

end Sys2Proof.Machine
end

