-- ==== Sys2Proof/Machine/Floats.lean ====
section
/-!
DEFINITION. The floating-point formats (02_number_formats.md, "Vector-unit formats and rounding"): FP16, bfloat16,
IEEE binary32 and E4M3. A finite value is held exactly, as a sign, a natural significand and a power of two; an operation
is computed exactly and rounded once (R73, R543).
-/

namespace Sys2Proof.Machine

/-- A floating-point value: a NaN, an infinity, or (-1)^neg × m × 2^e. -/
inductive FV where
  | nan
  | inf (neg : Bool)
  | fin (neg : Bool) (m : Nat) (e : Int)
  deriving DecidableEq, Repr

/-- A binary interchange format: significant bits with the hidden one, exponent bits, and whether subnormals are
flushed (bfloat16, R543). -/
structure FFmt where
  p     : Nat
  ebits : Nat
  flush : Bool
  deriving DecidableEq, Repr

def FFmt.fp16 : FFmt := ⟨11, 5, false⟩
def FFmt.bf16 : FFmt := ⟨8, 8, true⟩
def FFmt.b32 : FFmt := ⟨24, 8, false⟩

/-- The exponent bias. -/
def FFmt.bias (f : FFmt) : Int := (2 ^ (f.ebits - 1) : Nat) - 1

/-- The exponent of the least significant bit of the smallest normal value. -/
def FFmt.lsb0 (f : FFmt) : Int := 2 - f.bias - f.p

/-- The encoding of the canonical quiet NaN (R73). -/
def FFmt.qnan (f : FFmt) : Nat := (2 ^ f.ebits - 1) * 2 ^ (f.p - 1) + 2 ^ (f.p - 2)

/-- The bits of a sign, an exponent field and a fraction. -/
def FFmt.pack (f : FFmt) (neg : Bool) (ef frac : Nat) : Nat :=
  boolN neg * 2 ^ (f.p - 1 + f.ebits) + ef * 2 ^ (f.p - 1) + frac

/-- The value of an encoding. bfloat16 subnormals are zero of the same sign on input. -/
def FFmt.decode (f : FFmt) (x : Nat) : FV :=
  let frac := fld x 0 (f.p - 1)
  let ef := fld x (f.p - 1) f.ebits
  let neg := bit x (f.p - 1 + f.ebits)
  if ef = 2 ^ f.ebits - 1 then (if frac = 0 then .inf neg else .nan)
  else if ef = 0 then (if f.flush then .fin neg 0 0 else .fin neg frac f.lsb0)
  else .fin neg (2 ^ (f.p - 1) + frac) (f.lsb0 + (ef - 1 : Nat))

/-- `m / 2^k` rounded to nearest, ties to even. -/
def rneShift (m k : Nat) : Nat :=
  let q := m / 2 ^ k
  let r := m % 2 ^ k
  if k = 0 then m
  else if 2 * r < 2 ^ k then q else if 2 ^ k < 2 * r then q + 1 else q + q % 2

/-- `a / b` rounded to nearest, ties to even. -/
def rneDiv (a b : Nat) : Nat :=
  let q := a / b
  let r := a % b
  if 2 * r < b then q else if b < 2 * r then q + 1 else q + q % 2

/-- m × 2^e rounded to nearest, ties to even, to `p` significant bits, no bit below 2^lo where `lo` is given: the
rounded significand and its exponent. -/
def roundSig (p : Nat) (lo : Option Int) (m : Nat) (e : Int) : Nat × Int :=
  if m = 0 then (0, 0)
  else
    let q0 : Int := e + (Nat.log2 m + 1 : Nat) - p
    let q := match lo with
      | some l => if q0 < l then l else q0
      | none => q0
    if q ≤ e then (m * 2 ^ (e - q).toNat, q) else (rneShift m (q - e).toNat, q)

/-- The encoding of m × 2^e, exactly representable or above the range: infinity above, R73. -/
def FFmt.encodeSig (f : FFmt) (neg : Bool) (m : Nat) (e : Int) : Nat :=
  if m = 0 then f.pack neg 0 0
  else
    let len := Nat.log2 m + 1
    let top : Int := e + (len - 1 : Nat)
    if f.bias < top then f.pack neg (2 ^ f.ebits - 1) 0
    else if top < 1 - f.bias then
      (if f.flush then f.pack neg 0 0 else f.pack neg 0 (m * 2 ^ (e - f.lsb0).toNat))
    else
      let sig := if f.p ≤ len then m / 2 ^ (len - f.p) else m * 2 ^ (f.p - len)
      f.pack neg (top + f.bias).toNat (sig - 2 ^ (f.p - 1))

/-- Rounds an exact finite value once to the format (R73; bfloat16 by R543). -/
def FFmt.round (f : FFmt) (neg : Bool) (m : Nat) (e : Int) : Nat :=
  let r := roundSig f.p (if f.flush then none else some f.lsb0) m e
  f.encodeSig neg r.1 r.2

/-- The encoding of a value, rounded once. -/
def FFmt.encode (f : FFmt) : FV → Nat
  | .nan => f.qnan
  | .inf neg => f.pack neg (2 ^ f.ebits - 1) 0
  | .fin neg m e => f.round neg m e

/-- The signed integer of sign and magnitude. -/
def signed (neg : Bool) (m : Nat) : Int := if neg then -(m : Int) else m

/-- An exact integer multiple of a power of two, as a value; zero takes the given sign. -/
def FV.ofInt (v e : Int) (zneg : Bool := false) : FV :=
  if v = 0 then .fin zneg 0 0 else .fin (decide (v < 0)) v.natAbs e

/-- Exact sum; an exact zero is positive unless both terms are negative (round to nearest, IEEE 754). -/
def FV.add (a b : FV) : FV :=
  match a, b with
  | .nan, _ => .nan
  | _, .nan => .nan
  | .inf x, .inf y => if x == y then .inf x else .nan
  | .inf x, _ => .inf x
  | _, .inf y => .inf y
  | .fin x m e, .fin y n g =>
    let q := if e ≤ g then e else g
    let v := signed x (m * 2 ^ (e - q).toNat) + signed y (n * 2 ^ (g - q).toNat)
    FV.ofInt v q (x && y)

/-- Negation. -/
def FV.neg : FV → FV
  | .nan => .nan
  | .inf x => .inf (!x)
  | .fin x m e => .fin (!x) m e

/-- Magnitude. -/
def FV.abs : FV → FV
  | .nan => .nan
  | .inf _ => .inf false
  | .fin _ m e => .fin false m e

/-- Exact product. -/
def FV.mul (a b : FV) : FV :=
  match a, b with
  | .nan, _ => .nan
  | _, .nan => .nan
  | .inf x, .inf y => .inf (x != y)
  | .inf x, .fin y n _ => if n = 0 then .nan else .inf (x != y)
  | .fin x m _, .inf y => if m = 0 then .nan else .inf (x != y)
  | .fin x m e, .fin y n g => .fin (x != y) (m * n) (e + g)

def FV.isNan : FV → Bool
  | .nan => true
  | _ => false

def FV.isFinite : FV → Bool
  | .fin _ _ _ => true
  | _ => false

/-- Order of two values neither of which is NaN; −0 and +0 are equal. -/
def FV.cmp (a b : FV) : Ordering :=
  match a, b with
  | .inf true, .inf true => .eq
  | .inf true, _ => .lt
  | _, .inf true => .gt
  | .inf false, .inf false => .eq
  | .inf false, _ => .gt
  | _, .inf false => .lt
  | .fin x m e, .fin y n g =>
    let q := if e ≤ g then e else g
    compare (signed x (m * 2 ^ (e - q).toNat)) (signed y (n * 2 ^ (g - q).toNat))
  | _, _ => .eq

/-- The sign of a value. -/
def FV.sign : FV → Bool
  | .nan => false
  | .inf x => x
  | .fin x _ _ => x

/-- Maximum of IEEE 754-2019: NaN if either is, −0 below +0 (R73). -/
def FV.max (a b : FV) : FV :=
  if a.isNan || b.isNan then .nan
  else match FV.cmp a b with
    | .lt => b
    | .gt => a
    | .eq => if a.sign then b else a

/-- Minimum of IEEE 754-2019 (R73). -/
def FV.min (a b : FV) : FV :=
  if a.isNan || b.isNan then .nan
  else match FV.cmp a b with
    | .lt => a
    | .gt => b
    | .eq => if a.sign then a else b

/-- Nearest integer, ties to even, of a finite value. -/
def FV.toInt (neg : Bool) (m : Nat) (e : Int) : Int :=
  signed neg (if 0 ≤ e then m * 2 ^ e.toNat else rneShift m (-e).toNat)

/-! ## Correctly rounded functions (R73)

Each function is computed to many more bits than the format has, the last of them sticky, and rounded once. -/

/-- Integer square root, built from bit `n` down. -/
def isqrtAux (v : Nat) : Nat → Nat → Nat
  | 0, r => if (r + 1) * (r + 1) ≤ v then r + 1 else r
  | n + 1, r =>
    let c := r + 2 ^ (n + 1)
    isqrtAux v n (if c * c ≤ v then c else r)

/-- The largest integer whose square is at most `v`. -/
def isqrt (v : Nat) : Nat := isqrtAux v (Nat.log2 v / 2 + 1) 0

/-- The fraction bits kept in the functions below. -/
def fnBits : Nat := 160

/-- The product of 2^(2^-i) over the set fraction bits of `f`, which lists them from 2^-1 down; `t` is 2^(2^-i). -/
def exp2Aux (f k : Nat) : Nat → Nat → Nat → Nat
  | 0, _, acc => acc
  | n + 1, t, acc =>
    let t' := isqrt (t * 2 ^ fnBits)
    exp2Aux f k n t' (if bit f n then acc * t' / 2 ^ fnBits else acc)

/-- 2^(f / 2^k) × 2^fnBits for f below 2^k, rounded down. -/
def exp2Frac (f k : Nat) : Nat := exp2Aux f k k (2 * 2 ^ fnBits) (2 ^ fnBits)

/-- 2^x for a finite non-zero x = (-1)^neg m 2^e: significand and exponent, the lowest bit sticky. Below 2^-40 the
result is 1 and a sticky bit on the side of x. -/
def exp2Of (neg : Bool) (m : Nat) (e : Int) : Nat × Int :=
  if e + (Nat.log2 m : Nat) < -40 then
    (if neg then (2 ^ (fnBits + 1) - 1, -(fnBits + 1 : Nat)) else (2 ^ (fnBits + 1) + 1, -(fnBits + 1 : Nat)))
  else
    let k := (-e).toNat
    let v : Int := signed neg (m * 2 ^ e.toNat)
    let ip : Int := v / (2 ^ k : Nat)
    let f := (v % (2 ^ k : Nat)).toNat
    if f = 0 then (1, ip) else (2 * exp2Frac f k + 1, ip - (fnBits + 1 : Nat))

/-- `n` bits of log2 of y in [1, 2), y held × 2^256. -/
def log2Aux : Nat → Nat → Nat → Nat
  | 0, _, acc => acc
  | n + 1, y, acc =>
    let y2 := y * y / 2 ^ 256
    if 2 ^ 257 ≤ y2 then log2Aux n (y2 / 2) (2 * acc + 1) else log2Aux n y2 (2 * acc)

/-- log2 of a positive m 2^e: sign, significand, exponent, the lowest bit sticky. -/
def log2Of (m : Nat) (e : Int) : FV :=
  let len := Nat.log2 m
  let ip : Int := e + (len : Nat)
  if m = 2 ^ len then FV.ofInt ip 0
  else
    let fr := log2Aux 96 (m * 2 ^ (256 - len)) 0
    let t : Int := ip * (2 ^ 96 : Nat) + fr
    if 0 ≤ t then .fin false (2 * t.toNat + 1) (-97) else .fin true (2 * (-t - 1).toNat + 1) (-97)

/-- 1 / (m 2^e) to many bits, the lowest sticky. -/
def rcpOf (m : Nat) (e : Int) : Nat × Int :=
  let q := 2 ^ fnBits / m
  (2 * q + boolN (2 ^ fnBits % m != 0), -e - (fnBits + 1 : Nat))

/-- 1 / √(m 2^e) to many bits, the lowest sticky. -/
def rsqrtOf (m : Nat) (e : Int) : Nat × Int :=
  let odd := e % 2 ≠ 0
  let m' := if odd then 2 * m else m
  let e' := if odd then e - 1 else e
  let z := 2 ^ (2 * fnBits) / m'
  let r := isqrt z
  (2 * r + boolN (r * r * m' != 2 ^ (2 * fnBits)), -(e' / 2) - (fnBits + 1 : Nat))

/-! ## Natural exponential, for the sampling unit (R255) -/

/-- The partial sum of y^n / n!, y held × 2^k below 1, from term `n` down by Horner: n + 1 terms. -/
def expHorner (y k : Nat) : Nat → Nat → Nat
  | 0, acc => acc
  | n + 1, acc => expHorner y k n (2 ^ k + acc * y / 2 ^ k / (n + 1))

/-- log2 e × 2^200, by the series for ln 2 = Σ 1 / (n 2^n). -/
def ln2Aux : Nat → Nat → Nat
  | 0, acc => acc
  | n + 1, acc => ln2Aux n (acc + 2 ^ 200 / ((n + 1) * 2 ^ (n + 1)))

/-- ln 2 × 2^200, within 2^8. -/
def ln2Fixed : Nat := ln2Aux 220 0

/-- e^x for a finite non-zero x: significand and exponent, the lowest bit sticky. -/
def expOf (neg : Bool) (m : Nat) (e : Int) : Nat × Int :=
  if e + (Nat.log2 m : Nat) < -60 then
    (if neg then (2 ^ (fnBits + 1) - 1, -(fnBits + 1 : Nat)) else (2 ^ (fnBits + 1) + 1, -(fnBits + 1 : Nat)))
  else if 12 < e + (Nat.log2 m : Nat) then (1, if neg then -100000 else 100000)
  else
    let v : Int := if 0 ≤ e + 200 then signed neg (m * 2 ^ (e + 200).toNat) else signed neg (m / 2 ^ (-(e + 200)).toNat)
    let q : Int := v / (ln2Fixed : Nat)
    let y := (v - q * (ln2Fixed : Nat)).toNat
    (2 * expHorner y 200 48 (2 ^ 200) + 1, q - 201)

end Sys2Proof.Machine
end

