-- ==== Sys2Proof/Machine/Swatch.lean ====
section
/-!
DEFINITION. E4M3 scales (R49 to R52), swatches (R55 to R66), the quantiser (R67 to R72) and norm samples (R75, R76).
-/

namespace Sys2Proof.Machine

/-! ## E4M3 scales -/

/-- A scale code that R50 allows. -/
def e4Legal (c : Nat) : Bool := decide (c < 0x7F)

/-- The value of a non-negative E4M3 code, as significand and exponent (R49). -/
def e4Val (c : Nat) : Nat × Int :=
  let m := fld c 0 3
  let e := fld c 3 4
  if e = 0 then (m, -9) else (8 + m, (e : Int) - 10)

/-- m 2^e ≤ n 2^g. -/
def dyLe (m : Nat) (e : Int) (n : Nat) (g : Int) : Bool :=
  if g ≤ e then decide (m * 2 ^ (e - g).toNat ≤ n) else decide (m ≤ n * 2 ^ (g - e).toNat)

/-- pick_scale of R67 on a magnitude m 2^e: the code, and whether the scale is clamped. -/
def pickScale (m : Nat) (e : Int) : Nat × Bool :=
  if m = 0 then (0, false)
  else match ((List.range 0x7F).drop 1).find? (fun c => let v := e4Val c; dyLe m e (127 * v.1) v.2) with
    | some c => (c, false)
    | none => (0x7E, true)

/-- The quotient of (-1)^neg m 2^e by a scale code, rounded to nearest, ties to even (R68), held to ±127. -/
def quantOne (neg : Bool) (m : Nat) (e : Int) (c : Nat) : Int :=
  let v := e4Val c
  let q := if v.2 ≤ e then rneDiv (m * 2 ^ (e - v.2).toNat) v.1 else rneDiv m (v.1 * 2 ^ (v.2 - e).toNat)
  clampI (-127) 127 (signed neg q)

/-! ## Swatch fields -/

/-- Bytes of a swatch of a layer of the given nap sizing (R55). -/
def swSize (slots : Nat) : Nat := if slots = 4 then 176 else 160
/-- Slots per block that the form of a swatch holds (R58). -/
def swN (slots : Nat) : Nat := if slots = 4 then 4 else 2

def swHdr (b : List Byte) : Nat := leAt b 0 8
def swSlot (b : List Byte) : Nat := fld (swHdr b) 0 12
def swLayer (b : List Byte) : Nat := fld (swHdr b) 12 8
def swWgen (b : List Byte) : Nat := fld (swHdr b) 20 8
def swPos (b : List Byte) : Nat := fld (swHdr b) 28 24
def swPoison (b : List Byte) : Bool := bit (swHdr b) 52
def swSat (b : List Byte) : Bool := bit (swHdr b) 53
def swBlkZero (b : List Byte) (k : Nat) : Bool := bit (swHdr b) (54 + k)
def swNapCount (b : List Byte) : Nat := fld (swHdr b) 58 5
def swExt (b : List Byte) : Bool := bit (swHdr b) 63

/-- The header word of R57. -/
def swHeader (slot layer wgen pos : Nat) (poison sat : Bool) (zeros napCount : Nat) (ext : Bool) : Nat :=
  slot % 4096 + layer % 256 * 2 ^ 12 + wgen % 256 * 2 ^ 20 + pos % 2 ^ 24 * 2 ^ 28 + boolN poison * 2 ^ 52
    + boolN sat * 2 ^ 53 + zeros % 16 * 2 ^ 54 + napCount % 32 * 2 ^ 58 + boolN ext * 2 ^ 63

/-- Data byte of element j. -/
def swData (b : List Byte) (j : Nat) : Int := sext 8 (leAt b (8 + j) 1)
/-- Block scale code. -/
def swScale (b : List Byte) (k : Nat) : Nat := leAt b (136 + k) 1
/-- Nap slot s of block k: index and value byte (R58). -/
def swNap (b : List Byte) (n k s : Nat) : Nat × Nat := (leAt b (140 + 2 * (k * n + s)) 1, leAt b (141 + 2 * (k * n + s)) 1)
/-- Nap scale code of block k. -/
def swNapScale (b : List Byte) (n k : Nat) : Nat := leAt b (140 + 8 * n + k) 1

/-- The occupied nap slots of block k as (index, value), in slot order. -/
def swNaps (b : List Byte) (n k : Nat) : List (Nat × Int) :=
  ((List.range n).map (fun s => swNap b n k s)).filterMap
    (fun x => if x.1 = 0xFF then none else some (x.1, sext 8 x.2))

/-- The canonical poisoned swatch of R66. -/
def poisonedSwatch (slot layer wgen pos slots : Nat) : List Byte :=
  let n := swN slots
  leBytes 8 (swHeader slot layer wgen pos true false 15 0 (decide (slots = 4))) ++ List.replicate 132 0 ++
    ((List.replicate (4 * n) [(0xFF : Byte), 0x00]).flatten) ++ List.replicate 4 0

/-! ## Validity (R63) -/

/-- What a swatch is checked against. -/
structure SwCtx where
  layer   : Nat
  slots   : Nat
  base    : Nat
  len     : Nat
  maxCtx  : Nat
  gens    : List Nat
  deriving DecidableEq, Repr

/-- Occupied slots never follow an empty one. -/
def napPacked : List (Nat × Nat) → Bool
  | [] => true
  | x :: r => (if x.1 = 0xFF then r.all (fun y => y.1 == 0xFF) else true) && napPacked r

/-- No index occurs twice. -/
def noDup : List Nat → Bool
  | [] => true
  | x :: r => !r.contains x && noDup r

/-- The checks of R63 in the table's order: true = this check fails. -/
def swChecks (c : SwCtx) (b : List Byte) : List Bool :=
  let n := swN c.slots
  let ks := List.range 4
  let slots (k : Nat) := (List.range n).map (fun s => swNap b n k s)
  let occ (k : Nat) := (slots k).filter (fun x => x.1 != 0xFF)
  let data (k : Nat) := (List.range 32).map (fun j => swData b (32 * k + j))
  [ swExt b != decide (c.slots = 4),
    swLayer b != c.layer,
    !(decide (c.base ≤ swSlot b) && decide (swSlot b < c.base + c.len)),
    !decide (swPos b < c.maxCtx),
    !c.gens.contains (swWgen b),
    ks.any (fun k => !e4Legal (swScale b k)),
    ks.any (fun k => if swBlkZero b k then swScale b k != 0 || (data k).any (· != 0) else swScale b k == 0),
    ks.any (fun k => (slots k).any (fun x => decide (0x20 ≤ x.1) && decide (x.1 ≤ 0xFE))),
    ks.any (fun k => !napPacked (slots k)),
    ks.any (fun k => !noDup ((occ k).map (·.1))),
    ks.any (fun k => (slots k).any (fun x => x.1 == 0xFF && x.2 != 0)),
    decide (c.slots = 0) && ks.any (fun k => !(occ k).isEmpty),
    ks.any (fun k => let t := swNapScale b n k
      !e4Legal t || (t == 0 && !(occ k).isEmpty) || (t != 0 && (occ k).isEmpty)),
    swNapCount b != ((ks.map (fun k => (occ k).length)).foldl (· + ·) 0) ]

/-- The first failing check, in R63 order from 0; a poisoned swatch is exempt (R65). -/
def swMalformed (c : SwCtx) (b : List Byte) : Option Nat :=
  if swPoison b then none else (swChecks c b).findIdx? id

/-! ## Decoding (R59) -/

/-- The exact value of element j of a swatch. -/
def swElem (b : List Byte) (n j : Nat) : FV :=
  let k := j / 32
  let s := e4Val (swScale b k)
  let q := swData b j
  let v := FV.ofInt (q * (s.1 : Int)) s.2
  match (swNaps b n k).find? (fun x => x.1 == j % 32) with
  | none => v
  | some x =>
    let t := e4Val (swNapScale b n k)
    FV.add v (FV.ofInt (x.2 * (t.1 : Int)) t.2)

/-! ## The quantiser (R67) -/

/-- The magnitude order of finite values. -/
def magGt (a b : FV) : Bool := FV.cmp a.abs b.abs == .gt

/-- Inserts in descending magnitude, ties in order of arrival. -/
def insMag (x : Nat × FV) : List (Nat × FV) → List (Nat × FV)
  | [] => [x]
  | y :: r => if magGt x.2 y.2 then x :: y :: r else y :: insMag x r

/-- Descending magnitude, then ascending index. -/
def sortMag (l : List (Nat × FV)) : List (Nat × FV) := l.foldl (fun acc x => insMag x acc) []

/-- Significand and exponent of a finite value. -/
def FV.sig : FV → Nat × Int
  | .fin _ m e => (m, e)
  | _ => (0, 0)

/-- One quantised block: data, scale code, nap slots (index, value), nap scale code, nap overflow, saturation. -/
structure QBlock where
  data  : List Int
  scale : Nat
  naps  : List (Nat × Int)
  nscale : Nat
  overLim : Bool
  sat   : Bool
  deriving DecidableEq, Repr

def quantVal (x : FV) (c : Nat) : Int := match x with
  | .fin neg m e => if m = 0 then 0 else quantOne neg m e c
  | _ => 0

/-- quantise_block of R67. -/
def quantBlock (x : List FV) (slots lf : Nat) : QBlock :=
  let ix := (List.range x.length).zip x
  let sorted := sortMag ix
  let v9 := match sorted[8]? with
    | some y => y.2.abs
    | none => FV.fin false 0 0
  let out := if slots = 0 ∨ v9.sig.1 = 0 then []
    else sorted.filter (fun y => magGt y.2 (FV.mul v9 (.fin false 1 lf)))
  let nap := out.take slots
  let bulk := ix.filter (fun y => !(nap.map (·.1)).contains y.1)
  let m := match sortMag bulk with
    | [] => (0, 0)
    | y :: _ => y.2.sig
  let ps := pickScale m.1 m.2
  let q := ix.map (fun y => if (nap.map (·.1)).contains y.1 then 0 else quantVal y.2 ps.1)
  let z := q.all (· == 0)
  let nm := match nap with
    | [] => (0, 0)
    | y :: _ => y.2.sig
  let pt := if nap.isEmpty then (0, false) else pickScale nm.1 nm.2
  { data := q, scale := if z then 0 else ps.1, naps := nap.map (fun y => (y.1, quantVal y.2 pt.1)), nscale := pt.1,
    overLim := decide (slots < out.length), sat := ps.2 || pt.2 }

/-- The bytes of the nap slots of a block. -/
def napBytes (n : Nat) (l : List (Nat × Int)) : List Byte :=
  ((l.map (fun x => [BitVec.ofNat 8 x.1, BitVec.ofNat 8 (toBits 8 x.2)])).flatten) ++
    (List.replicate (n - l.length) [(0xFF : Byte), 0x00]).flatten

/-- A quantised swatch: its bytes, the blocks that overflowed their nap slots, the blocks that saturated. -/
def quantSwatch (x : List FV) (slots lf slot layer wgen pos : Nat) : List Byte × Nat × Nat :=
  let n := swN slots
  let bs := (List.range 4).map (fun k => quantBlock ((x.drop (32 * k)).take 32) slots lf)
  let zeros := (List.range 4).foldl (fun a k => match bs[k]? with
    | some b => a + boolN (b.data.all (· == 0)) * 2 ^ k
    | none => a) 0
  let cnt := bs.foldl (fun a b => a + b.naps.length) 0
  let sat := bs.any (·.sat)
  (leBytes 8 (swHeader slot layer wgen pos false sat zeros cnt (decide (slots = 4)))
    ++ (bs.map (fun b => b.data.map (fun v => BitVec.ofNat 8 (toBits 8 v)))).flatten
    ++ bs.map (fun b => BitVec.ofNat 8 b.scale)
    ++ (bs.map (fun b => napBytes n b.naps)).flatten
    ++ bs.map (fun b => BitVec.ofNat 8 b.nscale),
   (bs.filter (·.overLim)).length, (bs.filter (·.sat)).length)

/-! ## Norm samples (R75, R76) -/

/-- T[j] of R76: floor(128 log2(1 + j / 128)). -/
def normT (j : Nat) : Nat := log2Aux 7 ((128 + j) * 2 ^ 249) 0

/-- The binary32 squares of values added in ascending order to a binary32 sum. -/
def accSq (acc : Nat) (l : List FV) : Nat :=
  l.foldl (fun acc v => FFmt.b32.encode (FV.add (FFmt.b32.decode acc)
    (FFmt.b32.decode (FFmt.b32.encode (FV.mul v v))))) acc

/-- L of R76, or none for a zero sum. -/
def normLevel (s : Nat) : Option Int :=
  if s = 0 then none
  else some (128 * ((fld s 23 8 : Nat) - 127 : Int) + normT (fld s 16 7))

end Sys2Proof.Machine
end

