-- ==== Sys2Proof/Machine/Tiles.lean ====
section
/-!
DEFINITION. What every operation of a tile's step program shares: issue and waiting (R183, R184, R218), tickets (R198,
R388, R391), scratchpad accesses with their ports, conflicts, collisions and check bits (R136 to R143), register tags
(R191) and poison reports (R426).
-/

namespace Sys2Proof.Machine

/-! ## Delay and slack (R184, R218) -/

/-- Δ grows by `n`: `r` of it charged to the overflow reserve while the reserve has room, the rest to slack. -/
def State.charge (s : State) (t : TileId) (n r : Nat) : State :=
  if n = 0 then s
  else
    let x := s.tile t
    let (slack, reserve) := match (s.part (s.partOf t)).shape? with
      | some sh => (sh.slack, sh.reserve)
      | none => (0, 0)
    let res := Nat.min (Nat.min n r) (reserve - x.resUse)
    let sl := n - res
    let past := decide (slack < x.slackUse + sl) && !x.overSlack
    let s1 := s.setTile t { x with
      delta := x.delta + n, resUse := x.resUse + res, slackUse := x.slackUse + sl, overSlack := x.overSlack || past }
    let s2 := if sl = 0 then s1 else s1.tileEvent t 0x0C sl
    let s3 := if res = 0 then s2 else s2.tileEvent t 0x0D res
    if past then s3.tileEvent t 0x0E 1 else s3

/-! ## Engine writes (R138) -/

/-- A write entered in a list in order of cycle, behind those of its own cycle. -/
def insWrite (w : PendWrite) : List PendWrite → List PendWrite
  | [] => [w]
  | y :: r => if w.cycle < y.cycle then w :: y :: r else y :: insWrite w r

/-- Makes visible every engine write issued before cycle `c`, the earliest first. -/
def State.flushW (s : State) (t : TileId) (c : Nat) : State :=
  let x := s.tile t
  let s1 := (x.wpend.filter (fun w => decide (w.cycle < c))).foldl (fun s w => s.setBytesP w.addr w.bytes w.poison) s
  s1.modTile t (fun y => { y with wpend := y.wpend.filter (fun w => decide (c ≤ w.cycle)) })

/-- Makes every engine write visible, the earliest first. -/
def State.flushAll (s : State) (t : TileId) : State :=
  let x := s.tile t
  let s1 := x.wpend.foldl (fun s w => s.setBytesP w.addr w.bytes w.poison) s
  s1.modTile t (fun y => { y with wpend := [] })

/-! ## Issue (R183, R184) -/

/-- Where an operation waits: it joins the tile's queue, in form operation order. -/
def State.enqueue (s : State) (t : TileId) (i : Instr) : State := s.modTile t (fun x => { x with waitq := x.waitq ++ [i] })

/-- The issue cycle of an operation, its unit free from `free` on. -/
def State.issueAt (s : State) (h : OpHdr) (free : Nat) : Nat := Nat.max (h.cycle + (s.tile h.tile).delta) free

/-- An operation issues at cycle `c`: earlier waiting is charged, older writes become visible, the bank log keeps only
what can still collide, and TIL_OPIDX shows the operation. -/
def State.issue (s : State) (h : OpHdr) (c : Nat) (reserve : Nat := 0) : State :=
  let w := c - (h.cycle + (s.tile h.tile).delta)
  let s1 := (s.charge h.tile w reserve).flushW h.tile c
  let s2 := s1.modTile h.tile (fun x => { x with nextOp := h.opidx + 1, access := x.access.filter (fun a => decide (c ≤ a.issue)) })
  s2.setReg (tReg h.tile .tilOpidx) (BitVec.ofNat 32 (h.opidx % 2 ^ 24))

/-- Runs the body of an operation, or queues it behind one that waits. Nothing issues on a tile that does not run, and nothing that
its step program does not hold next (R170). -/
def State.tileOp (s : State) (h : OpHdr) (i : Instr) (body : State → State) : State :=
  if s.running h.tile && s.inProgram h i then
    (if (s.tile h.tile).waitq.isEmpty then body s else s.enqueue h.tile i)
  else s

/-- A number of cycles under the contract that the tile's form names: LC-2's, or LC-1's (R187, R193). -/
def State.lat (s : State) (t : TileId) (lc2 lc1 : Nat) : Nat := if s.isLc1 t then lc1 else lc2

/-- A vector operation of issue interval `n` issues (R187): one event 0x14. -/
def State.vecIssue (s : State) (h : OpHdr) (n : Nat) : Nat × State :=
  let c := s.issueAt h (s.tile h.tile).vecFree
  let s1 := (s.issue h c).modTile h.tile (fun x => { x with vecFree := c + n })
  (c, s1.tileEvent h.tile 0x14 1)

/-! ## Tickets (R198, R391) -/

/-- The outcome of a draw. -/
inductive Draw where
  | ok (s : State)
  | wait (s : State)
  | short (s : State)

/-- Draws `n` tickets at issue: more than the plan meter is a ticket shortfall (R198); fewer in the counter than the
draw is a wait, with the meter already reduced. -/
def State.drawTickets (s : State) (h : OpHdr) (n unit : Nat) : Draw :=
  if n = 0 then .ok s
  else
    let x := s.tile h.tile
    if !x.waitDraw && decide (x.meter < n) then
      .short (s.tileJobFault h.tile 0x1017 unit (n + x.meter * 2 ^ 32) h.opidx)
    else
      let m := if x.waitDraw then x.meter else x.meter - n
      if x.opTickets < n then .wait (s.setTile h.tile { x with meter := m, waitDraw := true })
      else .ok ((s.setTile h.tile { x with meter := m, waitDraw := false, opTickets := x.opTickets - n }).tileEvent
        h.tile 0x09 n)

/-! ## Scratchpad accesses -/

/-- Bank of an offset (R136). -/
def scpBank (o : Nat) : Nat := o / 2 ^ 14
/-- Row of an offset within its bank. -/
def scpRow (o : Nat) : Nat := o / 64 % 256
/-- Latency of a bank (R137). -/
def scpLat (o : Nat) : Nat := if scpBank o < 8 then 2 else if scpBank o < 16 then 3 else 4

/-- Whether an offset lies in a region that the form's map declares shared (R142, R196). -/
def State.scpShared (s : State) (t : TileId) (o : Nat) : Bool :=
  match s.formOf t, (s.tile t).ltile with
  | some f, some l => match f.tiles[l]? with
    | some ft => ft.scpMap.any (fun r => r.shared && decide (r.start ≤ o) && decide (o < r.start + r.len))
    | none => false
  | _, _ => false

/-- A bank-conflict fault for a dropped access (R140): KIND 0 a shared bank, 1 the port limit. The step cycle that it names is the
access's issue cycle; R140 does not say whether that or the cycle in the bank is meant (DESIGN CHOICE, log 51). -/
def State.bankConflict (s : State) (t : TileId) (o kind cycle opidx : Nat) : State :=
  let s1 := s.setBit (tReg t .scpEvents) (if kind = 0 then 0 else 1)
  let s2 := s1.setReg (tReg t .scpConflict) (BitVec.ofNat 32 (scpBank o + scpRow o * 2 ^ 5 + kind * 2 ^ 13))
  s2.tileJobFault t 0x1010 0x04 (scpBank o + scpRow o * 2 ^ 8 + cycle * 2 ^ 16) opidx

/-- Whether an engine access in issue cycle `c` loses to one already made (R140): some KIND of conflict. -/
def Tile.conflict (x : Tile) (c o : Nat) (write : Bool) : Option Nat :=
  let same := x.access.filter (fun a => a.issue == c)
  if same.any (fun a => a.bank == scpBank o) then some 0
  else if 4 ≤ (same.filter (fun a => a.write == write)).length then some 1 else none

/-- A counted row collision (R141), a fault in an engine-exclusive region (R142). -/
def State.rowCollision (s : State) (t : TileId) (o opidx : Nat) : State :=
  let s1 := (s.setBit (tReg t .scpEvents) 2).bump (tReg t .scpCollide) 0 32 1
  let s2 := s1.tileEvent t 0x17 1
  if s2.scpShared t o then s2
  else (s2.setBit (tReg t .scpEvents) 3).tileJobFault t 0x1011 0x04 (scpBank o + scpRow o * 2 ^ 8) opidx

/-- The poisoned words among `n` bytes from address `a` (R143). -/
def State.poisonWords (s : State) (a n : Nat) : List Nat :=
  s.poison.filter (fun w => decide (a / 8 ≤ w) && decide (w ≤ (a + n - 1) / 8) && decide (0 < n))

/-- A collision keeps bytes for the transfer that it meets. -/
def State.shield (s : State) (c : Collision) (a : Nat) (b : List Byte) (bad : List Nat) : State :=
  s.modTile c.owner (fun y => { y with shields := y.shields ++ [⟨c.xfer, a, b, bad⟩] })

/-- The DMA accesses that fall on a row in the same cycle `c` (R141): counted unless both read; what a transfer reads, or
what stays after its write, is kept for it. `wr` is an engine write's data and poison, or none for a read. -/
def State.collideRow (s : State) (t : TileId) (c o opidx : Nat) (env : OpEnv) (wr : Option (List Byte × Bool)) : State :=
  (env.collide.filter (fun e => e.row == o / 64)).foldl (fun s e =>
    match e.write, wr with
    | true, none => s.rowCollision t o opidx
    | false, none => s
    | true, some b =>
      let a := tAddr t o
      let words := (List.range ((a + b.1.length - 1) / 8 + 1 - a / 8)).map (a / 8 + ·)
      (s.shield e a b.1 (if b.2 then words else [])).rowCollision t o opidx
    | false, some _ =>
      let a := tAddr t (o / 64 * 64)
      let v := s.flushW t c
      (s.shield e a (v.bytes a 64) (v.poisonWords a 64)).rowCollision t o opidx) s

/-- The words of `o` to `o + n - 1` found in error by a read (R143): a single-bit error is corrected and counted, and
waits to be written back; an uncorrectable word is marked poisoned and recorded. -/
def State.eccRead (s : State) (t : TileId) (o n opidx : Nat) (env : OpEnv) : State :=
  (env.ecc.filter (fun e => decide (o / 8 ≤ e.1) && decide (e.1 ≤ (o + n - 1) / 8))).foldl (fun s e =>
    if e.2 then
      let k := tReg t .scpEcc
      let b := 8 * e.1
      let s1 := (s.setBit (tReg t .scpEvents) 5).poisonOn (tAddr t b) 8
      let s2 := ((s1.setFld k 16 5 (scpBank b)).setFld k 21 8 (scpRow b)).setFld k 29 3 (e.1 % 8)
      s2.tileFault t 0x2001 0x04 (scpBank b + scpRow b * 2 ^ 8 + e.1 % 8 * 2 ^ 16) opidx
    else
      let s1 := (s.setBit (tReg t .scpEvents) 4).bump (tReg t .scpEcc) 0 16 1
      (s1.tileEvent t 0x18 1).modTile t (fun y => { y with eccPend := y.eccPend ++ [e.1] })) s

/-- Sixty-four free bytes, for a read that returns nothing stated. -/
def State.freeBytes (s : State) (n : Nat) : List Byte × State :=
  let (v, s1) := s.draw
  (leBytes n v, s1)

/-- An engine read of `n` bytes within one row in issue cycle `c` (R138, R139): the bytes and the poisoned words (address / 8) among
them, or none where the access is dropped (R140); beyond the scratchpad zeros (R33). -/
def State.engFetch (s : State) (h : OpHdr) (c o n : Nat) : Option (List Byte × List Nat) × State :=
  let t := h.tile
  if 0x60000 ≤ o then (some (List.replicate n 0, []), s.addrFaultTile t 0x04 (tAddr t o) h.opidx)
  else match (s.tile t).conflict c o false with
    | some kind => (none, s.bankConflict t o kind c h.opidx)
    | none =>
      let s1 := s.modTile t (fun x => { x with access := x.access ++ [⟨c + scpLat o - 1, scpBank o, scpRow o, false, c, h.opidx⟩] })
      let s2 := (s1.collideRow t c o h.opidx h.env none).eccRead t o n h.opidx h.env
      let v := s2.flushW t c
      (some (v.bytes (tAddr t o) n, v.poisonWords (tAddr t o) n), s2)

/-- What an engine read gives its operation: the bytes and whether they are poisoned. A dropped read returns data marked poisoned
(R140). -/
def State.engRead (s : State) (h : OpHdr) (c o n : Nat) : (List Byte × Bool) × State :=
  let q := s.engFetch h c o n
  match q.1 with
  | some b => ((b.1, !b.2.isEmpty), q.2)
  | none => let r := q.2.freeBytes n; ((r.1, true), r.2)

/-- An engine write within one row in issue cycle `c`, which a slower contract releases `late` cycles later (R193); a dropped one
changes nothing (R140). -/
def State.engWrite (s : State) (h : OpHdr) (c late o : Nat) (b : List Byte) (poison : Bool) : State :=
  let t := h.tile
  if 0x60000 ≤ o then s.addrFaultTile t 0x04 (tAddr t o) h.opidx
  else match (s.tile t).conflict c o true with
    | some kind => s.bankConflict t o kind c h.opidx
    | none =>
      let s1 := s.modTile t (fun x => { x with
        access := x.access ++ [⟨c + scpLat o - 1, scpBank o, scpRow o, true, c, h.opidx⟩],
        wpend := insWrite ⟨c + late, tAddr t o, b, poison⟩ x.wpend })
      s1.collideRow t c o h.opidx h.env (some (b, poison))

/-- The pieces of `n` bytes from `o`, one per row touched: offset and length. At most `k` rows. -/
def rowPieces : Nat → Nat → Nat → List (Nat × Nat)
  | 0, _, _ => []
  | k + 1, o, n =>
    if n = 0 then []
    else
      let l := Nat.min n (64 - o % 64)
      (o, l) :: rowPieces k (o + l) (n - l)

/-- Reads the rows that `n` bytes at `o` touch, one per cycle from `c` on. -/
def State.readRows (s : State) (h : OpHdr) (c : Nat) (l : List (Nat × Nat)) : (List Byte × Bool) × State :=
  let r := l.foldl (fun (acc : (List Byte × Bool) × State × Nat) p =>
    let q := acc.2.1.engRead h acc.2.2 p.1 p.2
    ((acc.1.1 ++ q.1.1, acc.1.2 || q.1.2), q.2, acc.2.2 + 1)) (([], false), s, c)
  (r.1, r.2.1)

/-- Writes bytes at `o`, one row per cycle from `c` on, released `late` cycles later. -/
def State.writeRows (s : State) (h : OpHdr) (c late : Nat) (l : List (Nat × Nat)) (b : List Byte) (poison : Bool) : State :=
  (l.foldl (fun (acc : State × Nat × List Byte) p =>
    (acc.1.engWrite h acc.2.1 late p.1 (acc.2.2.take p.2) poison, acc.2.1 + 1, acc.2.2.drop p.2)) (s, c, b)).1

/-! ## Registers and tags -/

/-- The 256 bytes of a vector register. -/
def Tile.vreg (x : Tile) (r : Nat) : List Byte := Tbl.get x.vr r (List.replicate 256 0)
/-- The tag of a vector register. -/
def Tile.tag (x : Tile) (r : Nat) : Tag := Tbl.get x.tags r Tag.reset

/-- Whether a request slot is the void slot of a tile's partition (R234). -/
def State.isVoid (s : State) (t : TileId) (slot : Nat) : Bool := (s.part (s.partOf t)).voidSlot == slot

/-- A poison report for a request, once per step and never for the void slot (R426). -/
def State.poisonReport (s : State) (t : TileId) (slot : Nat) : State :=
  if s.isVoid t slot || (s.tile t).reported.contains slot then s
  else
    (s.modTile t (fun x => { x with reported := x.reported ++ [slot], reports := x.reports ++ [slot] })).tileEvent t 0x1A 1

/-- A result entered among the pending ones in order of its release, behind those released with it. -/
def insRes (e : VRes) : List VRes → List VRes
  | [] => [e]
  | y :: r => if e.ready < y.ready then e :: y :: r else y :: insRes e r

/-- The results for register `r` that an operation issuing in cycle `c` finds released in this step, in order (R187, R193). -/
def Tile.released (x : Tile) (c r : Nat) : List VRes := x.vpend.filter (fun e => e.reg == r && decide (e.ready ≤ c))

/-- The 256 bytes of register `r` for an operation that issues in cycle `c`. -/
def Tile.vregAt (x : Tile) (c r : Nat) : List Byte := (x.released c r).foldl (fun b e => e.bytes.getD b) (x.vreg r)

/-- The tag of register `r` for an operation that issues in cycle `c`. -/
def Tile.tagAt (x : Tile) (c r : Nat) : Tag :=
  (x.released c r).foldl (fun g e => if e.keep then { g with poison := e.tag.poison } else e.tag) (x.tag r)

/-- Whether register `r`, as an operation that issues in cycle `c` finds it, derives from a saturated pass output (R107). -/
def Tile.satAt (x : Tile) (c r : Nat) : Bool :=
  (x.released c r).foldl (fun b e => if e.bytes.isSome then e.sat else b) (x.satRegs.contains r)

/-- The element format of register `r` as an operation that issues in cycle `c` finds it: none where its bytes were read from memory. -/
def Tile.fmtAt (x : Tile) (c r : Nat) : Option VFmt :=
  (x.released c r).foldl (fun f e => if e.bytes.isSome then e.fmt else f) (Tbl.find x.vfmt r)

/-- Every result released: what the registers hold once the tile's program has ended. -/
def Tile.settled (x : Tile) : Tile :=
  let c := x.vpend.foldl (fun a e => Nat.max a e.ready) 0
  let rs := (List.range 32).filter (fun r => x.vpend.any (fun e => e.reg == r))
  { x with vr := rs.foldl (fun t r => Tbl.put t r (x.vregAt c r)) x.vr, tags := rs.foldl (fun t r => Tbl.put t r (x.tagAt c r)) x.tags,
           satRegs := x.satRegs.filter (fun r => !rs.contains r) ++ rs.filter (fun r => x.satAt c r),
           vfmt := rs.foldl (fun t r => match x.fmtAt c r with
             | some f => Tbl.put t r f
             | none => Tbl.del t r) x.vfmt,
           vpend := [] }

/-- A result enters the tile's pending ones; a poisoned tag is reported (R426). -/
def State.release (s : State) (t : TileId) (e : VRes) (slot : Nat) : State :=
  let s1 := s.modTile t (fun x => { x with vpend := insRes e x.vpend })
  if e.tag.poison then s1.poisonReport t slot else s1

/-- A computed result for a vector register, its tag, and whether it derives from a saturated pass output (R107), released in cycle
`ready`. -/
def State.writeVr (s : State) (t : TileId) (ready r : Nat) (b : List Byte) (g : Tag) (sat : Bool) (fmt : Option VFmt) : State :=
  s.release t ⟨r, ready, some b, g, false, sat, fmt⟩ g.slot

/-- Bytes read into a vector register, released in cycle `ready`: of its tag POISON alone is written (R191). -/
def State.writeRead (s : State) (t : TileId) (ready r : Nat) (b : List Byte) (poison : Bool) : State :=
  let g := (s.tile t).tagAt ready r
  s.release t ⟨r, ready, some b, { g with poison := poison }, true, false, none⟩ g.slot

/-- Whether any of the registers, as cycle `c` finds them, derives from a saturated pass output. -/
def Tile.satOf (x : Tile) (c : Nat) (srcs : List Nat) : Bool := srcs.any (x.satAt c)

/-- The tag of a result: SRC1's, with POISON the OR over all sources (R191). -/
def Tile.srcTag (x : Tile) (c : Nat) (srcs : List Nat) : Tag :=
  match srcs with
  | [] => Tag.reset
  | a :: _ => { x.tagAt c a with poison := srcs.any (fun r => (x.tagAt c r).poison) }

/-- Elements of `w` bytes of a register image, `n` of them. -/
def elemsN (w : Nat) : Nat → List Byte → List Nat
  | 0, _ => []
  | n + 1, l => leNat (l.take w) :: elemsN w n (l.drop w)

/-- Element bytes of a list of elements. -/
def elemBytes (w : Nat) (l : List Nat) : List Byte := (l.map (leBytes w)).flatten

/-- Replaces each unstated element by a free value. -/
def State.fillFree (s : State) : List (Option Nat) → List Nat × State
  | [] => ([], s)
  | some v :: r =>
    let q := State.fillFree s r
    (v :: q.1, q.2)
  | none :: r =>
    let d := s.draw
    let q := State.fillFree d.2 r
    (d.1 :: q.1, q.2)

end Sys2Proof.Machine
end

