-- ==== Sys2Proof/Machine/Routes.lean ====
section
/-!
DEFINITION. Routes on the grid of tiles (R13, R19 to R22, R160 to R162): the Body dies by which traffic enters and leaves, and the
path of a packet from its entry to its last router.
-/

namespace Sys2Proof.Machine

/-! ## Dies (R13, R19 to R22) -/

/-- The die index beyond an edge of a Body die: 0 north, 1 east, 2 south, 3 west (R13). -/
def beyond (d e : Nat) : Nat :=
  let row := d / 8
  let col := d % 8
  match e with
  | 0 => if 0 < row then d - 8 else if col < 4 then 0x24 else 0x25
  | 1 => if col < 7 then d + 1 else if row < 2 then 0x22 else 0x23
  | 2 => if row < 3 then d + 8 else if col < 4 then 0x26 else 0x27
  | _ => if 0 < col then d - 1 else if row < 2 then 0x20 else 0x21

/-- The numbers from `a` to `b`, in either direction. -/
def between (a b : Nat) : List Nat := if a ≤ b then (List.range (b - a + 1)).map (a + ·) else (List.range (a - b + 1)).map (b + ·)

/-- Held to a range. -/
def clampN (lo hi v : Nat) : Nat := if v < lo then lo else if hi < v then hi else v

/-- The Body dies of a route between two Body dies (R19): along the source row, then along the destination column. -/
def bodyRoute (a b : Nat) : List Nat :=
  (between (a % 8) (b % 8)).map (fun c => 8 * (a / 8) + c) ++ (between (a / 8) (b / 8)).map (fun r => 8 * r + b % 8)

/-- The row of a die as a destination: that of a Body die; row 0 for BM0, BM2, CW0 and CW1, row 3 for BM1, BM3, CW2 and CW3 (R21). -/
def dieRow (k : Nat) : Nat :=
  if k < 0x20 then k / 8 else if k < 0x24 then (if k % 2 = 0 then 0 else 3) else (if k < 0x26 then 0 else 3)

/-- The column of a die as a destination of Crown traffic: that of a Body die, and of the Body dies that a Brim die adjoins. A
Crown die adjoins four columns, of which the first is taken (DESIGN CHOICE, log 49). -/
def dieCol (k : Nat) : Nat :=
  if k < 0x20 then k % 8 else if k < 0x24 then (if k < 0x22 then 0 else 7) else (if k % 2 = 0 then 0 else 4)

/-- The Body die beside a Crown die in the column nearest to a column (R20, R22). -/
def crownBeside (c col : Nat) : Nat := (if c < 2 then 0 else 24) + (if c % 2 = 0 then clampN 0 3 col else clampN 4 7 col)

/-- The Body die beside a Crown die by which a Body die's traffic crosses to it (R22): the one nearest to the source. -/
def crownGate (c d : Nat) : Nat := crownBeside c (d % 8)

/-- The Body die by which a Crown die's traffic for die `k` enters (R20): in the destination's column, or nearest to it. -/
def crownEntry (c k : Nat) : Nat := crownBeside c (dieCol k)

/-- The Body die beside a Brim die by which a Body die sends to it (R22): the one nearest to the source. -/
def brimGate (b d : Nat) : Nat :=
  let row := if b % 2 = 0 then clampN 0 1 (d / 8) else clampN 2 3 (d / 8)
  8 * row + (if b < 2 then 0 else 7)

/-- The Body die by which a Brim die's traffic for die `k` enters (R21): the outer die for its own half of the grid, else the inner. -/
def brimEntry (b k : Nat) : Nat :=
  let own := if b % 2 = 0 then decide (dieRow k < 2) else decide (2 ≤ dieRow k)
  let row := if b % 2 = 0 then (if own then 0 else 1) else (if own then 3 else 2)
  8 * row + (if b < 2 then 0 else 7)

/-! ## Tiles (R160 to R162) -/

/-- Global coordinates of a tile. -/
def tileX (d r : Nat) : Nat := 32 * (d % 8) + r % 32
def tileY (d r : Nat) : Nat := 16 * (d / 8) + r / 32

/-- The tile at global coordinates. -/
def gridTile (x y : Nat) : TileId := tileOf (8 * (y / 16) + x / 32) (32 * (y % 16) + x % 32)

/-- Whether an address lies in a tile region of a Body die. -/
def inTile (a : Nat) : Bool := decide (addrDie a < 0x20) && decide (addrRegion a < 512)

/-- The coordinates of the boundary tile by which traffic of Brim or Crown die index `k` for address `a` enters (R161): in the
destination's tile row or column; where the destination has none, in the first (DESIGN CHOICE, log 49). -/
def entryAt (k a : Nat) : Nat × Nat :=
  let r := if inTile a then addrRegion a else 0
  if k < 0x24 then (if k < 0x22 then 0 else 255, 16 * (brimEntry (k - 0x20) (addrDie a) / 8) + r / 32)
  else (32 * (crownEntry (k - 0x24) (addrDie a) % 8) + r % 32, if k < 0x26 then 0 else 63)

/-- Where a packet enters the grid, and the side of that router it comes in by: 0 north, 1 east, 2 south, 3 west, 4 its own tile. A
unit of a Body die injects at tile region 0 of its die (DESIGN CHOICE, log 49). -/
def packetEntry (p : Packet) : (Nat × Nat) × Nat :=
  match p.src with
  | .tile t => ((tileX t.die.val t.region.val, tileY t.die.val t.region.val), 4)
  | .body d => ((tileX d.val 0, tileY d.val 0), 4)
  | .outer k _ => (entryAt (0x20 + k.val) p.dst.toNat, if k.val < 2 then 3 else if k.val < 4 then 1 else if k.val < 6 then 0 else 2)

/-- The last router of a packet, and the edge it leaves the grid by, if any (R160, R162). What is addressed to a unit of a Body die
ejects at the first tile of that die that it reaches (DESIGN CHOICE, log 49). -/
def packetLast (p : Packet) : (Nat × Nat) × Option Nat :=
  let a := p.dst.toNat
  let x := (packetEntry p).1.1
  let y := (packetEntry p).1.2
  let k := addrDie a
  if k < 0x20 then
    if addrRegion a < 512 then ((tileX k (addrRegion a), tileY k (addrRegion a)), none)
    else ((clampN (32 * (k % 8)) (32 * (k % 8) + 31) x, clampN (16 * (k / 8)) (16 * (k / 8) + 15) y), none)
  else if k < 0x24 then
    let rows := if k % 2 = 0 then clampN 0 1 (y / 16) else clampN 2 3 (y / 16)
    ((if k < 0x22 then 0 else 255, 16 * rows + y % 16), some (if k < 0x22 then 3 else 1))
  else
    let cols := if k % 2 = 0 then clampN 0 3 (x / 32) else clampN 4 7 (x / 32)
    ((32 * cols + x % 32, if k < 0x26 then 0 else 63), some (if k < 0x26 then 0 else 2))

/-- The side by which a packet goes on from a router: along the row, then along the column (R160); none where it ejects. -/
def routeDir (p : Packet) (d r : Nat) : Option Nat :=
  let x := tileX d r
  let y := tileY d r
  let g := packetLast p
  if x < g.1.1 then some 1 else if g.1.1 < x then some 3 else if y < g.1.2 then some 2 else if g.1.2 < y then some 0 else g.2

/-- The side by which a packet comes to a router of its path. -/
def packetSide (p : Packet) (d r : Nat) : Nat :=
  let x := tileX d r
  let y := tileY d r
  let e := (packetEntry p)
  if x = e.1.1 ∧ y = e.1.2 then e.2
  else if y = e.1.2 then (if e.1.1 < x then 3 else 1) else (if e.1.2 < y then 0 else 2)

/-- Whether a hop in a direction leaves the die. -/
def leavesDie (r e : Nat) : Bool :=
  match e with
  | 0 => r / 32 == 0
  | 1 => r % 32 == 31
  | 2 => r / 32 == 15
  | _ => r % 32 == 0

/-- The tile beyond a side of a router. -/
def nextTile (d r e : Nat) : TileId :=
  let x := tileX d r
  let y := tileY d r
  match e with
  | 0 => gridTile x (y - 1)
  | 1 => gridTile (x + 1) y
  | 2 => gridTile x (y + 1)
  | _ => gridTile (x - 1) y

/-- The opposite side. -/
def facing (e : Nat) : Nat := (e + 2) % 4

end Sys2Proof.Machine
end

