-- ==== Sys2Proof/Machine/CrownAreas.lean ====
section
/-!
DEFINITION. A partition's range of the Crown dies (R37, R41, R270): its stream windows, append windows, adapter windows and page pool,
and what lies at an address of it.
-/

namespace Sys2Proof.Machine

/-! ## Crown areas (R270) -/

/-- The home Crown die of a Body die (R39, R270): rows 0 and 1 the north die of the pair-column, rows 2 and 3 the south
one. -/
def homeCrown (d : Nat) : Nat := (if d / 8 < 2 then 0 else 2) + (if d % 8 < 4 then 0 else 1)

/-- The Body dies of a partition that a Crown die serves, ascending. -/
def Part.served (x : Part) (c : Nat) : List Nat :=
  (List.range 32).filter (fun d => x.dies.contains d && homeCrown d == c)

/-- ΣL_c over a list of dies. -/
def State.sumLayers (s : State) (l : List Nat) : Nat := l.foldl (fun a d => a + s.layersOn d) 0

/-- ΣL_c of a partition. -/
def State.sumL (s : State) (x : Part) (c : Nat) : Nat := s.sumLayers (x.served c)

/-- o_c(d). -/
def State.offL (s : State) (x : Part) (d : Nat) : Nat := s.sumLayers ((x.served (homeCrown d)).filter (· < d))

/-- The die and layer that number `l` of a Crown die's layers is. -/
def State.layerAt (s : State) (x : Part) (c l : Nat) : Option (Nat × Nat) :=
  ((x.served c).map (fun d => (d, s.offL x d))).findSome? (fun e =>
    if e.2 ≤ l ∧ l < e.2 + s.layersOn e.1 then some (e.1, l - e.2) else none)

/-- Rounded up to a multiple. -/
def upTo (n m : Nat) : Nat := (n + m - 1) / m * m

/-- The start of a partition's range on a Crown die, as a device address (R37, R458). -/
def Part.crownStart (x : Part) (c : Nat) : Nat := mkAddr (crownIdx c) 0 (x.crownBase * 2 ^ 30)
/-- The end of a partition's range on a Crown die. -/
def Part.crownEnd (x : Part) (c : Nat) : Nat := x.crownStart c + x.crownLen * 2 ^ 30

/-- Length of the stream area. -/
def State.streamLen (s : State) (x : Part) (c : Nat) : Nat := 320 * s.sumL x c * x.lanes * x.fr
/-- Start of the append area within the range. -/
def State.appendOff (s : State) (x : Part) (c : Nat) : Nat := upTo (s.streamLen x c) (2 ^ 20)
/-- Length of the append area. -/
def State.appendLen (s : State) (x : Part) (c : Nat) : Nat := 6400 * s.sumL x c * x.kvt
/-- P_c. -/
def State.poolOff (s : State) (x : Part) (c : Nat) : Nat := upTo (s.appendOff x c + s.appendLen x c) (2 ^ 20)
/-- STRIDE_c. -/
def State.strideC (s : State) (x : Part) (c : Nat) : Nat := upTo (s.sumL x c * x.fr) 4096

/-- The device address of the slice of layer j of die d of a page set. -/
def State.sliceAddr (s : State) (x : Part) (d j page : Nat) : Nat :=
  let c := homeCrown d
  x.crownStart c + s.poolOff x c + page * s.strideC x c + (s.offL x d + j) * x.fr

/-- The request, position and draft number that a token index of the append area names (R275): none for a void token. -/
def Part.appendToken (x : Part) (u : Nat) : Option (Nat × Nat × Nat) :=
  match x.running with
  | none => none
  | some st =>
    if u < 2304 then
      match st.dec[u / 9]? with
      | some d => match d.slot with
        | some i => if u % 9 ≤ d.drafts.length then some (i, d.pos + u % 9, u % 9) else none
        | none => none
      | none => none
    else match st.pre[u - 2304]? with
      | some q => some (q.slot, q.pos, 0)
      | none => none

/-- The Crown die that a device address lies in. -/
def crownOf (a : Nat) : Option Nat := if 0x24 ≤ addrDie a ∧ addrDie a < 0x28 then some (addrDie a - 0x24) else none

/-- What an address of a partition's range is: an offset in the stream or append area, a page set and offset in the adapter windows
(R316), or storage. -/
inductive CrownArea where
  | stream (off : Nat)
  | append (off : Nat)
  | window (page off : Nat)
  | storage
  deriving DecidableEq, Repr

/-- What `n` bytes at a device address are to a partition, or none where they do not lie in its range of one of its home dies (R41). -/
def State.crownArea (s : State) (x : Part) (c a n : Nat) : Option CrownArea :=
  if (x.served c).isEmpty = true ∨ a < x.crownStart c ∨ x.crownEnd c < a + n then none
  else
    let o := a - x.crownStart c
    let stride := s.strideC x c
    let i := (o - s.poolOff x c) / stride
    if o < s.streamLen x c then some (.stream o)
    else if s.appendOff x c ≤ o ∧ o < s.appendOff x c + s.appendLen x c then some (.append (o - s.appendOff x c))
    else if s.poolOff x c ≤ o ∧ stride ≠ 0 ∧ x.wpages + 1 ≤ i ∧ i < x.wpages + 1 + 320 * x.adpPages then
      some (.window i ((o - s.poolOff x c) % stride))
    else some .storage

/-- The page sets of a partition that `n` bytes of its pool on a Crown die touch. -/
def State.pagesAt (s : State) (x : Part) (c a n : Nat) : List Nat :=
  let base := x.crownStart c + s.poolOff x c
  let stride := s.strideC x c
  if stride = 0 ∨ a < base ∨ n = 0 then []
  else (between ((a - base) / stride) ((a + n - 1 - base) / stride)).filter (fun i => decide (i < x.pageCount))

/-! ## Records in Crown memory (R268 to R270, R288, R289, R305) -/

/-- What the device keeps in an area of a Crown die's DRAM: the prefix index, a partition's page vectors or page-set records, the bolt
cache. -/
inductive DramArea where
  | index
  | vectors (p : Nat)
  | records (p : Nat)
  | cache
  deriving DecidableEq, Repr

/-- V of a partition: the entries of a page vector (R269). -/
def Part.vecLen (x : Part) : Nat :=
  match x.form with
  | some f => f.maxContext / 64
  | none => 0

/-- The areas of a Crown die that hold records: start as an offset in the die, length, and what they hold. -/
def State.dramAreas (s : State) (c : Nat) : List (Nat × Nat × DramArea) :=
  let cache := ceilDiv s.start.boltCache 4 * 2 ^ 30
  (if c = 0 then [(s.start.pfxBase * 2 ^ 20, 2 ^ 25, DramArea.index)] else []) ++
  (if cache = 0 then [] else [(2 ^ 35 - cache, cache, DramArea.cache)]) ++
  (List.range 16).flatMap (fun p =>
    let x := s.part p
    if x.pageCount = 0 ∨ (x.served c).isEmpty = true then []
    else
      let base := x.crownBase * 2 ^ 30
      let vec := upTo (s.poolOff x c + x.pageCount * s.strideC x c) (2 ^ 20)
      let n := x.shareLen * x.vecLen * 4
      let recs := upTo (vec + n) (2 ^ 20)
      [(base + vec, n, DramArea.vectors p), (base + recs, x.pageCount * 320, DramArea.records p)])

/-- The bytes of a record of an area, by its number. -/
def State.areaRecord (s : State) (k : DramArea) (i : Nat) : List Byte :=
  match k with
  | .index => (s.idx (i / 8, i % 8)).bytes
  | .vectors p => let x := s.part p; vecBytes (((s.slot (x.shareBase + i / x.vecLen)).vector[i % x.vecLen]?).join)
  | .records p => (s.page p i).bytes (s.hotRef p i)
  | .cache => []

/-- The length of the records of an area. -/
def DramArea.recLen : DramArea → Nat
  | .index => 32
  | .vectors _ => 4
  | .records _ => 320
  | .cache => 1

/-- Where an offset of the cache's range of a Crown die lies in the objects, laid end to end (R305). -/
def State.cachePlace (s : State) (c o : Nat) : Nat := Config.cachePlace (s.cache.map (fun e => (e.boltId.toNat, e.chunk))) c o

/-- What an offset of an area reads as: none where only the memory's own byte stands there. -/
def State.areaByte (s : State) (c : Nat) (k : DramArea) (o : Nat) : Option Byte :=
  match k with
  | .cache => (s.cache.flatMap (·.data))[s.cachePlace c o]?
  | .index => (s.areaRecord k (o / 32))[o % 32]?
  | .vectors _ => (s.areaRecord k (o / 4))[o % 4]?
  | .records _ => (s.areaRecord k (o / 320))[o % 320]?

/-- A byte of objects laid end to end replaced. -/
def putCached : Nat → Byte → List Cached → List Cached
  | _, _, [] => []
  | i, b, e :: r => if i < e.data.length then { e with data := e.data.set i b } :: r else e :: putCached (i - e.data.length) b r

/-- A write of a byte of an area changes the record that it is a byte of, in every copy of it (DESIGN CHOICE, log 8). -/
def State.areaPut (s : State) (c : Nat) (k : DramArea) (o : Nat) (b : Byte) : State :=
  let i := o / k.recLen
  let r := (s.areaRecord k i).set (o % k.recLen) b
  match k with
  | .cache => { s with cache := putCached (s.cachePlace c o) b s.cache }
  | .index => s.setIdx (i / 8, i % 8) (IdxEntry.ofBytes r)
  | .records p => s.setPage p i (PageSet.ofBytes r)
  | .vectors p =>
    let x := s.part p
    let v := leAt r 0 4
    s.modSlot (x.shareBase + i / x.vecLen) (fun y => { y with
      vector := setVec y.vector (i % x.vecLen) (v % 2 ^ 28) |>.modify (i % x.vecLen) (fun e => if bit v 31 then e else none) })

/-- The areas of a Crown die that `n` bytes from an offset of it touch. -/
def State.areasAt (s : State) (c o n : Nat) : List (Nat × Nat × DramArea) :=
  (s.dramAreas c).filter (fun e => decide (o < e.1 + e.2.1) && decide (e.1 < o + n))

/-- The object of the cache that holds a byte of its objects laid end to end. -/
def cachedAt : Nat → List Cached → Option Cached
  | _, [] => none
  | i, e :: r => if i < e.data.length then some e else cachedAt (i - e.data.length) r

/-- What a 64-byte line of a Crown die holds (R423). -/
inductive LineHolds where
  | pageSlice (p page : Nat)
  | weightSlice (p page : Nat)
  | vectorOrRecord
  | indexEntries (first : Nat)
  | cached (l : List Cached)
  | other
  deriving DecidableEq, Repr

/-- What the line at an offset of a Crown die holds: an area of records, else a page set of the partition whose pool it lies in; the
weight pages stand first in a pool, after the void page set (R314). -/
def State.lineHolds (s : State) (c o : Nat) : LineHolds :=
  match (s.areasAt c o 64).head? with
  | some e => match e.2.2 with
    | .vectors _ | .records _ => .vectorOrRecord
    | .index => .indexEntries ((o - e.1) / 32)
    | .cache => .cached ((List.range 64).filterMap (fun k => cachedAt (s.cachePlace c (o + k - e.1)) s.cache))
  | none =>
    match (List.range 16).findSome? (fun p =>
      let x := s.part p
      let a := mkAddr (crownIdx c) 0 o
      if (x.served c).isEmpty = true ∨ x.crownEnd c ≤ a then none else (s.pagesAt x c a 64).head?.map (fun i => (p, i))) with
    | some k => if 1 ≤ k.2 ∧ k.2 ≤ (s.part k.1).wpages then .weightSlice k.1 k.2 else .pageSlice k.1 k.2
    | none => .other

/-- The bytes that Crown memory reads as at a device address: records where it holds them, else its own. -/
def State.dramBytes (s : State) (c a n : Nat) : List Byte :=
  let o := a % 2 ^ 42
  let l := s.areasAt c o n
  if l.isEmpty then s.bytes a n
  else ((List.range n).zip (s.bytes a n)).map (fun z =>
    match (s.areasAt c (o + z.1) 1).head? with
    | some e => (s.areaByte c e.2.2 (o + z.1 - e.1)).getD z.2
    | none => z.2)

/-- A write of Crown memory at a device address: records change where it holds them. -/
def State.dramPut (s : State) (c a : Nat) (b : List Byte) : State :=
  let o := a % 2 ^ 42
  let s1 := s.setBytesP a b false
  if (s.areasAt c o b.length).isEmpty then s1
  else ((List.range b.length).zip b).foldl (fun s z =>
    match (s.areasAt c (o + z.1) 1).head? with
    | some e => s.areaPut c e.2.2 (o + z.1 - e.1) z.2
    | none => s) s1

/-- The operation that issued the transfer of a tile to which an access belongs (R205). -/
def State.xferOp (s : State) (t : TileId) (a : Nat) : Nat :=
  match (s.tile t).xfers.find? (fun x =>
    (decide (x.src.toNat ≤ a) && decide (a < x.src.toNat + x.len)) || (decide (x.dst.toNat ≤ a) && decide (a < x.dst.toNat + x.len))) with
  | some x => x.opidx
  | none => 0

/-- An out-of-allocation fault against a transfer's tile (R40, R41, R91). -/
def State.outOfAlloc (s : State) (t : TileId) (a opidx : Nat) : State := s.tileJobFault t 0x1012 0x01 a opidx

end Sys2Proof.Machine
end

