-- ==== Sys2Proof/Machine/Crown.lean ====
section
/-!
DEFINITION. The Crown controllers (R41, R189, R190, R271 to R277, R280, R294, R316, R422, R423): stream windows, append windows,
pool accesses, adapter windows, refresh and patrol scrub. What a read returns waits at the tile for the landing of its
transfer.
-/

namespace Sys2Proof.Machine

/-! ## Refresh (R189, R190) -/

/-- The granule of a Crown die that a device address lies in. -/
def granuleOf (a : Nat) : Nat := addrOff a / 2 ^ 30 % 32

/-- Whether a Crown die reads above the refresh-doubling limit of 85 °C (R400). -/
def State.crownHot (s : State) (c : Nat) : Bool := decide (850 < sext 16 (s.fldOf (s.pReg 0x203 .thmCrown c) 0 16))

/-- The interval at which a granule owes a refresh window (R190). -/
def State.owedEvery (s : State) (c : Nat) : Nat := if s.crownHot c then 1950 else 3900

/-- Whether a partition is within the schedule cycles of a running step (R215). -/
def Part.inStep (x : Part) : Bool :=
  x.job == .running && (match x.shape? with
    | some sh => decide (x.cyc < sh.length)
    | none => false)

/-- Whether a step's schedule has a refresh window now (R189): from step cycle 3,900 j to 3,900 j + 349 for j from 1 up, and, while the
Crown die's refresh is doubled, from 3,900 j + 1,950. -/
def State.plannedWindow (s : State) (x : Part) (c : Nat) : Bool :=
  x.inStep && decide (3900 ≤ x.cyc) &&
    (decide (x.cyc % 3900 < 350) || (s.crownHot c && decide (1950 ≤ x.cyc % 3900) && decide (x.cyc % 3900 < 2300)))

/-- Whether an access of a partition meets a refresh window of its granule: one of the running step's schedule, or one that is being
served (R189, R190). -/
def State.crownBusy (s : State) (c p a : Nat) : Bool :=
  s.plannedWindow (s.part p) c || decide (s.bow.time < (Tbl.get s.refresh (c, granuleOf a) Refresh.reset).ends)

/-- A Crown access waits for the end of a refresh window (R189): it is served in the slots that follow. -/
def State.defer (s : State) (i : Instr) : State := { s with deferred := s.deferred ++ [i] }

/-- The partition in whose range a granule lies. -/
def State.granulePart (s : State) (c g : Nat) : Option Nat :=
  (List.range 16).find? (fun p =>
    let x := s.part p
    x.present && !(x.served c).isEmpty && decide (x.crownBase ≤ g) && decide (g < x.crownBase + x.crownLen))

/-- CROWN_REFRESH_WINDOW: a granule's owed window falls due and is served: in a window of the running step's schedule (R189), or, once
the owed interval has passed since the last, on the controller's own schedule or inserted into a throttled step (R190). An access that
meets it is served after its 350 ns. -/
def runCrownRefreshWindow (c : CrownDie) (granule : Fin 32) (s : State) : State :=
  let k := (c.val, granule.val)
  let r := Tbl.get s.refresh k Refresh.reset
  let planned := match s.granulePart c.val granule.val with
    | some p => s.plannedWindow (s.part p) c.val && decide (r.last + 350 ≤ s.bow.time)
    | none => false
  if planned || decide (r.last + s.owedEvery c.val ≤ s.bow.time) then
    { s with refresh := Tbl.put s.refresh k ⟨s.bow.time, s.bow.time + 350⟩ }
  else s

/-- The command CROWN_REFRESH_WINDOW. -/
def execCrownRefreshWindow (c : CrownDie) (granule : Fin 32) (s : State) : Host.Outcome State Fault Refusal := .next (runCrownRefreshWindow c granule s)

/-! ## Answers -/

/-- A response on its way to a tile. -/
def State.respond (s : State) (t : TileId) (a : Nat) (b : List Byte) (poison : Bool) : State :=
  s.modTile t (fun x => { x with inbuf := x.inbuf.filter (fun r => r.addr != a) ++ [⟨a, b, poison⟩] })

/-- An access that breaks R41, R273, R274 or R275: zeros with poison for a read, nothing for a write; an out-of-allocation
fault against the DMA operation that issued it ends the job (R205). `window`: a window rule was broken (KVP_EVENTS). -/
def State.crownRefuse (s : State) (t : TileId) (a len : Nat) (read window : Bool) : State :=
  let s1 := if read then s.respond t a (List.replicate len 0) true else s
  let s2 := if window then s1.setBit (s1.pReg 0x207 .kvpEvents) 2 else s1
  s2.outOfAlloc t a (s.xferOp t a)

/-- The void page set of a stream read: zeros, with no DRAM access, counted (R273). -/
def State.zeroPage (s : State) (c : Nat) (t : TileId) (a len : Nat) : State :=
  (s.respond t a (List.replicate len 0) false).bump (uReg (crownIdx c) 0x200 .kvpCwZero) 0 32 1

/-- Where the slice of a page set is read from in this step: its hot frame where it has one (R280), else the pool. -/
def State.sliceFrom (s : State) (p d j page : Nat) : Nat :=
  let x := s.part p
  match Tbl.find x.hotSnap page with
  | some h => match s.hotFrame x d h j with
    | some f => mkAddr d f.1 f.2
    | none => s.sliceAddr x d j page
  | none => s.sliceAddr x d j page

/-- The partition that a fault of a Crown line concerns, and the action bits of its record (R441): poison that a request carries is
replayed, and a weight page slice is repaired. -/
def LineHolds.actions : LineHolds → Option Nat × Byte
  | .pageSlice p _ => (some p, 4)
  | .weightSlice p _ => (some p, 16)
  | .vectorOrRecord | .indexEntries _ | .cached _ | .other => (none, 0)

/-- What an uncorrectable Crown line does by what it holds (R423). -/
def State.crownBad (s : State) (c a : Nat) : State :=
  let line := a / 64 * 64
  let h := s.lineHolds c (line % 2 ^ 42)
  let s1 := (s.poisonOn line 64).putFault
    ⟨0x2002, h.actions.2, h.actions.1, crownIdx c, 0x81, addrRegion a, 0, 0, s.bow.time, a⟩
  match h with
  | .pageSlice p i => s1.poisonPage p i
  | .weightSlice p _ => s1.repairEnter p 0
  | .vectorOrRecord => s1.poisonOff line 64
  | .indexEntries n => [n, n + 1].foldl (fun s i => s.dropEntry (i / 8, i % 8)) s1
  | .cached l => { s1 with cache := s1.cache.filter (fun e => !l.contains e) }
  | .other => s1

/-- What the check of a line does (R422): a correctable line is written back as it reads, and counted. -/
def State.crownCheck (s : State) (c a : Nat) (ecc : LineEcc) : State :=
  match ecc with
  | .clean => s
  | .corrected => s.modDie (crownIdx c) (fun x => { x with eccFixed := x.eccFixed + 1 })
  | .bad => s.crownBad c a

/-! ## Stream windows (R271 to R274) -/

/-- The request of a stream in the running step (R271). -/
def Part.streamSlot (x : Part) (n : Nat) : Option Nat :=
  match x.running with
  | none => none
  | some st =>
    if n < 256 then (st.dec[n]?).bind (·.slot) else (st.streams[n - 256]?).join

/-- A read of `len` bytes at an offset of the stream area: one layer of the request's next page set, by the POS and the page vector of
the step's LAUNCH (R272, R273). -/
def State.streamRead (s : State) (c : Nat) (src : TileId) (offset len : Nat) (ecc : LineEcc) : State :=
  let p := s.partOf src
  let x := s.part p
  let a := x.crownStart c + offset
  let n := s.sumL x c
  let w := offset / x.fr
  let key := c * 2 ^ 40 + w
  if x.fr = 0 ∨ n = 0 ∨ x.lanes = 0 ∨ s.streamLen x c ≤ offset then s.crownRefuse src a len true true
  else if offset % x.fr ≠ 0 ∨ len ≠ x.fr then s.crownRefuse src a len true true
  else if (match Tbl.find x.readers key with
    | some t => t != src
    | none => false) then s.crownRefuse src a len true true
  else match s.layerAt x c (w / x.lanes % n) with
    | none => s.crownRefuse src a len true true
    | some e =>
      let q := Tbl.get x.cursors key (w % x.lanes)
      let s1 := s.modPart p (fun y => { y with cursors := Tbl.put y.cursors key (q + x.lanes), readers := Tbl.put y.readers key src })
      match (x.streamSlot (w / (n * x.lanes))).bind (Tbl.find x.atLaunch) with
      | none => s1.zeroPage c src a len
      | some r =>
        if r.1 ≤ 64 * q then s1.zeroPage c src a len
        else match (r.2[q]?).join with
          | none => s1.zeroPage c src a len
          | some page =>
            let from' := s1.sliceFrom p e.1 e.2 page
            let b := s1.bytes from' x.fr
            let live := Nat.min 64 (r.1 - 64 * q) * x.kvt
            let hot := decide (from' ≠ s1.sliceAddr x e.1 e.2 page)
            let bad := (ecc == .bad && !hot) || s1.poisonedIn from' live
            let s2 := if hot then s1 else s1.crownCheck c from' ecc
            let s3 := if bad then s2.poisonPage p page else s2
            s3.respond src a (b.take live ++ List.replicate (x.fr - live) 0) bad

/-- CROWN_STREAM_READ: a stream window returns one layer of the request's next page set (R272, R273). -/
def runCrownStreamRead (c : CrownDie) (src : TileId) (offset len : Nat) (ecc : LineEcc) (s : State) : State :=
  let p := s.partOf src
  if s.pllDown (.crownIf c) then s
  else if s.crownBusy c.val p ((s.part p).crownStart c.val + offset) then s.defer (.crownStreamRead c src offset len ecc)
  else s.streamRead c.val src offset len ecc

/-- The command CROWN_STREAM_READ. -/
def execCrownStreamRead (c : CrownDie) (src : TileId) (offset len : Nat) (ecc : LineEcc) (s : State) : Host.Outcome State Fault Refusal := .next (runCrownStreamRead c src offset len ecc s)

/-! ## Append windows (R275, R276) -/

/-- Sets the TENT bit of a position (R276). -/
def State.tentative (s : State) (p page r : Nat) : State :=
  s.modPage p page (fun y => { y with tent := y.tent ||| BitVec.ofNat 64 (2 ^ r) })

/-- One token's KV written into its page set (R275): a void token's at position 0 of the void page set, as its TOKEN_POS is 0 (R234). A
page with a hot copy is written twice (R280). -/
def State.appendOne (s : State) (p d j u : Nat) (b : List Byte) (poison : Bool) : State :=
  let x := s.part p
  let put (s : State) (page r : Nat) : State :=
    let o := r * x.kvt
    let s1 := s.setBytesP (s.sliceAddr x d j page + o) b poison
    let h := s1.sliceFrom p d j page
    if h = s1.sliceAddr x d j page then s1 else s1.setBytesP (h + o) b poison
  match x.appendToken u with
  | none => put s 0 0
  | some k => match ((s.slot k.1).vector[k.2.1 / 64]?).join with
    | none => put s 0 (k.2.1 % 64)
    | some page =>
      let s1 := put s page (k.2.1 % 64)
      if k.2.2 = 0 then s1 else s1.tentative p page (k.2.1 % 64)

/-- Data written at an offset of the append area, with its poisoned pieces (offset, length): each token's KV goes to its position (R275). -/
def State.appendWrite (s : State) (c : Nat) (src : TileId) (offset : Nat) (data : List Byte) (bad : List (Nat × Nat)) : State :=
  let p := s.partOf src
  let x := s.part p
  let a := x.crownStart c + s.appendOff x c + offset
  let n := data.length / x.kvt
  let l := offset / (6400 * x.kvt)
  let u := offset / x.kvt % 6400
  if x.kvt = 0 ∨ offset % x.kvt ≠ 0 ∨ data.length % x.kvt ≠ 0 ∨ n = 0 ∨ 6400 < u + n then s.crownRefuse src a data.length false true
  else match s.layerAt x c l with
    | none => s.crownRefuse src a data.length false true
    | some e => (List.range n).foldl (fun s i =>
        s.appendOne p e.1 e.2 (u + i) ((data.drop (i * x.kvt)).take x.kvt)
          (bad.any (fun z => decide (z.1 < (i + 1) * x.kvt) && decide (i * x.kvt < z.1 + z.2)))) s

/-- All of a command's data poisoned, or none. -/
def allBad (n : Nat) (poison : Bool) : List (Nat × Nat) := if poison then [(0, n)] else []

/-- CROWN_APPEND_WRITE: an append window places each token's KV at its position (R275, R276). -/
def runCrownAppendWrite (c : CrownDie) (src : TileId) (offset : Nat) (data : List Byte) (poison : Bool) (s : State) : State :=
  let p := s.partOf src
  let x := s.part p
  if s.pllDown (.crownIf c) then s
  else if s.crownBusy c.val p (x.crownStart c.val + s.appendOff x c.val + offset) then s.defer (.crownAppendWrite c src offset data poison)
  else s.appendWrite c.val src offset data (allBad data.length poison)

/-- The command CROWN_APPEND_WRITE. -/
def execCrownAppendWrite (c : CrownDie) (src : TileId) (offset : Nat) (data : List Byte) (poison : Bool) (s : State) : Host.Outcome State Fault Refusal := .next (runCrownAppendWrite c src offset data poison s)

/-! ## Adapter windows (R316) -/

/-- The pages of the adapter bound to a stream in the running step (R317). -/
def Part.streamAdapter (x : Part) (n : Nat) : Option Adapter :=
  match x.running with
  | none => none
  | some st => ((st.adapters[n]?).join).bind (fun id => x.adapters.find? (fun y => y.id == id))

/-- A read of a slice of an adapter window page set: the slice of the adapter of the stream's request (R316). A page set whose read
returns poison is taken out of the index (R294). -/
def State.windowRead (s : State) (c : Nat) (src : TileId) (a len : Nat) : State :=
  let p := s.partOf src
  let x := s.part p
  match s.crownArea x c a len with
  | some (.window i o) =>
    if x.fr = 0 ∨ o % x.fr ≠ 0 ∨ len ≠ x.fr then s.crownRefuse src a len true true
    else match s.layerAt x c (o / x.fr) with
      | none => s.crownRefuse src a len true true
      | some e =>
        let k := i - (x.wpages + 1)
        match (x.streamAdapter (k / x.adpPages)).bind (fun ad => ad.pages[k % x.adpPages]?) with
        | none => s.respond src a (List.replicate len 0) false
        | some page =>
          let f := s.sliceAddr x e.1 e.2 page
          let bad := s.poisonedIn f len
          (if bad then s.poisonPage p page else s).respond src a (s.bytes f len) bad
  | _ => s.crownRefuse src a len true true

/-- ADAPTER_WINDOW_READ: a slice of an adapter window page set returns the slice of the adapter of the stream's request
(R316). -/
def runAdapterWindowRead (c : CrownDie) (src : TileId) (addr : BitVec 35) (len : Nat) (s : State) : State :=
  let a := mkAddr (crownIdx c.val) 0 addr.toNat
  if s.pllDown (.crownIf c) then s
  else if s.crownBusy c.val (s.partOf src) a then s.defer (.adapterWindowRead c src addr len)
  else s.windowRead c.val src a len

/-- The command ADAPTER_WINDOW_READ. -/
def execAdapterWindowRead (c : CrownDie) (src : TileId) (addr : BitVec 35) (len : Nat) (s : State) : Host.Outcome State Fault Refusal := .next (runAdapterWindowRead c src addr len s)

/-! ## Accesses by physical address (R41, R277) -/

/-- A read by device address within the sending partition's range of a home die (R41): a window's by the rules of the window, storage as
it stands; a page set whose read returns poison is taken out of the index (R294). The append area holds nothing to read (R274;
DESIGN CHOICE, log 54). -/
def State.crownRead (s : State) (c : Nat) (src : TileId) (a len : Nat) (ecc : LineEcc) : State :=
  let p := s.partOf src
  let x := s.part p
  match s.crownArea x c a len with
  | none => s.crownRefuse src a len true false
  | some (.stream o) => s.streamRead c src o len ecc
  | some (.append _) => s.crownRefuse src a len true true
  | some (.window _ _) => s.windowRead c src a len
  | some .storage =>
    let s1 := s.crownCheck c a ecc
    let s2 := (s1.pagesAt x c a len).foldl (fun s i =>
      let lo := Nat.max a (x.crownStart c + s.poolOff x c + i * s.strideC x c)
      let hi := Nat.min (a + len) (x.crownStart c + s.poolOff x c + (i + 1) * s.strideC x c)
      if s.poisonedIn lo (hi - lo) then s.poisonPage p i else s) s1
    s2.respond src a (s2.dramBytes c a len) (s2.poisonedIn a len)

/-- A write by device address within the sending partition's range of a home die (R41), with its poisoned pieces (offset, length). The
windows that are only read take none (R274, R316). -/
def State.crownWrite (s : State) (c : Nat) (src : TileId) (a : Nat) (data : List Byte) (bad : List (Nat × Nat)) : State :=
  match s.crownArea (s.part (s.partOf src)) c a data.length with
  | none => s.crownRefuse src a data.length false false
  | some (.append o) => s.appendWrite c src o data bad
  | some (.stream _) => s.crownRefuse src a data.length false true
  | some (.window _ _) => s.crownRefuse src a data.length false true
  | some .storage => bad.foldl (fun s e => s.poisonOn (a + e.1) e.2) (s.dramPut c a data)

/-- CROWN_POOL_ACCESS: an access by physical address within the sending partition's range (R41, R277). -/
def runCrownPoolAccess (c : CrownDie) (src : TileId) (addr : BitVec 35) (write : Option (List Byte × Bool)) (len : Nat) (ecc : LineEcc) (s : State) : State :=
  let a := mkAddr (crownIdx c.val) 0 addr.toNat
  if s.pllDown (.crownIf c) then s
  else if s.crownBusy c.val (s.partOf src) a then s.defer (.crownPoolAccess c src addr write len ecc)
  else match write with
    | some d => s.crownWrite c.val src a d.1 (allBad d.1.length d.2)
    | none => s.crownRead c.val src a len ecc

/-- The command CROWN_POOL_ACCESS. -/
def execCrownPoolAccess (c : CrownDie) (src : TileId) (addr : BitVec 35) (write : Option (List Byte × Bool)) (len : Nat) (ecc : LineEcc) (s : State) : Host.Outcome State Fault Refusal := .next (runCrownPoolAccess c src addr write len ecc s)

/-! ## Patrol scrub (R422, R423) -/

/-- CROWN_PATROL_SCRUB: the patrol reads a line; a correctable one is written back as it reads and counted, an uncorrectable one is
handled by what it holds (R422, R423). -/
def runCrownPatrolScrub (c : CrownDie) (line : BitVec 29) (corrected uncorrectable : Bool) (s : State) : State :=
  if s.pllDown (.crownIf c) then s
  else s.crownCheck c.val (mkAddr (crownIdx c.val) 0 (64 * line.toNat)) (if uncorrectable then .bad else if corrected then .corrected else .clean)

/-- The command CROWN_PATROL_SCRUB. -/
def execCrownPatrolScrub (c : CrownDie) (line : BitVec 29) (corrected uncorrectable : Bool) (s : State) : Host.Outcome State Fault Refusal := .next (runCrownPatrolScrub c line corrected uncorrectable s)

end Sys2Proof.Machine
end

