-- ==== Sys2Proof/Machine/Operands.lean ====
section
/-!
DEFINITION. Operand forms of the vector unit: element formats (R154, R195), element access to registers, and what an
elementwise operation, a reduction, a permutation and a conversion compute on elements (R73, R155, R543). `none` stands
for a value the spec does not state (log 5, log 20).
-/

namespace Sys2Proof.Machine

/-- The format code of R195. -/
def vCode : VFmt → Nat
  | .fp16 => 0 | .bf16 => 1 | .int32 => 2 | .int8 => 3

/-- Bytes of an element. -/
def vWidth : VFmt → Nat
  | .fp16 => 2 | .bf16 => 2 | .int32 => 4 | .int8 => 1

/-- Elements of a register (R154). -/
def vCount (f : VFmt) : Nat := 256 / vWidth f

/-- The floating-point format of an element format; FP16 for the integer ones, where it is not used. -/
def vFloat : VFmt → FFmt
  | .bf16 => FFmt.bf16
  | .fp16 | .int32 | .int8 => FFmt.fp16

/-- Whether a format is floating-point. -/
def vIsFloat : VFmt → Bool
  | .fp16 | .bf16 => true
  | .int32 | .int8 => false

/-- The elements of a register image. -/
def vElems (f : VFmt) (b : List Byte) : List Nat := elemsN (vWidth f) (vCount f) b

/-- The value of a floating-point element. -/
def vVal (f : VFmt) (x : Nat) : FV := (vFloat f).decode x

/-! ## Elementwise operations -/

/-- An operation on floating-point values, rounded once; or on integers modulo 2³² (R73). -/
def arith2 (f : VFmt) (fl : FV → FV → FV) (int : Int → Int → Int) (a b : Nat) : Option Nat :=
  match f with
  | .fp16 | .bf16 => some ((vFloat f).encode (fl (vVal f a) (vVal f b)))
  | .int32 => some (toBits 32 (int (sext 32 a) (sext 32 b)))
  | .int8 => none

def eAdd (f : VFmt) : Nat → Nat → Option Nat := arith2 f FV.add (· + ·)
def eSub (f : VFmt) : Nat → Nat → Option Nat := arith2 f (fun a b => FV.add a b.neg) (· - ·)
def eMul (f : VFmt) : Nat → Nat → Option Nat := arith2 f FV.mul (· * ·)
def eMin (f : VFmt) : Nat → Nat → Option Nat := arith2 f FV.min (fun a b => if a ≤ b then a else b)
def eMax (f : VFmt) : Nat → Nat → Option Nat := arith2 f FV.max (fun a b => if a ≤ b then b else a)

/-- Fused multiply-add: the exact product plus the third operand, rounded once. -/
def eFma (f : VFmt) (a b c : Nat) : Option Nat :=
  match f with
  | .fp16 | .bf16 => some ((vFloat f).encode (FV.add (FV.mul (vVal f a) (vVal f b)) (vVal f c)))
  | .int32 => some (toBits 32 (sext 32 a * sext 32 b + sext 32 c))
  | .int8 => none

/-- Absolute value; of the most negative integer no result is stated. -/
def eAbs (f : VFmt) (a : Nat) : Option Nat :=
  match f with
  | .fp16 | .bf16 => some ((vFloat f).encode (vVal f a).abs)
  | .int32 => if a = 2 ^ 31 then none else some (sext 32 a).natAbs
  | .int8 => none

/-- Negation; of the most negative integer no result is stated. -/
def eNeg (f : VFmt) (a : Nat) : Option Nat :=
  match f with
  | .fp16 | .bf16 => some ((vFloat f).encode (vVal f a).neg)
  | .int32 => if a = 2 ^ 31 then none else some (toBits 32 (-(sext 32 a)))
  | .int8 => none

/-- Whether an order satisfies a predicate of R195. -/
def predHolds : CmpPred → Ordering → Bool
  | .eq, o => o == .eq
  | .ne, o => o != .eq
  | .lt, o => o == .lt
  | .le, o => o != .gt
  | .gt, o => o == .gt
  | .ge, o => o != .lt

/-- Compare: the predicate decides between the two encodings of its format; a NaN operand has no stated result. -/
def eCmp (f : VFmt) (p : CmpPred) (a b : Nat) : Option Nat :=
  match f with
  | .fp16 | .bf16 =>
    if (vVal f a).isNan || (vVal f b).isNan then none
    else some (Config.cmpResult (vCode f) (predHolds p (FV.cmp (vVal f a) (vVal f b))))
  | .int32 => some (Config.cmpResult (vCode f) (predHolds p (compare (sext 32 a) (sext 32 b))))
  | .int8 => none

/-- Select: SRC2's element where SRC1's counts as true, SRC3's otherwise. -/
def eSel (f : VFmt) (a b c : Nat) : Option Nat :=
  match f with
  | .fp16 | .bf16 | .int32 => some (if Config.selTrue (vCode f) a then b else c)
  | .int8 => none

/-- Packed INT8, saturating to −128…+127 (R155). -/
def i8op (f : Int → Int → Int) (a b : Nat) : Option Nat := some (toBits 8 (clampI (-128) 127 (f (sext 8 a) (sext 8 b))))

/-- Four-way dot product into INT32. -/
def i8dot (a b : Nat) : Nat :=
  toBits 32 (((elemsN 1 4 (leBytes 4 a)).zip (elemsN 1 4 (leBytes 4 b))).foldl
    (fun acc x => acc + sext 8 x.1 * sext 8 x.2) 0)

/-! ## Transcendental functions (R73) -/

/-- A transcendental function, correctly rounded, NaN canonical (R73): `g` of a finite operand, `lim` of an infinity by its sign. Where
either has no value, R73 states no result. -/
def eFun (f : VFmt) (lim : Bool → Option FV) (g : Bool → Nat → Int → Option FV) (a : Nat) : Option Nat :=
  if vIsFloat f then
    match vVal f a with
    | .fin neg m e => (g neg m e).map (vFloat f).encode
    | .inf neg => (lim neg).map (vFloat f).encode
    | .nan => some ((vFloat f).encode .nan)
  else none

/-- exp2: +∞ of +∞ and 0 of −∞. -/
def eExp2 (f : VFmt) : Nat → Option Nat :=
  eFun f (fun neg => some (if neg then .fin false 0 0 else .inf false))
    (fun neg m e => if m = 0 then some (.fin false 1 0) else let r := exp2Of neg m e; some (.fin false r.1 r.2))
/-- log2: +∞ of +∞; of zero and of a negative operand R73 states no result. -/
def eLog2 (f : VFmt) : Nat → Option Nat :=
  eFun f (fun neg => if neg then none else some (.inf false))
    (fun neg m e => if m = 0 ∨ neg = true then none else some (log2Of m e))
/-- Reciprocal: a zero of the operand's sign of an infinity; of zero R73 states no result. -/
def eRcp (f : VFmt) : Nat → Option Nat :=
  eFun f (fun neg => some (.fin neg 0 0))
    (fun neg m e => if m = 0 then none else let r := rcpOf m e; some (.fin neg r.1 r.2))
/-- Reciprocal square root: 0 of +∞; of zero and of a negative operand R73 states no result. -/
def eRsqrt (f : VFmt) : Nat → Option Nat :=
  eFun f (fun neg => if neg then none else some (.fin false 0 0))
    (fun neg m e => if m = 0 ∨ neg = true then none else let r := rsqrtOf m e; some (.fin false r.1 r.2))

/-! ## Conversion (R73) -/

/-- One element converted, and whether it counts a conversion event. -/
def eCvt (src tgt : VFmt) (a : Nat) : Option Nat × Bool :=
  match src, tgt with
  | .fp16, .bf16 => (some (FFmt.bf16.encode (FFmt.fp16.decode a)), false)
  | .bf16, .fp16 => (some (FFmt.fp16.encode (FFmt.bf16.decode a)), false)
  | .fp16, .int32 | .bf16, .int32 =>
    match vVal src a with
    | .nan => (some 0, true)
    | .inf neg => (some (if neg then 2 ^ 31 else 2 ^ 31 - 1), true)
    | .fin neg m e =>
      let v := FV.toInt neg m e
      if v < -(2 ^ 31 : Int) then (some (2 ^ 31), true)
      else if (2 ^ 31 : Int) ≤ v then (some (2 ^ 31 - 1), true) else (some (toBits 32 v), false)
  | .int32, .fp16 | .int32, .bf16 => (some ((vFloat tgt).encode (FV.ofInt (sext 32 a) 0)), false)
  | .int32, .int8 => (some (toBits 8 (clampI (-128) 127 (sext 32 a))), false)
  | _, _ => (none, false)

/-- Conversion of a register: element i of the source gives element i of the result, as far as both registers reach
(DEDUCED, log 20); the elements of the result beyond the source are open. -/
def vCvt (src tgt : VFmt) (b : List Byte) : List (Option Nat) × Nat :=
  let l := ((vElems src b).take (vCount tgt)).map (eCvt src tgt)
  (l.map (·.1) ++ List.replicate (vCount tgt - l.length) none, (l.filter (·.2)).length)

/-! ## Reductions (R73): products and sums in binary32, in ascending element order -/

def b32Add (a b : Nat) : Nat := FFmt.b32.encode (FV.add (FFmt.b32.decode a) (FFmt.b32.decode b))

/-- The sum of binary32 terms, from the first one on. -/
def b32Sum : List Nat → Nat
  | [] => 0
  | a :: r => r.foldl b32Add a

def intSum (l : List Int) : Nat := toBits 32 (l.foldl (· + ·) 0)

/-- Dot product of two element lists. -/
def redDot (f : VFmt) (a b : List Nat) : Option Nat :=
  match f with
  | .fp16 | .bf16 =>
    some ((vFloat f).encode (FFmt.b32.decode (b32Sum ((a.zip b).map
      (fun x => FFmt.b32.encode (FV.mul (vVal f x.1) (vVal f x.2)))))))
  | .int32 => some (intSum ((a.zip b).map (fun x => sext 32 x.1 * sext 32 x.2)))
  | .int8 => none

def redSum (f : VFmt) (a : List Nat) : Option Nat :=
  match f with
  | .fp16 | .bf16 => some ((vFloat f).encode (FFmt.b32.decode (b32Sum (a.map (fun x => FFmt.b32.encode (vVal f x))))))
  | .int32 => some (intSum (a.map (sext 32)))
  | .int8 => none

def redMax (f : VFmt) (a : List Nat) : Option Nat :=
  match f, a with
  | .int8, _ => none
  | _, [] => none
  | _, x :: r => r.foldl (fun acc y => acc.bind (fun m => eMax f m y)) (eMax f x x)

/-- The indices of the largest elements; none where an element is NaN. -/
def argMaxes (f : VFmt) (a : List Nat) : Option (List Nat) :=
  if f = .int8 ∨ (vIsFloat f = true ∧ a.any (fun x => (vVal f x).isNan) = true) then none
  else
    let le (x y : Nat) : Bool := if vIsFloat f then FV.cmp (vVal f x) (vVal f y) != .gt else decide (sext 32 x ≤ sext 32 y)
    let ix := (List.range a.length).zip a
    some ((ix.filter (fun x => a.all (fun y => le y x.2))).map (·.1))

/-! ## Partial top-k (R156) -/

/-- Inserts a candidate by value, largest first, ties by arrival; −0 and +0 are equal. -/
def insTop (x : Nat × Nat) : List (Nat × Nat) → List (Nat × Nat)
  | [] => [x]
  | y :: r => if FV.cmp (FFmt.fp16.decode x.1) (FFmt.fp16.decode y.1) == .gt then x :: y :: r else y :: insTop x r

/-- The k largest of FP16 elements as (value, local index), in rank order. -/
def topK (k : Nat) (l : List Nat) : List (Nat × Nat) :=
  (l.zip (List.range l.length)).foldl (fun acc x => (insTop x acc).take k) []

end Sys2Proof.Machine
end

