-- ==== Sys2Proof/Machine/VectorAlu.lean ====
section
/-!
DEFINITION. The vector unit's operations (R155, R187, R191): arithmetic, packed INT8, conversion, transcendental
functions, reductions and permutations. An operation reads its registers as its issue cycle finds them, and its result is released at
the cycle that the form's contract names (R193).
-/

namespace Sys2Proof.Machine

/-- An operation on registers: issue interval `n`, latencies under LC-2 and LC-1 (R187), result elements of format `fmt` and `w` bytes
computed from the registers at issue, tag from the sources (R191). `checked`: the residue check of R421 covers it. -/
def vecAlu (h : OpHdr) (i : Instr) (n lc2 lc1 dst : Nat) (srcs : List Nat) (fmt : VFmt) (w : Nat) (checked : Bool)
    (f : (Nat → List Byte) → List (Option Nat)) (s : State) : State :=
  s.tileOp h i (fun s =>
    let v := s.vecIssue h n
    let x := v.2.tile h.tile
    let q := v.2.fillFree (f (x.vregAt v.1))
    let bad := checked && h.env.residue
    let s2 := if bad then q.2.residueFault h.tile 0x3004 0x02 h.opidx h.opidx else q.2
    let g := x.srcTag v.1 srcs
    s2.writeVr h.tile (v.1 + s2.lat h.tile lc2 lc1) dst (elemBytes w q.1) { g with poison := g.poison || bad } (x.satOf v.1 srcs) (some fmt))

/-- Two element lists combined. -/
def zip2 (f : Nat → Nat → Option Nat) (a b : List Nat) : List (Option Nat) := (a.zip b).map (fun x => f x.1 x.2)

/-- Three element lists combined. -/
def zip3 (f : Nat → Nat → Nat → Option Nat) (a b c : List Nat) : List (Option Nat) :=
  (a.zip (b.zip c)).map (fun x => f x.1 x.2.1 x.2.2)

/-- A one-operand element operation. -/
def vec1 (h : OpHdr) (i : Instr) (f : VFmt) (dst a : Nat) (g : Nat → Option Nat) (s : State) : State :=
  vecAlu h i 1 3 4 dst [a] f (vWidth f) false (fun r => (vElems f (r a)).map g) s

/-- A two-operand element operation. -/
def vec2 (h : OpHdr) (i : Instr) (f : VFmt) (dst a b : Nat) (checked : Bool) (g : Nat → Nat → Option Nat) (s : State) :
    State :=
  vecAlu h i 1 3 4 dst [a, b] f (vWidth f) checked (fun r => zip2 g (vElems f (r a)) (vElems f (r b))) s

/-- A three-operand element operation. -/
def vec3 (h : OpHdr) (i : Instr) (lc2 lc1 : Nat) (f : VFmt) (dst a b c : Nat) (checked : Bool) (g : Nat → Nat → Nat → Option Nat)
    (s : State) : State :=
  vecAlu h i 1 lc2 lc1 dst [a, b, c] f (vWidth f) checked (fun r => zip3 g (vElems f (r a)) (vElems f (r b)) (vElems f (r c))) s

/-- A packed INT8 operation. -/
def vecI8 (h : OpHdr) (i : Instr) (dst a b : Nat) (g : Int → Int → Int) (s : State) : State :=
  vecAlu h i 1 2 3 dst [a, b] .int8 1 false (fun r => zip2 (i8op g) (elemsN 1 256 (r a)) (elemsN 1 256 (r b))) s

/-- A transcendental operation: one ticket at issue (R155, R388), issue interval 2. -/
def vecFun (h : OpHdr) (i : Instr) (f : VFmt) (dst a : Nat) (g : Nat → Option Nat) (s : State) : State :=
  s.tileOp h i (fun s =>
    match s.drawTickets h 1 0x02 with
    | .short s1 => s1
    | .wait s1 => s1.enqueue h.tile i
    | .ok s1 =>
      let v := s1.vecIssue h 2
      let x := v.2.tile h.tile
      let q := v.2.fillFree ((vElems f (x.vregAt v.1 a)).map g)
      q.2.writeVr h.tile (v.1 + q.2.lat h.tile 8 10) dst (elemBytes (vWidth f) q.1) (x.srcTag v.1 [a]) (x.satOf v.1 [a]) (some f))

/-- A reduction of one register: the result in element 0 (R187); the spec states no value of the other elements. -/
def vecRed (h : OpHdr) (i : Instr) (f : VFmt) (dst : Nat) (srcs : List Nat) (checked : Bool)
    (g : (Nat → List Byte) → Option Nat) (s : State) : State :=
  vecAlu h i 1 10 12 dst srcs f (vWidth f) checked (fun r => g r :: List.replicate (vCount f - 1) none) s

/-- ADD: elementwise sum (R155). -/
def runAdd (h : OpHdr) (dst : VReg) (a : VReg) (b : VReg) (fmt : VFmt) (s : State) : State :=
  vec2 h (.add h dst a b fmt) fmt dst.val a.val b.val (fmt == .int32) (eAdd fmt) s

/-- The command ADD. -/
def execAdd (h : OpHdr) (dst : VReg) (a : VReg) (b : VReg) (fmt : VFmt) (s : State) : Host.Outcome State Fault Refusal := .next (runAdd h dst a b fmt s)

/-- SUB: elementwise difference (R155). -/
def runSub (h : OpHdr) (dst : VReg) (a : VReg) (b : VReg) (fmt : VFmt) (s : State) : State :=
  vec2 h (.sub h dst a b fmt) fmt dst.val a.val b.val (fmt == .int32) (eSub fmt) s

/-- The command SUB. -/
def execSub (h : OpHdr) (dst : VReg) (a : VReg) (b : VReg) (fmt : VFmt) (s : State) : Host.Outcome State Fault Refusal := .next (runSub h dst a b fmt s)

/-- MUL: elementwise product (R155). -/
def runMul (h : OpHdr) (dst : VReg) (a : VReg) (b : VReg) (fmt : VFmt) (s : State) : State :=
  vec2 h (.mul h dst a b fmt) fmt dst.val a.val b.val true (eMul fmt) s

/-- The command MUL. -/
def execMul (h : OpHdr) (dst : VReg) (a : VReg) (b : VReg) (fmt : VFmt) (s : State) : Host.Outcome State Fault Refusal := .next (runMul h dst a b fmt s)

/-- FMA: fused multiply-add (R155). -/
def runFma (h : OpHdr) (dst : VReg) (a : VReg) (b : VReg) (c : VReg) (fmt : VFmt) (s : State) : State :=
  vec3 h (.fma h dst a b c fmt) 4 5 fmt dst.val a.val b.val c.val true (eFma fmt) s

/-- The command FMA. -/
def execFma (h : OpHdr) (dst : VReg) (a : VReg) (b : VReg) (c : VReg) (fmt : VFmt) (s : State) : Host.Outcome State Fault Refusal := .next (runFma h dst a b c fmt s)

/-- MIN: elementwise minimum (R73). -/
def runMin (h : OpHdr) (dst : VReg) (a : VReg) (b : VReg) (fmt : VFmt) (s : State) : State :=
  vec2 h (.min h dst a b fmt) fmt dst.val a.val b.val false (eMin fmt) s

/-- The command MIN. -/
def execMin (h : OpHdr) (dst : VReg) (a : VReg) (b : VReg) (fmt : VFmt) (s : State) : Host.Outcome State Fault Refusal := .next (runMin h dst a b fmt s)

/-- MAX: elementwise maximum (R73). -/
def runMax (h : OpHdr) (dst : VReg) (a : VReg) (b : VReg) (fmt : VFmt) (s : State) : State :=
  vec2 h (.max h dst a b fmt) fmt dst.val a.val b.val false (eMax fmt) s

/-- The command MAX. -/
def execMax (h : OpHdr) (dst : VReg) (a : VReg) (b : VReg) (fmt : VFmt) (s : State) : Host.Outcome State Fault Refusal := .next (runMax h dst a b fmt s)

/-- ABS: absolute value (R155). -/
def runAbs (h : OpHdr) (dst : VReg) (a : VReg) (fmt : VFmt) (s : State) : State :=
  vec1 h (.abs h dst a fmt) fmt dst.val a.val (eAbs fmt) s

/-- The command ABS. -/
def execAbs (h : OpHdr) (dst : VReg) (a : VReg) (fmt : VFmt) (s : State) : Host.Outcome State Fault Refusal := .next (runAbs h dst a fmt s)

/-- NEG: negation (R155). -/
def runNeg (h : OpHdr) (dst : VReg) (a : VReg) (fmt : VFmt) (s : State) : State :=
  vec1 h (.neg h dst a fmt) fmt dst.val a.val (eNeg fmt) s

/-- The command NEG. -/
def execNeg (h : OpHdr) (dst : VReg) (a : VReg) (fmt : VFmt) (s : State) : Host.Outcome State Fault Refusal := .next (runNeg h dst a fmt s)

/-- CMP: compare by a predicate of R195. -/
def runCmp (h : OpHdr) (dst : VReg) (a : VReg) (b : VReg) (fmt : VFmt) (pred : CmpPred) (s : State) : State :=
  vec2 h (.cmp h dst a b fmt pred) fmt dst.val a.val b.val false (eCmp fmt pred) s

/-- The command CMP. -/
def execCmp (h : OpHdr) (dst : VReg) (a : VReg) (b : VReg) (fmt : VFmt) (pred : CmpPred) (s : State) : Host.Outcome State Fault Refusal := .next (runCmp h dst a b fmt pred s)

/-- SEL: select by the first source (R155). -/
def runSel (h : OpHdr) (dst : VReg) (a : VReg) (b : VReg) (c : VReg) (fmt : VFmt) (s : State) : State :=
  vec3 h (.sel h dst a b c fmt) 3 4 fmt dst.val a.val b.val c.val false (eSel fmt) s

/-- The command SEL. -/
def execSel (h : OpHdr) (dst : VReg) (a : VReg) (b : VReg) (c : VReg) (fmt : VFmt) (s : State) : Host.Outcome State Fault Refusal := .next (runSel h dst a b c fmt s)

/-- I8ADD: packed INT8 sum, saturating. -/
def runI8add (h : OpHdr) (dst : VReg) (a : VReg) (b : VReg) (s : State) : State :=
  vecI8 h (.i8add h dst a b) dst.val a.val b.val (fun a b => a + b) s

/-- The command I8ADD. -/
def execI8add (h : OpHdr) (dst : VReg) (a : VReg) (b : VReg) (s : State) : Host.Outcome State Fault Refusal := .next (runI8add h dst a b s)

/-- I8SUB: packed INT8 difference, saturating. -/
def runI8sub (h : OpHdr) (dst : VReg) (a : VReg) (b : VReg) (s : State) : State :=
  vecI8 h (.i8sub h dst a b) dst.val a.val b.val (fun a b => a - b) s

/-- The command I8SUB. -/
def execI8sub (h : OpHdr) (dst : VReg) (a : VReg) (b : VReg) (s : State) : Host.Outcome State Fault Refusal := .next (runI8sub h dst a b s)

/-- I8MIN: packed INT8 minimum. -/
def runI8min (h : OpHdr) (dst : VReg) (a : VReg) (b : VReg) (s : State) : State :=
  vecI8 h (.i8min h dst a b) dst.val a.val b.val (fun a b => if a ≤ b then a else b) s

/-- The command I8MIN. -/
def execI8min (h : OpHdr) (dst : VReg) (a : VReg) (b : VReg) (s : State) : Host.Outcome State Fault Refusal := .next (runI8min h dst a b s)

/-- I8MAX: packed INT8 maximum. -/
def runI8max (h : OpHdr) (dst : VReg) (a : VReg) (b : VReg) (s : State) : State :=
  vecI8 h (.i8max h dst a b) dst.val a.val b.val (fun a b => if a ≤ b then b else a) s

/-- The command I8MAX. -/
def execI8max (h : OpHdr) (dst : VReg) (a : VReg) (b : VReg) (s : State) : Host.Outcome State Fault Refusal := .next (runI8max h dst a b s)

/-- I8DOT4: four-way dot product into INT32 (R155). -/
def runI8dot4 (h : OpHdr) (dst : VReg) (a : VReg) (b : VReg) (s : State) : State :=
  vecAlu h (.i8dot4 h dst a b) 1 3 4 dst.val [a.val, b.val] .int32 4 true
    (fun r => zip2 (fun p q => some (i8dot p q)) (elemsN 4 64 (r a.val)) (elemsN 4 64 (r b.val))) s

/-- The command I8DOT4. -/
def execI8dot4 (h : OpHdr) (dst : VReg) (a : VReg) (b : VReg) (s : State) : Host.Outcome State Fault Refusal := .next (runI8dot4 h dst a b s)

/-- CVT: conversion, with its conversion events counted (R73, event 0x13). -/
def runCvt (h : OpHdr) (dst : VReg) (a : VReg) (src : VFmt) (tgt : VFmt) (s : State) : State :=
  s.tileOp h (.cvt h dst a src tgt) (fun s =>
    let v := s.vecIssue h 1
    let x := v.2.tile h.tile
    let r := vCvt src tgt (x.vregAt v.1 a.val)
    let s2 := if r.2 = 0 then v.2 else v.2.tileEvent h.tile 0x13 r.2
    let q := s2.fillFree r.1
    q.2.writeVr h.tile (v.1 + s.lat h.tile 3 4) dst.val (elemBytes (vWidth tgt) q.1) (x.srcTag v.1 [a.val]) (x.satOf v.1 [a.val]) (some tgt))

/-- The command CVT. -/
def execCvt (h : OpHdr) (dst : VReg) (a : VReg) (src : VFmt) (tgt : VFmt) (s : State) : Host.Outcome State Fault Refusal := .next (runCvt h dst a src tgt s)

/-- EXP2: correctly rounded (R73). -/
def runExp2 (h : OpHdr) (dst : VReg) (a : VReg) (fmt : VFmt) (s : State) : State :=
  vecFun h (.exp2 h dst a fmt) fmt dst.val a.val (eExp2 fmt) s

/-- The command EXP2. -/
def execExp2 (h : OpHdr) (dst : VReg) (a : VReg) (fmt : VFmt) (s : State) : Host.Outcome State Fault Refusal := .next (runExp2 h dst a fmt s)

/-- LOG2: correctly rounded (R73). -/
def runLog2 (h : OpHdr) (dst : VReg) (a : VReg) (fmt : VFmt) (s : State) : State :=
  vecFun h (.log2 h dst a fmt) fmt dst.val a.val (eLog2 fmt) s

/-- The command LOG2. -/
def execLog2 (h : OpHdr) (dst : VReg) (a : VReg) (fmt : VFmt) (s : State) : Host.Outcome State Fault Refusal := .next (runLog2 h dst a fmt s)

/-- RCP: correctly rounded (R73). -/
def runRcp (h : OpHdr) (dst : VReg) (a : VReg) (fmt : VFmt) (s : State) : State :=
  vecFun h (.rcp h dst a fmt) fmt dst.val a.val (eRcp fmt) s

/-- The command RCP. -/
def execRcp (h : OpHdr) (dst : VReg) (a : VReg) (fmt : VFmt) (s : State) : Host.Outcome State Fault Refusal := .next (runRcp h dst a fmt s)

/-- RSQRT: correctly rounded (R73). -/
def runRsqrt (h : OpHdr) (dst : VReg) (a : VReg) (fmt : VFmt) (s : State) : State :=
  vecFun h (.rsqrt h dst a fmt) fmt dst.val a.val (eRsqrt fmt) s

/-- The command RSQRT. -/
def execRsqrt (h : OpHdr) (dst : VReg) (a : VReg) (fmt : VFmt) (s : State) : Host.Outcome State Fault Refusal := .next (runRsqrt h dst a fmt s)

/-- RSUM: sum of a register (R73). -/
def runRsum (h : OpHdr) (dst : VReg) (a : VReg) (fmt : VFmt) (s : State) : State :=
  vecRed h (.rsum h dst a fmt) fmt dst.val [a.val] (fmt == .int32) (fun r => redSum fmt (vElems fmt (r a.val))) s

/-- The command RSUM. -/
def execRsum (h : OpHdr) (dst : VReg) (a : VReg) (fmt : VFmt) (s : State) : Host.Outcome State Fault Refusal := .next (runRsum h dst a fmt s)

/-- RDOT: dot product of two registers (R73). -/
def runRdot (h : OpHdr) (dst : VReg) (a : VReg) (b : VReg) (fmt : VFmt) (s : State) : State :=
  vecRed h (.rdot h dst a b fmt) fmt dst.val [a.val, b.val] true
    (fun r => redDot fmt (vElems fmt (r a.val)) (vElems fmt (r b.val))) s

/-- The command RDOT. -/
def execRdot (h : OpHdr) (dst : VReg) (a : VReg) (b : VReg) (fmt : VFmt) (s : State) : Host.Outcome State Fault Refusal := .next (runRdot h dst a b fmt s)

/-- RSUMSQ: sum of squares of a register (R73). -/
def runRsumsq (h : OpHdr) (dst : VReg) (a : VReg) (fmt : VFmt) (s : State) : State :=
  vecRed h (.rsumsq h dst a fmt) fmt dst.val [a.val] true
    (fun r => let l := vElems fmt (r a.val); redDot fmt l l) s

/-- The command RSUMSQ. -/
def execRsumsq (h : OpHdr) (dst : VReg) (a : VReg) (fmt : VFmt) (s : State) : Host.Outcome State Fault Refusal := .next (runRsumsq h dst a fmt s)

/-- RMAX: maximum of a register (R73). -/
def runRmax (h : OpHdr) (dst : VReg) (a : VReg) (fmt : VFmt) (s : State) : State :=
  vecRed h (.rmax h dst a fmt) fmt dst.val [a.val] false (fun r => redMax fmt (vElems fmt (r a.val))) s

/-- The command RMAX. -/
def execRmax (h : OpHdr) (dst : VReg) (a : VReg) (fmt : VFmt) (s : State) : Host.Outcome State Fault Refusal := .next (runRmax h dst a fmt s)

/-- RARGMAX: index of a maximum, any one of them where several are equal (R155). -/
def runRargmax (h : OpHdr) (dst : VReg) (a : VReg) (fmt : VFmt) (s : State) : State :=
  s.tileOp h (.rargmax h dst a fmt) (fun s =>
    let v := s.vecIssue h 1
    let x := v.2.tile h.tile
    let d := v.2.draw
    let r := match argMaxes fmt (vElems fmt (x.vregAt v.1 a.val)) with
      | some l => l[d.1 % l.length]?
      | none => none
    let q := d.2.fillFree (r :: List.replicate (vCount fmt - 1) none)
    q.2.writeVr h.tile (v.1 + s.lat h.tile 10 12) dst.val (elemBytes (vWidth fmt) q.1) (x.srcTag v.1 [a.val]) (x.satOf v.1 [a.val]) (some .int32))

/-- The command RARGMAX. -/
def execRargmax (h : OpHdr) (dst : VReg) (a : VReg) (fmt : VFmt) (s : State) : Host.Outcome State Fault Refusal := .next (runRargmax h dst a fmt s)

/-- BCAST: element IMM of the source in every element (R195); beyond the register no value is stated. -/
def runBcast (h : OpHdr) (dst : VReg) (a : VReg) (fmt : VFmt) (elem : BitVec 16) (s : State) : State :=
  vecAlu h (.bcast h dst a fmt elem) 1 2 3 dst.val [a.val] fmt (vWidth fmt) false
    (fun r => List.replicate (vCount fmt) ((vElems fmt (r a.val))[elem.toNat]?)) s

/-- The command BCAST. -/
def execBcast (h : OpHdr) (dst : VReg) (a : VReg) (fmt : VFmt) (elem : BitVec 16) (s : State) : Host.Outcome State Fault Refusal := .next (runBcast h dst a fmt elem s)

/-- ROT: rotation across the 64 lanes by IMM (R195); the direction is open (log 20). -/
def runRot (h : OpHdr) (dst : VReg) (a : VReg) (fmt : VFmt) (lanes : BitVec 16) (s : State) : State :=
  vecAlu h (.rot h dst a fmt lanes) 1 2 3 dst.val [a.val] fmt 4 false
    (fun r =>
      let l := elemsN 4 64 (r a.val)
      let n := lanes.toNat % 64
      (List.range 64).map (fun i => l[if Config.rotUp then (i + 64 - n) % 64 else (i + n) % 64]?)) s

/-- The command ROT. -/
def execRot (h : OpHdr) (dst : VReg) (a : VReg) (fmt : VFmt) (lanes : BitVec 16) (s : State) : Host.Outcome State Fault Refusal := .next (runRot h dst a fmt lanes s)

/-- GATHERR: element i is the first source's element that element i of the second names; beyond the register no value is stated. -/
def runGatherr (h : OpHdr) (dst : VReg) (a : VReg) (b : VReg) (fmt : VFmt) (s : State) : State :=
  vecAlu h (.gatherr h dst a b fmt) 1 2 3 dst.val [a.val, b.val] fmt (vWidth fmt) false
    (fun r =>
      let l := vElems fmt (r a.val)
      (vElems fmt (r b.val)).map (fun i => l[i]?)) s

/-- The command GATHERR. -/
def execGatherr (h : OpHdr) (dst : VReg) (a : VReg) (b : VReg) (fmt : VFmt) (s : State) : Host.Outcome State Fault Refusal := .next (runGatherr h dst a b fmt s)

/-- TAGSET: a register's tag from the operand (R191, R195). -/
def runTagset (h : OpHdr) (dst : VReg) (slot : SlotIdx) (wgen : Byte) (pos : BitVec 24) (s : State) : State :=
  s.tileOp h (.tagset h dst slot wgen pos) (fun s =>
    let v := s.vecIssue h 1
    v.2.release h.tile ⟨dst.val, v.1 + 1, none, ⟨slot.val, pos.toNat, wgen.toNat, false⟩, false, false, none⟩ slot.val)

/-- The command TAGSET. -/
def execTagset (h : OpHdr) (dst : VReg) (slot : SlotIdx) (wgen : Byte) (pos : BitVec 24) (s : State) : Host.Outcome State Fault Refusal := .next (runTagset h dst slot wgen pos s)

end Sys2Proof.Machine
end

