-- ==== Sys2Proof/Machine/VectorMem.lean ====
section
/-!
DEFINITION. The vector unit's operations on the scratchpad and on array outputs (R103, R143 to R146, R155, R156, R187):
array output, load, store, swatch load, strided and transposed reads, quantise, norm sample, partial top-k.
-/

namespace Sys2Proof.Machine

/-! ## Array output (R103) -/

/-- Whether a pass closes with conversion. -/
def Pass.closing (x : Pass) : Bool := x.ops.close != .none

/-- The 256 bytes of 128 output values from value `128 k` up. -/
def outBytes (l : List (BitVec 16)) (k : Nat) : List Byte :=
  ((((l.drop (128 * k)).take 128) ++ List.replicate 128 (0 : BitVec 16)).take 128).flatMap (fun v => leBytes 2 v.toNat)

/-- Four consecutive registers from register `r` up, each by `f`; register numbers wrap at 32. -/
def State.fourRegs (s : State) (r : Nat) (f : State → Nat → Nat → State) : State :=
  (List.range 4).foldl (fun s k => f s k ((r + k) % 32)) s

/-- AOUT: the 512 closed outputs of a logical array into four registers (R103, R187). It reads the array that served
the last closing pass of the logical array, and waits while a closing pass due before it still runs (R184). Of an array that no
closing pass has reached, the spec states no outputs: free bytes, the tags kept, POISON set after a poisoned pass whose WGEN names no
live map bank (DESIGN CHOICE, log 52). -/
def runAout (h : OpHdr) (dst : VReg) (larray : Fin 64) (fmt : VFmt) (s : State) : State :=
  s.tileOp h (.aout h dst larray fmt) (fun s =>
    let x := s.tile h.tile
    match (Tbl.find x.lastOut larray.val).join with
    | some phys =>
      let a := s.arr (arrOf h.tile phys)
      if a.passes.any (fun p => p.closing && decide (p.ready ≤ h.cycle + x.delta)) then s.enqueue h.tile (.aout h dst larray fmt)
      else
        let c := s.issueAt h (Nat.max x.vecFree a.outReady)
        let s1 := (s.issue h c a.extra).modTile h.tile (fun y => { y with vecFree := c + 2 })
        let s2 := s1.tileEvent h.tile 0x14 1
        s2.fourRegs dst.val (fun s k r => s.writeVr h.tile (c + s2.lat h.tile 4 5) r (outBytes a.out k) a.outTag a.outSat (some fmt))
    | none =>
      let v := s.vecIssue h 2
      let q := v.2.freeBytes 1024
      let p := (Tbl.find x.lastOut larray.val).isSome
      let at' := v.1 + q.2.lat h.tile 4 5
      q.2.fourRegs dst.val (fun s k r => s.writeRead h.tile at' r ((q.1.drop (256 * k)).take 256)
        (((s.tile h.tile).tagAt at' r).poison || p)))

/-- The command AOUT. -/
def execAout (h : OpHdr) (dst : VReg) (larray : Fin 64) (fmt : VFmt) (s : State) : Host.Outcome State Fault Refusal := .next (runAout h dst larray fmt s)

/-! ## Load and store -/

/-- The four rows of a 256-byte access. -/
def fourRows (addr : Nat) : List (Nat × Nat) := (List.range 4).map (fun k => (addr / 64 * 64 + 64 * k, 64))

/-- LOAD: four rows into a register, one per cycle (R187); POISON of the tag is set or cleared (R191). -/
def runLoad (h : OpHdr) (dst : VReg) (addr : BitVec 19) (s : State) : State :=
  s.tileOp h (.load h dst addr) (fun s =>
    let v := s.vecIssue h 4
    let q := v.2.readRows h v.1 (fourRows addr.toNat)
    q.2.writeRead h.tile (v.1 + scpLat addr.toNat + q.2.lat h.tile 4 5) dst.val q.1.1 q.1.2)

/-- The command LOAD. -/
def execLoad (h : OpHdr) (dst : VReg) (addr : BitVec 19) (s : State) : Host.Outcome State Fault Refusal := .next (runLoad h dst addr s)

/-- Whether a tile runs a calibration form (R82). -/
def State.isCalib (s : State) (t : TileId) : Bool :=
  match s.formOf t with
  | some f => f.calib
  | none => false

/-- STORE: a register into four rows, one per cycle (R187); a poisoned register is stored poisoned (R143). In a calibration form, FP16
or bfloat16 values so emitted are a gradient tensor's (R82; log 22). -/
def runStore (h : OpHdr) (src : VReg) (addr : BitVec 19) (s : State) : State :=
  s.tileOp h (.store h src addr) (fun s =>
    let v := s.vecIssue h 4
    let x := v.2.tile h.tile
    let g := x.tagAt v.1 src.val
    let s1 := v.2.writeRows h v.1 (v.2.lat h.tile 0 1) (fourRows addr.toNat) (x.vregAt v.1 src.val) g.poison
    if s1.isCalib h.tile then
      match x.fmtAt v.1 src.val with
      | some .fp16 => s1.modTile h.tile (fun y => { y with grads := Tbl.put y.grads addr.toNat (.fp16, g) })
      | some .bf16 => s1.modTile h.tile (fun y => { y with grads := Tbl.put y.grads addr.toNat (.bf16, g) })
      | _ => s1
    else s1)

/-- The command STORE. -/
def execStore (h : OpHdr) (src : VReg) (addr : BitVec 19) (s : State) : Host.Outcome State Fault Refusal := .next (runStore h src addr s)

/-- ECC_WRITEBACK: the corrected word is written back in an idle cycle of its bank (R143); the stored value is the
corrected one. -/
def runEccWriteback (t : TileId) (addr : BitVec 19) (s : State) : State :=
  s.modTile t (fun x => { x with eccPend := x.eccPend.erase (addr.toNat / 8) })

/-- The command ECC_WRITEBACK. -/
def execEccWriteback (t : TileId) (addr : BitVec 19) (s : State) : Host.Outcome State Fault Refusal := .next (runEccWriteback t addr s)

/-! ## Swatch load -/

/-- What swatches of a layer are checked against on a tile (R63). -/
def State.swCtx (s : State) (t : TileId) (layer : Nat) : SwCtx :=
  let p := s.part (s.partOf t)
  { layer := layer, slots := (s.layerOf t layer).napSlots, base := p.shareBase, len := p.shareLen,
    maxCtx := match p.form with
      | some f => f.maxContext
      | none => 0,
    gens := s.liveGens t }

/-- The rows a swatch of a layer touches (R144). -/
def swRows (slots addr : Nat) : List (Nat × Nat) := rowPieces 4 addr (swSize slots)

/-- The tag that a swatch header gives (R191). -/
def swTag (b : List Byte) (poison : Bool) : Tag := ⟨swSlot b, swPos b, swWgen b, poison⟩

/-- The 128 decoded elements of a swatch in a format (R59, R543). -/
def swDecode (f : VFmt) (b : List Byte) (slots : Nat) : List (Option Nat) :=
  (List.range 128).map (fun j => if vIsFloat f then some ((vFloat f).encode (swElem b (swN slots) j)) else none)

/-- SWLOAD: a swatch loaded and decoded (R59, R144, R187), after the checks of R63. -/
def runSwload (h : OpHdr) (dst : VReg) (addr : BitVec 19) (layer : Fin 256) (fmt : VFmt) (s : State) : State :=
  s.tileOp h (.swload h dst addr layer fmt) (fun s =>
    let c := s.swCtx h.tile layer.val
    let v := s.vecIssue h 4
    let q := v.2.readRows h v.1 (swRows c.slots addr.toNat)
    let b := q.1.1
    let poison := q.1.2 || swPoison b
    match (if poison then none else swMalformed c b) with
    | some k => q.2.tileJobFault h.tile 0x1015 0x02 k h.opidx
    | none =>
      let s1 := if swSat b then q.2.tileEvent h.tile 0x0F 1 (some layer.val) else q.2
      let r := s1.fillFree (if poison then List.replicate 128 none else swDecode fmt b c.slots)
      r.2.writeVr h.tile (v.1 + scpLat addr.toNat + r.2.lat h.tile 6 7) dst.val (elemBytes 2 r.1) (swTag b poison) false (some fmt))

/-- The command SWLOAD. -/
def execSwload (h : OpHdr) (dst : VReg) (addr : BitVec 19) (layer : Fin 256) (fmt : VFmt) (s : State) : Host.Outcome State Fault Refusal := .next (runSwload h dst addr layer fmt s)

/-! ## Strided and transposed reads -/

/-- The element width that AUX codes (R195). -/
def auxWidth (w : BitVec 2) : Nat := 2 ^ w.toNat

/-- The rows of a list of offsets, each once, in order. -/
def rowsOf : List Nat → List Nat
  | [] => []
  | o :: r => (o / 64 * 64) :: (rowsOf r).filter (· != o / 64 * 64)

/-- The offsets of up to four elements of `w` bytes, read in cycle `c`: reads of one row merge into one access, and what it returns
is poisoned where an element's word is, or where the access is dropped (R140, R143, R146). -/
def State.gatherCycle (s : State) (h : OpHdr) (c w : Nat) (offs : List Nat) : (List Byte × Bool) × State :=
  let r := (rowsOf offs).foldl (fun (acc : Tbl Nat (List Byte) × Bool × State) row =>
    let q := acc.2.2.engFetch h c row 64
    let words := (offs.filter (fun o => o / 64 * 64 == row)).map (fun o => tAddr h.tile o / 8)
    match q.1 with
    | some b => (Tbl.put acc.1 row b.1, acc.2.1 || words.any b.2.contains, q.2)
    | none => let f := q.2.freeBytes 64; (Tbl.put acc.1 row f.1, true, f.2)) ([], false, s)
  ((offs.flatMap (fun o => ((Tbl.get r.1 (o / 64 * 64) []).drop (o % 64)).take w), r.2.1), r.2.2)

/-- Groups of four, as the issue cycles of a strided or transposed read take them. -/
def fours : Nat → List Nat → List (List Nat)
  | 0, _ => []
  | k + 1, l => if l.isEmpty then [] else l.take 4 :: fours k (l.drop 4)

/-- GATHER: n elements with a stride into one register, four per cycle (R146); bytes beyond them are 0. -/
def runGather (h : OpHdr) (dst : VReg) (addr : BitVec 19) (n1 : Fin 256) (width : BitVec 2) (stride : BitVec 16) (s : State) : State :=
  s.tileOp h (.gather h dst addr n1 width stride) (fun s =>
    let w := auxWidth width
    let n := n1.val + 1
    let v := s.vecIssue h (ceilDiv n 4)
    let offs := (List.range n).map (fun k => addr.toNat + k * stride.toNat * w)
    let r := (fours n offs).foldl (fun (acc : (List Byte × Bool) × State × Nat) l =>
      let q := acc.2.1.gatherCycle h acc.2.2 w l
      ((acc.1.1 ++ q.1.1, acc.1.2 || q.1.2), q.2, acc.2.2 + 1)) (([], false), v.2, v.1)
    let s1 := r.2.1
    s1.writeRead h.tile (v.1 + ceilDiv n 4 + scpLat addr.toNat + s1.lat h.tile 1 2) dst.val (sliceB r.1.1 0 256) r.1.2)

/-- The command GATHER. -/
def execGather (h : OpHdr) (dst : VReg) (addr : BitVec 19) (n1 : Fin 256) (width : BitVec 2) (stride : BitVec 16) (s : State) : Host.Outcome State Fault Refusal := .next (runGather h dst addr n1 width stride s)

/-- The 1,024 bytes of a transposed read: element j of line i is output element 32 j + i (R145). -/
def transposed (w : Nat) (lines : List (List Byte)) : List Byte :=
  (List.range (32 / w)).flatMap (fun j => lines.flatMap (fun l => (l.drop (j * w)).take w))

/-- TRANSPOSE: 32 lines of 32 bytes, four per cycle, into four registers (R145). -/
def runTranspose (h : OpHdr) (dst : VReg) (addr : BitVec 19) (width : BitVec 2) (stride : BitVec 16) (s : State) : State :=
  s.tileOp h (.transpose h dst addr width stride) (fun s =>
    let v := s.vecIssue h 8
    let r := (List.range 32).foldl (fun (acc : (List (List Byte) × Bool) × State) i =>
      let q := acc.2.engRead h (v.1 + i / 4) (addr.toNat + i * (stride.toNat * 32)) 32
      ((acc.1.1 ++ [q.1.1], acc.1.2 || q.1.2), q.2)) (([], false), v.2)
    let b := transposed (auxWidth width) r.1.1
    r.2.fourRegs dst.val (fun s k d =>
      s.writeRead h.tile (v.1 + scpLat addr.toNat + r.2.lat h.tile 10 11) d (sliceB b (256 * k) 256) r.1.2))

/-- The command TRANSPOSE. -/
def execTranspose (h : OpHdr) (dst : VReg) (addr : BitVec 19) (width : BitVec 2) (stride : BitVec 16) (s : State) : Host.Outcome State Fault Refusal := .next (runTranspose h dst addr width stride s)

/-! ## Layer counters (R84, R515) -/

/-- Nap overflows of a layer. -/
def State.countNap (s : State) (t : TileId) (layer n : Nat) : State :=
  if n = 0 then s
  else
    let s1 := s.tileEvent t 0x10 n (some layer)
    match s1.layerRow t layer with
    | some k => s1.bump (tReg t .ctrLayA k) 16 16 n
    | none => s1

/-- Quantiser saturations of a layer. -/
def State.countQsat (s : State) (t : TileId) (layer n : Nat) : State :=
  if n = 0 then s
  else
    let s1 := s.tileEvent t 0x11 n (some layer)
    match s1.layerRow t layer with
    | some k => s1.bump (tReg t .ctrLayB k) 0 16 n
    | none => s1

/-- A norm-jump event of a layer, in the row of its window. -/
def State.countJump (s : State) (t : TileId) (layer k : Nat) : State :=
  (s.tileEvent t 0x12 1 (some layer)).bump (tReg t .ctrLayB k) 16 16 1

/-! ## Quantise (R67) -/

/-- Sets bits of byte 6 of a swatch: POISON is bit 4, SAT bit 5 (R57). -/
def swFlag (b : List Byte) (v : Nat) : List Byte :=
  b.take 6 ++ (b.drop 6).head?.toList.map (fun x => x ||| BitVec.ofNat 8 v) ++ b.drop 7

/-- A swatch that the tile emits (R81): known by its offset, which holds no gradient tensor from then on. -/
def State.emitSwatch (s : State) (t : TileId) (layer slot addr : Nat) : State :=
  s.modTile t (fun y => { y with emits := y.emits.filter (fun e => e.addr != addr) ++ [⟨layer, slot, addr⟩], grads := Tbl.del y.grads addr })

/-- QUANT: a register quantised to a swatch, whose rows are written in cycles 8 to 11 after issue (R187). A NaN or an
infinity, or poisoned data, gives the canonical poisoned swatch (R66). -/
def runQuant (h : OpHdr) (src : VReg) (addr : BitVec 19) (layer : Fin 256) (fmt : VFmt) (s : State) : State :=
  s.tileOp h (.quant h src addr layer fmt) (fun s =>
    let ln := s.layerOf h.tile layer.val
    let v := s.vecIssue h 4
    let x := v.2.tile h.tile
    let g := x.tagAt v.1 src.val
    let vals := ((vElems fmt (x.vregAt v.1 src.val)).map (vVal fmt)).take 128
    let nonfin := vIsFloat fmt && vals.any (fun y => !y.isFinite)
    let write (s : State) (b : List Byte) : State :=
      (s.writeRows h (v.1 + 8) (s.lat h.tile 0 2) (swRows ln.napSlots addr.toNat) b false).emitSwatch h.tile layer.val g.slot addr.toNat
    let s1 := if nonfin then v.2.tileFault h.tile 0x3005 0x02 layer.val h.opidx else v.2
    if nonfin || g.poison then
      write (s1.poisonReport h.tile g.slot) (poisonedSwatch g.slot layer.val g.wgen g.pos ln.napSlots)
    else if vIsFloat fmt then
      let q := quantSwatch vals ln.napSlots ln.napFactor g.slot layer.val g.wgen g.pos
      let s2 := (s1.countNap h.tile layer.val q.2.1).countQsat h.tile layer.val q.2.2
      let hit := (s2.tile h.tile).nwHits.contains (layer.val, g.slot)
      let b := swFlag q.1 (16 * boolN hit + 32 * boolN (x.satOf v.1 [src.val]))
      write (if hit then s2.poisonReport h.tile g.slot else s2) b
    else
      let q := s1.freeBytes (swSize ln.napSlots)
      write q.2 q.1)

/-- The command QUANT. -/
def execQuant (h : OpHdr) (src : VReg) (addr : BitVec 19) (layer : Fin 256) (fmt : VFmt) (s : State) : Host.Outcome State Fault Refusal := .next (runQuant h src addr layer fmt s)

/-! ## Norm watch (R75 to R82) -/

/-- A window of a tile. -/
def Tile.window (x : Tile) (k : Nat) : NormWindow := (x.windows[k]?).getD NormWindow.reset

/-- Replaces a window. -/
def Tile.setWindow (x : Tile) (k : Nat) (w : NormWindow) : Tile :=
  { x with windows := (List.range 8).map (fun i => if i = k then w else x.window i) }

/-- A window takes its layer, and with it its layer row (R75, R515). -/
def State.assignWindow (s : State) (t : TileId) (k layer : Nat) : State :=
  let s1 := s.modTile t (fun y => y.setWindow k { NormWindow.reset with used := true, layer := layer })
  (s1.setFld (tReg t .ctrLayA k) 0 8 layer).setFld (tReg t .ctrLayA k) 8 1 1

/-- A window updated by one sample (R77). -/
def NormWindow.update (w : NormWindow) (shift : Nat) (level : Int) : NormWindow :=
  if w.count = 0 then { w with mu := level * 256, count := 1 }
  else { w with mu := w.mu + (level * 256 - w.mu).fdiv (2 ^ shift : Nat), count := w.count + 1 }

/-- Whether a sample jumps (R78), against the committed mean and count. -/
def NormWindow.jumps (w : NormWindow) (ln : Numerics) (level : Int) : Bool :=
  decide (2 ^ ln.nwShift ≤ w.count) && decide (ln.threshold < (level - w.mu.fdiv 256).natAbs)

/-- POISON set in an emitted swatch (R81), in its row and in what is still to be written there. -/
def State.poisonSwatch (s : State) (t : TileId) (addr : Nat) : State :=
  let a := tAddr t addr + 6
  let s1 := s.setBytesP a ((s.bytes a 1).map (fun y => y ||| 0x10)) false
  s1.modTile t (fun y => { y with wpend := y.wpend.map (fun w =>
    if w.addr ≤ a ∧ a < w.addr + w.bytes.length then { w with bytes := w.bytes.modify (a - w.addr) (fun b => b ||| 0x10) } else w) })

/-- A norm-jump event (R81): counted, recorded, and acted on by a policy. -/
def State.normJump (s : State) (t : TileId) (k : Nat) (w : NormWindow) (policy : Nat) (sl : Slice) (level : Int) : State :=
  let s1 := (s.countJump t w.layer k).tileFault t 0x3006 0x02
    (w.layer + toBits 16 level * 2 ^ 16 + toBits 32 w.mu * 2 ^ 32) sl.opidx
  if policy = 1 then
    let s2 := ((s1.tile t).emits.filter (fun e => e.layer == w.layer && e.slot == sl.slot)).foldl (fun s e => s.poisonSwatch t e.addr) s1
    (s2.modTile t (fun y => { y with nwHits := y.nwHits ++ [(w.layer, sl.slot)] })).poisonReport t sl.slot
  else if policy = 2 then s1.modSlot sl.slot (fun y => { y with wantReplay := !y.replaying || y.wantReplay })
  else s1

/-- The slice that a window has gathered ends: unless a swatch of it was poisoned (R79) or its sum is zero (R76), it gives a sample, which
is staged (R80) and tested (R78). -/
def State.endSlice (s : State) (t : TileId) (k : Nat) : State :=
  match Tbl.find (s.tile t).slices k with
  | none => s
  | some sl =>
    let s1 := s.modTile t (fun y => { y with slices := Tbl.del y.slices k })
    if sl.poison then s1
    else match normLevel sl.sum with
      | none => s1
      | some level =>
        let w := (s1.tile t).window k
        let ln := s1.layerOf t w.layer
        let s2 := s1.modTile t (fun y => { y with samples := y.samples ++ [⟨k, sl.slot, sl.opidx, level⟩] })
        if w.jumps ln level then s2.normJump t k w (if sl.grad then 0 else ln.nwPolicy) sl level else s2

/-- Every slice that the tile's windows have gathered ends. -/
def State.endSlices (s : State) (t : TileId) : State := (List.range 8).foldl (fun s k => s.endSlice t k) s

/-- The 128 element values of a swatch, or of a gradient tensor's register image, as binary32 (R75, R82). -/
def sampleVals (grad : Option (VFmt × Tag)) (b : List Byte) (slots : Nat) : List FV :=
  (match grad with
   | some g => (vElems g.1 b).map (vVal g.1)
   | none => (List.range 128).map (swElem b (swN slots))).map (fun v => FFmt.b32.decode (FFmt.b32.encode v))

/-- NSAMP: one swatch of a token's slice sampled into a window (R75 to R81), or one register image of a gradient tensor (R82). The
slices of a window's tokens end where the next begins, and with the tile's program (DESIGN CHOICE, log 22). A window that the form's
programs give no layer takes the LAYER of the first swatch sampled (log 22). -/
def runNsamp (h : OpHdr) (addr : BitVec 19) (window : Fin 8) (s : State) : State :=
  s.tileOp h (.nsamp h addr window) (fun s =>
    let t := h.tile
    let v := s.vecIssue h 4
    let grad := if v.2.isCalib t then Tbl.find (v.2.tile t).grads addr.toNat else none
    let w0 := (v.2.tile t).window window.val
    let s1 := if w0.used then v.2 else v.2.assignWindow t window.val (swLayer (v.2.bytes (tAddr t addr.toNat) 8))
    let ln := s1.layerOf t ((s1.tile t).window window.val).layer
    let q := s1.readRows h v.1 (if grad.isSome then fourRows addr.toNat else swRows ln.napSlots addr.toNat)
    let b := q.1.1
    let g := match grad with
      | some y => y.2
      | none => swTag b (swPoison b)
    if (ln.nwPolicy = 3 ∧ grad = none) ∨ s1.isVoid t g.slot = true then q.2
    else
      let same (sl : Slice) : Bool := sl.slot == g.slot && sl.pos == g.pos
      let s2 := if (Tbl.find (q.2.tile t).slices window.val).all same then q.2 else q.2.endSlice t window.val
      let old := Tbl.find (s2.tile t).slices window.val
      let sum := accSq ((old.map (·.sum)).getD 0) (sampleVals grad b ln.napSlots)
      let sl : Slice := ⟨g.slot, g.pos, h.opidx, sum, g.poison || q.1.2 || (old.map (·.poison)).getD false, grad.isSome⟩
      s2.modTile t (fun y => { y with slices := Tbl.put y.slices window.val sl }))

/-- The command NSAMP. -/
def execNsamp (h : OpHdr) (addr : BitVec 19) (window : Fin 8) (s : State) : Host.Outcome State Fault Refusal := .next (runNsamp h addr window s)

/-! ## Partial top-k (R156, R157) -/

/-- The header of a partial list. -/
def listHeader (slot count pos base : Nat) (poison : Bool) : List Byte :=
  leBytes 2 (slot % 4096) ++ leBytes 2 (count % 512 + 2 ^ 15 * boolN poison) ++ leBytes 4 (pos % 2 ^ 24) ++
    leBytes 4 (base % 2 ^ 17) ++ leBytes 4 0

/-- TOPK: the k largest of n FP16 logits, written as a partial list in the last cycles of the interval (R156, R187). An n above
4,096 is in no step program (R156, R201), so it does not issue. -/
def runTopk (h : OpHdr) (src : VReg) (inp : BitVec 19) (n1 : Fin 8192) (out : BitVec 19) (k1 : Fin 256) (base : BitVec 17) (s : State) : State :=
  if 4096 ≤ n1.val then s
  else s.tileOp h (.topk h src inp n1 out k1 base) (fun s =>
    let n := n1.val + 1
    let k := k1.val + 1
    let len := ceilDiv n 32 + ceilDiv k 4 + 8
    let v := s.vecIssue h len
    let g := (v.2.tile h.tile).tagAt v.1 src.val
    let q := v.2.readRows h v.1 (rowPieces (n / 32 + 2) inp.toNat (2 * n))
    let l := elemsN 2 n q.1.1
    let nonfin := l.any (fun y => !(FFmt.fp16.decode y).isFinite)
    let rows := rowPieces 20 out.toNat (16 + 4 * Nat.min k n)
    let first := v.1 + len - ceilDiv (16 + 4 * Nat.min k n + out.toNat % 64) 64
    let s1 := if nonfin then q.2.tileFault h.tile 0x3005 0x02 0 h.opidx else q.2
    let late := s1.lat h.tile 0 2
    if nonfin || q.1.2 || g.poison then
      let f := (s1.poisonReport h.tile g.slot).freeBytes (4 * Nat.min k n)
      f.2.writeRows h first late rows (listHeader g.slot 0 g.pos base.toNat true ++ f.1) false
    else
      let top := topK k l
      s1.writeRows h first late rows (listHeader g.slot top.length g.pos base.toNat false ++
        top.flatMap (fun y => leBytes 2 y.1 ++ leBytes 2 y.2)) false)

/-- The command TOPK. -/
def execTopk (h : OpHdr) (src : VReg) (inp : BitVec 19) (n1 : Fin 8192) (out : BitVec 19) (k1 : Fin 256) (base : BitVec 17) (s : State) : Host.Outcome State Fault Refusal := .next (runTopk h src inp n1 out k1 base s)

end Sys2Proof.Machine
end

