-- ==== Sys2Proof/Machine/Passes.lean ====
section
/-!
DEFINITION. Passes of the compute-in-memory array (R94 to R121): issue, tickets, swatch fetch and checks, launch; and
the end of a pass: exact group and plane sums, converter range, split-retries, promotion, checksum comparison and
repeat, closing, residue and scale parity.
-/

namespace Sys2Proof.Machine

/-! ## Timing (R101, R187) -/

/-- The kinds of pass. -/
inductive PassKind where
  | main32 | main16 | nap
  deriving DecidableEq, Repr

/-- Cycles per segment. -/
def PassKind.per : PassKind → Nat
  | .main32 => 16 | .main16 => 32 | .nap => 8

/-- The issue interval. -/
def PassKind.interval (k : PassKind) (lc1 : Bool) (n : Nat) : Nat := (if lc1 then 8 else 6) + k.per * n

/-- Launch to output ready. -/
def PassKind.latency (k : PassKind) (lc1 : Bool) (n : Nat) : Nat := (if lc1 then 16 else 14) + k.per * n

/-- Issue to launch (R187). -/
def PassKind.lead : PassKind → Nat
  | .main32 => 12 | .main16 => 12 | .nap => 2

/-- The tickets of a pass (R388); a nap pass draws 1 if any of its swatches has an occupied nap slot. -/
def PassKind.tickets : PassKind → Nat → Bool → Nat
  | .main32, n, _ => 2 * n
  | .main16, n, _ => 3 * n
  | .nap, _, occ => boolN occ

/-- The kind of a pass in flight. -/
def Pass.kind (p : Pass) : PassKind := if p.isNap then .nap else if p.g32 then .main32 else .main16

/-- Whether any swatch of a pass has an occupied nap slot. -/
def napOccupied (slots : Nat) (l : List (List Byte)) : Bool :=
  l.any (fun b => (List.range 4).any (fun k => !(swNaps b (swN slots) k).isEmpty))

/-! ## Issue and launch -/

/-- The swatches of a pass fetched: in cycle c + r the r-th row of each (R187). The bytes of each and whether any of its
words is poisoned. -/
def State.fetchSwatches (s : State) (h : OpHdr) (c slots : Nat) (offs : List Nat) : List (List Byte × Bool) × State :=
  let rows := offs.map (fun o => swRows slots o)
  (List.range 4).foldl (fun (acc : List (List Byte × Bool) × State) r =>
    (rows.zip acc.1).foldl (fun (a2 : List (List Byte × Bool) × State) x =>
      match x.1[r]? with
      | none => (a2.1 ++ [x.2], a2.2)
      | some p =>
        let q := a2.2.engRead h (c + r) p.1 p.2
        (a2.1 ++ [(x.2.1 ++ q.1.1, x.2.2 || q.1.2)], q.2)) ([], acc.2)) (offs.map (fun _ => ([], false)), s)

/-- The check that fails for the swatches of a pass, in R63 order; 14 stands for R95, which no swatch is exempt from. -/
def passMalformed (c : SwCtx) (l : List (List Byte × Bool)) : Option Nat :=
  match (l.filter (fun x => !x.2)).findSome? (fun x => swMalformed c x.1) with
  | some k => some k
  | none => match l.map (·.1) with
    | [] => none
    | a :: r => if r.all (fun b => swSlot b == swSlot a && swPos b == swPos a && swWgen b == swWgen a) then none else some 14

/-- What the map says of a logical array for a generation (R96): the physical array and format of a valid entry. -/
def State.resolve (s : State) (t : TileId) (gen larray : Nat) : Option (Nat × Nat) :=
  match s.bankOf t gen with
  | none => none
  | some b => let e := s.mapEntry t b larray; if e.2.2 then some (e.1, e.2.1) else none

/-- A pass launches (R101), or returns its tickets if it does not fire (R96, R97). Where WGEN names no map bank there is no entry: of a
swatch that R63 exempts no fault is recorded for it (DESIGN CHOICE, log 52). -/
def State.launchPass (s : State) (h : OpHdr) (k : PassKind) (o : PassOps) (c draw : Nat) (data : List (List Byte)) (poison : Bool) : State :=
  let t := h.tile
  let n := o.swatches.length
  let hd := data.headD []
  let lc1 := s.isLc1 t
  let closing := o.close != .none
  match s.resolve t (swWgen hd) o.larray.val with
  | none =>
    let s1 := s.modTile t (fun x => { x with
      opTickets := x.opTickets + draw,
      lastOut := if closing then Tbl.put x.lastOut o.larray.val none else x.lastOut,
      lastMain := Tbl.del x.lastMain o.larray.val })
    if (s.bankOf t (swWgen hd)).isSome then s1.tileJobFault t 0x1016 0x00 o.larray.val h.opidx else s1
  | some e =>
    let a := arrOf t e.1
    let st := (s.arr a).st
    let fires := !poison && decide (st = .mapped)
    let launch := c + k.lead
    let p : Pass := { isNap := decide (k = .nap), g32 := decide (k = .main32), ops := o, opidx := h.opidx, segs := n,
                      fires := fires, tag := swTag hd (!fires), fmt := e.2, data := data, launch := launch,
                      ready := launch + k.latency lc1 n, draw := draw, paid := 0, met := none }
    let s1 := s.modArr a (fun x => { x with
      passes := x.passes ++ [p], busyUntil := launch + k.interval lc1 n,
      lastSwatch := if k = .nap then [] else data, lastPoison := poison })
    let s2 := s1.modTile t (fun x => { x with
      opTickets := if fires then x.opTickets else x.opTickets + draw,
      lastOut := if closing then Tbl.put x.lastOut o.larray.val (some e.1) else x.lastOut,
      lastMain := if k = .nap then x.lastMain else Tbl.put x.lastMain o.larray.val e.1 })
    let s3 := if fires then s2.tileEvent t (if k = .nap then 0x03 else 0x02) 1 (some o.layer.val) else s2
    if st = .mapped ∨ st = .fenced then s3 else s3.tileJobFault t 0x1016 (0x40 + e.1) o.larray.val h.opidx

/-- The array a pass will take, as far as its first swatch's header in the scratchpad tells, and from which cycle it is
free (R104). -/
def State.arrayFree (s : State) (t : TileId) (phys : Option Nat) (lead : Nat) : Nat × Nat :=
  match phys with
  | none => (0, 0)
  | some n => let a := s.arr (arrOf t n); (a.busyUntil - lead, a.extra)

/-- A main pass: it waits for its array and its tickets, issues, fetches and checks its swatches, and launches. -/
def mainPass (h : OpHdr) (k : PassKind) (o : PassOps) (i : Instr) (s : State) : State :=
  s.tileOp h i (fun s =>
    let t := h.tile
    let n := o.swatches.length
    let offs := o.swatches.map (fun x => 32 * x.val)
    let draw := k.tickets n false
    match s.drawTickets h draw 0x00 with
    | .short s1 => s1
    | .wait s1 => s1.enqueue t i
    | .ok s1 =>
      let v := s1.flushW t (h.cycle + (s1.tile t).delta)
      let peek := v.bytes (tAddr t (offs.headD 0)) 8
      let f := s1.arrayFree t ((s1.resolve t (swWgen peek) o.larray.val).map (·.1)) k.lead
      let c := s1.issueAt h f.1
      let s2 := s1.issue h c f.2
      let cx := s2.swCtx t o.layer.val
      let q := s2.fetchSwatches h c cx.slots offs
      match passMalformed cx q.1 with
      | some k => q.2.tileJobFault t 0x1015 0x00 k h.opidx
      | none =>
        let sats := (q.1.filter (fun x => swSat x.1)).length
        let s3 := if sats = 0 then q.2 else q.2.tileEvent t 0x0F sats (some o.layer.val)
        s3.launchPass h k o c draw (q.1.map (·.1)) (q.1.any (fun x => x.2 || swPoison x.1)))

/-- PASS32: a main pass at G = 32 (R101). -/
def runPass32 (h : OpHdr) (o : PassOps) (s : State) : State := mainPass h .main32 o (.pass32 h o) s

/-- The command PASS32. -/
def execPass32 (h : OpHdr) (o : PassOps) (s : State) : Host.Outcome State Fault Refusal := .next (runPass32 h o s)

/-- PASS16: a main pass at G = 16 (R101). -/
def runPass16 (h : OpHdr) (o : PassOps) (s : State) : State := mainPass h .main16 o (.pass16 h o) s

/-- The command PASS16. -/
def execPass16 (h : OpHdr) (o : PassOps) (s : State) : Host.Outcome State Fault Refusal := .next (runPass16 h o s)

/-- NAP: the nap pass over the swatches its main pass fetched, on the same array (R114, R116, R187). -/
def runNap (h : OpHdr) (o : PassOps) (s : State) : State :=
  s.tileOp h (.nap h o) (fun s =>
    let t := h.tile
    let phys := Tbl.find (s.tile t).lastMain o.larray.val
    let kept := match phys with
      | some n => ((s.arr (arrOf t n)).lastSwatch, (s.arr (arrOf t n)).lastPoison)
      | none => ([], true)
    let data := kept.1
    let slots := (s.layerOf t o.layer.val).napSlots
    let draw := PassKind.nap.tickets o.swatches.length (napOccupied slots data)
    match s.drawTickets h draw 0x00 with
    | .short s1 => s1
    | .wait s1 => s1.enqueue t (.nap h o)
    | .ok s1 =>
      let f := s1.arrayFree t phys 2
      let c := s1.issueAt h f.1
      let s2 := s1.issue h c f.2
      s2.launchPass h .nap o c draw data (data.isEmpty || kept.2))

/-- The command NAP. -/
def execNap (h : OpHdr) (o : PassOps) (s : State) : Host.Outcome State Fault Refusal := .next (runNap h o s)

/-! ## Conversion (R98, R99, R109) -/

/-- Code values of two-bit patterns, four to a byte (R45, R48, R85). -/
def unpackCodes (l : List Byte) : List Int :=
  l.flatMap (fun b => [sext 2 b.toNat, sext 2 (b.toNat / 4), sext 2 (b.toNat / 16), sext 2 (b.toNat / 64)])

/-- Pieces of `n` elements. -/
def pieces {α : Type} (n : Nat) : Nat → List α → List (List α)
  | 0, _ => []
  | k + 1, l => l.take n :: pieces n k (l.drop n)

/-- The 544 code values of each of the first `rows` rows of an array: 512 data columns, then the 32 digit cell columns
(R85, R90). -/
def State.arrayRows (s : State) (a : ArrayId) (rows : Nat) : List (List Int) :=
  let base := tAddr a.tile (0x01000000 + a.phys.val * 0x20000)
  let data := pieces 128 rows (Memory.bulk s.mem base (128 * rows))
  let chk := pieces 8 rows (Memory.bulk s.mem (base + 0x10000) (8 * rows))
  (data.zip chk).map (fun x => unpackCodes (x.1 ++ x.2))

/-- The weight scale codes of a segment (R90). -/
def State.arrayScales (s : State) (a : ArrayId) (seg : Nat) : List Nat :=
  (Memory.bulk s.mem (tAddr a.tile (0x01000000 + a.phys.val * 0x20000 + 0x12000 + 512 * seg)) 512).map (·.toNat)

/-- Plane `p` of an activation (R98). -/
def planeOf (p : Nat) (q : Int) : Int :=
  let b := toBits 8 q
  if p = 3 then sext 2 (b / 64) else ((b / 4 ^ p % 4 : Nat) : Int)

/-- The charge-domain sums of all converters for one plane (R99). -/
def planeSums (p : Nat) (qs : List Int) (rows : List (List Int)) : List Int :=
  (qs.zip rows).foldl (fun acc x =>
    let v := planeOf p x.1
    if v = 0 then acc else List.zipWith (fun y code => y + v * code) acc x.2) (List.replicate 544 0)

/-- What a converter reads (R99): the sum, with what the silicon adds, clamped; and whether it is over range. -/
def converted (lo hi : Int) (gl : List Glitch) (ys : List Int) : List (Int × Bool) :=
  ((List.range ys.length).zip ys).map (fun x =>
    let y := (gl.filter (fun g => g.conv == x.1)).foldl (fun acc g => acc + g.delta) x.2
    (clampI lo hi y, decide (y < lo) || decide (hi < y)))

/-- One converted row group: per plane a3 to a0, the converters' outputs and over-range flags. -/
def convertGroup (lo hi : Int) (gl : List Glitch) (g : Nat) (qs : List Int) (rows : List (List Int)) : List (Nat × List (Int × Bool)) :=
  [3, 2, 1, 0].map (fun p => (p, converted lo hi (gl.filter (fun x => x.group == g && x.plane == p)) (planeSums p qs rows)))

/-- Any converter of the group over range. -/
def groupOver (l : List (Nat × List (Int × Bool))) : Bool := l.any (fun x => x.2.any (·.2))

/-- The narrow sums of the data columns (R109). -/
def narrow (l : List (Nat × List (Int × Bool))) : List Int :=
  l.foldl (fun acc x => List.zipWith (fun y z => 4 * y + z.1) acc (x.2.take 512)) (List.replicate 512 0)

/-- The comparisons of a group (R119, R120): for each plane and checksum column, none where one is omitted, else whether
it succeeds. -/
def compareGroup (l : List (Nat × List (Int × Bool))) : List (Nat × Nat × Option Bool) :=
  l.flatMap (fun x => (List.range 8).map (fun k =>
    let d := (x.2.drop (64 * k)).take 64
    let z := (x.2.drop (512 + 4 * k)).take 4
    let y : Int := d.foldl (fun acc v => acc + v.1) 0
    let w : Int := z.foldr (fun v acc => v.1 + 4 * acc) 0
    (x.1, k, if d.any (·.2) || z.any (·.2) then none else some (decide (y = w)))))

/-- What one run of a pass gives: contributions in promotion order (segment, scale code, narrow sums), those of split-retries apart, as
they run after the last conversion (R102); the groups over range at G = 32, the retries run, the omitted comparisons, the failed ones
(group, plane, checksum column, split), those of split-retries apart, and the segments driven. -/
structure RunRes where
  contribs  : List (Nat × Nat × List Int)
  late      : List (Nat × Nat × List Int)
  overs      : List Nat
  retries   : Nat
  unchecked : Nat
  fails     : List (Nat × Nat × Nat × Bool)
  lateFails : List (Nat × Nat × Nat × Bool)
  segs      : List Nat
  deriving DecidableEq, Repr

/-- A converted group entered in the result. -/
def RunRes.add (r : RunRes) (g seg scale : Nat) (split late : Bool) (l : List (Nat × List (Int × Bool))) : RunRes :=
  let cs := compareGroup l
  let bad := cs.filterMap (fun x => if x.2.2 = some false then some (g, x.1, x.2.1, split) else none)
  let c := (seg, scale, narrow l)
  { r with contribs := if late then r.contribs else r.contribs ++ [c], late := if late then r.late ++ [c] else r.late,
           unchecked := r.unchecked + (cs.filter (fun x => x.2.2.isNone)).length, fails := if late then r.fails else r.fails ++ bad,
           lateFails := if late then r.lateFails ++ bad else r.lateFails,
           segs := if r.segs.contains seg then r.segs else r.segs ++ [seg] }

def RunRes.empty : RunRes := ⟨[], [], [], 0, 0, [], [], []⟩

/-- The failed comparisons of a run in the order in which they fail. -/
def RunRes.failed (r : RunRes) : List (Nat × Nat × Nat × Bool) := r.fails ++ r.lateFails

/-- One run of a main pass at G = 32 with a saturation policy (R98 to R109). -/
def runMain32 (data : List (List Byte)) (rows : List (List Int)) (policy : Nat) (gl : List Glitch) : RunRes :=
  (List.range (4 * data.length)).foldl (fun r g =>
    let b := data.getD (g / 4) []
    if swBlkZero b (g % 4) then r
    else
      let qs := (List.range 32).map (fun j => swData b (32 * (g % 4) + j))
      let rs := (rows.drop (32 * g)).take 32
      let c := convertGroup (-128) 127 gl g qs rs
      let scale := swScale b (g % 4)
      if groupOver c then
        if policy = 2 then
          let h0 := convertGroup (-128) 127 gl (64 + 2 * g) (qs.take 16) (rs.take 16)
          let h1 := convertGroup (-128) 127 gl (65 + 2 * g) (qs.drop 16) (rs.drop 16)
          let r1 := (r.add (2 * g) (g / 4) scale true true h0).add (2 * g + 1) (g / 4) scale true true h1
          { r1 with overs := r1.overs ++ [g], retries := r1.retries + 1 }
        else
          let r1 := r.add g (g / 4) scale false false c
          { r1 with overs := r1.overs ++ [g] }
      else r.add g (g / 4) scale false false c) RunRes.empty

/-- One run of a main pass at G = 16. -/
def runMain16 (data : List (List Byte)) (rows : List (List Int)) (gl : List Glitch) : RunRes :=
  (List.range (8 * data.length)).foldl (fun r g =>
    let b := data.getD (g / 8) []
    let k := g / 2 % 4
    if swBlkZero b k then r
    else
      let qs := (List.range 16).map (fun j => swData b (16 * (g % 8) + j))
      r.add g (g / 8) (swScale b k) false false (convertGroup (-128) 127 gl g qs ((rows.drop (16 * g)).take 16))) RunRes.empty

/-- One run of a nap pass (R116 to R118): only rows of occupied slots are driven; six-bit converters. -/
def runNapPass (data : List (List Byte)) (slots : Nat) (rows : List (List Int)) (gl : List Glitch) : RunRes :=
  (List.range (4 * data.length)).foldl (fun r g =>
    let b := data.getD (g / 4) []
    let n := swN slots
    let naps := swNaps b n (g % 4)
    if naps.isEmpty then r
    else
      let qs := (List.range 32).map (fun j => match naps.find? (fun x => x.1 == j) with
        | some x => x.2
        | none => 0)
      let c := (convertGroup (-32) 31 gl g qs ((rows.drop (32 * g)).take 32)).map (fun x => (x.1, x.2.map (fun y => (y.1, false))))
      r.add g (g / 4) (swNapScale b n (g % 4)) false false c) RunRes.empty

/-! ## Accumulation (R110 to R115) -/

/-- A shift by k, rounded to nearest, ties to even, where k is negative (R112). -/
def shiftRne (p : Int) (k : Int) : Int :=
  if 0 ≤ k then p * (2 ^ k.toNat : Nat) else signed (decide (p < 0)) (rneShift p.natAbs (-k).toNat)

/-- One promotion into a wide accumulator: the value, whether the column is saturated, and whether this sum saturated. -/
def promote (a : Int) (m : Nat) (e : Int) (w : Int × Bool) (n : Int) (scale : Nat) : (Int × Bool) × Bool :=
  let v := e4Val scale
  let x := w.1 + shiftRne (n * (m * v.1 : Nat)) (e + v.2 - a)
  let lo : Int := -(2 ^ 39)
  let hi : Int := 2 ^ 39 - 1
  let sat := decide (x < lo) || decide (hi < x)
  ((clampI lo hi x, w.2 || sat), sat)

/-- All promotions of a run; the accumulators and the number of sums that saturated. -/
def promoteAll (a : Int) (scales : Nat → List Nat) (r : RunRes) (acc : List (Int × Bool)) : List (Int × Bool) × Nat :=
  (r.contribs ++ r.late).foldl (fun st c =>
    let v := e4Val c.2.1
    let l := (st.1.zip (c.2.2.zip (scales c.1))).map (fun x => promote a v.1 v.2 x.1 x.2.1 x.2.2)
    (l.map (·.1), st.2 + (l.filter (·.2)).length)) (acc, 0)

/-- Closing one column (R113, R115). -/
def closeCol (f : CloseFmt) (a : Int) (w : Int × Bool) : BitVec 16 :=
  let ff := match f with
    | .bf16 => FFmt.bf16
    | .fp16 | .none => FFmt.fp16
  BitVec.ofNat 16 (ff.encode (if w.2 then .inf (decide (w.1 < 0)) else .fin (decide (w.1 < 0)) w.1.natAbs a))

/-! ## The end of a pass -/

/-- ARR_MISMATCH of a failed comparison (R121). -/
def mismatchWord (phys : Nat) (again nap : Bool) (x : Nat × Nat × Nat × Bool) : Nat :=
  phys % 64 + x.1 % 32 * 2 ^ 6 + x.2.1 % 4 * 2 ^ 11 + x.2.2.1 % 8 * 2 ^ 13 + boolN again * 2 ^ 16 + boolN nap * 2 ^ 17
    + boolN x.2.2.2 * 2 ^ 18

/-- The failed comparisons of a run: logged, the last one staying in ARR_MISMATCH (R121). Of several that fail in one group that is the one
of the lowest plane, and of its checksum columns the highest (DESIGN CHOICE, log 53). -/
def State.logMismatch (s : State) (a : ArrayId) (again nap : Bool) (l : List (Nat × Nat × Nat × Bool)) : State :=
  match l.getLast? with
  | none => s
  | some x => (s.setBit (tReg a.tile .arrEvents) 3).setReg (tReg a.tile .arrMismatch)
      (BitVec.ofNat 32 (mismatchWord a.phys.val again nap x))

/-- Saturation and comparison events of the runs of a pass (R108, R120). -/
def State.runEvents (s : State) (t : TileId) (layer overs retries unchecked : Nat) : State :=
  let ev := tReg t .arrEvents
  let s1 := if overs = 0 then s else (s.setBit ev 0).tileEvent t 0x04 overs (some layer)
  let s2 := if retries = 0 then s1 else (s1.setBit ev 1).tileEvent t 0x05 retries (some layer)
  if unchecked = 0 then s2 else (s2.setBit ev 4).tileEvent t 0x06 unchecked (some layer)

/-- A transient mismatch of an array (R431): counted, and the fourth within 1 s sends the array to the head of its die's
calibration queue (R432). -/
def State.transient (s : State) (a : ArrayId) (layer word opidx : Nat) : State :=
  let s1 := (s.tileFault a.tile 0x3001 (0x40 + a.phys.val) word opidx).tileEvent a.tile 0x07 1 (some layer)
  let now := s1.bow.time
  let l := (((s1.arr a).transients ++ [now]).filter (fun x => decide (now < x + 1000000000)))
  let s2 := s1.modArr a (fun x => { x with transients := l })
  if 4 ≤ l.length then
    let k := (a.tile.region.val, a.phys.val)
    s2.modDie a.tile.die.val (fun d => { d with calQueue := k :: d.calQueue.filter (· != k) })
  else s2

/-- What a pass delivers (R103): a closing pass its output, another one its accumulators. -/
def State.deliver (s : State) (a : ArrayId) (p : Pass) (acc : List (Int × Bool)) (poison sat : Bool) (ready : Nat) : State :=
  s.modArr a (fun x =>
    let x1 := { x with acc := acc.map (·.1), satCols := (((List.range acc.length).zip acc).filter (fun y => y.2.2)).map (·.1),
                       accPoison := poison, satFlag := sat }
    if p.closing then
      { x1 with out := acc.map (closeCol p.ops.close p.ops.accExp), outTag := { p.tag with poison := poison }, outSat := sat, outReady := ready }
    else x1)

/-- A pass that did not fire delivers poison in its scheduled cycles (R96, R97). -/
def State.deliverPoison (s : State) (a : ArrayId) (p : Pass) : State :=
  let q := s.freeBytes 1024
  q.2.modArr a (fun x =>
    if p.closing then
      { x with out := (elemsN 2 512 q.1).map (BitVec.ofNat 16), outTag := { p.tag with poison := true }, outSat := false,
               outReady := p.ready, accPoison := true }
    else { x with accPoison := true })

/-- Cycles added to a pass (R102, R105): the array's output and interval move; a pass that already follows it slips, and
its tile with it. -/
def State.lengthen (s : State) (a : ArrayId) (n : Nat) : State :=
  let later := !(s.arr a).passes.isEmpty
  let s1 := s.modArr a (fun x => { x with
    extra := n, busyUntil := x.busyUntil + n,
    passes := x.passes.map (fun p => { p with launch := p.launch + n, ready := p.ready + n }) })
  if later then s1.charge a.tile n n else s1

/-- Whether a weight scale that a run reads has bad parity (R89). -/
def State.scaleBad (s : State) (a : ArrayId) (segs : List Nat) : Option Nat :=
  let base := tAddr a.tile (0x01000000 + a.phys.val * 0x20000 + 0x12000)
  (s.badScale.find? (fun x => decide (base ≤ x) && decide (x < base + 2048) && segs.contains ((x - base) / 512))).map (· - base)

/-- The accumulators a pass starts from: a main pass clears them (R114). -/
def Arr.accIn (x : Arr) (nap : Bool) : List (Int × Bool) :=
  if nap then
    (List.range 512).map (fun c => (x.acc.getD c 0, x.satCols.contains c))
  else List.replicate 512 (0, false)

/-- Draws of split-retries and of a repeat, each when its turn comes, from the operation counter alone (R102): how many are made
before the counter falls short. -/
def State.payDraws (s : State) (t : TileId) : List Nat → Nat × State
  | [] => (0, s)
  | n :: r =>
    if (s.tile t).opTickets < n then (0, s)
    else
      let s1 := s.modTile t (fun y => { y with opTickets := y.opTickets - n })
      let q := State.payDraws (if n = 0 then s1 else s1.tileEvent t 0x09 n) t r
      (q.1 + 1, q.2)

/-- Weight scale entries of an array whose parity has become bad (R89). -/
def State.spoilScales (s : State) (a : ArrayId) (l : List Nat) : State :=
  let base := tAddr a.tile (0x01000000 + a.phys.val * 0x20000 + 0x12000)
  { s with badScale := s.badScale ++ ((l.filter (fun e => decide (e < 2048))).map (base + ·)).filter (fun e => !s.badScale.contains e) }

/-- A run of a pass in flight. -/
def State.passRun (s : State) (a : ArrayId) (p : Pass) (gl : List Glitch) : RunRes :=
  let ln := s.layerOf a.tile p.ops.layer.val
  let rows := s.arrayRows a (128 * p.data.length)
  match p.kind with
  | .main32 => runMain32 p.data rows ln.satPolicy gl
  | .main16 => runMain16 p.data rows gl
  | .nap => runNapPass p.data ln.napSlots rows gl

/-- The draws that a pass makes after its issue: each retry of the first run, then the repeat and its retries (R101, R102). -/
def Pass.draws (p : Pass) (r1 r2 : RunRes) : List Nat :=
  List.replicate r1.retries 1 ++ (if r1.failed.isEmpty then [] else p.draw :: List.replicate r2.retries 1)

/-- A pass that fired and has made its draws ends: its events, promotions, checks and delivery. -/
def State.closePass (s : State) (a : ArrayId) (p : Pass) (env : PassEnv) (r1 r2 : RunRes) : State :=
  let t := a.tile
  let x := s.arr a
  let layer := p.ops.layer.val
  let ln := s.layerOf t layer
  let again := !r1.failed.isEmpty
  let iv := p.kind.interval (s.isLc1 t) p.segs
  let added := 64 * r1.retries + (if again then iv + 64 * r2.retries else 0) + env.waited
  let overs := (r1.overs ++ r2.overs.filter (fun g => !r1.overs.contains g)).length
  let s2 := s.runEvents t layer overs (r1.retries + (if again then r2.retries else 0)) (r1.unchecked + (if again then r2.unchecked else 0))
  let s3 := (s2.logMismatch a false p.isNap r1.failed).logMismatch a true p.isNap (if again then r2.failed else [])
  let word := s3.regN (tReg t .arrMismatch)
  let permanent := again && !r2.failed.isEmpty
  let s4 := if permanent then s3.tileFault t 0x3002 (0x40 + a.phys.val) word p.opidx
    else if again then s3.transient a layer word p.opidx else s3
  let pr := promoteAll p.ops.accExp (s.arrayScales a) r2 (x.accIn p.isNap)
  let s5 := if pr.2 = 0 then s4 else (s4.setBit (tReg t .arrEvents) 2).tileEvent t 0x08 pr.2 (some layer)
  let par := s5.scaleBad a r2.segs
  let s6 := match par with
    | some e => (s5.setBit (tReg t .arrEvents) 5).tileFault t 0x2005 (0x40 + a.phys.val) e p.opidx
    | none => s5
  let s7 := match env.residue with
    | [] => s6
    | c :: _ => s6.residueFault t 0x3003 (0x40 + a.phys.val) (a.phys.val + c * 2 ^ 8) p.opidx
  let poison := permanent || par.isSome || !env.residue.isEmpty || (p.isNap && x.accPoison)
  let sat := (decide (ln.satPolicy = 1) && !r2.overs.isEmpty) || (p.isNap && x.satFlag)
  let s8 := (s7.deliver a p pr.1 poison sat (p.ready + added)).lengthen a added
  let s9 := if permanent then s8.fenceArray a 2 else s8
  if par.isSome then s9.fenceArray a 5 else s9

/-- A pass that fired comes to its end: it makes the draws of its retries and repeat in turn, and where the counter falls short it stays
in the array with what it has met (R102). The cycles it waited come with the command that completes it. -/
def State.endPass (s : State) (a : ArrayId) (p : Pass) (env : PassEnv) : State :=
  let m := p.met.getD env
  let s0 := s.spoilScales a m.parity
  let r1 := s0.passRun a p m.first
  let r2 := if r1.failed.isEmpty then r1 else s0.passRun a p m.again
  let l := (p.draws r1 r2).drop p.paid
  let q := s0.payDraws a.tile l
  if q.1 < l.length then
    q.2.modArr a (fun y => { y with passes := { p with paid := p.paid + q.1, met := some m } :: y.passes })
  else q.2.closePass a p { m with waited := env.waited } r1 r2

/-- PASS_OUTPUT_READY: the oldest pass of an array ends (R103). A pass whose retries or repeat find too few tickets in
the operation counter stays in the array until a later command finds them (R102). -/
def runPassOutputReady (a : ArrayId) (env : PassEnv) (s : State) : State :=
  match (s.arr a).passes with
  | [] => s
  | p :: rest =>
    let s1 := s.modArr a (fun x => { x with passes := rest })
    if p.fires then s1.endPass a p env else s1.deliverPoison a p

/-- The command PASS_OUTPUT_READY. -/
def execPassOutputReady (a : ArrayId) (env : PassEnv) (s : State) : Host.Outcome State Fault Refusal := .next (runPassOutputReady a env s)

/-- TILE_PARITY_ERROR: a parity error in a tile's control state fences the tile (R438). -/
def runTileParityError (t : TileId) (s : State) : State := s.fenceTile t 3

/-- The command TILE_PARITY_ERROR. -/
def execTileParityError (t : TileId) (s : State) : Host.Outcome State Fault Refusal := .next (runTileParityError t s)

end Sys2Proof.Machine
end

