-- ==== Sys2Proof/Machine/Registers.lean ====
section
/-!
DEFINITION. Register access (R6 to R12, R31, R33, R544, R545): what a write does to each field by its access type, the
checks of agent and range that every write passes, 64-bit pairs, and the clearing of read-to-clear fields.
-/

namespace Sys2Proof.Machine

/-! ## Fields (R6, R8) -/

/-- A field's bits after a write. -/
def RField.write (f : RField) (old data : Nat) : Nat :=
  let o := fld old f.lo f.len
  let d := fld data f.lo f.len
  match f.acc with
  | .rw => putFld old f.lo f.len d
  | .w1c => putFld old f.lo f.len (o ^^^ (o &&& d))
  | .w1s => putFld old f.lo f.len (o ||| d)
  | .ro | .wo | .rc => old

/-- A register word after a write; reserved bits keep reading 0 (R8). -/
def fieldsWrite : List RField → Nat → Nat → Nat
  | [], old, _ => old
  | f :: r, old, data => fieldsWrite r (f.write old data) data

/-- A register word after a read: every RC field at its reset value (R6, R7). -/
def fieldsCleared : List RField → Nat → Nat
  | [], old => old
  | f :: r, old => fieldsCleared r (if f.acc = .rc then putFld old f.lo f.len f.rst else old)

/-- What a register word reads as: WO fields read 0 (R6). -/
def fieldsRead : List RField → Nat → Nat
  | [], v => v
  | f :: r, v => fieldsRead r (if f.acc = .wo then putFld v f.lo f.len 0 else v)

/-- Writes a register's fields. -/
def State.storeReg (s : State) (k : RegKey) (data : Nat) : State :=
  s.setReg k (BitVec.ofNat 32 (fieldsWrite k.reg.row.fields (s.regN k) data))

/-! ## The host interface's faults (R494) -/

/-- A HIF_ register. -/
def State.hif (s : State) (r : Reg) : RegKey := s.pReg 0x20C r

/-- A host fault with its event bit (R494). -/
def State.hostFail (s : State) (code detail : Nat) : State :=
  (s.hostFault code detail).setBit (s.hif .hifEvents) (code - 0x7001)

/-- An entry or access dropped, counted in HIF_ERRCNT. -/
def State.hostDrop (s : State) (code detail : Nat) : State := (s.hostFail code detail).bump (s.hif .hifErrcnt) 0 16 1

/-! ## Agents (R31, R461, R473, R544) -/

/-- The registers that accept writes from control cores only (R131, R147, R168, R329, R464, and the register tables). -/
def coreOnly (r : Reg) : Bool :=
  [Reg.arrMap0, .arrMap1, .arrBank, .tilBoundLo, .tilBoundHi, .tilBoundLen, .tilDesc, .mshPart, .mshBorder, .smpLists,
   .fulStatus, .fulEvents, .fulJobSrcLo, .fulJobSrcHi, .fulJobTgt, .fulJobPush, .fulResult, .fulCommitStep, .fulCommitCtrl, .fulGen, .fulStaged, .pwrAllot,
   .bootWdog].contains r

/-- The bowstring registers that ignore writes on a Brim die that is not the source: two of its command registers, of the third, the
FORCE field of BOW_EMERG_SRC, only that field (R544, 06_bowstring.md, "BOW_ registers"), and the per-partition ones, which read 0 there
(that a write to those leaves nothing is DESIGN CHOICE, log 55). -/
def bowCommand (r : Reg) : Bool :=
  [Reg.bowSkipCmd, .bowFreezeCmd, .bowStep, .bowHoldlim, .bowLasthold, .bowJob].contains r

/-- Whether a register on this die ignores writes and reads 0 (R31): one of the principal's on another Brim die. -/
def State.absent (s : State) (k : RegKey) : Bool :=
  let elsewhere := decide (k.die ≠ s.prinDie)
  match k.reg.row.unit with
  | .prin _ | .brimP _ | .prinB _ => elsewhere
  | .tile | .body _ | .brim _ | .crown _ | .ctr => elsewhere && bowCommand k.reg

/-- The bytes of device addresses that the aperture covers (R473). -/
def apertureLen : Nat := 2 ^ 25

/-- Whether BAR0 reaches a device address (R473): the first 1 MiB of a unit region of the principal, or the aperture. -/
def State.bar0Maps (s : State) (a : Nat) : Bool :=
  let w := s.pair (s.hif .hifApertureLo) (s.hif .hifApertureHi)
  (decide (addrDie a = s.prinDie) && decide (0x200 ≤ addrRegion a) && decide (addrRegion a < 0x220) && decide (addrOff a < 2 ^ 20)) ||
    (decide (w ≤ a) && decide (a < w + apertureLen))

/-- The component that runs on a control core of a Brim die (R461): 1 supervisor, 2 serving assist, 3 link manager, 4 power steward, 5
calibration, 6 telemetry; 0 where none does. -/
def coreComp (prin : Bool) (n : Nat) : Nat := (if prin then [1, 2, 2, 3, 4, 5, 6, 0] else [1, 0, 0, 3, 0, 5, 6, 0]).getD n 0

/-- The component that writes a register (R461); 0 where it has none of the prefixes listed. -/
def Reg.writer : Reg → Nat
  | .bootId | .bootBid | .bootRole | .bootStatus | .bootComp | .bootSerialLo | .bootSerialHi | .bootCensus | .bootFwVer | .bootWdog
  | .bootReset | .bootGood | .bootUpdCmd | .bootUpdAddr | .bootUpdLen | .bootUpdStatus | .bootOwner | .bootOwnerBurn
  | .mshPart | .mshBorder | .mshEdge | .mshDiscard | .mshTfence | .mshBedge | .tilBoundLo | .tilBoundHi | .tilBoundLen | .tilDesc
  | .arrMap0 | .arrMap1 | .arrBank | .fltStatus | .fltClass | .fltPounce | .fltRec | .fltBstatus | .fltBclass | .fltRepairlim | .fltHead
  | .fltLost | .fltReplay | .fltBpounce | .fltBrec | .fltLog | .bowEmergSrc | .bowHoldlim | .bowJob => 1
  | .fulStatus | .fulEvents | .fulJobSrcLo | .fulJobSrcHi | .fulJobTgt | .fulJobPush | .fulResult | .fulCommitStep | .fulCommitCtrl
  | .fulGen | .fulStaged | .kvpEvents | .kvpLowater | .kvpGeom | .kvpTotal | .kvpFree | .kvpIdle | .kvpHot | .kvpLayers | .kvpCwZero
  | .pfxCtrl | .pfxBase | .pfxUsed | .pfxEvents | .pfxHitLo | .pfxHitHi | .pfxEpoch | .reqKill | .reqPtgt
  | .smpStatus | .smpLookup | .smpEvents | .smpDrawnLo | .smpDrawnHi | .smpProposedLo | .smpProposedHi | .smpAcceptedLo
  | .smpAcceptedHi | .smpLists => 2
  | .lnkEvents | .lnkCfg | .lnkState | .lnkPartnerLo | .lnkPartnerHi | .lnkPinfo | .lnkLat | .lnkErr | .lnkRetry | .lnkChan | .lnkCwin
  | .lnkCnote | .ethCtrl | .ethStatus | .ethMacLo | .ethMacHi | .ethIpv4 | .ethIpv6 | .ethUdp | .ethChannels | .ethDropHdr | .ethDropOsp
  | .ethEvents | .lasEvents | .lasSpsrc | .lasCtrl | .lasState | .lasHours | .lasEqhours | .lasRise | .lasTcase | .lasOpt0 | .lasOpt1 => 3
  | .pwrStatus | .pwrDev | .pwrInput | .pwrEvents | .pwrAllot | .pwrBase | .pwrPlan | .pwrMeas | .pwrK | .pwrWait | .pwrDieK
  | .pwrDieCore | .pwrDieArr | .pwrDieOc | .thmStatus | .thmLimits | .thmTh | .thmThLim | .thmBody | .thmCrown | .thmDie
  | .bowSkipCmd | .bowEmerg => 4
  | .cnfStatus | .cnfMode | .cnfEvents | .cnfLastfail | .cnfFails | .cnfPeriod | .cnfBandgap | .cnfDiode | .cnfDieStatus | .cnfDieBowtrim
  | .cnfDiePll | .cnfDieArray => 5
  | .snsCtrl | .snsStatus | .snsEvents | .snsTrim | .snsSeq | .snsEnt | .snsLim | .snsRel | .snsRes | .ctrCycleLo | .ctrCycleHi
  | .ctrStatus | .ctrSel | .ctrValLo | .ctrValHi | .ctrShCycleLo | .ctrShCycleHi | .ctrShLo | .ctrShHi | .ctrLayA | .ctrLayB
  | .ctrRdCtrl | .ctrRdStatus | .ctrRdBuf | .ctrRdCount | .ctrRdList | .bowFreezeAtLo | .bowFreezeAtHi | .bowFreezeCmd
  | .bowFreezeLastLo | .bowFreezeLastHi => 6
  | _ => 0

/-- The component of an access port: none for the endpoint. -/
def State.portComp (s : State) : Port → Nat
  | .pcie => 0
  | .core b n => coreComp (decide (brimIdx b.val = s.prinDie)) n.val

/-- Whether a port makes no access at all: before the supervisor runs, BAR0 serves only the BOOT_ region (R472), and it maps no other
address than R473 gives it; while the PLL of the endpoint or of a Brim die's control cores waits for its recalibration, they access
nothing (R417); and a core that runs no component, or one that is not running, is held (R461, R462). -/
def State.shut (s : State) (port : Port) (a : Nat) : Bool :=
  match port with
  | .pcie => s.pllDown .pcie || (!s.boot.running && !(decide (addrDie a = s.prinDie) && addrRegion a == 0x200)) || !s.bar0Maps a
  | .core b n => s.pllDown (.controlCore b) || s.portComp (.core b n) == 0 || s.compState (s.portComp (.core b n)) != 0

/-- Whether a write is blocked by the protection of the component that makes it (R461). -/
def State.blocked (s : State) (port : Port) (r : Reg) : Bool := port.isCore && r.writer != s.portComp port

/-- A port that does not write a register: it makes no access, or a blocked one. -/
def State.barred (s : State) (port : Port) (k : RegKey) : Bool := s.shut port k.addr || s.blocked port k.reg

/-- A blocked access is a fault of its component (R461), which COMPONENT_FAULT acts on (R462). -/
def State.protFault (s : State) (port : Port) : State :=
  { s with boot := { s.boot with protFaults := s.boot.protFaults ++ [s.portComp port] } }

/-! ## Ranges (R545) -/

/-- The events that a counter set of a region counts (R513, R514). -/
def eventOk (die region ev : Nat) : Bool :=
  ev == 0 ||
  (if die < 0x20 then
    (if region < 512 then decide (1 ≤ ev) && decide (ev ≤ 0x1A) else decide (0x40 ≤ ev) && decide (ev ≤ 0x44))
   else decide (0x80 ≤ ev) && decide (ev ≤ 0x89))

/-- Whether a list entry of the reader names a die index and a region that a counter set can have there: a tile or 0x204 on a Body die,
0x20E on a Brim die (R509). -/
def setAt (die region : Nat) : Bool :=
  (decide (die < 0x20) && (decide (region < 512) || region == 0x204)) || (decide (0x20 ≤ die) && decide (die < 0x24) && region == 0x20E)

/-- Whether a value may be written to a register: every field within its stated range, and nothing that the field's
description refuses. -/
def State.writeOk (s : State) (k : RegKey) (d : Nat) : Bool :=
  let within (lo len a b : Nat) : Bool := decide (a ≤ fld d lo len) && decide (fld d lo len ≤ b)
  match k.reg with
  | .reqPtgt => within 0 13 0 4096 && fld d 0 13 % 64 == 0
  | .bowHoldlim => fld d 0 16 != 0
  | .bowJob => (s.part k.idx).job != .running
  | .bowSkipCmd | .bowEmerg => fld d 4 2 != 3 && (fld d 4 2 == 0 || fld d 0 4 == 0)
  | .smpLookup => within 0 4 1 8 && within 16 11 1 1024
  | .smpLists => within 0 7 0 64
  | .fltRepairlim => fld d 0 16 != 0
  | .cnfMode => !(bit d 0 || bit d 1 || bit d 4 || bit d 6)
  | .cnfPeriod => fld d 0 8 != 0 && fld d 8 8 != 0
  | .hifRingcfg => within 0 4 6 12 && within 4 4 6 12 && within 8 4 6 12 && within 16 10 1 1000
  | .pwrAllot => fld d 0 16 != 0 && decide (fld d 0 16 ≤ (s.part k.idx).startAllot)
  | .lasSpsrc => s.fldOf (uReg k.die 0x20A .lasState (fld d 0 1)) 0 3 == 4
  | .bootReset => fld d 16 16 == 0xC1E5
  | .bootUpdLen => decide (1 ≤ fld d 0 25) && decide (fld d 0 25 ≤ 25165824)
  | .fulJobTgt => fld d 15 2 != 3
  | .snsCtrl => fld d 1 2 != 3
  | .snsEnt => decide (26 ≤ fld d 8 10)
  | .lnkChan => decide (fld d 6 5 ≤ 23)
  | .lnkCwin => fld d 16 14 != 0
  | .ctrSel => eventOk k.die k.region (fld d 0 8)
  | .ctrRdCtrl | .ctrRdBuf => (let st := s.fldOf (s.pReg 0x20E .ctrRdStatus) 0 2; st != 1 && st != 2)
  | .ctrRdList => (let st := s.fldOf (s.pReg 0x20E .ctrRdStatus) 0 2; st != 1 && st != 2) && setAt (fld d 0 6) (fld d 6 10)
  | .ctrRdCount => (let st := s.fldOf (s.pReg 0x20E .ctrRdStatus) 0 2; st != 1 && st != 2) && decide (fld d 0 9 ≤ 256)
  | _ => true

/-! ## Writes -/

/-- The checks that every register write passes, and then its effect: the component that makes it may write the register, or the write is
blocked (R461); a register that is not here ignores it (R31, R472), an agent that it does not permit is an address fault (R544), a value
it refuses is a firmware fault (R545). -/
def State.guardedWrite (s : State) (port : Port) (k : RegKey) (d : Nat) (f : State → State) : State :=
  if s.shut port k.addr then s
  else if s.blocked port k.reg then s.protFault port
  else if s.absent k then s
  else if coreOnly k.reg && !port.isCore then s.addrFault port k.addr
  else if s.writeOk k d then f s else s.fwFault k.addr

/-- The session registers that are locked while a session is OPEN or STALE (R489). -/
def State.sessionLocked (s : State) (k : RegKey) : Bool :=
  !s.absent k && [Reg.hifCqBaseLo, .hifCqBaseHi, .hifSbBaseLo, .hifSbBaseHi, .hifRingcfg].contains k.reg &&
    (let st := s.fldOf (s.pReg 0x20C .hifStatus) 6 2; st == 1 || st == 2)

/-- The _LO half of the pair whose _HI half is `k`. -/
def RegKey.loKey (k : RegKey) : RegKey :=
  match k.reg.loOf with
  | some r => { k with reg := r }
  | none => k

/-- A write of the _HI half of a pair (R12): the pair takes the _LO value last written on the port, if there is one. -/
def State.pairHi (s : State) (port : Port) (k : RegKey) (d : Nat) : State :=
  match Tbl.find s.loHeld (port, k.loKey) with
  | some lo => (s.storeReg k.loKey lo.toNat).storeReg k d
  | none => s.storeReg k d

/-- A write that has passed its checks, of a register that acts on nothing but its own fields. -/
def State.plainWrite (s : State) (port : Port) (k : RegKey) (d : Nat) : State :=
  match k.reg.row.half with
  | .single => s.storeReg k d
  | .lo => { s with loHeld := Tbl.put s.loHeld (port, k) (BitVec.ofNat 32 d) }
  | .hi => s.pairHi port k d

/-- A checked write of a register that acts on nothing but its own fields. -/
def State.regWrite (s : State) (port : Port) (k : RegKey) (d : Nat) : State :=
  if s.sessionLocked k && !s.barred port k then s.hostDrop 0x7004 (addrOff k.addr)
  else s.guardedWrite port k d (fun s => s.plainWrite port k d)

/-- A checked write of one of some registers at a device address: at one that holds no register it is dropped with an address fault
(R33), and at another register's address nothing happens, since that write is a command of its own. -/
def State.regWriteAt (s : State) (port : Port) (regs : List Reg) (a d : Nat) : State :=
  match regAt a with
  | some k => if regs.contains k.reg then s.regWrite port k d else s
  | none => s.addrFault port a

end Sys2Proof.Machine
end

