-- ==== Sys2Proof/Machine/Dma.lean ====
section
/-!
DEFINITION. The DMA engine (R147 to R153): descriptors, issue checks, transfers, landing and release; landing waits and
the end of a step program (R152, R182).
-/

namespace Sys2Proof.Machine

/-! ## Link out-windows (R349, R350) -/

/-- The start of a partition's Brim SRAM grant, in units of 64 KiB (R459). -/
def State.grantStart (s : State) (x : Part) : Nat := mkAddr s.prinDie 0 (x.grantBase * 2 ^ 16)

/-- The window of a link channel in the grant of its partition: start and length. -/
def State.chanWindow (s : State) (c : Nat) : Nat × Nat :=
  let x := s.part (s.fldOf (s.pReg 0x209 .lnkChan c) 2 4)
  (s.grantStart x + s.fldOf (s.pReg 0x209 .lnkCwin c) 0 14 * 4096, s.fldOf (s.pReg 0x209 .lnkCwin c) 16 14 * 4096)

/-- The valid out channels of a partition. -/
def State.outChannels (s : State) (p : Nat) : List Nat :=
  (List.range 64).filter (fun c =>
    let w := s.regN (s.pReg 0x209 .lnkChan c)
    bit w 0 && !bit w 1 && fld w 2 4 == p)

/-- The out channel whose window a write lies wholly in, or the fact that it lies partly in one. -/
def State.outWindow (s : State) (p dst len : Nat) : Option (Nat × Bool) :=
  (s.outChannels p).findSome? (fun c =>
    let w := s.chanWindow c
    if w.1 ≤ dst ∧ dst + len ≤ w.1 + w.2 then some (c, true)
    else if dst < w.1 + w.2 ∧ w.1 < dst + len then some (c, false) else none)

/-! ## Descriptors (R148, R149) -/

/-- A descriptor's fields. -/
structure Desc where
  src : Nat
  dst : Nat
  len : Nat
  sb : Nat
  db : Nat
  land : Nat
  tickets : Nat
  ordered : Bool
  reserved : Bool
  deriving DecidableEq, Repr

/-- A descriptor from descriptor memory. -/
def State.desc (s : State) (t : TileId) (n : Nat) : Desc :=
  let w (i : Nat) := s.regN (tReg t .tilDesc (8 * n + i))
  { src := w 0 + fld (w 1) 0 16 * 2 ^ 32, dst := w 2 + fld (w 3) 0 16 * 2 ^ 32, len := fld (w 4) 0 20,
    sb := fld (w 5) 0 8, db := fld (w 5) 16 8, land := fld (w 6) 0 16, tickets := fld (w 6) 16 10,
    ordered := bit (w 7) 0,
    reserved := fld (w 1) 16 16 != 0 || fld (w 3) 16 16 != 0 || fld (w 4) 20 12 != 0 || fld (w 5) 8 8 != 0 ||
      fld (w 5) 24 8 != 0 || fld (w 6) 5 10 != 0 || fld (w 6) 26 6 != 0 || fld (w 7) 1 31 != 0 }

/-- Whether a range lies within a bound entry; a length of 0 marks the entry unused (R149). -/
def State.inBound (s : State) (t : TileId) (b a len : Nat) : Bool :=
  let base := s.regN (tReg t .tilBoundLo b) + s.fldOf (tReg t .tilBoundHi b) 0 16 * 2 ^ 32
  let bl := s.regN (tReg t .tilBoundLen b)
  bl != 0 && decide (base ≤ a) && decide (a + len ≤ base + bl)

/-- The first check of R150 that fails: fault code and DETAIL. -/
def State.dmaCheck (s : State) (t : TileId) (n : Nat) (d : Desc) : Option (Nat × Nat) :=
  if d.len = 0 then some (0x1013, n)
  else if d.reserved then some (0x1014, n)
  else if !s.inBound t d.sb d.src d.len then some (0x1012, d.src)
  else if !s.inBound t d.db d.dst d.len then some (0x1012, d.dst)
  else match s.outWindow (s.partOf t) d.dst d.len with
    | some (_, false) => some (0x1012, d.dst)
    | _ => none

/-! ## Issue -/

/-- TIL_DMA_STATUS.INFLIGHT. -/
def State.showInflight (s : State) (t : TileId) : State :=
  s.setFld (tReg t .tilDmaStatus) 0 4 (s.tile t).xfers.length

/-- The poison reports of a transfer that appends poisoned KV (R426). -/
def State.appendReports (s : State) (t : TileId) (d : Desc) : State :=
  let p := s.partOf t
  let x := s.part p
  match (crownOf d.dst).bind (fun c => s.crownArea x c d.dst d.len) with
  | some (.append o) =>
    if x.kvt = 0 then s
    else (List.range (d.len / x.kvt)).foldl (fun s i =>
      if s.poisonedIn (d.src + i * x.kvt) x.kvt then
        match x.appendToken ((o / x.kvt + i) % 6400) with
        | some k => s.poisonReport t k.1
        | none => s
      else s) s
  | _ => s

/-- DMA: a descriptor issues after its checks, draws its tickets, and its transfer is in flight (R150, R153). -/
def runDma (h : OpHdr) (desc : Fin 1024) (s : State) : State :=
  s.tileOp h (.dma h desc) (fun s =>
    let t := h.tile
    if 8 ≤ (s.tile t).xfers.length then s.enqueue t (.dma h desc)
    else
      let d := s.desc t desc.val
      match s.dmaCheck t desc.val d with
      | some e => s.tileJobFault t e.1 0x01 e.2 h.opidx
      | none => match s.drawTickets h d.tickets 0x01 with
        | .short s1 => s1
        | .wait s1 => s1.enqueue t (.dma h desc)
        | .ok s1 =>
          let c := s1.issueAt h (s1.tile t).dmaFree
          let s2 := s1.issue h c
          let s3 := s2.modTile t (fun x => { x with
            dmaFree := c + 1, nextXfer := x.nextXfer + 1,
            xfers := x.xfers ++ [⟨x.nextXfer, BitVec.ofNat 48 d.src, BitVec.ofNat 48 d.dst, d.len, BitVec.ofNat 16 d.land,
              h.opidx, desc.val, d.ordered, false⟩] })
          let s4 := ((s3.showInflight t).setFld (tReg t .tilDmaStatus) 16 10 desc.val).tileEvent t 0x15 1
          s4.appendReports t d)

/-- The command DMA. -/
def execDma (h : OpHdr) (desc : Fin 1024) (s : State) : Host.Outcome State Fault Refusal := .next (runDma h desc s)

/-! ## Waits and the end of a program -/

/-- WAITL: waits until a landing counter reaches a target (R152). -/
def runWaitl (h : OpHdr) (counter : Fin 32) (target : BitVec 16) (s : State) : State :=
  s.tileOp h (.waitl h counter target) (fun s =>
    if target.toNat ≤ s.fldOf (tReg h.tile .tilLand counter.val) 0 16 then s.issue h (s.issueAt h 0)
    else s.enqueue h.tile (.waitl h counter target))

/-- The command WAITL. -/
def execWaitl (h : OpHdr) (counter : Fin 32) (target : BitVec 16) (s : State) : Host.Outcome State Fault Refusal := .next (runWaitl h counter target s)

/-- END: the tile's step program ends, every result is released, and the tile is at the barrier (R182, R216). -/
def runEndOp (h : OpHdr) (s : State) : State :=
  s.tileOp h (.endOp h) (fun s =>
    let s1 := ((s.issue h (s.issueAt h 0)).flushAll h.tile).endSlices h.tile
    (s1.modTile h.tile (fun x => { x.settled with ended := true })).setTileState h.tile 3)

/-- The command END. -/
def execEndOp (h : OpHdr) (s : State) : Host.Outcome State Fault Refusal := .next (runEndOp h s)

/-! ## Landing and release (R151, R152) -/

/-- A landing counter of a tile counts one transfer; it wraps at 2¹⁶ (log 23). -/
def State.landOne (s : State) (t : TileId) (n : Nat) : State :=
  let k := tReg t .tilLand n
  s.setFld k 0 16 (s.fldOf k 0 16 + 1)

/-- What collisions keep for a transfer (R141): it is known to the tile that issued it. -/
def State.shieldsOf (s : State) (t : TileId) (x : Xfer) : List Shield := (s.tile t).shields.filter (fun y => y.xfer == x.id)

/-- What collisions keep of a transfer's source: the bytes read as they were before the engine's write. -/
def State.srcShields (s : State) (t : TileId) (x : Xfer) : List Shield :=
  (s.shieldsOf t x).filter (fun y => decide (x.src.toNat < y.addr + y.bytes.length) && decide (y.addr < x.src.toNat + x.len))

/-- The bytes a transfer reads and the poisoned words (address / 8) among them: what a collision keeps for it replaces memory's (R141,
R143). -/
def State.xferRead (s : State) (t : TileId) (x : Xfer) : List Byte × List Nat :=
  let a := x.src.toNat
  let sh := s.srcShields t x
  let base := s.bytes a x.len
  let bad := s.poisonWords a x.len
  if sh.isEmpty then (base, bad)
  else
    let cover (y : Shield) (lo hi : Nat) : Bool := decide (y.addr ≤ lo) && decide (hi ≤ y.addr + y.bytes.length)
    (((List.range x.len).zip base).map (fun z => match sh.find? (fun y => cover y (a + z.1) (a + z.1 + 1)) with
      | some y => y.bytes.getD (a + z.1 - y.addr) 0
      | none => z.2),
     bad.filter (fun w => !sh.any (fun y => cover y (8 * w) (8 * w + 8))) ++ sh.flatMap (·.bad))

/-- The poisoned pieces of data read at `src`, as offset and length, from the poisoned words of its source. -/
def badPieces (src n : Nat) (bad : List Nat) : List (Nat × Nat) :=
  (bad.filter (fun w => decide (src / 8 ≤ w) && decide (w ≤ (src + n - 1) / 8))).map (fun w =>
    let lo := Nat.max src (8 * w)
    (lo - src, Nat.min (src + n) (8 * w + 8) - lo))

/-- Bytes that a collision's engine write keeps at a transfer's destination, with their poison (R141, R143). -/
def State.keepShields (s : State) (t : TileId) (x : Xfer) : State :=
  ((s.shieldsOf t x).filter (fun y => decide (x.dst.toNat < y.addr + y.bytes.length) && decide (y.addr < x.dst.toNat + x.len))).foldl
    (fun s y => s.setBytesP y.addr y.bytes (!y.bad.isEmpty)) s

/-- The tile that a device address lies in. -/
def addrTile (a : Nat) : TileId := tileOf (addrDie a) (addrRegion a)

/-- An out-of-allocation fault of a transfer whose packets meet the border of another partition (R40): recorded by the router that
discards the first of them, and here where none has been seen to. -/
def State.xferForeign (s : State) (t : TileId) (x : Xfer) (a : Nat) : State :=
  if (s.part (s.partOf t)).job = .running then s.outOfAlloc t a x.opidx else s

/-- What a Crown controller has answered of a transfer's source. -/
def State.answers (s : State) (t : TileId) (x : Xfer) : List Resp :=
  (s.tile t).inbuf.filter (fun r => decide (x.src.toNat ≤ r.addr) && decide (r.addr < x.src.toNat + x.len))

/-- The data of a transfer with its poisoned pieces (offset and length), and the state. A Crown source gives what its controller answers
(R273, R277, R316): what it has answered already, else what it answers now. An array window or another partition's tile is out of
allocation and moves nothing (R40, R91); an address that is no memory reads 0 with an address fault (R33). -/
def State.xferData (s : State) (t : TileId) (x : Xfer) (env : OpEnv) : Option (List Byte × List (Nat × Nat)) × State :=
  let a := x.src.toNat
  match memAt a with
  | some .arrayWindow => (none, s.outOfAlloc t a x.opidx)
  | some .dram =>
    let s1 := if ((s.answers t x).foldl (fun n r => n + r.bytes.length) 0) < x.len then s.crownRead (addrDie a - 0x24) t a x.len .clean else s
    let l := s1.answers t x
    let cells := (List.range x.len).map (fun i => match l.find? (fun r => decide (r.addr ≤ a + i) && decide (a + i < r.addr + r.bytes.length)) with
      | some r => r.bytes.getD (a + i - r.addr) 0
      | none => 0)
    (some (cells, (l.filter (·.poison)).map (fun r => (r.addr - a, r.bytes.length))), s1)
  | some .scratchpad =>
    let u := addrTile a
    if s.partOfDie u.die.val != s.partOfDie t.die.val then (none, s.xferForeign t x a)
    else
      let s1 := (s.flushAll u).eccRead u (addrOff a) x.len x.opidx env
      let r := s1.xferRead t x
      (some (r.1, badPieces a x.len r.2), s1)
  | some .sram => let r := s.xferRead t x; (some (r.1, badPieces a x.len r.2), s)
  | none => (some (List.replicate x.len 0, []), s.addrFaultTile t 0x01 a x.opidx)

/-- Writes a transfer's data with its poisoned pieces (R143). -/
def State.putData (s : State) (dst : Nat) (b : List Byte) (bad : List (Nat × Nat)) : State :=
  bad.foldl (fun s e => s.poisonOn (dst + e.1) e.2) (s.setBytes dst b)

/-- The write of a transfer's data at its destination, and whether it is written: a Crown destination is written by its controller
(R41, R275, R277); what is addressed to a fenced tile or another partition's is discarded on its way, packet by packet (R40, R166). -/
def State.xferWrite (s : State) (t : TileId) (x : Xfer) (b : List Byte) (bad : List (Nat × Nat)) : Bool × State :=
  let a := x.dst.toNat
  match memAt a with
  | some .arrayWindow => (false, s.outOfAlloc t a x.opidx)
  | some .dram => (true, s.crownWrite (addrDie a - 0x24) t a b bad)
  | some .scratchpad =>
    let u := addrTile a
    if s.partOfDie u.die.val != s.partOfDie t.die.val then (false, s.xferForeign t x a)
    else if (s.tile u).fenced then (false, s)
    else (true, ((s.flushAll u).putData a b bad).keepShields t x)
  | some .sram =>
    let s1 := s.putData a b bad
    match s1.outWindow (s1.partOf t) a x.len with
    | some (c, true) =>
      let p := s1.partOf t
      let n := Tbl.get (s1.part p).nextXfer c 0
      (true, s1.modPart p (fun y => { y with
        nextXfer := Tbl.put y.nextXfer c (n + 1),
        xfers := y.xfers ++ [⟨n, c, s1.fldOf (s1.pReg 0x209 .lnkChan c) 6 5, x.land, x.dst, x.len, false⟩] }))
    | _ => (true, s1)
  | none => (false, s.addrFaultTile t 0x01 a x.opidx)

/-- Whether a transfer must still wait for an earlier one of its tile (R148, ORDERED). -/
def Tile.mustWait (y : Tile) (x : Xfer) : Bool := x.ordered && y.xfers.any (fun z => decide (z.id < x.id))

/-- Whether a Crown controller that a transfer needs cannot serve it yet: its clock fails (R417) or a refresh window is open (R189). -/
def State.crownWaits (s : State) (t : TileId) (x : Xfer) : Bool :=
  [x.src.toNat, x.dst.toNat].any (fun a => match crownOf a with
    | some c => s.pllDown (.crownIf (Fin.ofNat 4 c)) || s.crownBusy c (s.partOf t) a
    | none => false)

/-- DMA_LANDING: a transfer's last byte is written, and the named landing counter of the destination tile is incremented
(R151, R152); a transfer into an out-window goes to the link engine instead (R350). One that meets a refresh window lands after it. -/
def runDmaLanding (t : TileId) (xfer : Nat) (env : OpEnv) (s : State) : State :=
  match (s.tile t).xfers.find? (fun x => x.id == xfer && !x.landed) with
  | none => s
  | some x =>
    if (s.tile t).mustWait x then s
    else if s.crownWaits t x then s.defer (.dmaLanding t xfer env)
    else
      let mark (s : State) : State := s.modTile t (fun y => { y with
        xfers := y.xfers.map (fun z => if z.id = xfer then { z with landed := true } else z) })
      let q := s.xferData t x env
      match q.1 with
      | none => mark q.2
      | some d =>
        let w := (mark q.2).xferWrite t x d.1 d.2
        let s2 := w.2.tileEvent t 0x16 (ceilDiv (x.len + x.dst.toNat % 64) 64)
        if w.1 && bit x.land.toNat 15 && inTile x.dst.toNat then
          s2.landOne (addrTile x.dst.toNat) (fld x.land.toNat 0 5)
        else s2

/-- The command DMA_LANDING. -/
def execDmaLanding (t : TileId) (xfer : Nat) (env : OpEnv) (s : State) : Host.Outcome State Fault Refusal := .next (runDmaLanding t xfer env s)

/-- DMA_RELEASE: the write acknowledgement returns, and a landed transfer frees its in-flight slot (R151, R153). -/
def runDmaRelease (t : TileId) (xfer : Nat) (s : State) : State :=
  match (s.tile t).xfers.find? (fun x => x.id == xfer && x.landed) with
  | none => s
  | some x =>
    let a := x.src.toNat
    (s.modTile t (fun y => { y with
      xfers := y.xfers.filter (fun z => z.id != xfer), shields := y.shields.filter (fun z => z.xfer != xfer),
      inbuf := y.inbuf.filter (fun r => !(decide (a ≤ r.addr) && decide (r.addr < a + x.len))) })).showInflight t

/-- The command DMA_RELEASE. -/
def execDmaRelease (t : TileId) (xfer : Nat) (s : State) : Host.Outcome State Fault Refusal := .next (runDmaRelease t xfer s)

end Sys2Proof.Machine
end

