-- ==== Sys2Proof/Machine/Crypto.lean ====
section
/-!
DEFINITION. The published algorithms that the spec names: SHA-384 (FIPS 180-4) and ECDSA over P-384 (FIPS 186-4) for the
signatures of R454 and the digests of R297 and R455, and the CRC-32 of R332 (PRESUMED, log 30: the spec names the two
standards and does not repeat them).
-/

namespace Sys2Proof.Machine

/-! ## SHA-384 -/

/-- SHA-512 round constants 0 to 15. -/
def shaK0 : List Nat :=
  [0x428A2F98D728AE22, 0x7137449123EF65CD, 0xB5C0FBCFEC4D3B2F, 0xE9B5DBA58189DBBC,
   0x3956C25BF348B538, 0x59F111F1B605D019, 0x923F82A4AF194F9B, 0xAB1C5ED5DA6D8118,
   0xD807AA98A3030242, 0x12835B0145706FBE, 0x243185BE4EE4B28C, 0x550C7DC3D5FFB4E2,
   0x72BE5D74F27B896F, 0x80DEB1FE3B1696B1, 0x9BDC06A725C71235, 0xC19BF174CF692694]

/-- SHA-512 round constants 16 to 31. -/
def shaK1 : List Nat :=
  [0xE49B69C19EF14AD2, 0xEFBE4786384F25E3, 0x0FC19DC68B8CD5B5, 0x240CA1CC77AC9C65,
   0x2DE92C6F592B0275, 0x4A7484AA6EA6E483, 0x5CB0A9DCBD41FBD4, 0x76F988DA831153B5,
   0x983E5152EE66DFAB, 0xA831C66D2DB43210, 0xB00327C898FB213F, 0xBF597FC7BEEF0EE4,
   0xC6E00BF33DA88FC2, 0xD5A79147930AA725, 0x06CA6351E003826F, 0x142929670A0E6E70]

/-- SHA-512 round constants 32 to 47. -/
def shaK2 : List Nat :=
  [0x27B70A8546D22FFC, 0x2E1B21385C26C926, 0x4D2C6DFC5AC42AED, 0x53380D139D95B3DF,
   0x650A73548BAF63DE, 0x766A0ABB3C77B2A8, 0x81C2C92E47EDAEE6, 0x92722C851482353B,
   0xA2BFE8A14CF10364, 0xA81A664BBC423001, 0xC24B8B70D0F89791, 0xC76C51A30654BE30,
   0xD192E819D6EF5218, 0xD69906245565A910, 0xF40E35855771202A, 0x106AA07032BBD1B8]

/-- SHA-512 round constants 48 to 63. -/
def shaK3 : List Nat :=
  [0x19A4C116B8D2D0C8, 0x1E376C085141AB53, 0x2748774CDF8EEB99, 0x34B0BCB5E19B48A8,
   0x391C0CB3C5C95A63, 0x4ED8AA4AE3418ACB, 0x5B9CCA4F7763E373, 0x682E6FF3D6B2B8A3,
   0x748F82EE5DEFB2FC, 0x78A5636F43172F60, 0x84C87814A1F0AB72, 0x8CC702081A6439EC,
   0x90BEFFFA23631E28, 0xA4506CEBDE82BDE9, 0xBEF9A3F7B2C67915, 0xC67178F2E372532B]

/-- SHA-512 round constants 64 to 79. -/
def shaK4 : List Nat :=
  [0xCA273ECEEA26619C, 0xD186B8C721C0C207, 0xEADA7DD6CDE0EB1E, 0xF57D4F7FEE6ED178,
   0x06F067AA72176FBA, 0x0A637DC5A2C898A6, 0x113F9804BEF90DAE, 0x1B710B35131C471B,
   0x28DB77F523047D84, 0x32CAAB7B40C72493, 0x3C9EBE0A15C9BEBC, 0x431D67C49C100D4C,
   0x4CC5D4BECB3E42B6, 0x597F299CFC657E2A, 0x5FCB6FAB3AD6FAEC, 0x6C44198C4A475817]

/-- The 80 round constants. -/
def shaK : List Nat := List.flatten [shaK0, shaK1, shaK2, shaK3, shaK4]

/-- The initial hash value of SHA-384. -/
def shaH : List Nat :=
  [0xCBBB9D5DC1059ED8, 0x629A292A367CD507, 0x9159015A3070DD17, 0x152FECD8F70E5939,
   0x67332667FFC00B31, 0x8EB44A8768581511, 0xDB0C2E0D64F98FA7, 0x47B5481DBEFA4FA4]

/-- A sum of 64-bit words. -/
def w64 (x : Nat) : Nat := x % 2 ^ 64

/-- A right rotation of a 64-bit word. -/
def rotr64 (x n : Nat) : Nat := x / 2 ^ n ||| w64 (x * 2 ^ (64 - n))

/-- The message schedule: `n` more words after the 16 last ones. -/
def shaSchedule : Nat → List Nat → List Nat → List Nat
  | 0, _, acc => acc.reverse
  | n + 1, l, acc =>
    let a := l.getD 1 0
    let b := l.getD 14 0
    let s0 := rotr64 a 1 ^^^ rotr64 a 8 ^^^ (a / 2 ^ 7)
    let s1 := rotr64 b 19 ^^^ rotr64 b 61 ^^^ (b / 2 ^ 6)
    let w := w64 (l.getD 0 0 + s0 + l.getD 9 0 + s1)
    shaSchedule n (l.drop 1 ++ [w]) (w :: acc)

/-- One round on the working variables a to h. -/
def shaRound (v : List Nat) (k w : Nat) : List Nat :=
  match v with
  | [a, b, c, d, e, f, g, h] =>
    let s1 := rotr64 e 14 ^^^ rotr64 e 18 ^^^ rotr64 e 41
    let ch := (e &&& f) ^^^ ((2 ^ 64 - 1 - e) &&& g)
    let t1 := w64 (h + s1 + ch + k + w)
    let s0 := rotr64 a 28 ^^^ rotr64 a 34 ^^^ rotr64 a 39
    let maj := (a &&& b) ^^^ (a &&& c) ^^^ (b &&& c)
    [w64 (t1 + s0 + maj), a, b, c, w64 (d + t1), e, f, g]
  | _ => v

/-- The hash value after one 128-byte block. -/
def shaBlock (h : List Nat) (blk : List Byte) : List Nat :=
  let w0 := (List.range 16).map (fun i => beNat ((blk.drop (8 * i)).take 8))
  let w := w0 ++ shaSchedule 64 w0 []
  let v := (shaK.zip w).foldl (fun v e => shaRound v e.1 e.2) h
  (h.zip v).map (fun e => w64 (e.1 + e.2))

/-- The hash value after `n` blocks. -/
def shaBlocks : Nat → List Nat → List Byte → List Nat
  | 0, h, _ => h
  | n + 1, h, m => shaBlocks n (shaBlock h (m.take 128)) (m.drop 128)

/-- The bytes of a number, big-endian. -/
def beBytes (n v : Nat) : List Byte := (leBytes n v).reverse

/-- The SHA-384 digest of a message, 48 bytes. -/
def sha384 (m : List Byte) : List Byte :=
  let z := (239 - m.length % 128) % 128
  let p := m ++ [(0x80 : Byte)] ++ List.replicate z (0 : Byte) ++ beBytes 16 (8 * m.length)
  (((shaBlocks (p.length / 128) shaH p).take 6).map (beBytes 8)).flatten

/-! ## P-384 -/

/-- The field prime. -/
def p384P : Nat := 2 ^ 384 - 2 ^ 128 - 2 ^ 96 + 2 ^ 32 - 1
/-- The group order. -/
def p384N : Nat := 0xFFFFFFFFFFFFFFFFFFFFFFFFFFFFFFFFFFFFFFFFFFFFFFFFC7634D81F4372DDF581A0DB248B0A77AECEC196ACCC52973
/-- The curve constant b. -/
def p384B : Nat := 0xB3312FA7E23EE7E4988E056BE3F82D19181D9C6EFE8141120314088F5013875AC656398D8A2ED19D2A85C8EDD3EC2AEF
/-- The base point. -/
def p384G : Nat × Nat :=
  (0xAA87CA22BE8B05378EB1C71EF320AD746E1D3B628BA79B9859F741E082542A385502F25DBF55296C3A545E3872760AB7,
   0x3617DE4A96262C6F5D9E98BF9292DC29F8F41DBD289A147CE9DA3113B5F0B8C00A60B1CE1D7E819D7A431D7C90EA0E5F)

/-- b^e modulo m, by the bits of e from the lowest up. -/
def powMod (m : Nat) : Nat → Nat → Nat → Nat → Nat
  | 0, _, _, acc => acc
  | n + 1, b, e, acc => powMod m n (b * b % m) (e / 2) (if e % 2 = 1 then acc * b % m else acc)

/-- The inverse modulo a prime below 2³⁸⁴. -/
def invMod (m x : Nat) : Nat := powMod m 384 (x % m) (m - 2) 1

/-- The sum of two points; none is the point at infinity. -/
def ecAdd (a b : Option (Nat × Nat)) : Option (Nat × Nat) :=
  match a, b with
  | none, q => q
  | q, none => q
  | some (x1, y1), some (x2, y2) =>
    let fin (l : Nat) : Option (Nat × Nat) :=
      let x := (l * l + 2 * p384P - x1 - x2) % p384P
      some (x, (l * (x1 + p384P - x) + p384P - y1) % p384P)
    if x1 = x2 then
      (if y1 = y2 ∧ y1 ≠ 0 then fin ((3 * x1 * x1 + p384P - 3) * invMod p384P (2 * y1) % p384P) else none)
    else fin ((y2 + p384P - y1) * invMod p384P (x2 + p384P - x1) % p384P)

/-- A multiple of a point, by the bits of the scalar from the lowest up. -/
def ecMul : Nat → Nat → Option (Nat × Nat) → Option (Nat × Nat) → Option (Nat × Nat)
  | 0, _, _, acc => acc
  | n + 1, k, q, acc => ecMul n (k / 2) (ecAdd q q) (if k % 2 = 1 then ecAdd acc q else acc)

/-- Whether a 96-byte signature (r, then s, 48-byte big-endian, R454) of a message verifies under a 96-byte public key
(x, then y). -/
def ecdsaOk (pub msg sig : List Byte) : Bool :=
  let x := beNat (sliceB pub 0 48)
  let y := beNat (sliceB pub 48 48)
  let r := beNat (sliceB sig 0 48)
  let t := beNat (sliceB sig 48 48)
  let onCurve := decide (x < p384P) && decide (y < p384P) && y * y % p384P == (x * x * x + 3 * (p384P - x) + p384B) % p384P
  if pub.length = 96 ∧ sig.length = 96 ∧ onCurve = true ∧ 0 < r ∧ r < p384N ∧ 0 < t ∧ t < p384N then
    let z := beNat (sha384 msg)
    let w := invMod p384N t
    match ecAdd (ecMul 384 (z * w % p384N) (some p384G) none) (ecMul 384 (r * w % p384N) (some (x, y)) none) with
    | some q => q.1 % p384N == r
    | none => false
  else false

/-! ## CRC-32 (R332) -/

/-- Eight steps of the reflected CRC-32, polynomial 0x04C11DB7. -/
def crcByte : Nat → Nat → Nat
  | 0, c => c
  | n + 1, c => crcByte n (if c % 2 = 1 then c / 2 ^^^ 0xEDB88320 else c / 2)

/-- The CRC-32 of bytes. -/
def crc32 (l : List Byte) : Nat :=
  (l.foldl (fun c b => crcByte 8 (c ^^^ b.toNat)) 0xFFFFFFFF) ^^^ 0xFFFFFFFF

end Sys2Proof.Machine
end

