-- ==== Sys2Proof/Machine/Manifests.lean ====
section
/-!
DEFINITION. Bolt manifests and chunks (R295 to R301), the bolt cache and its live chunks (R305, R306), and the requests for
objects that go to a partition's source (R303, R370, R484).
-/

namespace Sys2Proof.Machine

/-! ## Manifests (R295 to R299) -/

/-- The chunk number of a manifest (R370, R484). -/
def manifestChunk : Nat := 0xFFFFFFFF

/-- A chunk table entry (R297). -/
def parseChunk (b : List Byte) : Chunk :=
  { type := leAt b 0 1, fmt := leAt b 1 1, larray := leAt b 2 1, layer := leAt b 3 1, target := leAt b 4 2, page := leAt b 8 4,
    len := leAt b 12 4, digest := sliceB b 16 48, res := leAt b 6 2 }

/-- `n` chunk table entries. -/
def parseChunks : Nat → List Byte → List Chunk
  | 0, _ => []
  | n + 1, b => parseChunk b :: parseChunks n (b.drop 64)

/-- A manifest (R295, R297). -/
def parseBolt (m : List Byte) : Bolt :=
  { kind := leAt m 6 1, formId := BitVec.ofNat 64 (leAt m 8 8), boltId := BitVec.ofNat 64 (leAt m 16 8),
    parentId := BitVec.ofNat 64 (leAt m 24 8), wpages := leAt m 36 4, adpPages := leAt m 40 1, rank := leAt m 41 1,
    adapter := leAt m 42 2, tenant := leAt m 44 2, chunks := parseChunks (leAt m 32 4) (m.drop 64) }

/-- MAGIC, FMT_VERSION and MANIFEST_LEN (R300, check 1). -/
def boltFramed (m : List Byte) : Bool :=
  leAt m 0 4 == 0x544C4F42 && leAt m 4 2 == 1 && leAt m 48 4 == 160 + 64 * leAt m 32 4 && m.length == leAt m 48 4

/-- The signature against bolt-signing slot KEY_ID (R296). -/
def State.boltSigned (s : State) (m : List Byte) : Bool :=
  match Tbl.find s.start.boltKeys (leAt m 7 1) with
  | some k => ecdsaOk k (m.take (m.length - 96)) (m.drop (m.length - 96))
  | none => false

/-- Header field ranges and reserved fields (R295). -/
def headerOk (m : List Byte) : Bool :=
  let k := leAt m 6 1
  let full := k == 0
  let adp := k == 2
  decide (k ≤ 2) && decide (leAt m 7 1 ≤ 7) && leAt m 16 8 != 0 && (k == 1 || leAt m 24 8 == 0) &&
  decide (1 ≤ leAt m 32 4) && decide (leAt m 32 4 ≤ 16777215) &&
  (if full then decide (leAt m 36 4 ≤ 16777215) && decide (leAt m 40 1 ≤ 64) else leAt m 36 4 == 0 && leAt m 40 1 == 0) &&
  (if adp then decide (1 ≤ leAt m 41 1) && decide (leAt m 41 1 ≤ 64) && decide (leAt m 42 2 ≤ 1023)
   else leAt m 41 1 == 0 && leAt m 42 2 == 0xFFFF && leAt m 44 2 == 0) &&
  leAt m 46 2 == 0 && leAt m 52 12 == 0

/-- The bytes of a type 1 payload (R298). -/
def imageLen : Nat := 67584

/-- A chunk table entry's field ranges and reserved field (R297): the weight pages are the bolt's, the adapter pages the current generation's. -/
def State.chunkOk (s : State) (x : Part) (b : Bolt) (c : Chunk) : Bool :=
  if c.res ≠ 0 then false
  else if c.type = 1 then
    decide (c.fmt ≤ 2) && decide (c.larray ≤ 63) && c.layer == 0 && decide (c.target < 2 ^ 14) && c.page == 0 && c.len == imageLen
  else if c.type = 2 ∨ c.type = 3 then
    c.fmt == 0 && c.larray == 0 && decide (c.target ≤ 31) && decide (c.layer < s.layersOn c.target) &&
      decide (c.page < (if c.type = 2 then b.wpages else x.adpPages)) && c.len == x.fr
  else false

/-- The used logical arrays of a form: logical tile, logical array, requested format (R199). -/
def Part.usedArrays (x : Part) : List (Nat × Nat × Nat) :=
  match x.form with
  | none => []
  | some f => ((List.range f.tiles.length).zip f.tiles).flatMap (fun t =>
      ((List.range t.2.arrays.length).zip t.2.arrays).filterMap (fun a => a.2.map (fun fmt => (t.1, a.1, fmt))))

/-- The slices of `n` pages: page, die, layer (R299). -/
def State.slices (s : State) (x : Part) (n : Nat) : List (Nat × Nat × Nat) :=
  (List.range n).flatMap (fun m => x.dies.flatMap (fun d => (List.range (s.layersOn d)).map (fun j => (m, d, j))))

/-- Whether a bolt covers its targets (R299). -/
def State.covers (s : State) (x : Part) (b : Bolt) : Bool :=
  let images := b.chunks.filter (fun c => c.type == 1)
  let has (u : Nat × Nat × Nat) : Bool := images.any (fun c => c.target == u.1 && c.larray == u.2.1 && c.fmt == u.2.2)
  let hasSlice (t : Nat) (p : Nat × Nat × Nat) : Bool :=
    b.chunks.any (fun c => c.type == t && c.page == p.1 && c.target == p.2.1 && c.layer == p.2.2)
  match b.kind with
  | 0 =>
    let ws := s.slices x b.wpages
    x.usedArrays.all has && ws.all (hasSlice 2) && b.chunks.length == x.usedArrays.length + ws.length
  | 1 =>
    images.length == b.chunks.length && images.all (fun c => x.usedArrays.contains (c.target, c.larray, c.fmt)) &&
      (images.map (fun c => (c.target, c.larray))).Nodup
  | _ =>
    let ws := s.slices x x.adpPages
    ws.all (hasSlice 3) && b.chunks.length == ws.length

/-! ## Payloads (R298, R301, R309) -/

/-- Whether a two-bit pattern is legal for a format (R45). -/
def patternOk (fmt v : Nat) : Bool :=
  match fmt with
  | 0 => true
  | 1 => v != 2
  | _ => v == 1 || v == 3

/-- Whether the four patterns of a byte are legal. -/
def byteOk (fmt : Nat) (b : Byte) : Bool :=
  let v := b.toNat
  patternOk fmt (v % 4) && patternOk fmt (v / 4 % 4) && patternOk fmt (v / 16 % 4) && patternOk fmt (v / 64)

/-- Whether a type 1 payload holds only legal patterns and weight-scale codes (R46, R50, R51). -/
def imageLegal (fmt : Nat) (p : List Byte) : Bool :=
  p.length == imageLen && (p.take 65536).all (byteOk fmt) && (p.drop 65536).all (fun b => decide (b.toNat < 0x7F))

/-! ## Live chunks (R306) -/

/-- Two chunks with one target: logical array, weight page slice or adapter slice. -/
def Chunk.same (a b : Chunk) : Bool :=
  a.type == b.type && a.larray == b.larray && a.layer == b.layer && a.target == b.target && a.page == b.page

/-- Whether chunk `i` of a bolt is the latest of a chain for its target; a manifest is while its bolt is in the chain. -/
def chainLive (chain : List Bolt) (boltId : W64) (i : Nat) : Bool :=
  let tail := chain.dropWhile (fun b => b.boltId != boltId)
  match tail with
  | [] => false
  | b :: later =>
    if i = manifestChunk then true
    else match b.chunks[i]? with
      | none => false
      | some c => !later.any (fun l => l.chunks.any c.same)

/-- The bolt chains of a partition's current and held generations. -/
def Part.chains (x : Part) : List (List Bolt) := if x.held.isSome then [x.chain, x.chain.dropLast] else [x.chain]

/-- Whether a chunk is live in any partition. -/
def State.chunkLive (s : State) (boltId : W64) (i : Nat) : Bool := s.parts.any (fun p => p.2.chains.any (fun c => chainLive c boltId i))

/-- The chain of the generation that a bank holds: the current one, the held one, or the one being loaded. -/
def Part.chainOf (x : Part) (bank : Bool) : List Bolt :=
  if bank = x.curBank then x.chain
  else if x.held.isSome then x.chain.dropLast
  else match x.load with
    | some l => x.chain ++ l.bolt.toList
    | none => x.chain

/-- The latest image of a logical array in a chain: bolt and chunk index. -/
def latestImage (chain : List Bolt) (ltile n : Nat) : Option (W64 × Nat × Chunk) :=
  chain.reverse.findSome? (fun b =>
    (((List.range b.chunks.length).zip b.chunks).find? (fun c => c.2.type == 1 && c.2.target == ltile && c.2.larray == n)).map
      (fun c => (b.boltId, c.1, c.2)))

/-- The latest slice of a weight page in a chain. -/
def latestSlice (chain : List Bolt) (page d j : Nat) : Option (W64 × Nat × Chunk) :=
  chain.reverse.findSome? (fun b =>
    (((List.range b.chunks.length).zip b.chunks).find? (fun c => c.2.type == 2 && c.2.page == page && c.2.target == d && c.2.layer == j)).map
      (fun c => (b.boltId, c.1, c.2)))

/-! ## The bolt cache (R305, R306) -/

/-- A verified object that the device holds: in the bolt cache, or in staging SRAM. -/
def State.object (s : State) (boltId : W64) (chunk : Nat) : Option (List Byte) :=
  match s.cache.find? (fun c => c.boltId == boltId && c.chunk == chunk) with
  | some c => some c.data
  | none => Tbl.find s.staging (boltId.toNat, chunk)

/-- Marks a cached object used now. -/
def State.touch (s : State) (boltId : W64) (chunk : Nat) : State :=
  { s with cache := s.cache.map (fun c => if c.boltId = boltId ∧ c.chunk = chunk then { c with used := s.bow.time } else c) }

/-- The bytes that cached objects hold. -/
def cacheSize (l : List Cached) : Nat := l.foldl (fun a c => a + c.data.length) 0

/-- The least recently used of some cached objects. -/
def oldest : List Cached → Option Cached
  | [] => none
  | c :: r => match oldest r with
    | none => some c
    | some d => if d.used < c.used then some d else some c

/-- Evicts objects that are not live, least recently used first, until at most `room` bytes remain. -/
def State.evict (room : Nat) : Nat → State → State
  | 0, s => s
  | n + 1, s =>
    if cacheSize s.cache ≤ room then s
    else match oldest (s.cache.filter (fun c => !s.chunkLive c.boltId c.chunk)) with
      | none => s
      | some c => State.evict room n { s with cache := s.cache.filter (fun x => !(x.boltId == c.boltId && x.chunk == c.chunk)) }

/-- Copies a verified object into the cache; one that finds no room except in live chunks is not cached, and counted. -/
def State.cacheInsert (s : State) (boltId : W64) (chunk : Nat) (data : List Byte) : State :=
  let cap := s.start.boltCache * 2 ^ 30
  if s.cache.any (fun c => c.boltId == boltId && c.chunk == chunk) then s.touch boltId chunk
  else if cacheSize (s.cache.filter (fun c => s.chunkLive c.boltId c.chunk)) + data.length ≤ cap then
    let s1 := State.evict (cap - data.length) s.cache.length s
    { s1 with cache := s1.cache ++ [⟨boltId, chunk, data, s.bow.time⟩] }
  else { s with cacheMiss := s.cacheMiss + 1 }

/-! ## Requests to a source (R303, R370, R484) -/

/-- A message that waits to be written into the completion ring. -/
def State.hostSay (s : State) (m : Msg) : State := { s with host := { s.host with waiting := s.host.waiting ++ [m] } }

/-- Asks a source for bytes `off` to `off + len - 1` of an object. -/
def State.sourceAsk (s : State) (src : Nat) (boltId : W64) (chunk off len : Nat) : State :=
  match Tbl.find s.start.sources src with
  | none => s
  | some x =>
    let m := Msg.boltReq boltId chunk off len
    if x.kind = 2 then s.hostSay m else s.emit (.boltFetch x.via src m)

/-- The chunks a source has outstanding. -/
def State.outstanding (s : State) (src : Nat) : Nat := (s.fetches.filter (fun f => f.src == src && f.chunk != manifestChunk)).length

/-- Requests an object whose digest has failed `fails` times outside a load, unless it is already on its way, or it is a chunk and 256
chunks of the source are (R303). -/
def State.fetchTry (s : State) (p : Nat) (boltId : W64) (chunk len : Nat) (isLoad : Bool) (fails : Nat) : State :=
  match (s.part p).weightSrc with
  | none => s
  | some src =>
    if s.fetches.any (fun f => f.part == p && f.boltId == boltId && f.chunk == chunk) ||
       (chunk != manifestChunk && decide (256 ≤ s.outstanding src)) then s
    else
      let s1 := s.sourceAsk src boltId chunk 0 len
      { s1 with fetches := s1.fetches ++ [⟨src, p, boltId, chunk, len, isLoad, [], s.bow.time, fails⟩] }

/-- Requests an object. -/
def State.fetchStart (s : State) (p : Nat) (boltId : W64) (chunk len : Nat) (isLoad : Bool) : State := s.fetchTry p boltId chunk len isLoad 0

/-! ## The rack bolt tree (R304) -/

/-- Forwards an object to the children of the rack bolt tree; none of them waits for it any more. -/
def State.toChildren (s : State) (boltId : W64) (chunk : Nat) (data : List Byte) : State :=
  s.start.children.foldl (fun s g => s.emit (.forward g boltId chunk data))
    { s with childAsks := s.childAsks.filter (fun a => !(a.2.1 == boltId && a.2.2 == chunk)) }

/-- The partition through whose source the device fetches what a child asks for: one whose source is the parent device, or, at
the root of the tree, the first with a source (DESIGN CHOICE, log 56). -/
def State.treePart (s : State) : Option Nat :=
  let ps := (List.range 16).filter (fun p => (s.part p).weightSrc.isSome)
  match ps.find? (fun p => ((s.part p).weightSrc.bind (Tbl.find s.start.sources)).any (fun x => x.kind == 3)) with
  | some p => some p
  | none => ps.head?

/-- Fetches from the device's own parent what its children wait for, as far as the source's limit lets it. -/
def State.fetchForChildren (s : State) : State :=
  match s.treePart with
  | some p => s.childAsks.foldl (fun s a => s.fetchStart p a.2.1 a.2.2 0 false) s
  | none => s

/-- A child asks for an object: answered from the bolt cache or the staging SRAM, else fetched from the device's own parent. -/
def State.childAsk (s : State) (g : Nat) (boltId : W64) (chunk : Nat) : State :=
  match s.object boltId chunk with
  | some data => (s.touch boltId chunk).emit (.forward g boltId chunk data)
  | none => ({ s with childAsks := s.childAsks.erase (g, boltId, chunk) ++ [(g, boltId, chunk)] }).fetchForChildren

/-- An object that the device cannot verify itself, since no bolt of its own has it, goes to the children that asked for it, which
verify it (DESIGN CHOICE, log 56). -/
def State.answerChildren (s : State) (boltId : W64) (chunk : Nat) (data : List Byte) : State :=
  let mine (a : Nat × W64 × Nat) : Bool := a.2.1 == boltId && a.2.2 == chunk
  (s.childAsks.filter mine).foldl (fun s a => s.emit (.forward a.1 boltId chunk data)) { s with childAsks := s.childAsks.filter (fun a => !mine a) }

end Sys2Proof.Machine
end

