-- ==== Sys2Proof/Machine/Images.lean ====
section
/-!
DEFINITION. Array images and the fulling controller (R85 to R90, R122 to R126, R308 to R310): what a fulling writes into an
array's window, the controller's queue and results, and the rounds of R123.
-/

namespace Sys2Proof.Machine

/-! ## Array windows (R90) -/

/-- The device address of an array's window. -/
def winAddr (a : ArrayId) : Nat := tAddr a.tile (0x01000000 + a.phys.val * 0x20000)

/-- The payload that an array's row images and scales make, in the layout of R298. -/
def State.imageOf (s : State) (a : ArrayId) : List Byte :=
  Memory.bulk s.mem (winAddr a) 65536 ++ Memory.bulk s.mem (winAddr a + 0x12000) 2048

/-- The byte of a checksum column: `n` digits of R85, each as a W2 pattern. -/
def digitByte : Nat → Int → Nat
  | 0, _ => 0
  | n + 1, c =>
    let d := (c + 2) % 4 - 2
    toBits 2 d + 4 * digitByte n ((c - d) / 4)

/-- The sum of a list of code values. -/
def sumCodes (l : List Int) : Int := l.foldl (· + ·) 0

/-- The 8 checksum bytes of a row image (R85, R90). -/
def rowChecks (row : List Byte) : List Byte :=
  (pieces 16 8 row).map (fun g => BitVec.ofNat 8 (digitByte 4 (sumCodes (unpackCodes g))))

/-- The positions of the data bits (R87): the integers from 3 upward that are no power of two. -/
def eccPositions : List Nat := (List.range 1036).filter (fun n => decide (3 ≤ n) && (n &&& (n - 1)) != 0)

/-- The bits of a row image, bit i mod 8 of byte i div 8. -/
def rowBits (row : List Byte) : List Bool := row.flatMap (fun b => (List.range 8).map (fun i => bit b.toNat i))

/-- The exclusive OR of the bits of a number. -/
def parityOf (n v : Nat) : Bool := (List.range n).foldl (fun a i => a != bit v i) false

/-- The ECC word of a row image (R87). -/
def eccWord (row : List Byte) : Nat :=
  let ones := ((rowBits row).zip eccPositions).filter (·.1)
  let chk := ones.foldl (fun a e => a ^^^ e.2) 0
  chk + 2 ^ 11 * boolN ((ones.length % 2 == 1) != parityOf 11 chk)

/-- Writes a payload into an array's window: rows, checksum digits and ECC words derived from them (R86), and scales with good
parity. -/
def State.writeImage (s : State) (a : ArrayId) (payload : List Byte) : State :=
  let rows := pieces 128 512 (sliceB payload 0 65536)
  let cells := sliceB payload 0 65536 ++ rows.flatMap rowChecks ++ rows.flatMap (fun r => leBytes 2 (eccWord r))
  let s1 := (s.setBytes (winAddr a) cells).setBytes (winAddr a + 0x12000) (sliceB payload 65536 2048)
  { s1 with badScale := s1.badScale.filter (fun x => !(decide (winAddr a + 0x12000 ≤ x) && decide (x < winAddr a + 0x12800))) }

/-- The cells of a row that read back wrong hold no stated value. -/
def State.spoilRow (s : State) (a : ArrayId) (r : Nat) : State :=
  let v := s.freeBytes 128
  v.2.setBytes (winAddr a + 128 * r) v.1

/-! ## Rounds (R123, R126) -/

/-- The pattern by which probe pass `p` drives row `r`: planes a2, a1 and a0 of its element 0x55 × v are v (R410). -/
def probeV (p r : Nat) : Nat := (if p ≤ 15 then p + r else p + 3 * r) % 4

/-- The element that drives row `r` in probe pass `p` (R410). -/
def probeByte (p r : Nat) : Byte := BitVec.ofNat 8 (0x55 * probeV p r)

/-- The level at which plane `a` of the element drives the row: plane a3 is read in two's complement (R98, R410). -/
def probeLevel (p r a : Nat) : Int :=
  let v : Int := fld (probeByte p r).toNat (2 * a) 2
  if a = 3 ∧ 2 ≤ v then v - 4 else v

/-- How far a cell reads away from its code in plane `a` of probe pass `p`. -/
def cellAway (c : WeakCell) (p a : Nat) : Int := (c.dev[(probeLevel p c.row.val a + 2).toNat]?).getD 0

/-- Whether comparison `k` of row group `g` fails in plane `a` of probe pass `p`: what the data columns of the segment read away and
what its checksum digits read away differ (R119). -/
def probeFails (cells : List WeakCell) (g p a k : Nat) : Bool :=
  let here := cells.filter (fun c => c.row.val / 16 == g)
  let data := (here.filter (fun c => decide (c.conv.val < 512) && c.conv.val / 64 == k)).foldl (fun n c => n + cellAway c p a) 0
  let chk := (here.filter (fun c => decide (512 ≤ c.conv.val) && (c.conv.val - 512) / 4 == k)).foldl
    (fun n c => n + ((4 ^ ((c.conv.val - 512) % 4) : Nat) : Int) * cellAway c p a) 0
  data != chk

/-- The G = 16 groups with a failed comparison in one of the 32 probe passes of a round. -/
def failedGroups (r : FullRound) : List Nat :=
  (List.range 32).filter (fun g => r.cells.any (fun c => c.row.val / 16 == g) && (List.range 32).any (fun p => (List.range 4).any (fun a =>
    (List.range 8).any (fun k => probeFails r.cells g p a k))))

/-- The rows of weak cells after a round: those read back wrong, and the 16 rows of each group with a failed comparison. -/
def weakRows (r : FullRound) : List Nat :=
  let bad := failedGroups r
  (List.range 512).filter (fun n => r.badRows.any (fun b => b.val == n) || bad.contains (n / 16))

/-- The rounds of a fulling, `n` of them left, `w` rows to write: rounds run, tickets drawn, rows still weak. A round that the
command gives no outcome for finds nothing. -/
def fullRounds : Nat → Nat → List FullRound → Nat × Nat × List Nat
  | 0, w, _ => (0, 0, List.range w)
  | n + 1, w, rs =>
    let weak := match rs with
      | [] => []
      | r :: _ => weakRows r
    let cost := ceilDiv w 8 + 12 * 32
    if weak.isEmpty ∨ 64 < weak.length ∨ n = 0 then (1, cost, weak)
    else
      let q := fullRounds n weak.length (rs.drop 1)
      (q.1 + 1, q.2.1 + cost, q.2.2)

/-- The draws of those rounds, in order: 1 ticket per 8 rows written, the last of a round for what remains of its rows (DESIGN CHOICE,
log 53), and 12 per probe pass (R126). -/
def fullDraws : Nat → Nat → List FullRound → List Nat
  | 0, _, _ => []
  | n + 1, w, rs =>
    let weak := match rs with
      | [] => []
      | r :: _ => weakRows r
    let here := List.replicate (ceilDiv w 8) 1 ++ List.replicate 32 12
    if weak.isEmpty ∨ 64 < weak.length ∨ n = 0 then here else here ++ fullDraws n weak.length (rs.drop 1)

/-- How many of some draws a counter of `n` tickets pays one after the other, and what they take. -/
def paidDraws : Nat → List Nat → Nat × Nat
  | _, [] => (0, 0)
  | n, c :: r => if n < c then (0, 0) else (let q := paidDraws (n - c) r; (q.1 + 1, c + q.2))

/-- Draws fulling tickets. -/
def State.drawFull (s : State) (t : TileId) (n : Nat) : State :=
  (s.modTile t (fun x => { x with fullTickets := x.fullTickets - n })).tileEvent t 0x0A n

/-! ## The controller (R309) -/

/-- The array of a job on a die. -/
def FulJob.array (j : FulJob) (d : Nat) : ArrayId := ⟨⟨Fin.ofNat 32 d, j.tile⟩, j.phys⟩

/-- Whether a tile has an array in FULLING or in calibration (R122, R408). -/
def State.tileBusy (s : State) (t : TileId) : Bool :=
  (s.die t.die.val).full.any (fun j => j.tile == t.region) || (s.die t.die.val).calRun.any (fun c => c.region == t.region.val)

/-- Puts a job into the controller's queue. -/
def State.pushJob (s : State) (d : Nat) (j : FulJob) : State :=
  (s.modDie d (fun x => { x with queue := x.queue ++ [j] })).showFul d

/-- The serving assist pushes a job of its own, or keeps it until the controller's 64 entries have room (R309). -/
def State.queueJob (s : State) (d : Nat) (j : FulJob) : State :=
  if (s.die d).queue.length < 64 ∧ (s.die d).backlog.isEmpty = true then s.pushJob d j
  else s.modDie d (fun x => { x with backlog := x.backlog ++ [j] })

/-- Jobs leave the controller's queue, and those that wait for its entries follow. -/
def State.dropJobs (s : State) (d : Nat) (f : List FulJob → List FulJob) : State :=
  (s.modDie d (fun x =>
    let q := f x.queue
    { x with queue := q ++ x.backlog.take (64 - q.length), backlog := x.backlog.drop (64 - q.length) })).showFul d

/-- A job whose payload is legal starts: setup writes scales and rows, and the array is FULLING. -/
def State.beginJob (s : State) (d : Nat) (j : FulJob) (payload : List Byte) : State :=
  let a := j.array d
  let s1 := (s.writeImage a payload).modArr a (fun x => { x with st := .fulling })
  (s1.modDie d (fun x => { x with full := x.full ++ [{ j with start := s.bow.time, paid := 0 }] })).showFul d

/-- A job refused at setup (R309): nothing is written, the array keeps its state, JOB_REFUSED is set and a firmware fault
recorded. -/
def State.refuseJob (s : State) (d : Nat) (j : FulJob) : State :=
  ((s.setBit (fulReg d .fulEvents) 1).postResult d j 0 3).fwFault (fulReg d .fulJobPush).addr

/-- The logical array and the bank by which a valid map entry names a physical array. -/
def State.entryNaming (s : State) (t : TileId) (phys : Nat) : Option (Bool × Nat) :=
  [false, true].findSome? (fun b => ((List.range 64).find? (fun n => let e := s.mapEntry t b n; e.2.2 && e.1 == phys)).map (fun n => (b, n)))

/-- Chunk `i` of the bolt that a partition loads. -/
def Part.loadChunk (x : Part) (i : Nat) : Option (W64 × Nat × Chunk) :=
  x.load.bind (fun l => (l.bolt.bind (fun b => b.chunks[i]?)).map (fun c => (l.boltId, i, c)))

/-- The latest image for a physical array, by the map entry that names it, or by the load that it was fulled for: bolt, chunk and its
entry. -/
def State.imageFor (s : State) (a : ArrayId) : Option (W64 × Nat × Chunk) :=
  match s.entryNaming a.tile a.phys.val, (s.tile a.tile).ltile, s.partOfDie a.tile.die.val with
  | some e, some lt, some p => latestImage ((s.part p).chainOf e.1) lt e.2
  | none, _, some p => match (s.part p).load with
    | some l => (l.arrays.find? (fun e => e.2 == a)).bind (fun e => (s.part p).loadChunk e.1)
    | none => none
  | _, _, _ => none

/-- The chunk of a job that reads one: of a load, of the array itself for a refulling, of the array it replaces for a
repair or a move. -/
def State.jobImage (s : State) (d : Nat) (j : FulJob) : Option (W64 × Nat × Chunk) :=
  match j.why with
  | .refull => s.imageFor (j.array d)
  | .move p from' old => match s.entryNaming ⟨Fin.ofNat 32 d, from'⟩ old, (s.tile (j.array d).tile).ltile with
    | some e, some lt => latestImage ((s.part p).chainOf e.1) lt e.2
    | _, _ => none
  | .repair _ old => s.imageFor ⟨⟨Fin.ofNat 32 d, j.tile⟩, Fin.ofNat 64 old⟩
  | .bolt p chunk => (s.part p).loadChunk chunk
  | .pushed => none
  | .remap _ => none
  | .dropped => none

/-- The payload of a job: the source array's window for a remap, the bytes at the source address of a pushed one, or the chunk that
staging or the bolt cache holds. -/
def State.payloadOf (s : State) (d : Nat) (j : FulJob) : Option (List Byte) :=
  match j.why with
  | .remap src => some (s.imageOf ⟨⟨Fin.ofNat 32 d, j.tile⟩, Fin.ofNat 64 src⟩)
  | .pushed => some (Memory.bulk s.mem j.src.toNat imageLen)
  | _ => match s.jobImage d j with
    | some i => s.object i.1 i.2.1
    | none => none

/-- Whether a queued job can start: its tile has no array in FULLING or calibration. -/
def State.jobReady (s : State) (d : Nat) (j : FulJob) : Bool := !s.tileBusy (j.array d).tile

/-- Whether a queued job still has a chunk to read. -/
def State.awaited (s : State) (boltId : W64) (chunk : Nat) : Bool :=
  s.dies.any (fun e => (e.2.queue ++ e.2.backlog).any (fun j => match s.jobImage e.1 j with
    | some i => i.1 == boltId && i.2.1 == chunk
    | none => false))

/-- The controller has read a job's chunk: its staging slot is freed unless another job has yet to read it, and a copy in the cache was
used now (R306, R308). -/
def State.chunkRead (s : State) (d : Nat) (j : FulJob) : State :=
  match s.jobImage d j with
  | none => s
  | some i =>
    let s1 := s.touch i.1 i.2.1
    if s1.awaited i.1 i.2.1 then s1 else { s1 with staging := Tbl.del s1.staging (i.1.toNat, i.2.1) }

/-- A queued job leaves the queue and starts, or is refused where its array is neither SPARE nor MAINT any more (R129) or its
payload is illegal. -/
def State.startJob (s : State) (d : Nat) (j : FulJob) : State :=
  let st := (s.arr (j.array d)).st
  let s1 := s.dropJobs d (fun q => q.erase j)
  if st = .spare ∨ st = .maint then
    match s.payloadOf d j with
    | none => s
    | some b => if imageLegal j.fmt b then (s1.chunkRead d j).beginJob d j b else (s1.chunkRead d j).refuseJob d j
  else s1.refuseJob d j

/-- The SPARE arrays of a tile that no queued job takes. -/
def State.sparesOf (s : State) (t : TileId) : List Nat :=
  (s.arraysIn t .spare).filter (fun n => !((s.die t.die.val).queue ++ (s.die t.die.val).backlog).any (fun j => j.tile == t.region && j.phys.val == n))

/-- A job of the serving assist, with a TAG of its own choice: it starts at once where its tile and the controller's queue allow it,
else it waits. -/
def State.submitJob (s : State) (d : Nat) (j : FulJob) : State :=
  let v := s.draw
  let k : FulJob := { j with tag := BitVec.ofNat 16 v.1 }
  let s1 := v.2.queueJob d k
  if (s1.die d).queue.contains k ∧ v.2.jobReady d k ∧ (v.2.payloadOf d k).isSome then s1.startJob d k else s1

end Sys2Proof.Machine
end

