-- ==== Sys2Proof/Machine/TileRun.lean ====
section
/-!
DEFINITION. Waiting operations of a tile (R184, R391): a tile's queue holds operations in form operation order; when a
cause of waiting clears, the queue runs until an operation waits again.
-/

namespace Sys2Proof.Machine

/-- Runs an operation of a step program; every other command is none. -/
def runTileOp (i : Instr) (s : State) : State :=
  match i with
  | .pass32 h o => runPass32 h o s
  | .pass16 h o => runPass16 h o s
  | .nap h o => runNap h o s
  | .aout h dst larray fmt => runAout h dst larray fmt s
  | .load h dst addr => runLoad h dst addr s
  | .store h src addr => runStore h src addr s
  | .swload h dst addr layer fmt => runSwload h dst addr layer fmt s
  | .gather h dst addr n1 width stride => runGather h dst addr n1 width stride s
  | .transpose h dst addr width stride => runTranspose h dst addr width stride s
  | .add h dst a b fmt => runAdd h dst a b fmt s
  | .sub h dst a b fmt => runSub h dst a b fmt s
  | .mul h dst a b fmt => runMul h dst a b fmt s
  | .fma h dst a b c fmt => runFma h dst a b c fmt s
  | .min h dst a b fmt => runMin h dst a b fmt s
  | .max h dst a b fmt => runMax h dst a b fmt s
  | .abs h dst a fmt => runAbs h dst a fmt s
  | .neg h dst a fmt => runNeg h dst a fmt s
  | .cmp h dst a b fmt pred => runCmp h dst a b fmt pred s
  | .sel h dst a b c fmt => runSel h dst a b c fmt s
  | .i8add h dst a b => runI8add h dst a b s
  | .i8sub h dst a b => runI8sub h dst a b s
  | .i8min h dst a b => runI8min h dst a b s
  | .i8max h dst a b => runI8max h dst a b s
  | .i8dot4 h dst a b => runI8dot4 h dst a b s
  | .cvt h dst a src tgt => runCvt h dst a src tgt s
  | .exp2 h dst a fmt => runExp2 h dst a fmt s
  | .log2 h dst a fmt => runLog2 h dst a fmt s
  | .rcp h dst a fmt => runRcp h dst a fmt s
  | .rsqrt h dst a fmt => runRsqrt h dst a fmt s
  | .rsum h dst a fmt => runRsum h dst a fmt s
  | .rdot h dst a b fmt => runRdot h dst a b fmt s
  | .rsumsq h dst a fmt => runRsumsq h dst a fmt s
  | .rmax h dst a fmt => runRmax h dst a fmt s
  | .rargmax h dst a fmt => runRargmax h dst a fmt s
  | .bcast h dst a fmt elem => runBcast h dst a fmt elem s
  | .rot h dst a fmt lanes => runRot h dst a fmt lanes s
  | .gatherr h dst a b fmt => runGatherr h dst a b fmt s
  | .tagset h dst slot wgen pos => runTagset h dst slot wgen pos s
  | .quant h src addr layer fmt => runQuant h src addr layer fmt s
  | .nsamp h addr window => runNsamp h addr window s
  | .topk h src inp n1 out k1 base => runTopk h src inp n1 out k1 base s
  | .dma h desc => runDma h desc s
  | .waitl h counter target => runWaitl h counter target s
  | .endOp h => runEndOp h s
  | _ => s

/-- Runs the waiting operations of a tile in order; one that waits again is queued again, and so are those behind it. -/
def State.drainQueue (s : State) (t : TileId) : State :=
  let q := (s.tile t).waitq
  q.foldl (fun s i => runTileOp i s) (s.modTile t (fun x => { x with waitq := [] }))

/-- The cycles of a wait that retries and repeats of an array caused, as far as the reserve may bear them (R105): an
array output waited for. -/
def State.waitReserve (s : State) (t : TileId) (cycles : Nat) : Nat :=
  match (s.tile t).waitq with
  | .aout _ _ larray _ :: _ => match (Tbl.find (s.tile t).lastOut larray.val).join with
    | some n => Nat.min cycles (s.arr (arrOf t n)).extra
    | none => 0
  | _ => 0

/-- OPERATION_WAIT_END: an operation that waited issues when its cause clears, and the delay adds to Δ (R184, R218). -/
def runOperationWaitEnd (t : TileId) (cycles : Nat) (s : State) : State :=
  if (s.tile t).waitq.isEmpty then s else (s.charge t cycles (s.waitReserve t cycles)).drainQueue t

/-- The command OPERATION_WAIT_END. -/
def execOperationWaitEnd (t : TileId) (cycles : Nat) (s : State) : Host.Outcome State Fault Refusal := .next (runOperationWaitEnd t cycles s)

/-- TICKET_DRAW_GRANTED: a waiting draw is satisfied once the counter holds its whole count; the wait is charged to
slack and counted (R391). -/
def runTicketDrawGranted (t : TileId) (cycles : Nat) (s : State) : State :=
  if (s.tile t).waitDraw then
    let s1 := if cycles = 0 then s
      else (s.tileEvent t 0x0B cycles).bump (s.pReg 0x202 .pwrWait (s.partOf t)) 0 32 cycles
    (s1.charge t cycles 0).drainQueue t
  else s

/-- The command TICKET_DRAW_GRANTED. -/
def execTicketDrawGranted (t : TileId) (cycles : Nat) (s : State) : Host.Outcome State Fault Refusal := .next (runTicketDrawGranted t cycles s)

end Sys2Proof.Machine
end

