-- ==== Sys2Proof/Machine/Mesh.lean ====
section
/-!
DEFINITION. The die mesh (R40, R158 to R169): routing of a packet one hop, borders, fenced tiles and discards; die-to-die
links; and the writes of partition numbers, borders, descriptors, bound entries and array maps (R131, R132, R147, R168).
-/

namespace Sys2Proof.Machine

/-! ## Die edges (R13, R163) -/

/-- The Body die beside an edge of a Brim die: 0 outer, 1 inner (R169). -/
def brimBeside (b e : Nat) : Nat :=
  match b, e with
  | 0, 0 => 0 | 0, _ => 8 | 1, 0 => 24 | 1, _ => 16 | 2, 0 => 7 | 2, _ => 15 | _, 0 => 31 | _, _ => 23

/-- The edge register of a die's edge: MSH_EDGE_e of a Body die, or of a Brim die (R169). A Crown die has none. -/
def edgeReg (d e : Nat) : Option RegKey :=
  if d < 0x20 then some (uReg d 0x201 .mshEdge e)
  else if d < 0x24 ∧ e < 2 then some (uReg d 0x211 .mshBedge e) else none

/-- D2D_CRC_RETRY: a die-to-die CRC failure is retried and counted; the delay lands on slack (R163). -/
def runD2dCrcRetry (d : DieIdx) (edge : Fin 4) (s : State) : State :=
  let s1 := match edgeReg d.val edge.val with
    | some k => s.bump k 8 16 1
    | none => s
  if d.val < 0x20 then s1.event d.val 0x204 0x41 1 else s1

/-- The command D2D_CRC_RETRY. -/
def execD2dCrcRetry (d : DieIdx) (edge : Fin 4) (s : State) : Host.Outcome State Fault Refusal := .next (runD2dCrcRetry d edge s)

/-- The Body die and edge that a die's edge is, seen from a Body die. -/
def bodyEdge (d e : Nat) : Option (Nat × Nat) :=
  if d < 0x20 then some (d, e)
  else if d < 0x24 then some (brimBeside (d - 0x20) e, if d < 0x22 then 3 else 1)
  else some ((if d < 0x26 then 0 else 24) + (if d % 2 = 0 then 0 else 4) + e, if d < 0x26 then 0 else 2)

/-- Whether a partition crosses an edge: its form's traffic plan names it from either side (R200), or both dies are its
own (DEDUCED, log 24). -/
def State.crosses (s : State) (p d e : Nat) : Bool :=
  let x := s.part p
  let n := beyond d e
  let planned (a b : Nat) : Bool := match x.form with
    | some f => f.traffic.any (fun t => t.kind == 1 && t.object / 2 ^ 11 == a && t.object % 4 == b && decide (0 < t.own + t.transit))
    | none => false
  planned d e || (decide (n < 0x20) && planned n ((e + 2) % 4)) || (x.dies.contains d && x.dies.contains n)

/-- D2D_LINK_DOWN: a die-to-die link going down is recorded and ends the job of every partition that crosses it (R443,
code 0x4004). -/
def runD2dLinkDown (d : DieIdx) (edge : Fin 4) (s : State) : State :=
  let s1 := match edgeReg d.val edge.val with
    | some k => s.setFld k 0 1 0
    | none => s
  let s2 := s1.fault 0x4004 d.val 0x80 (if d.val < 0x20 then 0x201 else if d.val < 0x24 then 0x211 else 0x200) edge.val
  match bodyEdge d.val edge.val with
  | none => s2
  | some e => (List.range 16).foldl (fun s p => if s.crosses p e.1 e.2 then s.jobEnd p else s) s2

/-- The command D2D_LINK_DOWN. -/
def execD2dLinkDown (d : DieIdx) (edge : Fin 4) (s : State) : Host.Outcome State Fault Refusal := .next (runD2dLinkDown d edge s)

/-! ## Virtual channels (R43, R158, R159, R165) -/

/-- The partition number that a packet carries (R40): that of the tile or unit that sent it, which the hardware inserts at
injection. -/
def State.packetPart (s : State) (p : Packet) : Option Nat :=
  match p.src with
  | .tile t => s.partOfDie t.die.val
  | .body d => s.partOfDie d.val
  | .outer _ n => some n.val

/-- The flits of a packet: 64 bytes of payload each (R158). -/
def packetFlits (p : Packet) : Nat := ceilDiv p.payload.length 64

/-- The virtual channel of a packet where it stands (R159, R165): 4 service, 0 and 1 within its own partition, 2 and 3 in transit. -/
def packetChannel (p : Packet) (transit : Bool) : Nat :=
  if p.service then 4 else (if transit then 2 else 0) + boolN p.resp

/-- Whether a packet is in transit on a Body die: a die of another partition. -/
def State.transitOn (s : State) (p : Packet) (d : Nat) : Bool := s.partOfDie d != s.packetPart p

/-- Whether a packet is in transit where it crosses an edge of a Body die: either side belongs to another partition. -/
def State.transitOver (s : State) (p : Packet) (d e : Nat) : Bool :=
  s.transitOn p d || (decide (beyond d e < 0x20) && s.transitOn p (beyond d e))

/-- The packets in a buffer, oldest first; true for one that has come to the router whose input the buffer is. -/
def State.meshBuf (s : State) (b : MeshBuf) : List (Packet × Bool) := Tbl.get s.mesh b []

/-- Changes a buffer; an empty one is not listed. -/
def State.setMeshBuf (s : State) (b : MeshBuf) (l : List (Packet × Bool)) : State :=
  { s with mesh := if l.isEmpty then Tbl.del s.mesh b else Tbl.put s.mesh b l }

/-- The credits that the sender into a buffer holds: one a flit of its 4 that is free (R159). -/
def State.meshCredits (s : State) (b : MeshBuf) : Nat := 4 - (s.meshBuf b).foldl (fun a e => a + (packetFlits e.1)) 0

/-- The input buffer of a router that a packet stands in. -/
def State.inBuf (s : State) (t : TileId) (p : Packet) : MeshBuf :=
  .input t (packetSide p t.die.val t.region.val) (packetChannel p (s.transitOn p t.die.val))

/-- The buffer that a packet moves into from a router by side `e`: the edge router's at a die edge (R163), else the next router's. -/
def State.outBuf (s : State) (t : TileId) (p : Packet) (e : Nat) : MeshBuf :=
  if leavesDie t.region.val e then .edge t.die.val e (packetChannel p (s.transitOver p t.die.val e))
  else .input (nextTile t.die.val t.region.val e) (facing e) (packetChannel p (s.transitOn p t.die.val))

/-- A packet discarded at a border or an unassigned unit (R40, R165): counted, and an out-of-allocation fault against
the sending tile, which ends the job of its partition. A unit that is no tile has no tile to name: the record names its die
(DESIGN CHOICE, log 49). -/
def State.discardBorder (s : State) (d : Nat) (p : Packet) : State :=
  let s1 := (s.bump (uReg d 0x201 .mshDiscard) 16 16 1).event d 0x204 0x43 1
  match p.src with
  | .tile t => s1.tileJobFault t 0x1012 0x01 p.dst.toNat (s.xferOp t p.dst.toNat)
  | .body b => s1.fault 0x1012 b.val 0x80 0x201 p.dst.toNat (s.packetPart p)
  | .outer k n => s1.fault 0x1012 (0x20 + k.val) 0x80 0x211 p.dst.toNat (some n.val)

/-- What a router does with a packet that has come to it: it delivers it to its tile, discards it, or sends it on by a side. A packet for
a die that does not exist goes no further. -/
inductive Hop where
  | deliver
  | absent
  | fenced
  | discard
  | onward (e : Nat)
  deriving DecidableEq, Repr

/-- What happens to a packet at a router (R40, R160, R165, R166). -/
def State.hop (s : State) (t : TileId) (p : Packet) : Hop :=
  let dst := p.dst.toNat
  if 0x28 ≤ addrDie dst then .absent
  else match routeDir p t.die.val t.region.val with
  | none =>
    if inTile dst then
      (if (s.tile t).fenced then .fenced else if s.transitOn p t.die.val then .discard else .deliver)
    else .deliver
  | some e =>
    let n := beyond t.die.val e
    let border := bit (s.regN (uReg t.die.val 0x201 .mshBorder)) e
    let foreign := inTile dst && s.partOfDie (addrDie dst) != s.packetPart p
    if leavesDie t.region.val e && ((border && foreign) || (decide (n < 0x20) && (s.partOfDie n).isNone)) then .discard else .onward e

/-- A packet forwarded in a direction (R158): flits counted in the router, and at a die edge in the die. -/
def State.forward (s : State) (t : TileId) (e flits : Nat) (transit : Bool) : State :=
  let s1 := s.tileEvent t 0x19 flits
  if leavesDie t.region.val e then
    let s2 := s1.event t.die.val 0x204 0x40 flits
    if transit then s2.event t.die.val 0x204 0x42 flits else s2
  else s1

/-! ## Output arbitration (R159) -/

/-- The packets that stand first in an input buffer of a router, have come to it, and go on by side `e`: with the buffer they stand
in. -/
def State.contend (s : State) (t : TileId) (e : Nat) : List (MeshBuf × Packet) :=
  s.mesh.filterMap (fun b => match b.1, b.2 with
    | .input u _ _, (p, true) :: _ => if u = t ∧ s.hop t p = .onward e then some (b.1, p) else none
    | _, _ => none)

/-- The channel of the buffer a packet stands in. -/
def MeshBuf.channel : MeshBuf → Nat
  | .input _ _ c => c
  | .edge _ _ c => c

/-- The packet that an output port serves next, of those with credits enough for all their flits: channel 4 first, unless fewer than
9 flits of other channels have passed since its last while one of them waits; channels 0 to 3 in round-robin order. Flits of one packet
stay together, and of several inputs on one channel the first listed goes (DESIGN CHOICE, log 49). -/
def State.arbitrate (s : State) (t : TileId) (e : Nat) : Option (MeshBuf × Packet) :=
  let all := s.contend t e
  let ready := all.filter (fun x => decide ((packetFlits x.2) ≤ s.meshCredits (s.outBuf t x.2 e)))
  let turn := Tbl.get s.meshTurn (t, e) (3, 9)
  let svc := ready.find? (fun x => x.1.channel == 4)
  let rr := (List.range 4).findSome? (fun i => ready.find? (fun x => x.1.channel == (turn.1 + 1 + i) % 4))
  if turn.2 < 9 ∧ all.any (fun x => x.1.channel != 4) = true then rr.or svc else svc.or rr

/-- A packet leaves its input buffer and moves on by side `e`: to its next buffer, or off the Body dies. -/
def State.meshSend (s : State) (t : TileId) (e : Nat) (b : MeshBuf) (p : Packet) : State :=
  let out := s.outBuf t p e
  let turn := Tbl.get s.meshTurn (t, e) (3, 9)
  let next := if b.channel = 4 then (turn.1, 0) else (b.channel, Nat.min 9 (turn.2 + (packetFlits p)))
  let s1 := s.setMeshBuf b ((s.meshBuf b).drop 1)
  let gone := leavesDie t.region.val e && decide (0x20 ≤ beyond t.die.val e)
  let s2 := if gone then s1 else s1.setMeshBuf out (s1.meshBuf out ++ [(p, false)])
  ({ s2 with meshTurn := Tbl.put s2.meshTurn (t, e) next }).forward t e (packetFlits p) (s.transitOver p t.die.val e && leavesDie t.region.val e)

/-- The routers at which packets stand, with the sides they wait for. -/
def State.meshPorts (s : State) : List (TileId × Nat) :=
  s.mesh.filterMap (fun b => match b.1, b.2 with
    | .input t _ _, (p, true) :: _ => (match s.hop t p with
      | .onward e => some (t, e)
      | _ => none)
    | _, _ => none)

/-- One output port that can send a packet does so. -/
def State.meshStep (s : State) : State :=
  match s.meshPorts.findSome? (fun o => (s.arbitrate o.1 o.2).map (fun x => (o, x))) with
  | some (o, b, p) => s.meshSend o.1 o.2 b p
  | none => s

/-- A packet that stands first in an input buffer and is not sent on leaves it: it is delivered, or discarded and counted. What a
delivered packet writes is written when its transfer lands (R151, log 25). One for a die that does not exist is an address fault (R33). -/
def State.meshEject (s : State) (t : TileId) (b : MeshBuf) (p : Packet) : State :=
  let s1 := s.setMeshBuf b ((s.meshBuf b).drop 1)
  match s.hop t p with
  | .fenced => (s1.bump (uReg t.die.val 0x201 .mshDiscard) 0 16 1).event t.die.val 0x204 0x43 1
  | .discard => s1.discardBorder t.die.val p
  | .absent => (match p.src with
    | .tile u => s1.addrFaultTile u 0x01 p.dst.toNat (s1.xferOp u p.dst.toNat)
    | .body b => s1.fault 0x2008 b.val 0x80 0 p.dst.toNat (s1.packetPart p)
    | .outer k n => s1.fault 0x2008 (0x20 + k.val) 0x80 0 p.dst.toNat (some n.val))
  | .deliver | .onward _ => s1

/-- A packet that stands first in an input buffer, has come to its router and goes no further. -/
def State.meshDone (s : State) : Option (TileId × MeshBuf × Packet) :=
  s.mesh.findSome? (fun b => match b.1, b.2 with
    | .input t _ _, (p, true) :: _ => (match s.hop t p with
      | .onward _ => none
      | _ => some (t, b.1, p))
    | _, _ => none)

/-- One packet moves: out of the mesh, or to its next buffer. -/
def State.meshMove (s : State) : State :=
  match s.meshDone with
  | some (t, b, p) => s.meshEject t b p
  | none => s.meshStep

/-- Every packet that can move does (log 49): at most as many moves as packets that have come to their routers. -/
def State.meshSettle (s : State) : State :=
  (List.range (s.mesh.foldl (fun a b => a + b.2.length) 0)).foldl (fun s _ => s.meshMove) s

/-- The list without its first packet `p` that has not yet come to a router, if there is one. -/
def dropComing (p : Packet) : List (Packet × Bool) → List (Packet × Bool)
  | [] => []
  | e :: r => if e = (p, false) then r else e :: dropComing p r

/-- A packet comes to a router: out of the edge router of the die it comes from, or of the buffer it was sent into, and into the
router's input buffer where that has room for all its flits. -/
def State.meshCome (s : State) (t : TileId) (p : Packet) : State :=
  let i := packetSide p t.die.val t.region.val
  let b := s.inBuf t p
  let n := beyond t.die.val i
  let s1 := s.setMeshBuf b (dropComing p (s.meshBuf b))
  if (packetFlits p) ≤ s1.meshCredits b then
    let s2 := if i < 4 ∧ leavesDie t.region.val i = true ∧ n < 0x20 then
        (let g := MeshBuf.edge n (facing i) (packetChannel p (s.transitOver p n (facing i)))
         s1.setMeshBuf g (dropComing p (s1.meshBuf g)))
      else s1
    s2.setMeshBuf b (s2.meshBuf b ++ [(p, true)])
  else s

/-- MESH_PACKET_ARRIVAL: a packet comes to a router, which delivers it, discards it or sends it on as credits and arbitration allow
(R40, R158 to R166). -/
def runMeshPacketArrival (d : BodyDie) (region : Fin 512) (p : Packet) (s : State) : State :=
  (s.meshCome ⟨d, region⟩ p).meshSettle

/-- The command MESH_PACKET_ARRIVAL. -/
def execMeshPacketArrival (d : BodyDie) (region : Fin 512) (p : Packet) (s : State) : Host.Outcome State Fault Refusal := .next (runMeshPacketArrival d region p s)

/-! ## Partition numbers and borders (R168) -/

/-- A write that control cores may make only before the first form load after reset (R168). -/
def State.mshWrite (s : State) (port : Port) (k : RegKey) (data : W32) : State :=
  s.guardedWrite port k data.toNat (fun s => if s.boot.anyForm then s.fwFault k.addr else s.storeReg k data.toNat)

/-- MSH_PART_WRITE: the partition of a die (R168). -/
def runMshPartWrite (port : Port) (d : BodyDie) (data : W32) (s : State) : State := s.mshWrite port (uReg d.val 0x201 .mshPart) data

/-- The command MSH_PART_WRITE. -/
def execMshPartWrite (port : Port) (d : BodyDie) (data : W32) (s : State) : Host.Outcome State Fault Refusal := .next (runMshPartWrite port d data s)

/-- MSH_BORDER_WRITE: the border edges of a die (R168). -/
def runMshBorderWrite (port : Port) (d : BodyDie) (data : W32) (s : State) : State := s.mshWrite port (uReg d.val 0x201 .mshBorder) data

/-- The command MSH_BORDER_WRITE. -/
def execMshBorderWrite (port : Port) (d : BodyDie) (data : W32) (s : State) : Host.Outcome State Fault Refusal := .next (runMshBorderWrite port d data s)

/-! ## Descriptor memory and bound tables (R147) -/

/-- DESCRIPTOR_WRITE: a write to descriptor memory or a bound table, from control cores only (R147). -/
def runDescriptorWrite (port : Port) (t : TileId) (offset : BitVec 16) (data : W32) (s : State) : State :=
  s.regWriteAt port [.tilDesc, .tilBoundLo, .tilBoundHi, .tilBoundLen] (tAddr t (0x02000000 + offset.toNat)) data.toNat

/-- The command DESCRIPTOR_WRITE. -/
def execDescriptorWrite (port : Port) (t : TileId) (offset : BitVec 16) (data : W32) (s : State) : Host.Outcome State Fault Refusal := .next (runDescriptorWrite port t offset data s)

/-! ## Array maps (R131, R132) -/

/-- Whether a map commit is armed for a tile's partition: on any of its dies. -/
def State.commitArmed (s : State) (t : TileId) : Bool :=
  match s.partOfDie t.die.val with
  | some p => (s.part p).dies.any (fun d => s.fldOf (uReg d 0x202 .fulCommitCtrl) 0 1 == 1)
  | none => s.fldOf (uReg t.die.val 0x202 .fulCommitCtrl) 0 1 == 1

/-- A refused map write (R132): nothing changes, MAP_REFUSED is set, a firmware fault recorded. -/
def State.mapRefused (s : State) (k : RegKey) : State :=
  (s.setBit ⟨k.die, k.region, .arrEvents, 0⟩ 6).fwFault k.addr

/-- ARR_STAGE of a tile: staged entries, and a staged change of live bits. Up to 129 writes can be staged and COUNT has 7 bits; it
wraps (DESIGN CHOICE, log 53). -/
def State.showStage (s : State) (t : TileId) : State :=
  let x := s.tile t
  let n := x.mapStage.length + boolN x.bankStage.isSome
  (s.setFld (tReg t .arrStage) 0 1 (boolN (n != 0))).setFld (tReg t .arrStage) 8 7 n

/-- Whether R132 refuses an entry by its format or by the array it would reference. -/
def State.arrRefusedEntry (s : State) (t : TileId) (d : Nat) : Bool :=
  fld d 6 2 == 3 ||
  (bit d 8 && (let st := (s.arr (arrOf t (fld d 0 6))).st; st != .staged && st != .mapped))

/-- A control core's write of a map entry, firmware's own among them: refused, staged in a live bank, or written at once in one that is
not live (R131, R132). A second staged write of an entry replaces the first and counts once (DESIGN CHOICE, log 53). -/
def State.mapWrite (s : State) (t : TileId) (bank : Bool) (n d : Nat) : State :=
  let k := mapKey t bank n
  if s.arrRefusedEntry t d || (s.bankLive t bank && s.commitArmed t) then s.mapRefused k
  else if s.bankLive t bank then
    (s.modTile t (fun x => { x with
      mapStage := x.mapStage.filter (fun e => !(e.1 == bank && e.2.1 == n)) ++
        [(bank, n, BitVec.ofNat 32 (fieldsWrite k.reg.row.fields (s.regN k) d))] })).showStage t
  else s.storeReg k d

/-- ARR_MAP_WRITE: a map entry written at once in a bank that is not live, staged in a live one, or refused (R131,
R132). -/
def runArrMapWrite (port : Port) (t : TileId) (bank : Bool) (n : Fin 64) (data : W32) (s : State) : State :=
  s.guardedWrite port (mapKey t bank n.val) data.toNat (fun s => s.mapWrite t bank n.val data.toNat)

/-- The command ARR_MAP_WRITE. -/
def execArrMapWrite (port : Port) (t : TileId) (bank : Bool) (n : Fin 64) (data : W32) (s : State) : Host.Outcome State Fault Refusal := .next (runArrMapWrite port t bank n data s)

/-- A control core's write of ARR_BANK, firmware's own among them: generation numbers of banks that are not live apply at once, changes
of live bits are staged, and what R132 forbids is refused. While a commit is armed, a write counts as one to a live bank where it
changes that bank's GEN or LIVE, and a write whose live bits are the applied ones withdraws a change staged before (DESIGN CHOICE,
log 53). -/
def State.bankWrite (s : State) (t : TileId) (d : Nat) : State :=
  let k := tReg t .arrBank
  let w := s.regN k
  let gen (v : Nat) (b : Bool) : Nat := fld v (if b then 16 else 0) 8
  let liv (v : Nat) (b : Bool) : Bool := bit v (if b then 24 else 8)
  let bad := [false, true].any (fun b => liv w b && gen d b != gen w b) ||
    (liv d false && liv d true && gen d false == gen d true) ||
    (s.commitArmed t && [false, true].any (fun b => liv w b && (liv d b != liv w b || gen d b != gen w b)))
  if bad then s.mapRefused k
  else
    let s1 := [false, true].foldl (fun s b => if liv w b then s else s.setFld k (if b then 16 else 0) 8 (gen d b)) s
    let staged := liv d false != liv w false || liv d true != liv w true
    (s1.modTile t (fun x => { x with
      bankStage := if staged then some (BitVec.ofNat 32 (fieldsWrite k.reg.row.fields w d)) else none })).showStage t

/-- ARR_BANK_WRITE: a write of a tile's generations and live bits (R131, R132). -/
def runArrBankWrite (port : Port) (t : TileId) (data : W32) (s : State) : State :=
  s.guardedWrite port (tReg t .arrBank) data.toNat (fun s => s.bankWrite t data.toNat)

/-- The command ARR_BANK_WRITE. -/
def execArrBankWrite (port : Port) (t : TileId) (data : W32) (s : State) : Host.Outcome State Fault Refusal := .next (runArrBankWrite port t data s)

end Sys2Proof.Machine
end

