-- ==== Sys2Proof/Machine/Generations.lean ====
section
/-!
DEFINITION. Map commits and generations (R131 to R134, R311, R319 to R326, R435): arming, what a LAUNCH applies, the full
bolt's generation, the flip, the release of a held generation, and how a bolt load ends.
-/

namespace Sys2Proof.Machine

/-! ## Commits (FUL_COMMIT) -/

/-- Arms the map commit on every Body die of a partition for step `st`. -/
def State.armCommit (s : State) (p st : Nat) : State :=
  (s.part p).dies.foldl (fun s d => (s.setReg (fulReg d .fulCommitStep) (BitVec.ofNat 32 st)).setFld (fulReg d .fulCommitCtrl) 0 1 1) s

/-- Disarms the map commit on every Body die of a partition; staged writes stay staged. -/
def State.disarmCommit (s : State) (p : Nat) : State := (s.part p).dies.foldl (fun s d => s.setFld (fulReg d .fulCommitCtrl) 0 1 0) s

/-- Whether any die of a partition has a commit armed. -/
def State.armed (s : State) (p : Nat) : Bool := (s.part p).dies.any (fun d => s.fldOf (fulReg d .fulCommitCtrl) 0 1 == 1)

/-- A step number `n` above a partition's. -/
def Part.stepPlus (x : Part) (n : Nat) : Nat := (x.stepNo.toNat + n) % 2 ^ 32

/-- The next generation number (R319): from 1 to 255, then 1. -/
def nextGen (g : Nat) : Nat := if 255 ≤ g then 1 else g + 1

/-- FUL_GEN of every Body die of a partition. -/
def State.showGen (s : State) (p : Nat) : State :=
  let x := s.part p
  let w := x.curGen % 2 ^ 8 + boolN x.curBank * 2 ^ 8 + (x.held.getD 0) % 2 ^ 8 * 2 ^ 16 + boolN x.held.isSome * 2 ^ 24
  x.dies.foldl (fun s d => s.setReg (fulReg d .fulGen) (BitVec.ofNat 32 w)) s

/-! ## Staged writes of the device's own firmware -/

/-- The word of a valid map entry. -/
def entryWord (phys fmt : Nat) : Nat := phys % 64 + fmt % 4 * 2 ^ 6 + 2 ^ 8

/-- Stages, in every live bank, the entries that reference array `src` to reference its copy (R134, R436). -/
def State.stageCopy (s : State) (t : TileId) (src copy : Nat) : State :=
  [false, true].foldl (fun s b =>
    if s.bankLive t b then
      (List.range 64).foldl (fun s n =>
        let e := s.mapEntry t b n
        if e.2.2 ∧ e.1 = src then s.mapWrite t b n (entryWord copy e.2.1) else s) s
    else s) s

/-- The word of ARR_BANK with a bank's generation and live bit set. -/
def bankWord (w : Nat) (bank : Bool) (gen : Nat) (live : Bool) : Nat :=
  putFld (putFld w (if bank then 16 else 0) 8 gen) (if bank then 24 else 8) 1 (boolN live)

/-- Stages live bits that no write through the map's own checks stages: those of a bank that stays live (R323). -/
def State.stageBank (s : State) (t : TileId) (w : Nat) : State :=
  (s.modTile t (fun x => { x with bankStage := some (BitVec.ofNat 32 w) })).showStage t

/-- The word staged for ARR_BANK, or the applied one. -/
def State.bankNext (s : State) (t : TileId) : Nat :=
  match (s.tile t).bankStage with
  | some w => w.toNat
  | none => s.regN (tReg t .arrBank)

/-! ## What a LAUNCH applies (R128, R131, R133) -/

/-- Array states follow the live banks (R128). -/
def State.settleArrays (s : State) (t : TileId) : State :=
  (List.range 64).foldl (fun s n =>
    let a := arrOf t n
    match (s.arr a).st with
    | .staged => if s.liveRefs t n then s.modArr a (fun x => { x with st := .mapped, remapOf := none }) else s
    | .mapped => if s.liveRefs t n then s else s.modArr a (fun x => { x with st := .staged })
    | _ => s) s

/-- One staged entry: discarded with a firmware fault where its array is fenced (R133). -/
def State.applyEntry (s : State) (t : TileId) (e : Bool × Nat × W32) : State :=
  let w := e.2.2.toNat
  if bit w 8 ∧ (s.arr (arrOf t (fld w 0 6))).st = .fenced then s.fwFault (mapKey t e.1 e.2.1).addr
  else s.setReg (mapKey t e.1 e.2.1) e.2.2

/-- A tile's staged writes take effect together. -/
def State.applyTile (s : State) (t : TileId) : State :=
  let x := s.tile t
  if x.mapStage.isEmpty ∧ x.bankStage.isNone = true then s
  else
    let s1 := x.mapStage.foldl (fun s e => s.applyEntry t e) s
    let s2 := match x.bankStage with
      | some w => s1.storeReg (tReg t .arrBank) w.toNat
      | none => s1
    ((s2.modTile t (fun y => { y with mapStage := [], bankStage := none })).showStage t).settleArrays t

/-- The cause of a FENCED array that a valid entry of a live bank of a tile references. -/
def State.refsFenced (s : State) (t : TileId) : Option Nat :=
  ((List.range 64).find? (fun n => (s.arr (arrOf t n)).st == .fenced && s.liveRefs t n)).map (fun n => (s.arr (arrOf t n)).cause.toNat)

/-- The dies whose commit is armed for the partition's step. -/
def State.committing (s : State) (p : Nat) : List Nat :=
  let x := s.part p
  x.dies.filter (fun d => s.fldOf (fulReg d .fulCommitCtrl) 0 1 == 1 && s.regN (fulReg d .fulCommitStep) == x.stepNo.toNat)

/-- The new generation becomes current (R322): the old one is held where R323 holds it. -/
def State.flipNow (s : State) (p : Nat) : State :=
  let x := s.part p
  match x.load with
  | none => s
  | some l =>
    let full := x.chain.isEmpty
    let s1 := s.setPart p { x with
      curGen := if full then 1 else nextGen x.curGen, curBank := if full then false else !x.curBank,
      held := if x.flipHolds then some x.curGen else none, chain := x.chain ++ l.bolt.toList, load := none,
      flipStep := none, flipBolt := none, flipHolds := false }
    let k := s1.pReg 0x208 .pfxEpoch p
    let s2 := if !full && s1.fldOf (s1.pReg 0x208 .pfxCtrl) 16 1 == 1 then s1.setFld k 0 16 (s1.fldOf k 0 16 + 1) else s1
    let s3 := if !full && s1.fldOf (s1.pReg 0x208 .pfxCtrl) 16 1 == 1 then s2.modPart p (fun y => { y with retired := [] }) else s2
    s3.showGen p

/-- The old bank stays live where its generation is held (R323). -/
def State.keepHeld (s : State) (p : Nat) : State :=
  let x := s.part p
  if x.flipHolds then
    x.tiles.foldl (fun s t => match (s.tile t).bankStage with
      | some w => s.stageBank t (putFld w.toNat (if x.curBank then 24 else 8) 1 1)
      | none => s) s
  else s

/-- The staged map writes of a partition's dies at its LAUNCH, the flip with them, and repair hold where a bank that becomes
live references a FENCED array (R322, R435). -/
def State.applyMaps (s : State) (p : Nat) : State :=
  let ds := s.committing p
  if ds.isEmpty then s
  else
    let flip := (s.part p).flipStep == some (s.part p).stepNo.toNat
    let s0 := if flip then s.keepHeld p else s
    let ts := (s0.tiles.filter (fun e => ds.contains e.1.die.val)).map (·.1)
    let s1 := ts.foldl State.applyTile s0
    let s2 := ds.foldl (fun s d => (s.setFld (fulReg d .fulCommitCtrl) 0 1 0).setBit (fulReg d .fulEvents) 3) s1
    let s3 := if flip then s2.flipNow p else s2
    let s4 := if flip = false ∧ (s3.part p).held.isSome = true ∧ (s3.part p).tiles.all (fun t => !s3.bankLive t (!(s3.part p).curBank)) = true then
      (s3.modPart p (fun y => { y with held := none })).showGen p else s3
    match ts.findSome? s4.refsFenced with
    | some c => s4.repairEnter p c
    | none => s4

/-- A copy whose live entries could not be staged while a commit was armed has them staged now (R132, R134). -/
def State.stageCopies (s : State) (p : Nat) : State :=
  if s.armed p then s
  else
    s.arrays.foldl (fun s e => match e.2.st, e.2.remapOf with
      | .staged, some src => if s.partOfDie e.1.tile.die.val = some p then s.stageCopy e.1.tile src e.1.phys.val else s
      | _, _ => s) s

/-! ## Full bolts (R311) and flips (R321) -/

/-- The chunk of a loading bolt, and the array that holds it. -/
def BoltLoad.placed (l : BoltLoad) : List (Chunk × ArrayId) :=
  match l.bolt with
  | none => []
  | some b => l.arrays.filterMap (fun e => (b.chunks[e.1]?).map (fun c => (c, e.2)))

/-- A full bolt's arrays become bank 0, generation 1: LIVE0 is staged and the commit armed for step 1 (R311). -/
def State.fullReady (s : State) (p : Nat) (l : BoltLoad) : State :=
  let s1 := l.placed.foldl (fun s e => s.mapWrite e.2.tile false e.1.larray (entryWord e.2.phys.val e.1.fmt)) s
  let s2 := (s1.part p).tiles.foldl (fun s t => s.bankWrite t (bankWord (s.regN (tReg t .arrBank)) false 1 true)) s1
  (s2.modPart p (fun x => { x with flipStep := some 1, flipBolt := some l.boltId })).armCommit p 1

/-- A delta's arrays are STAGED: the bank that is not live takes every entry and the next generation, live bits are staged,
and the commit is armed for the step 4 above (R321). The device refuses what R132 forbids: an entry whose array is FENCED by now keeps its
old word. -/
def State.deltaReady (s : State) (p : Nat) (l : BoltLoad) : State :=
  let x := s.part p
  let nb := !x.curBank
  let ch := l.placed
  let s1 := x.tiles.foldl (fun s t =>
    let s1 := (List.range 64).foldl (fun s n =>
      match ch.find? (fun e => e.2.tile == t && e.1.larray == n) with
      | some e => s.mapWrite t nb n (entryWord e.2.phys.val e.1.fmt)
      | none => s.mapWrite t nb n (s.regN (mapKey t x.curBank n))) s
    s1.bankWrite t (bankWord (bankWord (s1.regN (tReg t .arrBank)) nb (nextGen x.curGen) true) x.curBank x.curGen false)) s
  (s1.modPart p (fun y => { y with flipStep := some (y.stepPlus 4), flipBolt := some l.boltId, flipHolds := false })).armCommit p (x.stepPlus 4)

/-- The last live request of a held generation has ended: its bank's live bit is staged as cleared and the commit armed
(R324). -/
def State.releaseHeld (s : State) (p : Nat) : State :=
  let x := s.part p
  match x.held with
  | none => s
  | some g =>
    if (s.heldSlots p).any (fun i => (s.slot i).state.live && (s.slot i).wgen == g) || s.armed p then s
    else
      let s1 := x.tiles.foldl (fun s t => s.bankWrite t (bankWord (s.bankNext t) (!x.curBank) g false)) s
      s1.armCommit p (x.stepPlus 4)

/-! ## The end of a load (R301, R302, R315) -/

/-- Every chunk of a loading bolt is done: a full bolt or a delta makes its generation ready, once no commit is armed any more (R132);
an adapter becomes resident at the next commit, which ends its load (R300). -/
def State.loadCheck (s : State) (p : Nat) : State :=
  match (s.part p).load with
  | none => s
  | some l => match l.bolt with
    | none => s
    | some b =>
      if l.done.length < b.chunks.length ∨ (s.part p).flipBolt.isSome = true ∨ s.servingUp = false then s
      else match b.kind with
        | 0 => if s.armed p then s else s.fullReady p l
        | 1 => if s.armed p then s else s.deltaReady p l
        | _ => s.modPart p (fun x => { x with
            adapters := x.adapters.map (fun a => if a.id = b.adapter ∧ a.state = .loading then { a with state := .pending } else a) })

/-- Firmware arms the commit of a repair for the step 4 above; a flip that waits moves with it (R326, R436). -/
def State.armRepair (s : State) (p : Nat) : State :=
  let st := (s.part p).stepPlus 4
  if !s.servingUp then s
  else (s.armCommit p st).modPart p (fun x => { x with
    repairStep := if x.repair.isSome then some st else none, flipStep := if x.flipBolt.isSome then some st else none })

/-- A generation that was to become live is given up: its live bits are no longer staged and its commit is disarmed; a repair that waits
for it has its own armed. -/
def State.unstageFlip (s : State) (p : Nat) : State :=
  let x := s.part p
  if x.flipBolt.isNone then s
  else
    let s1 := x.tiles.foldl (fun s t => (s.modTile t (fun y => { y with bankStage := none })).showStage t) s
    let s2 := (s1.disarmCommit p).modPart p (fun y => { y with flipStep := none, flipBolt := none, flipHolds := false })
    if x.repairStep.isSome then s2.armRepair p else s2

/-- A load ends in failure (R302): its queued jobs are dropped, the arrays fulled for it go to SPARE, one that is in FULLING once it is
STAGED, an adapter's page sets are freed and its entry dropped; a full bolt's pages too. -/
def State.loadFail (s : State) (p : Nat) : State :=
  match (s.part p).load with
  | none => s
  | some l =>
    let mine (d : Nat) (j : FulJob) : Bool := match j.why with
      | .bolt q _ => q == p
      | .refull => l.arrays.any (fun e => e.2 == j.array d)
      | _ => false
    let s1 := (s.part p).dies.foldl (fun s d => (s.modDie d (fun x => { x with
      backlog := x.backlog.filter (fun j => !mine d j),
      full := x.full.map (fun j => if mine d j then { j with why := .dropped } else j) })).dropJobs d (fun q => q.filter (fun j => !mine d j)))
      (s.unstageFlip p)
    let s2 := l.arrays.foldl (fun s e =>
      let st := (s.arr e.2).st
      if st = .staged ∨ st = .maint then s.modArr e.2 (fun x => { x with st := .spare }) else s) s1
    let s3 := l.adpSets.foldl (fun s i => s.setPage p i PageSet.reset) s2
    let full := match l.bolt with
      | some b => b.kind == 0
      | none => false
    let s4 := if full then (List.range (s3.part p).pageCount).foldl (fun s i =>
      let x := s.page p i
      if (x.state = .priv ∧ x.owner = (s.part p).voidSlot) ∨ (x.state = .void ∧ i ≠ 0) then s.setPage p i PageSet.reset else s) s3 else s3
    { (s4.modPart p (fun x => { x with
        load := none, flipStep := none, flipBolt := none, flipHolds := false,
        wpages := if full then 0 else x.wpages, adpPages := if full then 0 else x.adpPages,
        adapters := x.adapters.filter (fun a => a.state != .loading) })) with
      fetches := s4.fetches.filter (fun f => !(f.part == p && f.isLoad)) }

/-- A SPARE array is missing for a replacement: the load or flip is abandoned (R302, R326). -/
def State.spareExhausted (s : State) (p : Nat) (t : TileId) (boltId : W64) : State :=
  (s.fault 0x6016 t.die.val 0x87 t.region.val boltId.toNat (some p)).loadFail p

end Sys2Proof.Machine
end

