-- ==== Sys2Proof/Machine/Commit.lean ====
section
/-!
DEFINITION. The commit of a step (R249): what each request gets (R242 to R244, R259, R260, R276, R293), norm windows (R80), poison
and replay (R427, R430), cancellations (R262), deadlines (R251), adapters (R315, R318), parking (R490), the twins of draft forms
(R258), hot copies and the free-page target (R279, R283); and the commit of an idle partition (R248).
-/

namespace Sys2Proof.Machine

/-! ## The outcome of a step for one request -/

/-- A request with tokens emitted and a new tail. -/
def Slot.withTokens (x : Slot) (pos : Nat) (toks : List Nat) : Slot :=
  { x with
    pos := pos, ctx := x.ctx ++ toks, genLen := x.genLen + toks.length,
    lastToken := match toks.getLast? with
      | some t => some t
      | none => x.lastToken }

/-- The tokens of a choice as far as they are emitted: up to the first stop token, and up to MAX_NEW, of which `left` remain
(R259). -/
def Slot.cut (x : Slot) : Nat → List Nat → List Nat
  | 0, _ => []
  | _, [] => []
  | n + 1, t :: r => if x.stopsAt t then [t] else t :: x.cut n r

/-- The tokens that the running step emits for a request. -/
def Part.tokensFor (x : Part) (i : Nat) (y : Slot) : List Nat :=
  match x.chosen.find? (fun c => c.slot == i) with
  | some c => y.cut (y.maxNew - y.genLen) c.tokens
  | none => []

/-- The tail and the tokens that the running step gives a request it carries: a decode slot's tail moves by the tokens emitted
(R260), a prefill request's behind the last position it had in the chunk. A twin that was set back since the LAUNCH gets nothing. -/
def State.outcome (s : State) (p i : Nat) : Option (Nat × List Nat) :=
  let x := s.part p
  match x.running with
  | none => none
  | some st =>
    let y := s.slot i
    match st.dec.find? (fun d => d.slot == some i) with
    | some d => if d.pos = y.pos then some (y.pos + (x.tokensFor i y).length, x.tokensFor i y) else none
    | none => match (st.pre.filter (fun q => q.slot == i)).getLast? with
      | none => none
      | some q => some (q.pos + 1, if st.hasLast i y.promptLen then x.tokensFor i y else [])

/-- The REASON with which a request ends on the tokens it has just emitted (R242): a stop token, else its length. -/
def Slot.endCode (x : Slot) (toks : List Nat) : Option Nat :=
  match toks.getLast? with
  | none => none
  | some t => if x.stopsAt t then some 0x20 else if x.maxNew ≤ x.genLen then some 0x21 else none

/-- A request as the commit of the running step will leave it, and the REASON it ends with. -/
def State.slotAfter (s : State) (p i : Nat) : Slot × Option Nat :=
  match s.outcome p i with
  | none => (s.slot i, none)
  | some o =>
    let y := (s.slot i).withTokens o.1 o.2
    (y, if y.twinOf.isSome then none else y.endCode o.2)

/-! ## KV and the index (R260, R276, R293) -/

/-- The committed positions of a page set: FILL, the TENT bits below it, and the token IDs. -/
def PageSet.commit (x : PageSet) (fill : Nat) (toks : List Nat) : PageSet :=
  if x.state = .priv then { x with fill := fill, tent := BitVec.ofNat 64 (x.tent.toNat / 2 ^ fill * 2 ^ fill), tokens := toks } else x

/-- Positions `old` to `new` - 1 of a request become committed. -/
def State.commitKv (s : State) (p i old new : Nat) : State :=
  let x := s.slot i
  (List.range (ceilDiv new 64 - old / 64)).foldl (fun s n =>
    let k := old / 64 + n
    match (x.vector[k]?).join with
    | some page => s.modPage p page (fun y =>
        let fill := Nat.min 64 (new - 64 * k)
        y.commit fill ((x.ctx.drop (64 * k)).take fill))
    | none => s) s

/-- The blocks of a request that became full between two tails are inserted in the index: a twin's as far as its request has come, since
later ones may be set back (R258). -/
def State.insertNew (s : State) (i old new : Nat) : State :=
  let x := s.slot i
  let top := match x.twinOf with
    | some o => Nat.min new (Nat.max x.promptLen (s.slot o).pos)
    | none => new
  (List.range (top / 64 - old / 64)).foldl (fun s n => s.insertBlock i (old / 64 + n)) s

/-! ## One request -/

/-- Leaves a request's tokens for the message release; a twin emits no messages (R258). -/
def State.leaveTokens (s : State) (p i first : Nat) (toks : List Nat) : State :=
  if toks.isEmpty || (s.slot i).twinOf.isSome then s
  else s.modPart p (fun x => { x with outgoing := x.outgoing ++ [⟨i, first, toks, false⟩] })

/-- The commit of the running step for a request it carries. -/
def State.commitSlot (s : State) (p i : Nat) : State :=
  let x := s.slot i
  match s.outcome p i with
  | none => s
  | some o =>
    let a := s.slotAfter p i
    let s1 := if o.2.length ≤ 1 then s else s.bumpPair (s.pReg 0x206 .smpAcceptedLo) (s.pReg 0x206 .smpAcceptedHi) (o.2.length - 1)
    let s2 := (s1.setSlot i { a.1 with state := if o.2.isEmpty then x.state else .decode }).commitKv p i x.pos o.1
    match a.2 with
    | some code => s2.endRequest i .done code x.ctx.length o.2
    | none => (s2.insertNew i x.pos o.1).leaveTokens p i x.ctx.length o.2

/-- A page set's part of a tail set back to `fill` committed positions: those beyond are tentative again (R276). -/
def PageSet.setBack (x : PageSet) (fill : Nat) : PageSet :=
  if x.state = .priv ∧ fill < x.fill then
    { x with fill := fill, tokens := x.tokens.take fill, tent := x.tent ||| BitVec.ofNat 64 (2 ^ x.fill - 2 ^ fill) }
  else x

/-- The page sets of a request whose tail is set back to `pos`. -/
def State.tailBack (s : State) (i pos : Nat) : State :=
  let x := s.slot i
  (List.range (x.vector.length - pos / 64)).foldl (fun s n =>
    let k := pos / 64 + n
    match (x.vector[k]?).join with
    | some page => s.modPage x.part page (fun y => y.setBack (pos - 64 * k))
    | none => s) s

/-- After a commit of a request, its twin's POS and tail are set back to it, and the twin's LAST_TOKEN becomes its own (R258); the twin's
blocks that the request has now come past are indexed (R293), and a draft partition that idles composes again (R248). `old` is the
request's POS before the commit. -/
def State.setBack (s : State) (i old : Nat) : State :=
  let x := s.slot i
  match x.twin with
  | none => s
  | some t =>
    let y := s.slot t
    if y.state = .decode ∧ x.state = .decode then
      let s1 := (s.tailBack t x.pos).modSlot t (fun y => { y with pos := x.pos, genLen := x.genLen, ctx := x.ctx, lastToken := x.lastToken })
      let s2 := (List.range (x.pos / 64 - old / 64)).foldl (fun s n => s.insertBlock t (old / 64 + n)) s1
      if (s2.part y.part).idle then s2.wake y.part else s2
    else s

/-! ## The requests of a step -/

/-- The requests that the running step carries, in ascending ADMIT_SEQ. -/
def State.carried (s : State) (p : Nat) : List Nat :=
  s.slotsBy (·.admitSeq) ((s.heldSlots p).filter (fun i => (s.slot i).state.live && (s.part p).carriesSlot i))

/-- Nothing of the step is applied to a poisoned request, nor to one for which norm watch asked a replay: its replay run is the next
step that carries it, and the prompt tokens it carried become unassigned (R427 to R429, R81). -/
def State.setReplay (s : State) (p i : Nat) : State :=
  (s.modSlot i (fun x => { x with poisoned := false, wantReplay := true, replaying := false, assigned := x.pos })).voidNext p i

/-- A replay run that commits (R430). -/
def State.replayRan (s : State) (i : Nat) : State :=
  if (s.slot i).replaying then (s.bump (s.pReg 0x20F .fltReplay) 0 16 1).modSlot i (fun x => { x with replaying := false }) else s

/-- Cancellations that arrived before the commit take effect (R262). -/
def State.commitCancels (s : State) (p : Nat) : State :=
  (s.heldSlots p).foldl (fun s i =>
    let x := s.slot i
    match x.cancelReq with
    | some c => if x.state.live = true ∧ x.state ≠ .parked ∧ c.1 < s.bow.time then s.endRequest i .cancelled c.2.toNat 0 [] else s
    | none => s) s

/-- Samples staged for requests that commit update their windows in order; the others are discarded (R80). -/
def State.commitNorms (s : State) (p : Nat) (slots : List Nat) : State :=
  (s.part p).tiles.foldl (fun s t =>
    let x := s.tile t
    if x.samples.isEmpty then s
    else s.setTile t ((x.samples.filter (fun e => slots.contains e.slot)).foldl (fun y e =>
      let w := y.window e.window
      y.setWindow e.window (w.update (s.layerOf t w.layer).nwShift e.level)) { x with samples := [] })) s

/-- A miss is counted once, at the first commit later than a request's DEADLINE (R251). -/
def State.commitDeadlines (s : State) (p : Nat) : State :=
  (s.heldSlots p).foldl (fun s i =>
    let x := s.slot i
    if x.state.live = true ∧ x.deadline ≠ 0 ∧ x.deadline < s.bow.time ∧ x.dlMissed = false then
      (s.bump (s.pReg 0x205 .reqDlmiss p) 0 32 1).modSlot i (fun y => { y with dlMissed := true })
    else s) s

/-- A verified adapter becomes resident, and its load is over (R300, R315); the page sets of one that is being unloaded become FREE once no live request names
it, and its id is retired (R318). -/
def State.commitAdapters (s : State) (p : Nat) : State :=
  let x := s.part p
  let named (id : Nat) : Bool := (s.heldSlots p).any (fun i => (s.slot i).state.live && (s.slot i).adapter == id)
  let gone := x.adapters.filter (fun a => a.state == .unloading && !named a.id)
  let s1 := (gone.flatMap (·.pages)).foldl (fun s i => s.setPage p i PageSet.reset) s
  let done (l : BoltLoad) : Bool := x.adapters.any (fun a => a.state == .pending && l.bolt.any (fun b => b.kind == 2 && b.adapter == a.id))
  s1.modPart p (fun y => { y with
    load := y.load.filter (fun l => !done l),
    adapters := (y.adapters.filter (fun a => !gone.contains a)).map (fun a => if a.state = .pending then { a with state := .resident } else a),
    retired := y.retired ++ gone.map (·.id) })

/-- Whether the host session is OPEN (R486). -/
def State.sessionOpen (s : State) : Bool := s.fldOf (s.pReg 0x20C .hifStatus) 6 2 == 1

/-- At the first commit after the session leaves OPEN, host-origin requests are PARKED (R490, R242). -/
def State.commitParks (s : State) (p : Nat) : State :=
  if (s.part p).hostGated || !s.sessionOpen then
    let s1 := (s.heldSlots p).foldl (fun s i =>
      let x := s.slot i
      if x.host = true ∧ (x.state = .queued ∨ x.state = .prefill ∨ x.state = .decode) then
        (s.setSlot i { x with state := .parked, prev := x.state, parkTime := s.bow.time, assigned := x.pos }).voidNext p i
      else s) s
    s1.modPart p (fun y => { y with hostGated := false })
  else s

/-- While FREE page sets lie below KVP_LOWATER, the lowest-scoring idle ones are dropped where there is no cold store (R283); with
one, they are copied to it in the background. -/
def State.lowater (s : State) (p : Nat) : State :=
  if (Tbl.find s.start.cold p).isSome then s
  else
    let n := s.fldOf (s.pReg 0x207 .kvpLowater) 0 24 - (s.freePages p).length
    if n = 0 then s else ((sortPairs (s.idlePages p)).take n).foldl (fun s e => s.dropIndexed p e.2) s

/-- The slot records of a partition as of a commit (REQ_SLOT). -/
def State.publishAll (s : State) (p : Nat) : State :=
  let x := s.part p
  let gone := (s.slotRec.map (·.1)).filter (fun i => decide (x.shareBase ≤ i) && decide (i < x.shareBase + x.shareLen) && (s.slot i).state == .free)
  let s1 := gone.foldl (fun (s : State) i => { s with slotRec := Tbl.del s.slotRec i }) s
  (s.heldSlots p).foldl State.publish s1

/-! ## The commit (R249) -/

/-- What a commit does beyond the step's requests. -/
def State.commitRest (s : State) (p : Nat) : State :=
  ((((((s.commitDeadlines p).commitAdapters p).commitParks p).demote p).releaseHeld p).lowater p).publishAll p

/-- The step's outcome, where no request is poisoned a second time. -/
def State.commitStep (s : State) (p : Nat) : State :=
  let bad := (s.carried p).filter (fun i => (s.slot i).poisoned || (s.slot i).wantReplay)
  let s1 := bad.foldl (fun s i => s.setReplay p i) s
  let s2 := ((s1.carried p).filter (fun i => !bad.contains i)).foldl State.replayRan s1
  let s3 := s2.commitCancels p
  let good := (s3.carried p).filter (fun i => !bad.contains i)
  let s4 := good.foldl (fun s i => s.commitSlot p i) (s3.commitNorms p good)
  (good.foldl (fun s i => s.setBack i (s3.slot i).pos) s4).commitRest p

/-- A request poisoned in its replay run (R430). -/
def State.poisonedAgain (s : State) (p : Nat) : Option Nat := (s.carried p).find? (fun i => (s.slot i).poisoned && (s.slot i).replaying)

/-- The commit of the running step of a partition: a request poisoned again in its replay run ends the job. -/
def State.commit (s : State) (p : Nat) : State :=
  if (s.part p).running.isNone then s
  else match s.poisonedAgain p with
    | some i => (s.bump (s.pReg 0x20F .fltReplay) 16 16 1).jobFault 0x3007 s.prinDie 0x83 0 i (some p)
    | none => s.commitStep p

/-- The commit of an idle partition's last step, at the time the rule of R217 would give: no step follows, and the ready lines stay
set (R248, R249). -/
def State.idleCommit (s : State) (p : Nat) : State :=
  (s.commit p).modPart p (fun x => { x with
    running := none, barrier := none, prinReady := false, readyAt := none, groups := [], chosen := [], launchTime := s.bow.time })

end Sys2Proof.Machine
end

