-- ==== Sys2Proof/Machine/Symbols.lean ====
section
/-!
DEFINITION. What the link lanes send (10_links.md): the layout of flits, transaction headers and identity records (R332, R333, R346,
R351), the symbols that wait on each lane and their order (R340, R341), and the flits themselves (R334 to R336, R339).
-/

namespace Sys2Proof.Machine

/-! ## Layout (R332, R333, R346, R351) -/

/-- The header of a flit. -/
def flitHeader (f : Flit) : Nat :=
  f.seq.toNat + f.ack.toNat * 2 ^ 16 + f.type.toNat * 2 ^ 32 + boolN f.vc * 2 ^ 34 + boolN f.poison * 2 ^ 35 + f.valid.toNat * 2 ^ 36 +
    f.credits.toNat * 2 ^ 44 + boolN f.cvc * 2 ^ 52

/-- The bytes of a flit that the CRC covers: header, control symbol (R340) and payload. -/
def flitCovered (f : Flit) (payload : List Byte) : List Byte :=
  leBytes 8 (flitHeader f) ++ leBytes 4 (f.symbol.toNat + f.arg.toNat * 2 ^ 8) ++ sliceB payload 0 240

/-- The 256 bytes of a flit. -/
def flitBytes (f : Flit) (payload : List Byte) : List Byte := flitCovered f payload ++ leBytes 4 (crc32 (flitCovered f payload))

/-- What 256 received bytes are as a flit, with its payload; `bad` where the CRC check fails (R335). Of the FEC the bytes say nothing. -/
def flitOf (b : List Byte) : Flit × List Byte :=
  let h := leAt b 0 8
  ({ bad := leAt b 252 4 != crc32 (b.take 252), fecBad := false, uncorr := 0, fixed := 0,
     seq := BitVec.ofNat 16 (fld h 0 16), ack := BitVec.ofNat 16 (fld h 16 16), type := BitVec.ofNat 2 (fld h 32 2), vc := bit h 34,
     poison := bit h 35, valid := BitVec.ofNat 8 (fld h 36 8), credits := BitVec.ofNat 8 (fld h 44 8), cvc := bit h 52,
     symbol := BitVec.ofNat 8 (leAt b 8 1), arg := BitVec.ofNat 24 (leAt b 9 3) }, sliceB b 12 (fld h 36 8))

/-- The 16 bytes of a transaction header. -/
def hdrBytes (h : LinkHdr) : List Byte :=
  leBytes 1 (h.channel % 2 ^ 6) ++ leBytes 1 h.kind ++ leBytes 2 h.land.toNat ++ leBytes 4 h.offset ++ leBytes 4 h.len ++ leBytes 2 h.xfer.toNat ++
    leBytes 2 h.packets

/-- The transaction header of a packet's first bytes. -/
def linkHdrOf (b : List Byte) : LinkHdr :=
  { channel := leAt b 0 1 % 2 ^ 6, kind := leAt b 1 1, land := BitVec.ofNat 16 (leAt b 2 2), offset := leAt b 4 4, len := leAt b 8 4,
    xfer := BitVec.ofNat 16 (leAt b 12 2), packets := leAt b 14 2, object := none }

/-- The 32 bytes of an identity record. -/
def identityBytes (i : Identity) : List Byte :=
  leBytes 8 i.serial.toNat ++ leBytes 1 i.link ++ leBytes 1 i.rackPos ++ leBytes 4 i.rackId.toNat ++ List.replicate 18 0

/-- The identity record of received bytes. -/
def identityOf (b : List Byte) : Identity :=
  { serial := BitVec.ofNat 64 (leAt b 0 8), link := leAt b 8 1, rackPos := leAt b 9 1, rackId := BitVec.ofNat 32 (leAt b 10 4) }

/-- The record that this device sends on the lanes of a link. -/
def State.ownIdentity (s : State) (l : Nat) : Identity :=
  { serial := s.fuses.serial, link := l, rackPos := s.start.rackPos, rackId := s.start.rackId }

/-- The flits of a packet of n data bytes (R351). -/
def linkFlits (n : Nat) : Nat := ceilDiv (n + 16) 240

/-- The data bytes of a packet that its flit `i` carries: from where, up to where, of `n` (R351). -/
def flitSpan (n i : Nat) : Nat × Nat := (240 * i - 16, Nat.min n (240 * i + 224))

/-- The flits of a packet: its header and data, 240 bytes to a flit; `bad` names those that are poisoned. -/
def txFlits (vc : Nat) (h : LinkHdr) (data : List Byte) (bad : List Nat) : List TxFlit :=
  let b := hdrBytes h ++ data
  (List.range (linkFlits data.length)).map (fun i => ⟨vc == 1, i == 0, bad.contains i, (b.drop (240 * i)).take 240⟩)

/-! ## Control symbols (R340, R341) -/

/-- Where a symbol stands in the order in which a lane sends what is due (R341). -/
def symbolRank (code : Byte) : Nat :=
  if code = 0x12 then 0 else if code = 0x11 then 1 else if code = 0x10 then 2 else if code = 0x01 then 3 else 4

/-- The symbol that a lane's next flit carries (R341): the first of the order, the oldest of its kind first. TIME_PING is
last, with the time of the flit's first bit. -/
def Lane.symbol (x : Lane) (when : Nat) : Option ((Byte × BitVec 24) × Lane) :=
  match (List.range 5).findSome? (fun k => x.symq.find? (fun e => symbolRank e.1 == k)) with
  | some e => some (e, { x with symq := x.symq.erase e })
  | none => if x.pingsDue = 0 then none else some ((0x02, BitVec.ofNat 24 when), { x with pingsDue := x.pingsDue - 1 })

/-- A symbol becomes due on a lane. -/
def State.queueSymbol (s : State) (l n : Nat) (code : Byte) (arg : BitVec 24) : State :=
  s.modLane l n (fun x => { x with symq := x.symq ++ [(code, arg)] })

/-- A symbol becomes due on every trained lane of a link (R340). -/
def State.queueOnLink (s : State) (code : Byte) (arg : BitVec 24) (l : Nat) : State :=
  ((List.range 4).filter (fun n => (s.lane l n).trained)).foldl (fun s n => s.queueSymbol l n code arg) s

/-! ## The next flit of a lane (R334, R336, R339) -/

/-- The channel whose new flit a lane sends next: VC 0 first, but VC 1 in at least 1 of every 8 (R339); none where no channel
has a flit and a credit, or the retry buffer is full. -/
def Lane.pick (x : Lane) : Option Nat :=
  let can0 := !x.txq0.isEmpty && decide (0 < x.credit0)
  let can1 := !x.txq1.isEmpty && decide (0 < x.credit1)
  if 256 ≤ x.held.length then none
  else if can1 && (!can0 || decide (7 ≤ x.vcRun)) then some 1
  else if can0 then some 0 else none

/-- A new data flit of a channel: it takes a credit and a sequence number and is held for retry. -/
def Lane.sendNew (x : Lane) (vc now : Nat) : Option (Nat × TxFlit × Lane) :=
  match (if vc = 0 then x.txq0 else x.txq1) with
  | [] => none
  | f :: rest =>
    let y := { x with held := x.held ++ [(x.txSeq, 1, f)], txSeq := (x.txSeq + 1) % 2 ^ 16,
                      ackTime := if x.held.isEmpty then now else x.ackTime }
    some (x.txSeq, f, if vc = 0 then { y with txq0 := rest, credit0 := y.credit0 - 1, vcRun := y.vcRun + 1 }
                      else { y with txq1 := rest, credit1 := y.credit1 - 1, vcRun := 0 })

/-- The data flit that a lane sends next: the oldest one that is to be sent again, and only then a new one (R336). -/
def Lane.nextData (x : Lane) (now : Nat) : Option (Nat × TxFlit × Lane) :=
  let i := x.held.length - x.again
  match (if x.again = 0 then none else x.held[i]?) with
  | some h => some (h.1, h.2.2, { x with again := x.again - 1, held := x.held.set i (h.1, h.2.1 + 1, h.2.2) })
  | none => match x.pick with
    | some vc => x.sendNew vc now
    | none => none

/-- The credits that a lane's next flit returns, at most 255 of one channel, the one that is owed more (DESIGN CHOICE, log 56): the channel,
the credits, and the lane after. -/
def Lane.returns (x : Lane) : Bool × Nat × Lane :=
  let v := decide (x.due0 < x.due1)
  let c := Nat.min 255 (if v then x.due1 else x.due0)
  (v, c, if v then { x with due1 := x.due1 - c } else { x with due0 := x.due0 - c })

/-- Whether a lane's next flit says anything new: data, a symbol, credits, or an ACK that has advanced. -/
def Lane.hasNews (x : Lane) (data : Bool) : Bool :=
  !x.symq.isEmpty || x.pingsDue != 0 || x.due0 != 0 || x.due1 != 0 || x.ackTold != x.rxNext || (data && (x.again != 0 || x.pick.isSome))

/-- The flit that a lane sends at a time, its payload, whether it is a data flit, and the lane after. -/
def Lane.flit (x : Lane) (when : Nat) (data : Bool) : Flit × List Byte × Bool × Lane :=
  let sym := match x.symbol when with
    | some r => r
    | none => ((0, 0), x)
  let r := sym.2.returns
  let y : Lane := { r.2.2 with ackTold := x.rxNext }
  let mk (seq type : Nat) (vc poison : Bool) (n : Nat) : Flit :=
    { bad := false, fecBad := false, uncorr := 0, fixed := 0, seq := BitVec.ofNat 16 seq, ack := BitVec.ofNat 16 x.rxNext,
      type := BitVec.ofNat 2 type, vc := vc, poison := poison, valid := BitVec.ofNat 8 n, credits := BitVec.ofNat 8 r.2.1, cvc := r.1,
      symbol := sym.1.1, arg := sym.1.2 }
  match (if data then y.nextData when else none) with
  | some d => (mk d.1 (if d.2.1.first then 1 else 2) d.2.1.vc d.2.1.poison d.2.1.payload.length, d.2.1.payload, true, d.2.2)
  | none => (mk y.txSeq 0 false false 0, [], false, y)

/-! ## Flits on the lanes (R330, R341) -/

/-- The start times, in ns, of a lane's flits in the slot from `t` on: flit j starts at 5.12 j ns of the bowstring time (the
phase of the flits is a design choice, log 56). -/
def flitTimes (t : Nat) : List Nat :=
  let a := ceilDiv (100 * t) 512
  (List.range (ceilDiv (100 * (t + 16)) 512 - a)).map (fun i => 512 * (a + i) / 100)

/-- A register of a link. -/
def linkReg (l : Nat) (r : Reg) : RegKey := uReg (brimIdx (l / 12)) 0x209 r (l % 12)

/-- A link that is UP or DEGRADED carries traffic. -/
def State.carries (s : State) (l : Nat) : Bool := let st := s.fldOf (linkReg l .lnkState) 0 3; st == 2 || st == 3

/-- Whether a lane sends data flits: it is trained, and its link carries traffic. -/
def State.sendsData (s : State) (l n : Nat) : Bool := s.carries l && (s.lane l n).trained

/-- A lane sends a flit, unless it would say nothing new: an idle flit that repeats the last one's ACK is not listed (DESIGN CHOICE,
log 56). A data flit is counted (R514). -/
def State.sendFlit (s : State) (l n : Nat) (when : Nat) : State :=
  let x := s.lane l n
  let d := s.sendsData l n
  if x.hasNews d then
    let r := x.flit when d
    let s1 := (s.setLane l n r.2.2.2).emit (.flit l n (flitBytes r.1 r.2.1))
    if r.2.2.1 then s1.event (brimIdx (l / 12)) 0x20E 0x80 1 else s1
  else s

/-- The lanes with something to say. -/
def State.talking (s : State) : List (Nat × Nat) := (s.lanes.filter (fun e => e.2.hasNews (s.sendsData e.1.1 e.1.2))).map (·.1)

/-- Every flit of the slot now ending, on every lane that has something to say. -/
def State.sendFlits (s : State) : State :=
  s.talking.foldl (fun s k => (flitTimes s.bow.time).foldl (fun s t => s.sendFlit k.1 k.2 t) s) s

end Sys2Proof.Machine
end

