-- ==== Sys2Proof/Machine/Bowstring.lean ====
section
/-!
DEFINITION. The bowstring (06_bowstring.md): slots and the time count (R208 to R211), the source's queue of commands
(R213, R214), throttling and the emergency latch (R225 to R229), FREEZE and THAW (R231, R232, R516), barriers, readiness
and HOLD (R215 to R224). LAUNCH has a file of its own.
-/

namespace Sys2Proof.Machine

/-! ## Throttling (R225 to R228) -/

/-- The fabric cycles that run in one slot (R225, R226). -/
def slotCycles (div m : Nat) : Nat := if div = 0 then 16 - m else 16 / 2 ^ div

/-- A DIV and M that R226 refuses. -/
def skipIllegal (div m : Nat) : Bool := div == 3 || (div != 0 && m != 0)

/-- The emergency pattern: DIV and M of BOW_EMERG, which every die holds (R228). -/
def State.emergPattern (s : State) : Nat × Nat :=
  let k := s.pReg 0x201 .bowEmerg
  (s.fldOf k 4 2, s.fldOf k 0 4)

/-- The DIV and M in force at a die: the lower rate of the emergency pattern and the last SKIP, the emergency pattern when
the rates are equal (R228). -/
def State.throttle (s : State) (x : Die) : Nat × Nat :=
  let e := s.emergPattern
  if x.emergOn = true ∧ slotCycles e.1 e.2 ≤ slotCycles x.skipDiv x.skipM then e else (x.skipDiv, x.skipM)

/-- The four bits of `i` reversed (R225). -/
def rev4 (i : Nat) : Nat := i % 2 * 8 + i / 2 % 2 * 4 + i / 4 % 2 * 2 + i / 8 % 2

/-- The fabric cycles of a slot under ÷1 that M does not skip (R225). -/
def cyclesRun (m : Nat) : List Nat := (List.range 16).filter (fun i => decide (m ≤ rev4 i))

/-- When the `k`-th fabric cycle that runs in a slot ends, in ns from the slot's start (R215, R225). -/
def cycleEnd (div m k : Nat) : Nat :=
  if k = 0 then 0 else if div = 0 then ((cyclesRun m)[k - 1]?).getD 15 + 1 else k * 2 ^ div

/-! ## Symbols and frames (R208, R211, R212) -/

/-- The symbol of a command (R212). -/
def BowCmd.code : BowCmd → Nat
  | .freeze => 1
  | .thaw => 2
  | .emergency => 3
  | .launch p => 0x10 + p % 16
  | .hold p => 0x20 + p % 16
  | .skip release div m => 0x80 + boolN release * 2 ^ 6 + div % 4 * 2 ^ 4 + m % 16

/-- Whether a value encodes a command (R212). -/
def symbolKnown (v : Nat) : Bool := decide (v ≤ 3) || (decide (0x10 ≤ v) && decide (v < 0x30)) || (decide (0x80 ≤ v) && decide (v < 0x100))

/-- A byte with its 5 check bits above it (R208). The order of a frame's fields is DESIGN CHOICE, log 55. -/
def frameHalf (v : Nat) : Nat := v % 256 + Config.bowCheck (v % 256) % 32 * 256

/-- The frame of a slot: the symbol, and the byte of the count that the slot carries (R208, R210): slots 8j to 8j + 7 carry bytes 0 to 7
of its value at the application of slot 8j. `now` is when the slot starts. -/
def frameOf (code now : Nat) : Nat :=
  frameHalf code + frameHalf ((now / 128 * 128 + 16) / 256 ^ (now / 16 % 8)) * 2 ^ 13

/-- What a half of a frame is read as: its byte, and whether a single-bit error was corrected in it; none where it is uncorrectable
(R211). -/
def secded (w : Nat) : Option (Nat × Bool) :=
  let ok (v : Nat) : Bool := Config.bowCheck (v % 256) % 32 == v / 256 % 32
  if ok w then some (w % 256, false)
  else ((List.range 13).find? (fun i => ok (w ^^^ 2 ^ i))).map (fun i => ((w ^^^ 2 ^ i) % 256, true))

/-! ## The source's queue (R213, R214) -/

/-- Raises a command: it is sent in a slot that starts after now (R214). -/
def State.bowSend (s : State) (c : BowCmd) : State := { s with bow := { s.bow with newq := s.bow.newq ++ [c] } }

/-- Puts a command into the slot now sent. -/
def State.bowSendNow (s : State) (c : BowCmd) : State := { s with bow := { s.bow with sendq := s.bow.sendq ++ [c] } }

/-- The last peers' BARRIERs for the current step: whether every peer's has arrived, and when the last did (R223). -/
def State.peersReady (s : State) (p : Nat) : Bool × Nat :=
  let x := s.part p
  let peers := s.fldOf (s.pReg 0x201 .bowJob p) 0 8
  let got := x.barriersRx.filter (fun b => b.2.1 == x.stepNo.toNat % 2 ^ 16)
  (decide (peers ≤ got.length), got.foldl (fun a b => Nat.max a b.2.2) 0)

/-- Rounded up to a slot. -/
def slotUp (t : Nat) : Nat := (t + 15) / 16 * 16

/-- t_L of R217 and R223, once the partition is ready, its barrier is known and every peer's BARRIER has arrived. A partition that
runs no step has no barrier (R248). -/
def State.launchAt (s : State) (p : Nat) : Option Nat :=
  let x := s.part p
  let peers := s.peersReady p
  let multi := s.fldOf (s.pReg 0x201 .bowJob p) 0 8 != 0
  match x.readyAt with
  | none => none
  | some c =>
    if !peers.1 then none
    else
      let base := Nat.max (c + 48) (if multi then peers.2 + 32 else 0)
      if x.running.isSome then x.barrier.map (fun b => slotUp (Nat.max b base)) else some (slotUp base)

/-- The partitions whose LAUNCH is due in the slot now sent: those with a staged next step and t_L at its application, or before. -/
def State.launchesDue (s : State) : List Nat :=
  (List.range 16).filter (fun p =>
    let x := s.part p
    x.job == .running && x.staged && x.next.isSome && (match s.launchAt p with
      | some t => decide (t ≤ s.bow.time + 16)
      | none => false))

/-- The place of a command in the order of R213. -/
def BowCmd.rank : BowCmd → Nat
  | .emergency => 0
  | .skip _ _ _ => 1
  | .freeze => 2
  | .thaw => 2
  | .launch p => 3 + p
  | .hold p => 19 + p

/-- The commands due in the slot now sent. -/
def State.bowDue (s : State) : List BowCmd := s.bow.sendq ++ s.launchesDue.map .launch

/-- The highest of some commands in the order of R213, the one raised first of several. -/
def topCmd : List BowCmd → Option BowCmd
  | [] => none
  | c :: r => match topCmd r with
    | none => some c
    | some d => if d.rank < c.rank then some d else some c

/-- The command of the slot now sent (R213). -/
def State.bowNext (s : State) : Option BowCmd := topCmd s.bowDue

/-- A command is sent: every other command due in its slot is displaced and counted (R213). -/
def State.bowSent (s : State) (c : BowCmd) : State :=
  let n := (s.bowDue.erase c).length
  let s1 := { s with bow := { s.bow with sendq := s.bow.sendq.erase c } }
  if n = 0 then s1 else (s1.bump (s1.pReg 0x201 .bowSlotErr) 16 16 n).event s1.prinDie 0x20E 0x85 n

/-- Takes the HOLD of a partition that launches out of the queue: it is not held (R219). -/
def State.dropHold (s : State) (p : Nat) : State :=
  { s with bow := { s.bow with sendq := s.bow.sendq.filter (· != .hold p), newq := s.bow.newq.filter (· != .hold p) } }

/-! ## Slots (R209, R210) -/

/-- The counters of tiles that count skipped cycles (R514, event 0x01) count those of a slot. -/
def State.countSkipped (s : State) : State :=
  s.regs.foldl (fun t e =>
    let x := s.die e.1.die
    let w := s.throttle x
    if e.1.reg = .ctrSel ∧ e.1.die < 0x20 ∧ e.1.region < 512 ∧ x.alive = true ∧ w.1 = 0 ∧ w.2 ≠ 0 ∧
        s.ctrCounts e.1.die e.1.region e.1.idx 0x01 none = true then
      t.ctrAdd e.1.die e.1.region e.1.idx w.2
    else t) s

/-- One slot of a die: its time copy, its cycles (R510), and the emergency pattern from the slot boundary after its latch
is set (R228). A die that received the slot's symbol uncorrectable sets the latch itself (R211). -/
def State.dieSlot (s : State) (x : Die) : Die :=
  if x.alive then
    let w := s.throttle x
    { x with timeCopy := x.timeCopy + 16, cycles := x.cycles + slotCycles w.1 w.2,
             skipped := x.skipped + (if w.1 = 0 then w.2 else 0), emergOn := x.emerg, emerg := x.emerg || x.deaf }
  else x

/-- The source is up: it sends a frame in every slot. -/
def State.bowRuns (s : State) : Bool := (s.die s.prinDie).alive

/-- The idle partitions whose last step commits in a slot applied now (R249). -/
def State.idleDue (s : State) : List Nat :=
  (List.range 16).filter (fun p =>
    let x := s.part p
    x.job == .running && x.idle && x.running.isSome && x.next.isNone && (match s.launchAt p with
      | some t => decide (t ≤ s.bow.time)
      | none => false))

/-- DIV and M in force at every die whose symbols arrive: the source's. -/
def State.sourceThrottle (s : State) : Nat × Nat := s.throttle (s.die s.prinDie)

/-- The schedule cycles of the running steps advance by the cycles that a slot does not skip (R215). -/
def State.stepCycles (s : State) : State :=
  let w := s.sourceThrottle
  { s with parts := Tbl.mapV s.parts (fun _ x => if x.job = .running ∧ x.running.isSome = true then { x with cyc := x.cyc + slotCycles w.1 w.2 } else x) }

/-- Crown accesses that waited for a refresh window are tried again (R189). -/
def State.serveDeferred (s : State) : State :=
  s.deferred.foldl (fun s i => match i with
    | .crownStreamRead c src o n u => runCrownStreamRead c src o n u s
    | .crownAppendWrite c src o b z => runCrownAppendWrite c src o b z s
    | .crownPoolAccess c src a w n b => runCrownPoolAccess c src a w n b s
    | .adapterWindowRead c src a n => runAdapterWindowRead c src a n s
    | .dmaLanding t x env => runDmaLanding t x env s
    | _ => s) { s with deferred := [] }

/-- A slot ends: the lanes have sent its flits, the time count advances by 16, the schedules by its cycles, and what
was raised during it becomes due. Idle partitions
commit at the time t_L that R217 would give. -/
def State.slotEnd (s : State) : State :=
  let s1 := s.sendFlits.countSkipped.stepCycles
  let s2 := { s1 with
    dies := Tbl.mapV s1.dies (fun _ x => s1.dieSlot x), unmerged := s1.unmerged - 64 * slotCycles s1.sourceThrottle.1 s1.sourceThrottle.2,
    bow := { s1.bow with time := s1.bow.time + 16, sendq := s1.bow.sendq ++ s1.bow.newq, newq := [] } }
  let s3 := if s2.parts.any (fun e => e.2.heldSince.isSome) then s2.event s2.prinDie 0x20E 0x86 1 else s2
  (s3.idleDue.foldl State.idleCommit s3).serveDeferred

/-- Whether an emergency source is still active. -/
def State.emergActive (s : State) : Bool :=
  (List.range 4).any (fun b => (s.sensor b).line) || !s.power.ocActive.isEmpty

/-- A RELEASE that waits when a source is active is refused (R229, R404). -/
def State.refuseReleases (s : State) : State :=
  let isRel (c : BowCmd) : Bool := match c with
    | .skip true _ _ => true
    | _ => false
  if s.bow.sendq.any isRel || s.bow.newq.any isRel then
    let s1 := { s with bow := { s.bow with sendq := s.bow.sendq.filter (fun c => !isRel c), newq := s.bow.newq.filter (fun c => !isRel c) } }
    s1.fwFault (s1.pReg 0x201 .bowSkipCmd).addr
  else s

/-- FREEZE_TIME_REACHED: the armed FREEZE is due in the slot whose application time is the armed time, or in the next one
where the time has passed (R232). -/
def runFreezeTimeReached (s : State) : State :=
  if s.fldOf (s.pReg 0x201 .bowFreezeCmd) 0 1 = 1 ∧ s.bow.freezeAt ≤ s.bow.time + 16 ∧ s.bow.sendq.contains .freeze = false then
    s.bowSendNow .freeze
  else s

/-- The command FREEZE_TIME_REACHED. -/
def execFreezeTimeReached (s : State) : Host.Outcome State Fault Refusal := .next (runFreezeTimeReached s)

/-- T_b of a partition whose last schedule cycle runs in the slot now sent (R215). -/
def State.barrierIn (s : State) (p : Nat) : Option Nat :=
  let x := s.part p
  let w := s.sourceThrottle
  match x.shape? with
  | none => none
  | some sh => if sh.length ≤ x.cyc + slotCycles w.1 w.2 then some (s.bow.time + cycleEnd w.1 w.2 (sh.length - x.cyc)) else none

/-- Whether the source has seen a partition ready when the slot now sent starts: at most 32 ns after it is (R217); sooner is not
stated. -/
def State.seenReady (s : State) (p : Nat) : Bool × State :=
  match (s.part p).readyAt with
  | none => (false, s)
  | some c => if c + 32 ≤ s.bow.time then (true, s) else s.drawB

/-- STEP_BARRIER: the barrier falls in the slot now sent, and T_a is its application; the source sends HOLD in it unless it has
seen the partition ready and every peer's BARRIER has arrived (R219, R223), or the partition is idle (R248). With staging incomplete,
STAGE_HOLD is set (R247). -/
def runStepBarrier (p : PartIdx) (s : State) : State :=
  let x := s.part p.val
  match s.barrierIn p.val with
  | none => s
  | some tb =>
    if x.job = .running ∧ x.running.isSome = true ∧ x.barrier.isNone = true then
      let s1 := s.modPart p.val (fun x => { x with barrier := some tb })
      if x.idle then s1
      else
        let v := s1.seenReady p.val
        if v.1 && (s1.peersReady p.val).1 then v.2
        else (if x.staged then v.2 else v.2.setBit (v.2.pReg 0x205 .reqEvents p.val) 0).bowSendNow (.hold p.val)
    else s

/-- The command STEP_BARRIER. -/
def execStepBarrier (p : PartIdx) (s : State) : Host.Outcome State Fault Refusal := .next (runStepBarrier p s)

/-- What falls due in the slot now sent by itself: the armed FREEZE, the HOLDs of barriers that fall in it, and the end of a RELEASE
that may not be sent. -/
def State.fallDue (s : State) : State :=
  let s1 := runFreezeTimeReached (if s.emergActive then s.refuseReleases else s)
  (List.range 16).foldl (fun s p => runStepBarrier (Fin.ofNat 16 p) s) s1

/-- The frame of the slot now sent (R208). -/
def State.sendFrame (s : State) (code : Nat) : State := { s with bow := { s.bow with frame := frameOf code s.bow.time } }

/-- Every die receives the next slot's symbol again. -/
def State.hearAgain (s : State) : State := { s with dies := Tbl.mapV s.dies (fun _ x => { x with deaf := false }) }

/-- The symbol of a slot is applied (R209): the slot ends and the command takes effect. The source sends the one command that R213 puts
first; a symbol that it does not send in this slot is none. -/
def State.applySymbol (s : State) (c : BowCmd) (f : State → State) : State :=
  let s0 := s.fallDue
  if s.bowRuns ∧ s0.bowNext = some c then (f (((s0.sendFrame c.code).bowSent c).slotEnd)).hearAgain else s

/-- Changes every die that runs and received the symbol. -/
def State.eachDie (s : State) (f : Die → Die) : State :=
  { s with dies := Tbl.mapV s.dies (fun _ x => if x.alive && !x.deaf then f x else x) }

/-- A frame in which a die corrects an error is counted in its BOW_SLOT_ERR; only Brim dies have one (R211). -/
def State.slotFixed (s : State) (d : Nat) : State :=
  if 0x20 ≤ d ∧ d < 0x24 then s.bump (uReg d 0x201 .bowSlotErr) 0 16 1 else s

/-- IDLE: a slot in which no command is due; a frame in which a die corrects a single-bit error is counted there (R211). -/
def runIdle (corrected : Option DieIdx) (s : State) : State :=
  let s0 := s.fallDue
  if s.bowRuns ∧ s0.bowNext = none then
    let s1 := ((s0.sendFrame 0).slotEnd).hearAgain
    match corrected with
    | some d => s1.slotFixed d.val
    | none => s1
  else s

/-- The command IDLE. -/
def execIdle (corrected : Option DieIdx) (s : State) : Host.Outcome State Fault Refusal := .next (runIdle corrected s)

/-! ## FREEZE and THAW (R231, R516, R517) -/

/-- Every counter set latches its counts and OVF bits (R516), and its die its cycle counter. A die that did not receive the symbol
latches nothing. -/
def State.latchShadows (s : State) : State :=
  let hears (k : RegKey) : Bool := !(s.die k.die).deaf
  let new := s.regs.filter (fun (e : RegKey × W32) => (e.1.reg == Reg.ctrValLo || e.1.reg == Reg.ctrValHi) && hears e.1)
  let s1 := { s with shadow := s.shadow.filter (fun (e : RegKey × W32) => !hears e.1) ++ new }
  let s2 := s1.regs.foldl (fun (t : State) (e : RegKey × W32) =>
    if e.1.reg = Reg.ctrStatus ∧ hears e.1 = true then t.setFld e.1 8 8 (t.fldOf e.1 0 8) else t) s1
  s2.eachDie (fun x => { x with shCycles := x.cycles, frozen := true })

/-- Whether the shadows are held. -/
def State.frozen (s : State) : Bool := (s.die s.prinDie).frozen

/-- An armed reader starts reading (R517). -/
def State.readerCapture (s : State) : State :=
  let k := s.pReg 0x20E .ctrRdStatus
  if s.fldOf k 0 2 = 1 then (s.setFld k 0 2 2).setReg (s.pReg 0x20E .ctrRdCtrl) 0 else s

/-- The BOW_FREEZE_LAST of every Brim die that applies it shows the application time (R232). -/
def State.showFreeze (s : State) : State :=
  (List.range 4).foldl (fun s b =>
    if (s.die (brimIdx b)).deaf then s
    else s.setPair (uReg (brimIdx b) 0x201 .bowFreezeLastLo) (uReg (brimIdx b) 0x201 .bowFreezeLastHi) s.bow.time) s

/-- FREEZE: ARM clears when it is sent (R232); ignored while shadows are held, otherwise every counter is latched (R231). -/
def runFreeze (s : State) : State :=
  s.applySymbol .freeze (fun s =>
    let s1 := s.setFld (s.pReg 0x201 .bowFreezeCmd) 0 1 0
    if s1.frozen then s1 else (s1.latchShadows.showFreeze).readerCapture)

/-- The command FREEZE. -/
def execFreeze (s : State) : Host.Outcome State Fault Refusal := .next (runFreeze s)

/-- THAW: the shadows are released; they keep their contents (R231, R516). -/
def runThaw (s : State) : State := s.applySymbol .thaw (fun s => s.eachDie (fun x => { x with frozen := false }))

/-- The command THAW. -/
def execThaw (s : State) : Host.Outcome State Fault Refusal := .next (runThaw s)

/-- THAW is sent, or delayed at the source while the reader is READING (R517). -/
def State.sendThaw (s : State) : State :=
  if s.fldOf (s.pReg 0x20E .ctrRdStatus) 0 2 = 2 then { s with bow := { s.bow with thawWaits := true } }
  else s.bowSend .thaw

/-- A write of BOW_FREEZE_CMD (R232): ARM arms a FREEZE for BOW_FREEZE_AT, THAW sends THAW. -/
def State.freezeCmdWrite (s : State) (port : Port) (data : W32) : State :=
  let k := s.pReg 0x201 .bowFreezeCmd
  s.guardedWrite port k data.toNat (fun s =>
    let s1 := s.storeReg k data.toNat
    let s2 := if bit data.toNat 0 then
        { s1 with bow := { s1.bow with freezeAt := s1.pair (s1.pReg 0x201 .bowFreezeAtLo) (s1.pReg 0x201 .bowFreezeAtHi) } }
      else s1
    if bit data.toNat 1 then s2.sendThaw else s2)

/-- FREEZE_ARM (R232). -/
def runFreezeArm (port : Port) (data : W32) (s : State) : State := s.freezeCmdWrite port data

/-- The command FREEZE_ARM. -/
def execFreezeArm (port : Port) (data : W32) (s : State) : Host.Outcome State Fault Refusal := .next (runFreezeArm port data s)

/-- THAW_ISSUE (R231). -/
def runThawIssue (port : Port) (data : W32) (s : State) : State := s.freezeCmdWrite port data

/-- The command THAW_ISSUE. -/
def execThawIssue (port : Port) (data : W32) (s : State) : Host.Outcome State Fault Refusal := .next (runThawIssue port data s)

/-! ## EMERGENCY (R228, R229) -/

/-- THERM_ACTIVE and OC_ACTIVE follow the converters' lines and the comparators (R508, R228). -/
def State.showActive (s : State) : State :=
  let k := s.pReg 0x201 .bowEmergSrc
  let th := (List.range 4).any (fun b => (s.sensor b).line)
  let oc := !s.power.ocActive.isEmpty
  let s1 := (s.setFld k 8 1 (boolN th)).setFld k 9 1 (boolN oc)
  if th || oc then { s1 with steward := { s1.steward with lastActive := some s1.bow.time } } else s1

/-- Raises EMERGENCY (R228): `i` is the source's bit of BOW_EMERG_SRC. A raise that falls due with one still waiting is
merged into it (R214). -/
def State.raiseEmergency (s : State) (i : Nat) : State :=
  let s1 := (s.setBit (s.pReg 0x201 .bowEmergSrc) i).showActive
  let s2 := if s1.emergActive then s1.refuseReleases else s1
  let s3 := { s2 with bow := { s2.bow with emergHeld := true } }
  if s3.bow.newq.contains .emergency then s3 else s3.bowSend .emergency

/-- The trips that an EMERGENCY now applied finds active persist from now on (R399). -/
def Power.persist (x : Power) (now : Nat) : Power :=
  { x with ocAt := x.ocActive.foldl (fun t r => if (Tbl.find t r).isSome then t else Tbl.put t r now) x.ocAt }

/-- EMERGENCY: every die latches the emergency state; its pattern applies from the next slot boundary (R228), and the
steward's state is EMERGENCY (R403). -/
def runEmergency (s : State) : State :=
  s.applySymbol .emergency (fun s =>
    let s1 := (s.eachDie (fun x => { x with emerg := true })).setFld (s.pReg 0x202 .pwrStatus) 0 1 1
    { s1 with power := s1.power.persist s1.bow.time })

/-- The command EMERGENCY. -/
def execEmergency (s : State) : Host.Outcome State Fault Refusal := .next (runEmergency s)

/-- EMERGENCY_FORCE: a write of BOW_EMERG_SRC; FORCE raises EMERGENCY (R228). FORCE alone is a control core's to write (R461). -/
def runEmergencyForce (port : Port) (data : W32) (s : State) : State :=
  let k := s.pReg 0x201 .bowEmergSrc
  s.guardedWrite port k data.toNat (fun s =>
    let s1 := s.storeReg k (if port.isCore then data.toNat / 2 ^ 16 * 2 ^ 16 else data.toNat)
    if bit data.toNat 16 then s1.raiseEmergency 2 else s1)

/-- The command EMERGENCY_FORCE. -/
def execEmergencyForce (port : Port) (data : W32) (s : State) : Host.Outcome State Fault Refusal := .next (runEmergencyForce port data s)

/-- BOW_EMERG_WRITE: the source distributes the pattern to every die, of which the Brim dies show it; dropped from a raise until its
RELEASE (R228). A write on another Brim die changes what that die shows, and not the pattern that the source has distributed (DESIGN
CHOICE, log 55). -/
def runBowEmergWrite (port : Port) (data : W32) (s : State) : State :=
  let k := s.pReg 0x201 .bowEmerg
  s.guardedWrite port k data.toNat (fun s =>
    if s.bow.emergHeld then s.fwFault k.addr
    else (List.range 4).foldl (fun s b => s.storeReg (uReg (brimIdx b) 0x201 .bowEmerg) data.toNat) s)

/-- The command BOW_EMERG_WRITE. -/
def execBowEmergWrite (port : Port) (data : W32) (s : State) : Host.Outcome State Fault Refusal := .next (runBowEmergWrite port data s)

/-! ## SKIP (R225, R226, R229) -/

/-- SKIP: the throttle at every die; RELEASE also clears the emergency latch (R229). One that R226 or R229 refuses is never sent. -/
def runSkip (release : Bool) (div : BitVec 2) (m : BitVec 4) (s : State) : State :=
  if skipIllegal div.toNat m.toNat then s
  else s.applySymbol (.skip release div.toNat m.toNat) (fun s =>
    let s1 := s.eachDie (fun x => { x with
      skipDiv := div.toNat, skipM := m.toNat, emerg := x.emerg && !release, emergOn := x.emergOn && !release })
    if release then { s1 with bow := { s1.bow with emergHeld := s1.bow.sendq.contains .emergency } } else s1)

/-- The command SKIP. -/
def execSkip (release : Bool) (div : BitVec 2) (m : BitVec 4) (s : State) : Host.Outcome State Fault Refusal := .next (runSkip release div m s)

/-- A write of BOW_SKIP_CMD (R226, R229): a SKIP is sent, or refused with a firmware fault. -/
def State.skipCmdWrite (s : State) (port : Port) (data : W32) : State :=
  let k := s.pReg 0x201 .bowSkipCmd
  let d := data.toNat
  s.guardedWrite port k d (fun s =>
    if bit d 6 && s.emergActive then s.fwFault k.addr
    else s.bowSend (.skip (bit d 6) (fld d 4 2) (fld d 0 4)))

/-- SKIP_ISSUE (R226). -/
def runSkipIssue (port : Port) (data : W32) (s : State) : State := s.skipCmdWrite port data

/-- The command SKIP_ISSUE. -/
def execSkipIssue (port : Port) (data : W32) (s : State) : Host.Outcome State Fault Refusal := .next (runSkipIssue port data s)

/-- RELEASE_ISSUE (R229). -/
def runReleaseIssue (port : Port) (data : W32) (s : State) : State := s.skipCmdWrite port data

/-- The command RELEASE_ISSUE. -/
def execReleaseIssue (port : Port) (data : W32) (s : State) : Host.Outcome State Fault Refusal := .next (runReleaseIssue port data s)

/-! ## Frames in error (R211) -/

/-- A symbol that a die cannot correct, or that encodes no command (R211, R212): at the slot's application the die latches the emergency
state as if it had received EMERGENCY, and it does not apply the slot's own symbol; its partition's job ends. -/
def State.symbolLost (s : State) (d symbol : Nat) : State :=
  (s.modDie d (fun x => { x with deaf := true })).jobFault 0x101B d 0x89 0 symbol (if d < 0x20 then s.partOfDie d else none)

/-- BOW_SYMBOL_UNCORRECTABLE: a die receives the slot's frame in error. A single-bit error is corrected and counted; an uncorrectable
symbol, or one that R212 gives no meaning, is lost. -/
def runBowSymbolUncorrectable (d : DieIdx) (frame : BitVec 26) (s : State) : State :=
  let w := frame.toNat
  let fixed := match secded (w / 2 ^ 13) with
    | some t => t.2
    | none => false
  match secded (w % 2 ^ 13) with
  | some v => if symbolKnown v.1 then (if v.2 || fixed then s.slotFixed d.val else s) else s.symbolLost d.val v.1
  | none => s.symbolLost d.val (w % 256)

/-- The command BOW_SYMBOL_UNCORRECTABLE. -/
def execBowSymbolUncorrectable (d : DieIdx) (frame : BitVec 26) (s : State) : Host.Outcome State Fault Refusal := .next (runBowSymbolUncorrectable d frame s)

/-- The time frame that the slots up to now have completed: slots 8j to 8j + 7 have carried the count of slot 8j's application, 112 ns
before that of the last of them (R210). -/
def State.timeFrame (s : State) : Option Nat :=
  if s.bow.time % 128 = 0 ∧ 128 ≤ s.bow.time then some (s.bow.time - 112) else none

/-- BOW_TIME_FRAME: a die receives the complete frame that the source has sent; a copy that disagrees with it is loaded from it
(R210, R211). -/
def runBowTimeFrame (d : DieIdx) (frame : W64) (s : State) : State :=
  let v := frame.toNat + 112
  let c := (s.die d.val).timeCopy
  if s.timeFrame ≠ some frame.toNat ∨ c = v then s
  else (s.modDie d.val (fun x => { x with timeCopy := v })).fault 0x101A d.val 0x89 0 (c % 2 ^ 32 + v % 2 ^ 32 * 2 ^ 32)

/-- The command BOW_TIME_FRAME. -/
def execBowTimeFrame (d : DieIdx) (frame : W64) (s : State) : Host.Outcome State Fault Refusal := .next (runBowTimeFrame d frame s)

/-! ## Readiness (R216, R222) -/

/-- The job groups of a partition (R347, R348). -/
def State.jobGroups (s : State) (p : Nat) : List (Nat × LGroup) :=
  s.start.groups.filter (fun g => g.2.present && g.2.part == p && !g.2.store)

/-- A control symbol becomes due on every lane of every link of a partition's job groups (R340). -/
def State.toPeers (s : State) (p : Nat) (code : Byte) (arg : Nat) : State :=
  ((s.jobGroups p).flatMap (fun g => g.2.links)).foldl (fun s l => s.queueOnLink code (BitVec.ofNat 24 arg) l) s

/-- The low 16 bits of a partition's step number. -/
def Part.stepArg (x : Part) : Nat := x.stepNo.toNat % 2 ^ 16

/-- BARRIER to every peer, once a partition with peers is ready and its link transfers are acknowledged (R222, R353). -/
def State.barrierSend (s : State) (p : Nat) : State :=
  let x := s.part p
  if s.fldOf (s.pReg 0x201 .bowJob p) 0 8 ≠ 0 ∧ x.readyAt.isSome = true ∧ x.xfers.isEmpty = true ∧ x.barrierTx = false then
    (s.toPeers p 0x10 x.stepArg).modPart p (fun x => { x with barrierTx := true })
  else s

/-- The tiles of a partition on a die. -/
def Part.tilesOf (x : Part) (d : Nat) : List TileId := x.tiles.filter (fun t => t.die.val == d)

/-- Whether a tile has finished its step (R216, R426): END issued, every pass's output ready, every transfer released and
every poison report sent. A fenced tile's sequencer has stopped and holds up no barrier (R435). -/
def State.tileDone (s : State) (t : TileId) : Bool :=
  let x := s.tile t
  x.fenced || x.ended && x.xfers.isEmpty && x.reports.isEmpty && s.arrays.all (fun e => e.1.tile != t || e.2.passes.isEmpty)

/-- Whether a Body die drives its ready line (R216). -/
def State.dieCanReady (s : State) (p d : Nat) : Bool :=
  let x := s.part p
  x.dies.contains d && (!x.launched || (x.tilesOf d).all s.tileDone)

/-- Whether the sampling unit has chosen every token of the running step: lists still due belong to drafts that verification did not
reach (R259). -/
def Part.sampled (x : Part) : Bool := x.groups.all (fun g => !g.draw || x.chosen.any (fun c => c.slot == g.slot && c.final))

/-- Whether the principal contributes readiness (R216): the next step's patches staged, or no next step in an idle partition, and
every token of the step chosen. -/
def State.prinCanReady (s : State) (p : Nat) : Bool :=
  let x := s.part p
  (x.staged || (x.idle && x.running.isSome)) && x.sampled

/-- A partition whose every die and unit is ready becomes ready now, for the first time in the step. -/
def State.readyCheck (s : State) (p : Nat) : State :=
  let x := s.part p
  if x.job = .running ∧ x.readyAt.isNone = true ∧ x.prinReady = true ∧ x.dies.all (fun d => x.readyDies.contains d) = true then
    (s.modPart p (fun x => { x with readyAt := some s.bow.time })).barrierSend p
  else s

/-- DIE_READY: a unit of a running partition becomes ready (R216). -/
def runDieReady (p : PartIdx) (u : ReadyUnit) (s : State) : State :=
  if (s.part p.val).job ≠ .running then s
  else match u with
    | .die d =>
      if s.dieCanReady p.val d.val then
        (s.modPart p.val (fun x => { x with readyDies := x.readyDies.filter (· != d.val) ++ [d.val] })).readyCheck p.val
      else s
    | .principal =>
      if s.prinCanReady p.val then (s.modPart p.val (fun x => { x with prinReady := true })).readyCheck p.val else s

/-- The command DIE_READY. -/
def execDieReady (p : PartIdx) (u : ReadyUnit) (s : State) : Host.Outcome State Fault Refusal := .next (runDieReady p u s)

/-! ## HOLD (R219 to R224) -/

/-- HOLD: the partition is held from T_a until its LAUNCH (R219), and every tile that is not done raises it; the peers get a HOLD symbol
(R222). -/
def runHold (p : PartIdx) (s : State) : State :=
  s.applySymbol (.hold p.val) (fun s =>
    let x := s.part p.val
    match x.barrier with
    | none => s
    | some tb =>
      if x.job = .running ∧ x.heldSince.isNone = true then
        let s1 := s.modPart p.val (fun x => { x with heldSince := some (slotUp tb), holdSent := true })
        let s2 := x.tiles.foldl (fun s t => if s.tileDone t then s else s.setFld (tReg t .tilStatus) 3 1 1) s1
        s2.toPeers p.val 0x11 x.stepArg
      else s)

/-- The command HOLD. -/
def execHold (p : PartIdx) (s : State) : Host.Outcome State Fault Refusal := .next (runHold p s)

/-- The die and unit a schedule overrun names (R221): the lowest Body die whose ready line is clear, else the principal's
unit that is not ready. -/
def State.overrunUnit (s : State) (p : Nat) : Nat × Nat :=
  let x := s.part p
  match (List.range 32).find? (fun d => x.dies.contains d && !x.readyDies.contains d) with
  | some d => (d, 0x89)
  | none => (s.prinDie, if !x.sampled then 0x84 else if x.staged then 0x82 else 0x83)

/-- A job ends here and at every peer (R224): JOB_END carries the step number and the fault class of the cause. -/
def State.jobEndPeers (s : State) (p cls : Nat) : State :=
  let x := s.part p
  let s1 := if x.job = .running ∧ s.fldOf (s.pReg 0x201 .bowJob p) 0 8 ≠ 0 then s.toPeers p 0x12 (x.stepArg + cls * 2 ^ 16) else s
  s1.jobEnd p

/-- When the limit of a hold begins to run: at T_a, where it began, or for a job with peers at the local T_b (R221, R223). -/
def State.holdFrom (s : State) (p : Nat) : Option Nat :=
  let x := s.part p
  x.heldSince.map (fun t => if s.fldOf (s.pReg 0x201 .bowJob p) 0 8 = 0 then t else x.barrier.getD t)

/-- HOLD_LIMIT_EXPIRY: a hold longer than the limit is a schedule overrun, and the job ends (R221, R224). No operation raises it: OPIDX
carries the shape alone (R205). -/
def runHoldLimitExpiry (p : PartIdx) (s : State) : State :=
  match s.holdFrom p.val with
  | none => s
  | some t =>
    if (s.part p.val).job = .running ∧ t + 1000 * s.fldOf (s.pReg 0x201 .bowHoldlim p.val) 0 16 < s.bow.time + 16 then
      let u := s.overrunUnit p.val
      (s.fault 0x1018 u.1 u.2 0 (s.bow.time - t) (some p.val) (s.shapeBits (some p.val))).jobEndPeers p.val 1
    else s

/-- The command HOLD_LIMIT_EXPIRY. -/
def execHoldLimitExpiry (p : PartIdx) (s : State) : Host.Outcome State Fault Refusal := .next (runHoldLimitExpiry p s)

end Sys2Proof.Machine
end

