-- ==== Sys2Proof/Machine/Flash.lean ====
section
/-!
DEFINITION. The flash devices and what start-up reads from them (R446 to R449, R453 to R460): the directory, the fence
map, the calibration area, the firmware manifest and the start record, each parsed from the bytes and checked.
-/

namespace Sys2Proof.Machine

/-! ## Bytes (R446) -/

/-- `n` bytes of the primary or the recovery device; an erased byte reads 0xFF (PRESUMED, log 31). -/
def State.flashB (s : State) (recovery : Bool) (off n : Nat) : List Byte :=
  (List.range n).map (fun i => Tbl.get (if recovery then s.recovery else s.flash) (off + i) 0xFF)

/-- Writes bytes to the primary device. Firmware never writes the recovery device. -/
def State.flashPut (s : State) (off : Nat) (b : List Byte) : State :=
  { s with flash := ((List.range b.length).zip b).foldl (fun t e => Tbl.put t (off + e.1) e.2) s.flash }

/-- The base of a firmware bank. -/
def bankBase (b : Bool) : Nat := if b then 0x1900000 else 0x0100000
/-- The base of a start record slot. -/
def slotBase (b : Bool) : Nat := if b then 0x3200000 else 0x3100000

/-! ## The directory (R447) -/

/-- A directory copy's fields. -/
structure Dir where
  seq : Nat
  active : Bool
  lkgBank : Bool
  activeSr : Bool
  lkgSr : Bool
  trial : Bool
  tried : Bool
  deriving DecidableEq, Repr

/-- With no valid copy, the ROM takes bank A with slot 0 and no trial. -/
def Dir.default : Dir := ⟨0, false, false, false, false, false, false⟩

/-- A directory copy, if it is valid. -/
def State.dirCopy (s : State) (recovery : Bool) (copy : Nat) : Option Dir :=
  let b := s.flashB recovery (0x8000 * copy) 64
  if leAt b 0 4 = 0x52494444 ∧ leAt b 60 4 = crc32 (b.take 60) then
    some ⟨leAt b 4 4, bit (leAt b 8 1) 0, bit (leAt b 9 1) 0, bit (leAt b 10 1) 0, bit (leAt b 11 1) 0, bit (leAt b 12 1) 0, bit (leAt b 12 1) 1⟩
  else none

/-- The copy that is used, and which one it is. -/
def State.directory (s : State) : Dir × Option Nat :=
  match s.dirCopy false 0, s.dirCopy false 1 with
  | some a, some b => if a.seq < b.seq then (b, some 1) else (a, some 0)
  | some a, none => (a, some 0)
  | none, some b => (b, some 1)
  | none, none => (Dir.default, none)

/-- Writes the directory, to the copy that is not in use, with SEQ incremented. -/
def State.writeDir (s : State) (d : Dir) : State :=
  let cur := s.directory
  let copy := match cur.2 with
    | some 0 => 1
    | _ => 0
  let b : List Byte := leBytes 4 0x52494444 ++ leBytes 4 (cur.1.seq + 1) ++
    [BitVec.ofNat 8 (boolN d.active), BitVec.ofNat 8 (boolN d.lkgBank), BitVec.ofNat 8 (boolN d.activeSr),
     BitVec.ofNat 8 (boolN d.lkgSr), BitVec.ofNat 8 (boolN d.trial + 2 * boolN d.tried)] ++ List.replicate 47 0
  s.flashPut (0x8000 * copy) (b ++ leBytes 4 (crc32 b))

/-! ## The fence map (R448) -/

/-- An entry of the fence map. -/
structure FenceEntry where
  die : Nat
  region : Nat
  phys : Nat
  cause : Nat
  tile : Bool
  deriving DecidableEq, Repr

/-- The 32 bits of an entry. -/
def FenceEntry.word (e : FenceEntry) : Nat :=
  e.die + e.region * 2 ^ 5 + e.phys * 2 ^ 14 + e.cause * 2 ^ 20 + boolN e.tile * 2 ^ 31

/-- An entry from its 32 bits. -/
def FenceEntry.ofWord (w : Nat) : FenceEntry := ⟨fld w 0 5, fld w 5 9, fld w 14 6, fld w 20 8, bit w 31⟩

/-- A fence map copy, if it is valid: SEQ and the entries. -/
def State.fenceCopy (s : State) (copy : Nat) : Option (Nat × List FenceEntry) :=
  let base := 0x3300000 + 0x100000 * copy
  let h := s.flashB false base 16
  let n := leAt h 8 4
  if leAt h 0 4 = 0x50454346 ∧ n ≤ 262140 then
    let b := s.flashB false (base + 16) (4 * n)
    if leAt h 12 4 = crc32 b then some (leAt h 4 4, (List.range n).map (fun i => FenceEntry.ofWord (leAt b (4 * i) 4))) else none
  else none

/-- The copy with the higher SEQ: which one, its SEQ, its entries. -/
def State.fenceMap (s : State) : Option (Nat × Nat × List FenceEntry) :=
  match s.fenceCopy 0, s.fenceCopy 1 with
  | some a, some b => if a.1 < b.1 then some (1, b) else some (0, a)
  | some a, none => some (0, a)
  | none, some b => some (1, b)
  | none, none => none

/-- Ascending insertion of entry words. -/
def insNat (x : Nat) : List Nat → List Nat
  | [] => [x]
  | y :: r => if x < y then x :: y :: r else if x = y then y :: r else y :: insNat x r

/-- The fences that the device holds: a tile entry for each fenced tile, an array entry for each fenced array of its own
cause. A tile that BIST fenced at the first boot keeps cause 0x01. -/
def State.fencesHeld (s : State) : List FenceEntry :=
  let tiles := s.tiles.filterMap (fun e => if e.2.fenced then
    some (⟨e.1.die.val, e.1.region.val, 0, if (s.arr (arrOf e.1 0)).cause = 1 then 1 else 7, true⟩ : FenceEntry) else none)
  let arrs := s.arrays.filterMap (fun e =>
    if e.2.st = .fenced ∧ (s.tile e.1.tile).fenced = false then
      some (⟨e.1.tile.die.val, e.1.tile.region.val, e.1.phys.val, e.2.cause.toNat, false⟩ : FenceEntry) else none)
  tiles ++ arrs

/-- Writes the fence map to the copy that is not in use (R434, R448). -/
def State.writeFences (s : State) : State :=
  let w := (s.fencesHeld.map FenceEntry.word).foldl (fun a x => insNat x a) []
  let cur := s.fenceMap
  let copy := match cur with
    | some (0, _) => 1
    | _ => 0
  let seq := match cur with
    | some (_, q, _) => q + 1
    | none => 1
  let b := (w.map (leBytes 4)).flatten
  s.flashPut (0x3300000 + 0x100000 * copy) (leBytes 4 0x50454346 ++ leBytes 4 seq ++ leBytes 4 w.length ++ leBytes 4 (crc32 b) ++ b)

/-! ## The calibration area (R449) -/

/-- An entry of the calibration area: Brim die, diode, ideality, reference temperature. -/
structure DiodeEntry where
  brim : Nat
  k : Nat
  ideal : Nat
  tref : Nat
  deriving DecidableEq, Repr

/-- A copy of the calibration area, if it is valid. -/
def State.calCopy (s : State) (copy : Nat) : Option (Nat × List DiodeEntry) :=
  let base := 0x3500000 + 0x80000 * copy
  let h := s.flashB false base 16
  let n := leAt h 8 4
  if leAt h 0 4 = 0x4C414344 ∧ n ≤ 36 then
    let b := s.flashB false (base + 16) (8 * n)
    if leAt h 12 4 = crc32 b then
      some (leAt h 4 4, (List.range n).map (fun i => ⟨leAt b (8 * i) 1, leAt b (8 * i + 1) 1, leAt b (8 * i + 2) 2, leAt b (8 * i + 4) 2⟩))
    else none
  else none

/-- The copy with the higher SEQ. -/
def State.calArea (s : State) : Option (Nat × Nat × List DiodeEntry) :=
  match s.calCopy 0, s.calCopy 1 with
  | some a, some b => if a.1 < b.1 then some (1, b) else some (0, a)
  | some a, none => some (0, a)
  | none, some b => some (1, b)
  | none, none => none

/-- Writes the calibration area to the copy that is not in use; entries in ascending order of Brim die and k. -/
def State.writeCal (s : State) (l : List DiodeEntry) : State :=
  let cur := s.calArea
  let copy := match cur with
    | some (0, _) => 1
    | _ => 0
  let seq := match cur with
    | some (_, q, _) => q + 1
    | none => 1
  let keys := (l.map (fun e => e.brim * 256 + e.k)).foldl (fun a x => insNat x a) []
  let b := (keys.filterMap (fun k => l.find? (fun e => e.brim * 256 + e.k == k))).flatMap (fun e =>
    leBytes 1 e.brim ++ leBytes 1 e.k ++ leBytes 2 e.ideal ++ leBytes 2 e.tref ++ leBytes 2 0)
  s.flashPut (0x3500000 + 0x80000 * copy) (leBytes 4 0x4C414344 ++ leBytes 4 seq ++ leBytes 4 keys.length ++ leBytes 4 (crc32 b) ++ b)

/-! ## The firmware manifest (R454 to R456) -/

/-- The length of a manifest with `c` components. -/
def manifestLen (c : Nat) : Nat := 240 + 64 * c

/-- Whether a manifest's form and signature verify (R454, R455). -/
def State.manifestOk (s : State) (m : List Byte) : Bool :=
  let c := leAt m 7 1
  let vkey := leAt m 6 1
  let len := manifestLen c
  let pub := sliceB m 16 96
  leAt m 0 4 == 0x53464D46 && leAt m 4 2 == 1 && decide (vkey ≤ 3) && decide (1 ≤ c) && decide (c ≤ 16) &&
    leAt m 12 4 == len && !s.fuses.revoked.contains vkey &&
    (sha384 pub).map (·.toNat) == Config.vendorHash vkey &&
    ecdsaOk pub (m.take (len - 96)) (sliceB m (len - 96) 96)

/-- The compatibility matrix of a manifest. -/
def manifestMatrix (m : List Byte) : List Byte := sliceB m 112 32

/-- The first two rows of the matrix, which the ROM applies (R456). -/
def State.matrixRom (s : State) (x : List Byte) : Bool :=
  decide (leAt x 0 2 ≤ s.fuses.romRev) && decide (s.fuses.romRev ≤ leAt x 2 2) && bit (leAt x 4 1) s.fuses.stepping

/-- Whether a version lies in the range at an offset of the matrix. -/
def matrixIn (x : List Byte) (off w v : Nat) : Bool := decide (leAt x off w ≤ v) && decide (v ≤ leAt x (off + w) w)

/-- Whether every component's digest matches, its bytes read at an offset of the image (R455). -/
def digestsOk (read : Nat → Nat → List Byte) (m : List Byte) : Bool :=
  (List.range (leAt m 7 1)).all (fun i =>
    let e := sliceB m (144 + 64 * i) 64
    sha384 (read (leAt e 8 4) (leAt e 12 4)) == sliceB e 16 48)

/-- The component IDs of a manifest. -/
def manifestIds (m : List Byte) : List Nat := (List.range (leAt m 7 1)).map (fun i => leAt m (144 + 64 * i) 1)

/-! ## The start record (R457 to R460) -/

/-- The entries of a start record: type and whole entry. -/
def srEntries : Nat → List Byte → List (Nat × List Byte)
  | 0, _ => []
  | n + 1, b =>
    let l := leAt b 2 2
    (leAt b 0 2, b.take l) :: srEntries n (if l = 0 then [] else b.drop l)

/-- The bytes of a start record at a flash offset. -/
def State.srBytes (s : State) (recovery : Bool) (off : Nat) : List Byte :=
  s.flashB recovery off (Nat.min (leAt (s.flashB recovery off 64) 8 4) 0x100000)

/-- Whether a start record verifies (R453, R454, R457), for a set's matrix. -/
def State.srOk (s : State) (b x : List Byte) : Bool :=
  let n := leAt b 6 2
  let len := leAt b 8 4
  let serial := leAt b 16 8
  let pub := sliceB b (len - 192) 96
  leAt b 0 4 == 0x54525453 && leAt b 4 2 == 1 && decide (1 ≤ n) && decide (n ≤ 1024) && decide (256 ≤ len) &&
    decide (len ≤ 0x100000) && len == b.length && (serial == 0 || serial == s.fuses.serial.toNat) &&
    matrixIn x 6 2 (leAt b 4 2) &&
    (!s.fuses.ownerSet ||
      (leNat (sha384 pub) == leNat (s.fuses.owner.flatMap (fun w => leBytes 4 w.toNat)) && ecdsaOk pub (b.take (len - 96)) (sliceB b (len - 96) 96)))

/-- The entries of a type. -/
def ofType (l : List (Nat × List Byte)) (t : Nat) : List (List Byte) := (l.filter (fun e => e.1 == t)).map (·.2)

/-- The length that each entry type has (R458, R459). -/
def srLen (t : Nat) : Nat :=
  match t with
  | 1 => 28 | 2 => 64 | 3 => 20 | 4 => 8 | 5 => 40 | 6 => 40 | 7 => 104 | 8 => 14 | 9 => 12 | _ => 0

/-- How many entries of each type there may be. -/
def srMax (t : Nat) : Nat :=
  match t with
  | 1 => 1 | 2 => 16 | 3 => 24 | 4 => 48 | 5 => 4 | 6 => 32 | 7 => 16 | 8 => 1 | 9 => 16 | _ => 0

/-- A field of the device entry, or its default where it does not lie within its own range or the entry is missing
(R460). -/
def devField (e : Option (List Byte)) (off w : Nat) (ok : Nat → Bool) (d : Nat) : Nat :=
  match e with
  | some b => if ok (leAt b off w) then leAt b off w else d
  | none => d

/-- Whether the device entry passes its checks. -/
def devOk (b : List Byte) : Bool :=
  decide (8000 ≤ leAt b 4 2) && decide (leAt b 4 2 ≤ 15000) && decide (leAt b 6 1 ≤ 96) && decide (leAt b 7 1 ≤ 63) &&
    leAt b 13 1 == 0 && decide (leAt b 14 2 ≤ 32736) && leAt b 26 2 == 0

/-- Whether a service-port entry passes its checks. -/
def portOk (b : List Byte) : Bool :=
  decide (leAt b 4 1 ≤ 3) && decide (leAt b 5 1 ≤ 7) && leAt b 5 1 % 4 != 3 && decide (leAt b 6 2 ≤ 4095) && leAt b 10 2 == 0 && leAt b 18 2 == 0

/-- The runs of units of R35. -/
def unitsOk (base n : Nat) : Bool := [1, 2, 4, 8, 16].contains n && base % n == 0 && decide (base + n ≤ 16)

/-- The Crown dies that are home to a run of units (R39). -/
def homesOf (base n : Nat) : List Nat :=
  (List.range 4).filter (fun c => (List.range n).any (fun i => decide ((base + i) / 4 < 2) == decide (c % 2 = 0)))

/-- Whether the numbered ranges of a list are pairwise disjoint; an empty one meets none. -/
def disjoint : List (Nat × Nat × Nat) → Bool
  | [] => true
  | x :: r => r.all (fun y => x.1 != y.1 || x.2.2 == 0 || y.2.2 == 0 || decide (x.2.1 + x.2.2 ≤ y.2.1) || decide (y.2.1 + y.2.2 ≤ x.2.1)) && disjoint r

/-- The partition entries, or the default partition where there is none (R37). -/
def partEntries (es : List (Nat × List Byte)) (allot cache : Nat) : List (List Byte) :=
  match ofType es 2 with
  | [] => [leBytes 2 2 ++ leBytes 2 64 ++ leBytes 1 0 ++ leBytes 1 0 ++ leBytes 1 16 ++ leBytes 1 0 ++ leBytes 1 1 ++
      leBytes 1 (31 - ceilDiv cache 4) ++ leBytes 2 512 ++ leBytes 2 512 ++ leBytes 2 0 ++ leBytes 2 4096 ++ leBytes 2 allot ++ leBytes 2 5600 ++
      leBytes 2 0 ++ leBytes 1 0 ++ leBytes 1 0 ++ leBytes 2 0 ++ leBytes 2 0xFFFF ++ leBytes 34 0]
  | l => l

/-- Whether a partition entry passes its own checks (R233, R265, R458, R459). `dflt`: the default partition, which has no
geometry and no source. -/
def partOk (b : List Byte) (srcs : List Nat) (jobs : Nat) (dflt : Bool) : Bool :=
  let units := leAt b 6 1
  decide (leAt b 4 1 ≤ 15) && unitsOk (leAt b 5 1) units && leAt b 7 1 == 0 &&
    decide (1 ≤ leAt b 9 1) && decide (leAt b 8 1 + leAt b 9 1 ≤ 32) &&
    decide (512 ≤ leAt b 10 2) && decide (1 ≤ leAt b 12 2) && decide (leAt b 10 2 + leAt b 12 2 ≤ 1024) &&
    leAt b 14 2 % 64 == 0 && leAt b 16 2 % 64 == 0 && decide (leAt b 14 2 + leAt b 16 2 ≤ 4096) &&
    leAt b 25 1 == jobs && (leAt b 28 2 == 0xFFFF || (decide (leAt b 28 2 ≤ 4096) && leAt b 28 2 % 64 == 0)) &&
    (dflt ||
      (decide (64 ≤ leAt b 22 2) && decide (leAt b 22 2 ≤ 65472) && leAt b 22 2 % 64 == 0 && decide (1 ≤ leAt b 24 1) &&
       decide (leAt b 24 1 ≤ 8) && srcs.contains (leAt b 30 1) && srcs.contains (leAt b 31 1) &&
       (List.range 32).all (fun i => decide (leAt b (32 + i) 1 ≤ (if i < 2 * units then 63 else 0)))))

/-- The ranges of Crown memory that a start record gives out, by Crown die, in MiB (R460). -/
def crownRanges (parts groups : List (List Byte)) (pfx cache : Nat) : List (Nat × Nat × Nat) :=
  parts.flatMap (fun b => (homesOf (leAt b 5 1) (leAt b 6 1)).map (fun c => (c, 1024 * leAt b 8 1, 1024 * leAt b 9 1))) ++
  (groups.filter (fun b => leAt b 6 1 == 1)).map (fun b => (leAt b 16 1, 1024 * leAt b 17 1, 1024 * leAt b 18 1)) ++
  [(0, pfx, 32)] ++ (List.range 4).map (fun c => (c, 32768 - 1024 * ceilDiv cache 4, 1024 * ceilDiv cache 4))

/-- Whether the entries of a start record pass R460. -/
def srCheck (es : List (Nat × List Byte)) : Bool :=
  let dev := ofType es 1
  let d := dev.head?
  let allot := devField d 4 2 (fun v => decide (8000 ≤ v) && decide (v ≤ 15000)) 15000
  let cache := devField d 6 1 (fun v => decide (v ≤ 96)) 0
  let pfx := devField d 14 2 (fun v => decide (v ≤ 32736)) 0
  let dflt := (ofType es 2).isEmpty
  let parts := partEntries es allot cache
  let groups := ofType es 3
  let links := ofType es 4
  let srcs := (ofType es 6).map (fun b => leAt b 4 1)
  let gids := groups.map (fun b => leAt b 4 1)
  let jobsOf (p : Nat) := (groups.filter (fun b => leAt b 5 1 == p && leAt b 6 1 == 0)).length
  es.all (fun e => srLen e.1 != 0 && e.2.length == srLen e.1) &&
  (List.range 10).all (fun t => decide ((ofType es t).length ≤ srMax t)) &&
  dev.length == 1 && dev.all devOk &&
  parts.all (fun b => partOk b srcs (jobsOf (leAt b 4 1)) dflt) &&
  disjoint (parts.map (fun b => (0, leAt b 5 1, leAt b 6 1))) &&
  (parts.map (fun b => leAt b 4 1)).Nodup &&
  disjoint (parts.map (fun b => (0, leAt b 14 2, leAt b 16 2))) &&
  disjoint (parts.map (fun b => (0, leAt b 10 2, leAt b 12 2))) &&
  decide (parts.foldl (fun a b => a + leAt b 18 2) 0 ≤ allot) &&
  disjoint (crownRanges parts groups pfx cache) &&
  (crownRanges parts groups pfx cache).all (fun r => decide (r.1 ≤ 3) && decide (r.2.1 + r.2.2 ≤ 32768)) &&
  groups.all (fun b => decide (leAt b 4 1 ≤ 23) && decide (leAt b 6 1 ≤ 1) && leAt b 7 1 == 0 && leAt b 19 1 == 0 &&
    (parts.map (fun q => leAt q 4 1)).contains (leAt b 5 1) && links.any (fun l => leAt l 5 1 == leAt b 4 1)) &&
  gids.Nodup &&
  links.all (fun b => decide (leAt b 4 1 ≤ 47) && gids.contains (leAt b 5 1) && (decide (leAt b 6 1 ≤ 47) || leAt b 6 1 == 0xFF) && leAt b 7 1 == 0) &&
  (links.map (fun b => leAt b 4 1)).Nodup &&
  (ofType es 5).all portOk && ((ofType es 5).map (fun b => leAt b 4 1)).Nodup &&
  (ofType es 6).all (fun b => decide (leAt b 5 1 ≤ 3) && leAt b 7 1 == 0 && leAt b 10 2 == 0) && srcs.Nodup &&
  (ofType es 7).all (fun b => decide (leAt b 4 1 ≤ 1) && decide (leAt b 5 1 ≤ 7) && leAt b 6 2 == 0) &&
  (ofType es 8).all (fun b => decide (leAt b 5 1 ≤ 8)) &&
  (ofType es 9).all (fun b => gids.contains (leAt b 5 1) && leAt b 6 2 == 0 && (parts.map (fun q => leAt q 4 1)).contains (leAt b 4 1))

/-- What a start record gives the device as a whole (R458): device and service-port entries where they pass their own
checks, the rest where the whole record passes. -/
def srDevice (es : List (Nat × List Byte)) (serial : Nat) (ok : Bool) : StartRec :=
  let d := (ofType es 1).head?
  let any (v : Nat) : Bool := decide (0 ≤ v)
  let grp (b : List Byte) : LGroup :=
    { present := true, part := leAt b 5 1, store := leAt b 6 1 == 1, partner := BitVec.ofNat 64 (leAt b 8 8),
      storeCw := leAt b 16 1, storeBase := leAt b 17 1, storeLen := leAt b 18 1,
      links := ((ofType es 4).filter (fun l => leAt l 5 1 == leAt b 4 1)).map (fun l => leAt l 4 1) |>.foldl (fun a x => insNat x a) [] }
  let src (b : List Byte) : Source :=
    { present := true, kind := leAt b 5 1, via := leAt b 6 1, udp := leAt b 8 2, ipv4 := BitVec.ofNat 32 (leAt b 12 4),
      ipv6 := BitVec.ofNat 128 (leAt b 16 16), object := BitVec.ofNat 64 (leAt b 32 8) }
  let keys (kind : Nat) : Tbl Nat (List Byte) :=
    ((ofType es 7).filter (fun b => leAt b 4 1 == kind)).map (fun b => (leAt b 5 1, sliceB b 8 96))
  let tree := (ofType es 8).head?
  { present := true, valid := ok, serial := BitVec.ofNat 64 serial,
    devAllot := devField d 4 2 (fun v => decide (8000 ≤ v) && decide (v ≤ 15000)) 15000,
    boltCache := devField d 6 1 (fun v => decide (v ≤ 96)) 0, spareRes := devField d 7 1 (fun v => decide (v ≤ 63)) 2,
    rackId := BitVec.ofNat 32 (devField d 8 4 any 0), rackPos := devField d 12 1 any 0,
    pfxBase := devField d 14 2 (fun v => decide (v ≤ 32736)) 0, repairMs := devField d 24 2 any 0,
    groups := if ok then (ofType es 3).map (fun b => (leAt b 4 1, grp b)) else [],
    linkExpect := if ok then (ofType es 4).map (fun b => (leAt b 4 1, if leAt b 6 1 = 0xFF then none else some (leAt b 6 1))) else [],
    sources := if ok then (ofType es 6).map (fun b => (leAt b 4 1, src b)) else [],
    formKeys := if ok then keys 0 else [], boltKeys := if ok then keys 1 else [],
    parent := match tree with
      | some b => if ok = true ∧ leAt b 4 1 ≠ 0xFF then some (leAt b 4 1) else none
      | none => none,
    children := match tree with
      | some b => if ok then (List.range (leAt b 5 1)).map (fun i => leAt b (6 + i) 1) else []
      | none => [],
    cold := if ok then (ofType es 9).map (fun b => (leAt b 4 1, (leAt b 5 1, leAt b 8 4))) else [] }

end Sys2Proof.Machine
end

