-- ==== Sys2Proof/Machine/FormImage.lean ====
section
/-!
DEFINITION. The form image (R171 to R203): its header, section table and records, and the loader's checks 3 and 4 of R201,
which read nothing but the image, the partition's dies and home Crown dies, and the compatibility matrix (R456).
-/

namespace Sys2Proof.Machine

/-! ## Failures (R175, R205, R441) -/

/-- A failed check: fault code, section type (0 for the header and the section table), record index. -/
structure LoadErr where
  code : Nat
  sec  : Nat
  idx  : Nat
  deriving DecidableEq, Repr

/-- The first index below `n` at which a test fails. -/
def firstBad (n : Nat) (ok : Nat → Bool) : Option Nat := (List.range n).find? (fun i => !ok i)

/-- The failure of a section whose record `i` is the first bad one. -/
def bad (code sec : Nat) (i : Option Nat) : Option LoadErr := i.map (fun i => ⟨code, sec, i⟩)

/-- A test of a whole section. -/
def must (code sec : Nat) (ok : Bool) : Option LoadErr := if ok then none else some ⟨code, sec, 0⟩

/-- The first failure of checks in order. -/
def firstErr : List (Option LoadErr) → Option LoadErr
  | [] => none
  | some e :: _ => some e
  | none :: r => firstErr r

/-- The numbered elements of a list. -/
def numbered {α : Type} (l : List α) : List (Nat × α) := (List.range l.length).zip l

/-! ## Header and section table (R171, R173) -/

/-- The signed span of an image: bytes 0 to IMAGE_LEN − 97. -/
def signedSpan (m : List Byte) : Nat := leAt m 28 4 - 96

/-- A section table entry. -/
structure Sec where
  type  : Nat
  rsvd  : Nat
  off   : Nat
  len   : Nat
  count : Nat
  deriving DecidableEq, Repr

/-- The section table. -/
def sections (m : List Byte) : List Sec :=
  (List.range (leAt m 41 1)).map (fun i =>
    let b := 48 + 16 * i
    ⟨leAt m b 2, leAt m (b + 2) 2, leAt m (b + 4) 4, leAt m (b + 8) 4, leAt m (b + 12) 4⟩)

/-- The entry of a section type. -/
def secOf (l : List Sec) (ty : Nat) : Option Sec := l.find? (fun s => s.type == ty)

/-- The bytes of a section, empty where the form has none. -/
def secBytes (m : List Byte) (ty : Nat) : List Byte :=
  match secOf (sections m) ty with
  | some s => (m.drop s.off).take s.len
  | none => []

/-- The record count of a section. -/
def secCount (m : List Byte) (ty : Nat) : Nat :=
  match secOf (sections m) ty with
  | some s => s.count
  | none => 0

/-- Header values and reserved fields (R171), and FMT_VERSION within the matrix (R456). -/
def formHeaderOk (matrix m : List Byte) : Bool :=
  leAt m 0 4 == 0x4D524F46 && leAt m 4 2 == 1 && matrixIn matrix 10 2 (leAt m 4 2) && decide (leAt m 7 1 ≤ 1) &&
  [1, 2, 4, 8, 16].contains (leAt m 8 1) && leAt m 9 1 % leAt m 8 1 == 0 && decide (leAt m 9 1 + leAt m 8 1 ≤ 16) &&
  decide (1 ≤ leAt m 10 1) && decide (leAt m 10 1 ≤ 16) && leAt m 11 1 == 0 && decide (1 ≤ leAt m 12 2) && decide (leAt m 12 2 ≤ 256) &&
  leAt m 14 2 == 0 && leAt m 16 4 % 64 == 0 && decide (64 ≤ leAt m 16 4) && decide (leAt m 16 4 ≤ 16777216) &&
  decide (1 ≤ leAt m 20 4) && decide (leAt m 20 4 ≤ 131072) && decide (leAt m 40 1 ≤ 7) && decide (1 ≤ leAt m 41 1) &&
  decide (leAt m 41 1 ≤ 16) && leAt m 42 6 == 0

/-- Two sections overlap. -/
def Sec.meets (a b : Sec) : Bool := decide (a.off < b.off + b.len) && decide (b.off < a.off + a.len)

/-- The rules of R173 for entry `i`. -/
def secOk (span : Nat) (l : List Sec) (i : Nat) : Bool :=
  match l[i]? with
  | none => false
  | some s =>
    decide (1 ≤ s.type) && decide (s.type ≤ 12) && s.rsvd == 0 && s.off % 16 == 0 && decide (s.off + s.len ≤ span) &&
    (l.take i).all (fun r => r.type != s.type && !r.meets s)

/-- Header and section table. -/
def headErr (matrix m : List Byte) : Option LoadErr :=
  let l := sections m
  firstErr [must 0x1003 0 (formHeaderOk matrix m), bad 0x1003 0 (firstBad l.length (secOk (signedSpan m) l)),
    must 0x1003 0 ((List.range 10).all (fun i => (secOf l (i + 1)).isSome))]

/-! ## Records of fixed size -/

/-- Record `i` of a section of `w`-byte records. -/
def recAt (b : List Byte) (w i : Nat) : List Byte := sliceB b (w * i) w

/-- A step shape record (R180). -/
def parseShape (r : List Byte) : Shape :=
  { d := leAt r 0 2, maxDraft := leAt r 2 1, p := leAt r 4 2, length := leAt r 8 4, planEnd := leAt r 12 4, slack := leAt r 16 4,
    reserve := leAt r 20 4, sampleAt := leAt r 24 4 }

def shapeOk (r : List Byte) : Bool :=
  decide (leAt r 0 2 ≤ 256) && decide (leAt r 2 1 ≤ 8) && leAt r 3 1 == 0 && decide (leAt r 4 2 ≤ 4096) && leAt r 4 2 % 64 == 0 &&
  leAt r 6 2 == 0 && decide (6000 ≤ leAt r 8 4) && decide (leAt r 8 4 ≤ 200000) && leAt r 28 4 == 0

/-- A layer numerics record (R83). -/
def parseLayer (r : List Byte) : Numerics :=
  { napSlots := leAt r 0 1, napFactor := leAt r 1 1, satPolicy := leAt r 2 1, nwPolicy := leAt r 3 1, nwShift := leAt r 4 1,
    threshold := leAt r 6 2 }

def layerOk (r : List Byte) : Bool :=
  let n := parseLayer r
  [0, 2, 4].contains n.napSlots && (n.napSlots == 0 || (decide (2 ≤ n.napFactor) && decide (n.napFactor ≤ 5))) &&
  decide (n.satPolicy ≤ 2) && decide (n.nwPolicy ≤ 3) && leAt r 5 1 == 0 &&
  (n.nwPolicy == 3 || (decide (1 ≤ n.nwShift) && decide (n.nwShift ≤ 8) && n.threshold != 0)) && leAt r 8 8 == 0

/-- A tile directory entry (R176). -/
def parseDir (r : List Byte) : TileDir := ⟨leAt r 0 1, leAt r 2 2, leAt r 4 2, leAt r 6 2⟩

def dirOk (dies : List Nat) (r : List Byte) : Bool :=
  let alt (a : Nat) : Bool := decide (a < 512) || a == 0xFFFF
  dies.contains (leAt r 0 1) && leAt r 1 1 == 0 && decide (leAt r 2 2 < 512) && alt (leAt r 4 2) && alt (leAt r 6 2)

/-- A ticket plan entry (R197). -/
def parseTicket (r : List Byte) : TicketPlan := ⟨leAt r 0 2, leAt r 2 1, leAt r 4 2, leAt r 6 2⟩

def ticketOk (tiles shapes : Nat) (r : List Byte) : Bool := decide (leAt r 0 2 < tiles) && decide (leAt r 2 1 < shapes) && leAt r 3 1 == 0

/-- An array request (R199): the format of each used logical array. -/
def parseArrays (r : List Byte) : List (Option Nat) := r.map (fun b => if bit b.toNat 7 then some (fld b.toNat 0 2) else none)

def arraysOk (r : List Byte) : Bool := r.all (fun b => fld b.toNat 2 5 == 0 && (!bit b.toNat 7 || fld b.toNat 0 2 != 3))

/-- A traffic plan entry (R200). -/
def parseTraffic (r : List Byte) : Traffic := ⟨leAt r 0 1, leAt r 1 1, leAt r 2 2, leAt r 4 1, leAt r 8 4, leAt r 12 4⟩

def trafficOk (shapes : Nat) (r : List Byte) : Bool :=
  decide (leAt r 0 1 < shapes) && decide (leAt r 1 1 ≤ 3) && decide (leAt r 4 1 ≤ 1) && (leAt r 1 1 != 0 || leAt r 4 1 == 0) && leAt r 5 3 == 0

/-- A patch entry (R202). -/
def parsePatch (r : List Byte) : Patch :=
  let sl := leAt r 12 2
  { ltile := fld (leAt r 0 2) 0 14, shape := leAt r 2 1, target := leAt r 3 1, index := fld (leAt r 4 4) 0 24, quantity := leAt r 8 1,
    lsb := leAt r 9 1, width := leAt r 10 1, draft := leAt r 11 1, prefill := bit sl 15, slot := fld sl 0 12,
    addend := sext 64 (leAt r 16 8), mult := leAt r 24 8 }

def patchOk (r : List Byte) : Bool :=
  let p := parsePatch r
  fld (leAt r 0 2) 14 2 == 0 && leAt r 7 1 == 0 && fld (leAt r 12 2) 12 3 == 0 && leAt r 14 2 == 0 && decide (p.draft ≤ 8) &&
  (p.prefill || decide (p.slot < 256)) && [0, 1, 2, 3, 0x10, 0x11, 0x12, 0x13, 0x14].contains p.quantity

/-- The records of a section of fixed size: `n` of them where the header gives the number, else as many as COUNT says. -/
def fixedErr (m : List Byte) (ty w : Nat) (n : Option Nat) (ok : List Byte → Bool) : Option LoadErr :=
  let b := secBytes m ty
  let c := secCount m ty
  firstErr [must 0x1003 ty (b.length == w * c && (n.getD c) == c), bad 0x1003 ty (firstBad c (fun i => ok (recAt b w i)))]

/-- The parsed records of a section of fixed size. -/
def fixedRecs {α : Type} (m : List Byte) (ty w : Nat) (f : List Byte → α) : List α :=
  (List.range (secCount m ty)).map (fun i => f (recAt (secBytes m ty) w i))

/-! ## Operation words (R182, R187, R194, R195) -/

/-- An operation word. -/
def parseOp (r : List Byte) : FormOp := ⟨fld (leAt r 0 3) 0 18, leAt r 3 1, sliceB r 4 12⟩

/-- Operand fields in the 96 bits of operand bytes 4 to 15. -/
def mDst : Nat := 0x1F
def mS1 : Nat := 0x1F * 2 ^ 8
def mS2 : Nat := 0x1F * 2 ^ 16
def mS3 : Nat := 0x1F * 2 ^ 24
def mFmt : Nat := 3 * 2 ^ 32
def mAux (n : Nat) : Nat := (2 ^ n - 1) * 2 ^ 40
def mAddr : Nat := 0x7FFFF * 2 ^ 48
def mImm : Nat := 0xFFFF * 2 ^ 80

/-- The operand bits an opcode uses; none for an opcode that the table does not hold. Every other bit is 0. -/
def opMask (o : Nat) : Option Nat :=
  if o ∈ [0x01, 0x02, 0x03] then some (0x3F + 0x0F * 2 ^ 8 + 0xFFFF * 2 ^ 16 + (2 ^ 56 - 1) * 2 ^ 32)
  else if o = 0x08 then some (mDst + mFmt + mAux 6)
  else if o = 0x10 then some (mDst + mAddr)
  else if o = 0x11 then some (mS1 + mAddr)
  else if o = 0x12 then some (mDst + mFmt + mAux 8 + mAddr)
  else if o = 0x13 then some (mDst + mAux 2 + mAddr + 0xFF * 2 ^ 67 + mImm)
  else if o = 0x14 then some (mDst + mAux 2 + mAddr + mImm)
  else if o ∈ [0x20, 0x21, 0x22, 0x24, 0x25] then some (mDst + mS1 + mS2 + mFmt)
  else if o ∈ [0x23, 0x29] then some (mDst + mS1 + mS2 + mS3 + mFmt)
  else if o ∈ [0x26, 0x27] then some (mDst + mS1 + mFmt)
  else if o = 0x28 then some (mDst + mS1 + mS2 + mFmt + 7 * 2 ^ 36)
  else if o ∈ [0x30, 0x31, 0x32, 0x33, 0x34] then some (mDst + mS1 + mS2 + mFmt)
  else if o = 0x38 then some (mDst + mS1 + mFmt + 3 * 2 ^ 34)
  else if o ∈ [0x40, 0x41, 0x42, 0x43, 0x48, 0x4A, 0x4B, 0x4C] then some (mDst + mS1 + mFmt)
  else if o = 0x49 then some (mDst + mS1 + mS2 + mFmt)
  else if o ∈ [0x50, 0x51] then some (mDst + mS1 + mFmt + mImm)
  else if o = 0x52 then some (mDst + mS1 + mS2 + mFmt)
  else if o = 0x53 then some (mDst + (2 ^ 44 - 1) * 2 ^ 32)
  else if o = 0x58 then some (mS1 + mFmt + mAux 8 + mAddr)
  else if o = 0x59 then some (mAux 3 + mAddr)
  else if o = 0x5A then some (2 ^ 32 - 1 + (2 ^ 27 - 1) * 2 ^ 32 + (2 ^ 17 - 1) * 2 ^ 64 + 0x1F * 2 ^ 88)
  else if o = 0x60 then some 0x3FF
  else if o = 0x70 then some (0x1F + 0xFFFF * 2 ^ 16)
  else if o = 0x7F then some 0
  else none

/-- Whether an opcode is a pass. -/
def isPass (o : Nat) : Bool := o == 1 || o == 2 || o == 3

/-- Operand ranges of a pass (R194, R114). -/
def passOk (layers : List Numerics) (o : FormOp) : Bool :=
  let a := sext 8 (fld (leNat o.oper) 16 8)
  match layers[o.passLayer]? with
  | none => false
  | some n =>
    decide (-18 ≤ a) && decide (a ≤ 8) && o.close != 3 &&
    (if o.opcode = 3 then n.napSlots != 0 && o.close != 0 && (List.range 4).all (fun k => o.swatch k == 0)
     else (if n.napSlots = 0 then o.close != 0 else o.close == 0) &&
      (List.range 4).all (fun k => if k < o.segs then decide (o.swatch k < 12288) else o.swatch k == 0))

/-- The conversions of R73, as pairs of format codes: FP16 and bfloat16 into each other and into INT32, INT32 into both and into INT8. -/
def cvtPairs : List (Nat × Nat) := [(0, 1), (1, 0), (0, 2), (1, 2), (2, 0), (2, 1), (2, 3)]

/-- Whether an operation's FMT is one of its formats (R155, R195). The packed INT8 operations have one format only: FMT 3, or 0 as a
field that they do not use (DEDUCED, log 57). -/
def fmtOk (code v : Nat) : Bool :=
  let f := fld v 32 2
  if code = 0x08 ∨ code = 0x12 ∨ code = 0x58 ∨ (0x40 ≤ code ∧ code ≤ 0x43) then decide (f ≤ 1)
  else if (0x20 ≤ code ∧ code ≤ 0x29) ∨ (0x48 ≤ code ∧ code ≤ 0x4C) then decide (f ≤ 2)
  else if 0x30 ≤ code ∧ code ≤ 0x34 then f == 0 || f == 3
  else if code = 0x38 then cvtPairs.contains (f, fld v 34 2)
  else true

/-- Operand ranges of the other classes (R145, R146, R155, R156, R195). -/
def vecOk (layers : List Numerics) (o : FormOp) : Bool :=
  let v := leNat o.oper
  let code := o.opcode
  let inScp := decide (o.addr < 0x60000)
  fmtOk code v &&
  if code = 0x08 then decide (fld v 0 5 ≤ 28)
  else if code = 0x12 ∨ code = 0x58 then decide (o.aux < layers.length) && inScp
  else if code = 0x13 then o.aux != 3 && decide ((fld v 67 8 + 1) * 2 ^ o.aux ≤ 256) && o.addr % 2 ^ o.aux == 0 && inScp
  else if code = 0x14 then o.aux != 3 && o.addr % 32 == 0 && decide (fld v 0 5 ≤ 28) && inScp
  else if code = 0x10 ∨ code = 0x11 ∨ code = 0x59 then inScp
  else if code = 0x28 then decide (fld v 36 3 ≤ 5)
  else if code = 0x5A then decide (fld v 0 19 < 0x60000) && decide (fld v 19 13 < 4096) && decide (fld v 32 19 < 0x60000)
  else true

/-- Whether an operation word is well formed. -/
def opOk (layers : List Numerics) (r : List Byte) : Bool :=
  let o := parseOp r
  fld (leAt r 0 3) 18 6 == 0 &&
  (match opMask o.opcode with
   | none => false
   | some k => (leNat o.oper &&& (2 ^ 96 - 1 - k)) == 0) &&
  (if isPass o.opcode then passOk layers o else vecOk layers o)

/-- The list of a tile's operations for a shape: offset and count. -/
def progEntry (b : List Byte) (tile shape : Nat) : Nat × Nat := (leAt b (128 * tile + 8 * shape) 4, leAt b (128 * tile + 8 * shape + 4) 4)

/-- The operation words of a tile for a shape. -/
def progWords (b : List Byte) (tile shape : Nat) : List (List Byte) :=
  let e := progEntry b tile shape
  pieces 16 e.2 ((b.drop e.1).take (16 * e.2))

/-- Whether a tile's lists lie in the section, are empty for shapes the form has not, and end with their one END. -/
def progsFit (b : List Byte) (shapes tile : Nat) : Bool :=
  (List.range 16).all (fun k =>
    let e := progEntry b tile k
    e.2 == 0 || (decide (k < shapes) && decide (e.1 + 16 * e.2 ≤ b.length) &&
      ((progWords b tile k).map (fun w => leAt w 3 1)).idxOf 0x7F == e.2 - 1))

/-- The tile programs: the first bad list names its tile, the first bad word its form operation index. -/
def progErr (m : List Byte) (tiles shapes : Nat) (layers : List Numerics) : Option LoadErr :=
  let b := secBytes m 4
  firstErr [must 0x1003 4 (secCount m 4 == tiles && decide (128 * tiles ≤ b.length)), bad 0x1003 4 (firstBad tiles (progsFit b shapes)),
    bad 0x1003 4 ((List.range tiles).findSome? (fun t => (List.range 16).findSome? (fun k =>
      ((numbered (progWords b t k)).find? (fun w => !opOk layers w.2)).map (·.1))))]

/-! ## Counted records: descriptor images, bound images, scratchpad maps -/

/-- Per logical tile a 4-byte count and that many records of `w` bytes. -/
def counted (w : Nat) : Nat → List Byte → Option (List (List (List Byte)))
  | 0, _ => some []
  | n + 1, b =>
    let c := leAt b 0 4
    if b.length < 4 + w * c then none else (counted w n (b.drop (4 + w * c))).map (fun r => pieces w c (b.drop 4) :: r)

/-- The records of a counted section; empty lists where it is malformed. -/
def countedRecs (m : List Byte) (ty w tiles : Nat) : List (List (List Byte)) := (counted w tiles (secBytes m ty)).getD (List.replicate tiles [])

/-- A counted section: at most `most` records a tile, each well formed; a bad record names its index. -/
def countedErr (m : List Byte) (ty w tiles most : Nat) (ok : List Byte → Bool) : Option LoadErr :=
  match counted w tiles (secBytes m ty) with
  | none => some ⟨0x1003, ty, 0⟩
  | some l =>
    firstErr [must 0x1003 ty (secCount m ty == tiles), bad 0x1003 ty (firstBad l.length (fun i => decide (((l[i]?).getD []).length ≤ most))),
      bad 0x1003 ty (l.findSome? (fun t => ((numbered t).find? (fun r => !ok r.2)).map (·.1)))]

/-- Whether a form address may be relocated (R178): a home position, a unit region of a Body die, the Brim SRAM, or a home Crown
die. -/
def addrForm (dirs : List TileDir) (homes : List Nat) (a : Nat) : Bool :=
  let d := addrDie a
  if d < 0x20 then decide (512 ≤ addrRegion a) || dirs.any (fun t => t.die == d && t.home == addrRegion a)
  else d == 0x20 || (decide (0x24 ≤ d) && decide (d < 0x28) && homes.contains (d - 0x24))

/-- A descriptor image (R148, R178). -/
def descOk (dirs : List TileDir) (homes : List Nat) (r : List Byte) : Bool :=
  leAt r 6 2 == 0 && leAt r 14 2 == 0 && fld (leAt r 16 4) 20 12 == 0 && leAt r 21 1 == 0 && leAt r 23 1 == 0 && fld (leAt r 24 2) 5 10 == 0 &&
  fld (leAt r 26 2) 10 6 == 0 && fld (leAt r 28 1) 1 7 == 0 && leAt r 29 3 == 0 &&
  addrForm dirs homes (leAt r 0 6) && addrForm dirs homes (leAt r 8 6)

/-- A bound image (R179). -/
def parseBound (r : List Byte) : BoundImg := ⟨leAt r 0 1, leAt r 2 2, leAt r 4 2, leAt r 8 4, leAt r 12 4⟩

def boundOk (regions : List Nat) (homes : List Nat) (r : List Byte) : Bool :=
  let b := parseBound r
  leAt r 1 1 == 0 && leAt r 6 2 == 0 &&
  (match b.kind with
   | 0 => true
   | 1 => match regions[b.target]? with
     | some n => decide (b.region < n)
     | none => false
   | 2 => homes.contains b.target && decide (1 ≤ b.length)
   | 3 => decide (1 ≤ b.length)
   | _ => false)

/-- A scratchpad map region (R196). -/
def parseRegion (r : List Byte) : ScpRegion :=
  let a := leAt r 4 4
  ⟨fld (leAt r 0 4) 0 19, fld a 0 20, bit a 20, bit a 21⟩

def regionOk (r : List Byte) : Bool := fld (leAt r 0 4) 19 13 == 0 && fld (leAt r 4 4) 22 10 == 0

/-! ## Detokenisation table (R369) -/

/-- The offsets of the strings. -/
def detokOffs (b : List Byte) : List Nat := (List.range (leAt b 0 4 + 1)).map (fun i => leAt b (8 + 4 * i) 4)

/-- The strings of the table. -/
def detokStrings (b : List Byte) : List (List Byte) :=
  let o := detokOffs b
  let base := 8 + 4 * o.length
  (o.zip (o.drop 1)).map (fun e => (b.drop (base + e.1)).take (e.2 - e.1))

/-- The rules of R369. -/
def detokOk (b : List Byte) (vocab : Nat) : Bool :=
  leAt b 0 4 == vocab && decide (leAt b 4 4 ≤ 4194304) && b.length == 8 + 4 * (vocab + 1) + leAt b 4 4 &&
  (let o := detokOffs b
   o.head? == some 0 && o.getLast? == some (leAt b 4 4) && (o.zip (o.drop 1)).all (fun e => decide (e.1 ≤ e.2) && decide (e.2 ≤ e.1 + 64)))

/-! ## Check 3 and the parsed form -/

/-- Check 3 of R201: the first failure in the order of the section table's types. -/
def malformed (matrix : List Byte) (dies homes : List Nat) (m : List Byte) : Option LoadErr :=
  match headErr matrix m with
  | some e => some e
  | none =>
    let n := secCount m 3
    let shapes := leAt m 10 1
    let layers := fixedRecs m 2 16 parseLayer
    let dirs := fixedRecs m 3 8 parseDir
    let regions := (countedRecs m 7 8 n).map List.length
    firstErr [fixedErr m 1 32 (some shapes) shapeOk, fixedErr m 2 16 (some (leAt m 12 2)) layerOk, fixedErr m 3 8 none (dirOk dies),
      must 0x1003 3 (decide (n ≤ 16384)), progErr m n shapes layers, countedErr m 5 32 n 1024 (descOk dirs homes),
      countedErr m 6 16 n 256 (boundOk regions homes), countedErr m 7 8 n 64 regionOk, fixedErr m 8 8 none (ticketOk n shapes),
      fixedErr m 9 64 (some n) arraysOk, fixedErr m 10 16 none (trafficOk shapes),
      if (secOf (sections m) 11).isSome then fixedErr m 11 32 none patchOk else none,
      if (secOf (sections m) 12).isSome then must 0x1003 12 (detokOk (secBytes m 12) (leAt m 20 4)) else none]

/-- The form of an image that passes check 3. -/
def parseForm (m : List Byte) : Form :=
  let n := secCount m 3
  let dirs := fixedRecs m 3 8 parseDir
  let descs := countedRecs m 5 32 n
  let bounds := countedRecs m 6 16 n
  let maps := countedRecs m 7 8 n
  let arrays := fixedRecs m 9 64 parseArrays
  { formId := BitVec.ofNat 64 (leAt m 32 8), fmtVersion := leAt m 4 2, contract := leAt m 6 1, calib := bit (leAt m 7 1) 0,
    units := leAt m 8 1, unitBase := leAt m 9 1, maxContext := leAt m 16 4, vocab := leAt m 20 4, linkLatMax := leAt m 24 4,
    keyId := leAt m 40 1, shapes := fixedRecs m 1 32 parseShape, layers := fixedRecs m 2 16 parseLayer,
    tiles := (numbered dirs).map (fun e =>
      { dir := e.2, programs := (List.range (leAt m 10 1)).map (fun k => (progWords (secBytes m 4) e.1 k).map parseOp),
        descs := (descs[e.1]?).getD [], bounds := ((bounds[e.1]?).getD []).map parseBound,
        scpMap := ((maps[e.1]?).getD []).map parseRegion, arrays := (arrays[e.1]?).getD [] }),
    tickets := fixedRecs m 8 8 parseTicket, traffic := fixedRecs m 10 16 parseTraffic, patches := fixedRecs m 11 32 parsePatch,
    detok := if (secOf (sections m) 12).isSome then detokStrings (secBytes m 12) else [] }

/-! ## Check 4 (R181) -/

/-- Whether a shape is accepted. -/
def Shape.accepted (x : Shape) (layers : List Numerics) : Bool :=
  decide (1 ≤ x.d * (1 + x.maxDraft) + x.p) && decide (x.sampleAt + 2000 ≤ x.planEnd) && decide (x.sampleAt + 6000 ≤ x.length) &&
  decide (ceilDiv x.length 100 ≤ x.slack) && decide (x.planEnd + x.slack + x.reserve ≤ x.length) &&
  (!layers.any (fun n => n.satPolicy == 2) || decide (64 ≤ x.reserve))

/-- Check 4 of R201. -/
def Form.shapeErr (f : Form) : Option LoadErr :=
  bad 0x1003 1 (firstBad f.shapes.length (fun i => match f.shapes[i]? with
    | some x => x.accepted f.layers
    | none => false))

end Sys2Proof.Machine
end

