-- ==== Sys2Proof/Machine/Reset.lean ====
section
/-!
DEFINITION. The reset of the device (R531), the rails and converters of its dies (R398), and the counting of calibration
failures (R415), which start-up and the Conformer share.
-/

namespace Sys2Proof.Machine

/-! ## Reset (R531) -/

/-- What a module keeps through a reset: itself and its EEPROM. -/
def Laser.kept (x : Laser) : Laser := { Laser.reset with inCage := x.inCage, eeprom := x.eeprom }

/-- Every die is reset, every laser turns off and resident state is lost (R93, R531). Flash, the fuses, the modules in
their cages, the supplies, and THERMTRIP_N stay (R530 to R532, R539). -/
def State.deviceReset (s : State) : State :=
  { State.reset with
    pending := s.pending, flash := s.flash, recovery := s.recovery, fuses := s.fuses,
    lasers := Tbl.mapV s.lasers (fun _ x => x.kept),
    power := { s.power with ocActive := [], ocAt := [], railsOff := [] },
    outputs := s.outputs, fresh := s.fresh }

/-! ## Rails and bus converters (R398) -/

/-- The intermediate bus converter that feeds a die: 0 to 15 of the units, 16 and 17 of the north and south Crown pairs, 18 and
19 of the west and east Brim pairs. -/
def converterOf (d : Nat) : Nat :=
  if d < 0x20 then unitOfDie d
  else if d < 0x24 then (if d < 0x22 then 18 else 19)
  else (if d < 0x26 then 16 else 17)

/-- Whether the bus converter of a die runs. -/
def State.busUp (s : State) (d : Nat) : Bool := !s.power.downBus.contains (converterOf d)

/-- The die of a regulator output. -/
def railDie : Rail → Nat
  | .vcore d | .varr d | .vful d => d.val
  | .edgeBrim b _ => brimIdx b.val
  | .edgeCrown c _ => crownIdx c.val

/-- The DETAIL of a rail fault: 0 VCORE, 1 VARR, 2 VFUL, 3 and 4 the outputs of an edge regulator (DESIGN CHOICE, log 40). -/
def railCode : Rail → Nat
  | .vcore _ => 0
  | .varr _ => 1
  | .vful _ => 2
  | .edgeBrim _ b | .edgeCrown _ b => if b then 4 else 3

/-! ## Calibration failures (R415) -/

/-- A discarded result, at the Brim die that reports the unit: FAIL, CNF_LASTFAIL and CNF_FAILS; at the third consecutive
failure also SUSPECT. `count` is the unit's consecutive failures, this one included. -/
def State.calFail (s : State) (b target die unit count : Nat) : State :=
  let r := brimIdx b
  let s1 := s.setBit (uReg r 0x204 .cnfEvents) 0
  let s2 := s1.setReg (uReg r 0x204 .cnfLastfail)
    (BitVec.ofNat 32 (target + die % 64 * 2 ^ 8 + unit % 2 ^ 15 * 2 ^ 14 + Nat.min 3 count * 2 ^ 29))
  let s3 := s2.bump (uReg r 0x204 .cnfFails) 0 16 1
  if count = 3 then (s3.setBit (uReg r 0x204 .cnfEvents) 1).bump (uReg r 0x204 .cnfFails) 16 16 1 else s3

end Sys2Proof.Machine
end

