-- ==== Sys2Proof/Machine/ArrayCal.lean ====
section
/-!
DEFINITION. The calibration of arrays (targets 0 and 1 of R406): its trims and limits, its failures (R415), and the tickets that a
running one draws (R408). Start-up and the Conformer share it.
-/

namespace Sys2Proof.Machine

/-! ## Trims (R406) -/

/-- A quotient rounded to the nearest integer; a tie goes either way. -/
def nearest (num den : Int) : Int :=
  let q := num / den
  let r := num % den
  if 2 * r < den ∨ (2 * r = den ∧ Config.tieUp num den = false) then q else q + 1

/-- The positive level of a mode in Q_u less the negative one: ±96 in 8-bit mode, ±24 in 6-bit mode. -/
def convSpan (six : Bool) : Int := if six then 48 else 192

/-- The response of a converter between its two levels, in 1/100 LSB; its gain is this over 100 times the span. -/
def convRise (c : ConvMeans) : Int := c.plus - c.minus

/-- The trims of a converter: offset in steps of 0.25 LSB, gain in steps of 1/800 of the correction 1 / gain. -/
def convTrims (six : Bool) (c : ConvMeans) : Int × Int :=
  (clampI (-32) 31 (-(nearest c.zero 25)), clampI (-64) 63 (nearest (800 * (100 * convSpan six - convRise c)) (convRise c)))

/-- Whether the raw offset of a converter lies within ±7.5 LSB and its raw gain within 0.93 to 1.07. -/
def convOk (six : Bool) (c : ConvMeans) : Bool :=
  decide (-750 ≤ c.zero) && decide (c.zero ≤ 750) && decide (93 * convSpan six ≤ convRise c) && decide (convRise c ≤ 107 * convSpan six)

/-- Whether the converters' result lies within its limits (target 0). -/
def convertersOk (m : ArrayCalMeasure) : Bool :=
  m.conv8.all (convOk false) && m.conv6.all (convOk true) && decide (m.resOffset ≤ 15) && decide (m.resGain ≤ 400)

/-- The nominal plane levels of a DAC. -/
def dacLevels : List Int := [-2, -1, 1, 2, 3]

/-- The errors of a row's levels, in 1/1,000 of a unit, each with its nominal level. -/
def dacErrors (row : List Int) : List (Int × Int) := (row.zip dacLevels).map (fun e => (e.1 - 1000 * e.2, e.2))

/-- The trims of a row's levels, in steps of 0.01 unit. -/
def dacTrims (row : List Int) : List Int := (dacErrors row).map (fun e => clampI (-20) 20 (-(nearest e.1 10)))

/-- Whether the DAC levels' result lies within its limits (target 1): ±15 % of nominal before the trim, ±0.03 unit after it. -/
def dacsOk (m : ArrayCalMeasure) : Bool :=
  m.dac.all (fun row => (dacErrors row).all (fun e => decide (e.1.natAbs ≤ 150 * e.2.natAbs))) && decide (m.resDac ≤ 30)

/-- Whether a result is accepted. -/
def calOk (m : ArrayCalMeasure) : Bool := convertersOk m && dacsOk m

/-- The trims of an accepted result are the array's. -/
def Arr.trim (x : Arr) (m : ArrayCalMeasure) : Arr :=
  { x with trim8 := m.conv8.map (convTrims false), trim6 := m.conv6.map (convTrims true), dacTrim := m.dac.map dacTrims }

/-- The consecutive failures of an array end with an accepted result (R415). -/
def State.calGood (s : State) (a : ArrayId) (m : ArrayCalMeasure) : State :=
  State.modArr { s with conf := { s.conf with arrFails := Tbl.del s.conf.arrFails a } } a (·.trim m)

/-- A discarded result of an array, counted; at the third in a row SUSPECT is set (R415). True where it is the third. -/
def State.calBad (s : State) (a : ArrayId) (m : ArrayCalMeasure) : Bool × State :=
  let d := a.tile.die.val
  let n := Tbl.get s.conf.arrFails a 0 + 1
  let s1 : State := { s with conf := { s.conf with arrFails := Tbl.put s.conf.arrFails a n } }
  let s2 := s1.calFail (guardOf d) (if convertersOk m then 1 else 0) d (64 * a.tile.region.val + a.phys.val) n
  if 3 ≤ n then (true, (s2.modArr a (fun x => { x with suspect := true })).bump (uReg d 0x206 .cnfDieStatus) 16 10 1) else (false, s2)

/-! ## Tickets (R408, R126) -/

/-- How far a calibration's activity gets with `n` tickets in the counter, of at most `more` cycles: the cycles of activity, and the
tickets drawn, 12 as every 134 cycles of it begin. Where they are short the activity waits. -/
def calRunsTo (act more n : Nat) : Nat × Nat :=
  let reach := Nat.min (act + more) (134 * (ceilDiv act 134 + n / 12))
  (reach, 12 * (ceilDiv reach 134 - ceilDiv act 134))

/-- The draws of the calibration that runs in a tile, up to the cycle its die is in. -/
def State.calSettle (s : State) (t : TileId) : State :=
  let d := t.die.val
  match (s.die d).calRun.find? (fun c => c.region == t.region.val) with
  | none => s
  | some c =>
    let q := calRunsTo c.act ((s.die d).cycles - c.last) (s.tile t).fullTickets
    (s.modDie d (fun x => { x with calRun := x.calRun.map (fun k =>
      if k.region == c.region && k.phys == c.phys then { k with last := x.cycles, act := q.1 } else k) })).drawFull t q.2

/-- The tickets of writing code +1 to every row of an array, 1 per 8 rows (R126). -/
def onesTickets : Nat := 64

end Sys2Proof.Machine
end

