-- ==== Sys2Proof/Machine/Corrections.lean ====
section
/-!
DEFINITION. How accepted calibration results of ring heaters, equalisers, sensor converters and bowstring trims are applied
(R409, R415, R419, R420): whole at a boundary, or step by step in a glide. Drives are in 1/1,000 of the heater's range.
-/

namespace Sys2Proof.Machine

/-! ## Units -/

/-- The calibration state of a unit. -/
def State.cal (s : State) (u : CalUnit) : CalState := Tbl.get s.conf.units u CalState.reset
/-- Replaces the calibration state of a unit. -/
def State.setCal (s : State) (u : CalUnit) (x : CalState) : State := { s with conf := { s.conf with units := Tbl.put s.conf.units u x } }
/-- Changes the calibration state of a unit. -/
def State.modCal (s : State) (u : CalUnit) (f : CalState → CalState) : State := s.setCal u (f (s.cal u))

/-- The target code of a unit (R406). -/
def calTarget : CalUnit → Nat
  | .ring _ _ => 2
  | .equaliser _ _ => 3
  | .sensor _ => 5
  | .bowtrim _ => 7

/-- The Brim die whose Conformer reports a unit; the round trips are the source's to measure. -/
def State.calBrim (s : State) : CalUnit → Nat
  | .ring l _ => l.val / 12
  | .equaliser l _ => l.val / 12
  | .sensor b => b.val
  | .bowtrim _ => s.boot.principal

/-- The die and unit that CNF_LASTFAIL names. -/
def calName : CalUnit → Nat × Nat
  | .ring l n => (brimIdx (l.val / 12), 4 * l.val + n.val)
  | .equaliser l n => (brimIdx (l.val / 12), 4 * l.val + n.val)
  | .sensor b => (brimIdx b.val, 0)
  | .bowtrim d => (d.val, 0)

/-- Whether a unit's target is in glide mode (CNF_MODE). -/
def State.glides (s : State) (u : CalUnit) : Bool := s.fldOf (uReg (brimIdx (s.calBrim u)) 0x204 .cnfMode) (calTarget u) 1 == 1

/-- The partition whose unit it is: of a link's group, or of a Body die. -/
def State.calPart (s : State) (u : CalUnit) : Option Nat :=
  let link (l : Nat) : Option Nat := (s.start.groups.find? (fun g => g.2.present && g.2.links.contains l)).map (fun g => g.2.part)
  match u with
  | .ring l _ => link l.val
  | .equaliser l _ => link l.val
  | .sensor _ => none
  | .bowtrim d => if d.val < 0x20 then s.partOfDie d.val else none

/-! ## Applied values -/

/-- The values a unit applies. A converter's trims and a die's receive delay are what their registers hold. -/
def State.applied (s : State) (u : CalUnit) : List Int :=
  match u with
  | .ring _ _ => (s.cal u).applied
  | .equaliser _ _ => (s.cal u).applied
  | .sensor b => let t := s.regN (uReg (brimIdx b.val) 0x20D .snsTrim); [sext 6 (fld t 0 6), sext 8 (fld t 8 8)]
  | .bowtrim d => [(s.fldOf (s.pReg 0x201 .bowTrim d.val) 0 8 : Nat)]

/-- Shows a receive delay and whether a glide is in progress, at the source and on a Body die (R409). -/
def State.showTrim (s : State) (d v : Nat) (gliding : Bool) : State :=
  let w := BitVec.ofNat 32 (v % 2 ^ 8 + boolN gliding * 2 ^ 8)
  let s1 := s.setReg (s.pReg 0x201 .bowTrim d) w
  if d < 0x20 then s1.setReg (uReg d 0x206 .cnfDieBowtrim) w else s1

/-- Makes a unit apply values. -/
def State.apply (s : State) (u : CalUnit) (v : List Int) : State :=
  match u with
  | .ring _ _ => s.modCal u (fun x => { x with applied := v })
  | .equaliser _ _ => s.modCal u (fun x => { x with applied := v })
  | .sensor b =>
    (s.setFld (uReg (brimIdx b.val) 0x20D .snsTrim) 0 6 (toBits 6 (v.getD 0 0))).setFld (uReg (brimIdx b.val) 0x20D .snsTrim) 8 8 (toBits 8 (v.getD 1 0))
  | .bowtrim d => s.showTrim d.val (v.getD 0 0).toNat (s.glides u && v != (s.cal u).accepted)

/-- Applies a boundary correction whole. -/
def State.applyWhole (s : State) (u : CalUnit) : State := (s.modCal u (fun x => { x with pending := false })).apply u (s.cal u).accepted

/-- Whether a boundary correction waits: for the next LAUNCH of a partition with a running job, or for the end of the current
sequence pass of a converter (R419). -/
def State.mustWait (s : State) (u : CalUnit) : Bool :=
  match u with
  | .sensor b => !(s.sensor b.val).due.isEmpty
  | _ => match s.calPart u with
    | some p => (s.part p).job == .running
    | none => false

/-- An accepted result (R415, R419, R420): it replaces the target of a glide or a pending correction, and clears the count of
failures. A unit that applies nothing yet applies it whole. -/
def State.calAccept (s : State) (u : CalUnit) (v : List Int) : State :=
  let s1 := s.modCal u (fun x => { x with accepted := v, fails := 0, pending := false })
  if (s.applied u).isEmpty then s1.applyWhole u
  else if s1.glides u then s1.apply u (s1.applied u)
  else if s1.mustWait u then s1.modCal u (fun x => { x with pending := true })
  else s1.applyWhole u

/-- A discarded result of a unit (R415): true where it is the third in a row. -/
def State.calReject (s : State) (u : CalUnit) : Bool × State :=
  let n := (s.cal u).fails + 1
  let s1 := s.modCal u (fun x => { x with fails := n })
  let nm := calName u
  (decide (n = 3), s1.calFail (s.calBrim u) (calTarget u) nm.1 nm.2 n)

/-- The corrections that a partition's LAUNCH applies (R419). -/
def State.applyAtLaunch (s : State) (p : Nat) : State :=
  s.conf.units.foldl (fun s e => if e.2.pending ∧ s.calPart e.1 = some p then s.applyWhole e.1 else s) s

/-- The end of a sequence pass of a converter (R419). -/
def State.sensorPassEnd (s : State) (b : BrimDie) : State :=
  if (s.cal (.sensor b)).pending ∧ (s.sensor b.val).due.isEmpty = true then s.applyWhole (.sensor b) else s

/-! ## Glides (R419) -/

/-- The largest step of each value of a unit: 0.5 % of a heater's range, one code of a tap, 1 LSB of offset and 0.1 % of gain,
31.25 ps of delay. -/
def glideStep : CalUnit → Nat → Nat
  | .ring _ _, _ => 5
  | .equaliser _ _, _ => 1
  | .sensor _, i => if i = 0 then 1 else 2
  | .bowtrim _, _ => 1

/-- A value moved toward its target by at most a step. -/
def toward (step : Nat) (cur tgt : Int) : Int :=
  if cur + step < tgt then cur + step else if tgt < cur - step then cur - step else tgt

/-- The values of a unit after one step of its glide. -/
def State.stepped (s : State) (u : CalUnit) : List Int :=
  let acc := (s.cal u).accepted
  let cur := s.applied u
  (List.range acc.length).map (fun i => toward (glideStep u i) (cur.getD i 0) (acc.getD i 0))

/-! ## Bowstring receive trims (R409) -/

/-- Whether a round trip is accepted: 0.40 to 6.00 ns, and within 0.25 ns of the last accepted one, in steps of 31.25 ps. -/
def tripOk (last : Option Nat) (rt : Nat) : Bool :=
  decide (13 ≤ rt) && decide (rt ≤ 192) &&
    (match last with
     | none => true
     | some l => decide (l ≤ rt + 8) && decide (rt ≤ l + 8))

/-- Half of a difference, rounded to a whole step: which way a half goes is not stated. -/
def State.halved (s : State) (n : Nat) : Nat × State :=
  if n % 2 = 0 then (n / 2, s)
  else
    let c := s.drawB
    (n / 2 + boolN c.1, c.2)

/-- The round trips measured of the dies that run: accepted or discarded die by die; then every accepted die's delay is
(RT_max - RT_d) / 2, RT_max over the round trips last accepted. -/
def State.bowTrims (s : State) (l : List (DieIdx × Nat)) : State :=
  let live := l.filter (fun e => (s.die e.1.val).alive)
  let s1 := live.foldl (fun s e =>
    let u := CalUnit.bowtrim e.1
    if tripOk (s.cal u).last e.2 then s.modCal u (fun x => { x with last := some e.2, fails := 0 })
    else
      let r := s.calReject u
      if r.1 then r.2.fault 0x101A e.1.val 0x89 0 ((r.2.die e.1.val).timeCopy % 2 ^ 32 + s.bow.time % 2 ^ 32 * 2 ^ 32) else r.2) s
  let good := live.filter (fun e => tripOk (s.cal (.bowtrim e.1)).last e.2)
  let top := (live.filterMap (fun e => (s1.cal (.bowtrim e.1)).last)).foldl Nat.max 0
  good.foldl (fun s e =>
    let h := s.halved (top - e.2)
    h.2.calAccept (.bowtrim e.1) [(h.1 : Nat)]) s1

end Sys2Proof.Machine
end

