-- ==== Sys2Proof/Machine/Limits.lean ====
section
/-!
DEFINITION. The temperature limits as sensor codes (17_sensor_converter.md, "Comparators and the fast table"): what firmware
writes into the comparators at start-up and after every accepted change (R400, R401, R499, R506).
-/

namespace Sys2Proof.Machine

/-- A limit of the principal's THM_LIMITS in °C: 0 WARN, 1 RELEASE, 2 EMERG; a Crown limit lies 5 °C below (R400). -/
def State.thmLimit (s : State) (i : Nat) (crown : Bool) : Int :=
  (s.fldOf (s.pReg 0x203 .thmLimits) (8 * i) 8 : Nat) - (if crown then 5 else 0)

/-- The ideality word of a diode (CNF_DIODE_k). -/
def State.idealOf (s : State) (b k : Nat) : Nat := s.fldOf (uReg (brimIdx b) 0x204 .cnfDiode k) 0 16

/-- The selected reference of a converter, in µV (R501): 1.250 V, or what the SNS_VREF pin carries. -/
def State.snsReference (s : State) (b : Nat) : Nat :=
  if s.fldOf (uReg (brimIdx b) 0x20D .snsCtrl) 1 2 = 1 then Config.snsVref b else 1250000

/-- The gain of an entry (SNS_ENT_e): 1, 2, 4 or 8. -/
def entryGain (w : Nat) : Nat := 2 ^ fld w 18 2

/-- Ten times the absolute temperature of a diode's code, as a fraction (R499): code × VREF / (G × 4,096) / (η × 86.173 µV/K × ln N),
η being 1 + IDEAL / 65,536. -/
def State.diodeKelvin (s : State) (b k gain code : Nat) : Nat × Nat :=
  (code * s.snsReference b * (16 * 10 ^ 9), gain * (65536 + s.idealOf b k) * 86173 * Config.lnRatio b k)

/-- The smallest code of a diode whose temperature is at or above a limit in °C, 4,095 where none is (R499). -/
def State.diodeCode (s : State) (b k gain : Nat) (limit : Int) : Nat :=
  ((List.range 4096).find? (fun c =>
    let q := s.diodeKelvin b k gain c
    decide ((20 * limit + 5463) * (q.2 : Int) ≤ 2 * (q.1 : Int)))).getD 4095

/-- A fraction as an integer: where it is not whole it goes either way, since the spec states no rounding of a reading. -/
def State.eitherWay (s : State) (num den : Int) : Int × State :=
  let r := s.drawB
  if num % den = 0 then (num / den, s) else (num / den + boolN r.1, r.2)

/-- What the telemetry component reads off a diode, in 0.1 °C (R499); with no current ratio it reads any value. -/
def State.diodeReading (s : State) (b k gain code : Nat) : Int × State :=
  let q := s.diodeKelvin b k gain code
  if q.2 = 0 then (let r := s.draw; ((r.1 : Nat), r.2))
  else s.eitherWay (2 * (q.1 : Int) - 5463 * (q.2 : Int)) (2 * (q.2 : Int))

/-- ln of a positive fraction, in units of 2⁻²⁰⁰. -/
def lnFixed (num den : Nat) : Int :=
  let part (n : Nat) : Int := match log2Of n 0 with
    | .fin neg m e => (signed neg m) * (ln2Fixed : Nat) / (2 ^ (-e).toNat : Nat)
    | _ => 0
  part num - part den

/-- What the telemetry component reads off a thermistor, in 0.1 °C (R500): R / 10 kΩ = code / (4,096 - code), and 1/T = 1/298.15 K +
ln (R / 10 kΩ) / 3,435 K. Code 0 has no resistance, and reads any value. -/
def State.thermistorReading (s : State) (code : Nat) : Int × State :=
  if code = 0 then (let r := s.draw; ((r.1 : Nat), r.2))
  else
    let den : Int := 68700 * (2 ^ 200 : Nat) + 5963 * lnFixed code (4096 - code)
    s.eitherWay (2 * (10 * 5963 * 3435) * (2 ^ 200 : Nat) - 5463 * den) (2 * den)

/-- The limit code of an entry: a diode under R499, the internal sensor by its formula, code = 16 × (T + 50 °C) (R498). -/
def State.limitCode (s : State) (b w i : Nat) : Nat :=
  let chan := fld w 0 5
  if chan < 9 then s.diodeCode b chan (entryGain w) (s.thmLimit i (chan == 8))
  else Nat.min 4095 (16 * (s.thmLimit i false + 50)).toNat

/-- Writes the limit codes of one entry, where it is in use and reads a guarded die. -/
def State.programEntry (s : State) (b e : Nat) : State :=
  let r := brimIdx b
  let w := s.regN (uReg r 0x20D .snsEnt e)
  let chan := fld w 0 5
  if bit w 7 ∧ chan ≤ 9 then
    (s.setReg (uReg r 0x20D .snsLim e) (BitVec.ofNat 32 (s.limitCode b w 0 + s.limitCode b w 2 * 2 ^ 16))).setReg
      (uReg r 0x20D .snsRel e) (BitVec.ofNat 32 (s.limitCode b w 1))
  else s

/-- The comparators of every Brim die that runs (R401). -/
def State.programLimits (s : State) : State :=
  (List.range 4).foldl (fun s b =>
    if (s.die (brimIdx b)).alive then (List.range 16).foldl (fun s e => s.programEntry b e) s else s) s

end Sys2Proof.Machine
end

