-- ==== Sys2Proof/Machine/Boot.lean ====
section
/-!
DEFINITION. Start-up (R444 to R460): the ROM's choice of what to boot, the supervisor's check of the start record, the
other dies, the census, the partition setup; and the supplies, resets and straps around it (R529 to R532).
-/

namespace Sys2Proof.Machine

/-! ## The ROM (R453) -/

/-- A pair that the ROM tries. -/
structure Cand where
  recovery : Bool
  bank : Bool
  slot : Bool
  deriving DecidableEq, Repr

/-- The manifest of a candidate. -/
def State.candManifest (s : State) (c : Cand) : List Byte :=
  s.flashB c.recovery (bankBase c.bank) (manifestLen (leAt (s.flashB c.recovery (bankBase c.bank) 16) 7 1))

/-- How far a candidate gets: 1 its manifest fails, 2 the matrix refuses it, 3 a digest fails, 0 it loads. -/
def State.candFail (s : State) (c : Cand) : Nat :=
  let m := s.candManifest c
  if !s.manifestOk m then 1
  else if !s.matrixRom (manifestMatrix m) then 2
  else if !digestsOk (fun o n => s.flashB c.recovery (bankBase c.bank + o) n) m then 3
  else 0

/-- The start record of a candidate: its slot's if it verifies, else the other slot's (primary only), else none. -/
def State.candRecord (s : State) (c : Cand) : Option (Bool × List Byte) :=
  let x := manifestMatrix (s.candManifest c)
  let try' (slot : Bool) : Option (Bool × List Byte) :=
    let b := s.srBytes c.recovery (slotBase slot)
    if s.srOk b x then some (slot, b) else none
  match try' c.slot with
  | some r => some r
  | none => if c.recovery then none else try' (!c.slot)

/-- FAIL_CODE of a halt: the farthest that any candidate got. -/
def haltCode (l : List Nat) : Nat := if l.contains 3 then 3 else if l.contains 2 then 2 else 1

/-! ## The other dies -/

/-- A die runs. -/
def State.dieUp (s : State) (d : Nat) : State :=
  if s.busUp d then s.modDie d (fun x => { x with alive := true, railsOn := true }) else s

/-- Every tile of a die is fenced (R452). -/
def State.fenceDie (s : State) (d cause : Nat) : State :=
  let ts := (List.range 512).map (tileOf d)
  let s1 := { s with
    tiles := s.tiles.filter (fun e => e.1.die.val != d) ++ ts.map (fun t => (t, { s.tile t with fenced := true })),
    arrays := s.arrays.filter (fun e => e.1.tile.die.val != d) ++
      ts.flatMap (fun t => (List.range 64).map (fun n => (arrOf t n, { s.arr (arrOf t n) with st := .fenced, cause := BitVec.ofNat 8 cause }))) }
  (List.range 16).foldl (fun s n => s.setReg (uReg d 0x201 .mshTfence n) 0xFFFFFFFF) s1

/-- An entry of the fence map applied at start-up (R451, R93). -/
def State.applyFence (s : State) (e : FenceEntry) : State :=
  let t := tileOf e.die e.region
  if e.tile then
    let s1 := (List.range 64).foldl (fun s n => s.modArr (arrOf t n) (fun x => if x.st = .fenced then x else
      { x with st := .fenced, cause := BitVec.ofNat 8 e.cause })) s
    ((s1.modTile t (fun x => { x with fenced := true })).setFld (uReg e.die 0x201 .mshTfence (e.region / 32)) (e.region % 32) 1 1).setFld
      (tReg t .tilStatus) 0 3 5
  else s.modArr (arrOf t e.phys) (fun x => { x with st := .fenced, cause := BitVec.ofNat 8 e.cause })

/-- Good arrays: those not FENCED, of the 2²⁰ of the device. -/
def State.goodArrays (s : State) : Nat := 2 ^ 20 - (s.arrays.filter (fun e => e.2.st == .fenced)).length

/-- The dies of `env` that stay off: failed ones, and those whose converter is on a silent Brim die (R452). -/
def bodyOff (e : BootEnv) (d : Nat) : Bool :=
  (e.failedBodies.map (·.val)).contains d || (e.silentBrims.map (·.val)).contains (guardOf d)

/-- Whether a Crown die stays off. -/
def crownOff (e : BootEnv) (c : Nat) : Bool :=
  (e.failedCrowns.map (·.val)).contains c || (e.silentBrims.map (·.val)).contains (guardOf (crownIdx c))

/-- Phase 5: the peripheral Brim dies that answer, and the bowstring from time 0 (R210). -/
def State.bootBrims (s : State) (env : BootEnv) : State :=
  let s1 := (List.range 4).foldl (fun s b =>
    if b = s.boot.principal ∨ (env.silentBrims.map (·.val)).contains b = false then s.dieUp (brimIdx b)
    else s.fwFault (uReg (brimIdx b) 0x200 .bootStatus).addr) s
  { s1 with bow := { s1.bow with time := 0 } }

/-- Phase 6: the diode idealities (R411 order 3, R416, R449). -/
def State.bootDiodes (s : State) (env : BootEnv) : State :=
  let stored := match s.calArea with
    | some a => a.2.2
    | none => []
  let s1 := stored.foldl (fun s e =>
    s.setReg (uReg (brimIdx e.brim) 0x204 .cnfDiode e.k) (BitVec.ofNat 32 (e.ideal + 2 ^ 16))) s
  if !env.diodesStable then (List.range 4).foldl (fun s b => s.setBit (uReg (brimIdx b) 0x204 .cnfEvents) 4) s1
  else
    let old (b k : Nat) : Option Nat := (stored.find? (fun e => e.brim == b && e.k == k)).map (·.ideal)
    let ok (b k v : Nat) : Bool := decide (v ≤ 3276) && (match old b k with
      | some o => decide (v ≤ o + 131) && decide (o ≤ v + 131)
      | none => true)
    let good := env.diodes.filter (fun e => ok e.1.val e.2.1.val e.2.2.1.toNat)
    let s2 := (env.diodes.filter (fun e => !ok e.1.val e.2.1.val e.2.2.1.toNat)).foldl (fun s e =>
      let key := (e.1.val, e.2.1.val)
      let n := Tbl.get s.conf.diodeFails key 0 + 1
      let s1 := { s with conf := { s.conf with diodeFails := Tbl.put s.conf.diodeFails key n } }
      s1.calFail e.1.val 6 (diodeDie e.1.val e.2.1.val) e.2.1.val n) s1
    let s3 := good.foldl (fun s e => s.setReg (uReg (brimIdx e.1.val) 0x204 .cnfDiode e.2.1.val) (BitVec.ofNat 32 (e.2.2.1.toNat + 2 ^ 16))) s2
    if good.isEmpty then s3
    else
      let l := good.map (fun e => (⟨e.1.val, e.2.1.val, e.2.2.1.toNat, e.2.2.2.toNat⟩ : DiodeEntry))
      s3.writeCal (stored.filter (fun e => !l.any (fun x => x.brim == e.brim && x.k == e.k)) ++ l)

/-- Phases 7 and 8: core rails, die-to-die edges, bowstring trims (R409). -/
def State.bootDies (s : State) (env : BootEnv) : State :=
  let s1 := (List.range 32).foldl (fun s d =>
    if (env.failedBodies.map (·.val)).contains d then (s.fenceDie d 7).fault 0x5001 d 0x88 0 0
    else if bodyOff env d then s else s.dieUp d) s
  let s2 := (List.range 4).foldl (fun s c =>
    if (env.failedCrowns.map (·.val)).contains c then s.fault 0x6001 (crownIdx c) 0x81 0 0
    else if crownOff env c then s else s.dieUp (crownIdx c)) s1
  let dead (d e : Nat) : Bool := env.deadEdges.any (fun x => bodyEdge x.1.val x.2.val == bodyEdge d e || bodyEdge (beyond x.1.val x.2.val) ((x.2.val + 2) % 4) == bodyEdge d e)
  let s3 := (List.range 36).foldl (fun s d => (List.range 4).foldl (fun s e => match edgeReg d e with
    | some k => if (s.die d).alive = true ∧ dead d e = false then (s.setFld k 0 1 1).setFld k 1 1 1 else s
    | none => s) s) s2
  let s4 := env.deadEdges.foldl (fun s e => s.fault 0x4004 e.1.val 0x80 0x201 e.2.val) s3
  let s5 := s4.bowTrims env.trips
  env.trips.foldl (fun s t => if (s.cal (.bowtrim t.1)).accepted.isEmpty then s else s.applyWhole (.bowtrim t.1)) s5

/-- Phases 9 and 10: BIST and the census (R451); the first boot fuses its result. A first census below 950,000 good arrays reaches
neither grade of R1: the spec says nothing of such a device, and the model leaves GRADE 0 and runs on (DESIGN CHOICE, log 58). -/
def State.bootCensus (s : State) (env : BootEnv) : State :=
  let first := !s.fuses.censusDone
  let old := match s.fenceMap with
    | some m => m.2.2
    | none => []
  let s0 := old.foldl State.applyFence s
  let s1 := env.bistTiles.foldl (fun s t =>
    if (s.tile t).fenced then s
    else
      let c := if first then 1 else 7
      let s1 := s.applyFence ⟨t.die.val, t.region.val, 0, c, true⟩
      s1.fault 0x2011 t.die.val 0x00 t.region.val c) s0
  let s2 := env.calArrays.foldl (fun s e =>
    if (s.arr e.1).st = .fenced then s
    else if calOk e.2 then s.calGood e.1 e.2
    else
      let r := s.calBad e.1 e.2
      if r.1 then r.2.fenceOne e.1 (if first then 1 else 6) else r.2) s1
  let s3 := env.fullArrays.foldl (fun s a => if (s.arr a).st = .fenced then s else s.fenceOne a (if first then 1 else 4)) s2
  let s4 := (env.calArrays.map (·.1) ++ env.fullArrays).foldl (fun s a => if 3 ≤ s.ownFences a.tile then s.fenceTile a.tile 2 else s) s3
  if first then
    let n : Nat := s4.goodArrays
    let g := if 1000000 ≤ n then 1 else if 950000 ≤ n then 2 else 0
    let s5 := s4.writeFences
    { s5 with fuses := { s5.fuses with firstGood := n, grade := g, censusDone := true } }
  else s4

/-! ## The partitions (R37, R459) -/

/-- The border edges of a die: those to a Body die of another partition or of none (R168). -/
def borderBits (dies : List Nat) (d : Nat) : Nat :=
  (List.range 4).foldl (fun a e => let n := beyond d e; if n < 0x20 ∧ dies.contains n = false then a + 2 ^ e else a) 0

/-- One partition of the start record: its registers and its grants. It is not started where a die or a home Crown die of
it stays off (R452). -/
def State.setupPart (s : State) (b : List Byte) (dflt : Bool) : State :=
  let p := leAt b 4 1
  let kvt := leAt b 22 2
  let x : Part := { Part.reset with
    present := true, unitBase := leAt b 5 1, units := leAt b 6 1, crownBase := leAt b 8 1, crownLen := leAt b 9 1,
    grantBase := leAt b 10 2, grantLen := leAt b 12 2, shareBase := leAt b 14 2, shareLen := leAt b 16 2,
    startAllot := leAt b 18 2, kvt := kvt, lanes := leAt b 24 1,
    formSrc := if dflt then none else some (leAt b 30 1), weightSrc := if dflt then none else some (leAt b 31 1) }
  let ok := x.dies.all (fun d => (s.die d).alive) && (homesOf x.unitBase x.units).all (fun c => (s.die (crownIdx c)).alive)
  let r (region : Nat) (k : Reg) : RegKey := s.pReg region k p
  let s1 := s.setPart p { x with started := ok }
  let s2 := ((((s1.setReg (r 0x205 .reqShare) (BitVec.ofNat 32 (x.shareBase + x.shareLen * 2 ^ 16))).setReg
    (r 0x207 .kvpGeom) (BitVec.ofNat 32 (kvt + (x.lanes - 1) % 8 * 2 ^ 16))).setReg (r 0x202 .pwrAllot) (BitVec.ofNat 32 x.startAllot)).setReg
    (r 0x202 .pwrBase) (BitVec.ofNat 32 (if leAt b 20 2 = 0 then 350 * x.units else leAt b 20 2))).setReg (r 0x201 .bowJob) (BitVec.ofNat 32 (leAt b 25 1))
  let s3 := (s2.setReg (r 0x201 .bowHoldlim) (BitVec.ofNat 32 (if leAt b 26 2 = 0 then 1000 else leAt b 26 2))).setReg
    (r 0x205 .reqPtgt) (BitVec.ofNat 32 (if leAt b 28 2 = 0xFFFF then 4096 else leAt b 28 2))
  let ds := (List.range 32).filter (fun d => x.dies.contains d)
  ((List.range ds.length).zip ds).foldl (fun s e =>
    ((s.setReg (uReg e.2 0x201 .mshPart) (BitVec.ofNat 32 (p + 16))).setReg (uReg e.2 0x201 .mshBorder) (BitVec.ofNat 32 (borderBits x.dies e.2))).setReg
      (s.pReg 0x207 .kvpLayers e.2) (BitVec.ofNat 32 (leAt b (32 + e.1) 1))) s3

/-- Units of no partition are powered down (R36). -/
def State.powerDownRest (s : State) : State :=
  let used := s.parts.flatMap (fun e => e.2.dies)
  (List.range 32).foldl (fun s d => if used.contains d then s else s.modDie d (fun x => { x with alive := false, railsOn := false })) s

/-- Phase 11: partitions, links and device values from a start record that passes R460. -/
def State.setupParts (s : State) (es : List (Nat × List Byte)) : State :=
  let dflt := (ofType es 2).isEmpty
  let s1 := (partEntries es s.start.devAllot s.start.boltCache).foldl (fun s b => s.setupPart b dflt) s
  let s2 := s1.start.groups.foldl (fun s g => g.2.links.foldl (fun s l =>
    let any := match Tbl.find s.start.linkExpect l with
      | some (some _) => false
      | _ => true
    s.setReg (uReg (brimIdx (l / 12)) 0x209 .lnkCfg (l % 12))
      (BitVec.ofNat 32 (g.1 + 2 ^ 5 + g.2.part * 2 ^ 6 + boolN g.2.store * 2 ^ 10 + boolN any * 2 ^ 11))) s) s1
  s2.powerDownRest

/-- The device's own values of the start record (R458). -/
def State.setupDevice (s : State) (es : List (Nat × List Byte)) : State :=
  let hb := devField (ofType es 1).head? 16 4 (fun _ => true) 0
  let orphan := devField (ofType es 1).head? 20 4 (fun _ => true) 0
  let s1 := (List.range 4).foldl (fun s b => s.setReg (uReg (brimIdx b) 0x202 .pwrDev) (BitVec.ofNat 32 s.start.devAllot)) s
  let s2 := s1.setReg (s1.pReg 0x208 .pfxBase) (BitVec.ofNat 32 s1.start.pfxBase)
  let s3 := if s2.start.repairMs = 0 then s2 else s2.setFld (s2.pReg 0x20F .fltRepairlim) 0 16 s2.start.repairMs
  let s4 := if hb = 0 then s3 else s3.setReg (s3.pReg 0x20C .hifHbMs) (BitVec.ofNat 32 hb)
  if orphan = 0 then s4 else s4.setReg (s4.pReg 0x20C .hifOrphanS) (BitVec.ofNat 32 orphan)

/-- A service port from its entry (R458, R356): enabled by its FLAGS, by default SP1 and SP3. -/
def State.setupPort (s : State) (b : List Byte) : State :=
  let n := leAt b 4 1
  let d := brimIdx n
  let f := leAt b 5 1
  let en := f % 4 == 1 || (f % 4 == 0 && n % 2 == 1)
  let r (k : Reg) (i : Nat := 0) : RegKey := uReg d 0x20B k i
  let s1 := s.setReg (r .ethCtrl) (BitVec.ofNat 32 (boolN en + f / 4 % 2 * 2 + leAt b 6 2 * 4))
  let s2 := (s1.setReg (r .ethMacLo) (BitVec.ofNat 32 (leAt b 12 4))).setReg (r .ethMacHi) (BitVec.ofNat 32 (leAt b 16 2))
  let s3 := s2.setReg (r .ethIpv4) (BitVec.ofNat 32 (leAt b 20 4))
  let s4 := (List.range 4).foldl (fun s i => s.setReg (r .ethIpv6 i) (BitVec.ofNat 32 (leAt b (24 + 4 * i) 4))) s3
  if leAt b 8 2 = 0 then s4 else s4.setReg (r .ethUdp) (BitVec.ofNat 32 (leAt b 8 2))

/-! ## Start-up (R450) -/

/-- BOOT_STATUS of the principal. -/
def State.bootFld (s : State) (lo len v : Nat) : State := s.setFld (s.pReg 0x200 .bootStatus) lo len v

/-- The supervisor starts with a candidate and its start record: phases 4 to 12. True when a trial boot's start record
fails R460, after which the supervisor resets the device. -/
def State.supervisorStart (s : State) (env : BootEnv) (c : Cand) (trial : Bool) : Bool × State :=
  let m := s.candManifest c
  let rec' := s.candRecord c
  let es := match rec' with
    | some r => srEntries (leAt r.2 6 2) (r.2.drop 64)
    | none => []
  let ok := srCheck es
  let has := rec'.isSome
  let slot := match rec' with
    | some r => r.1
    | none => c.slot
  let ids := manifestIds m
  let comp := (List.range 6).foldl (fun a i => if ids.contains (i + 1) then a else a + 3 * 4 ^ i) 0
  let s0 : State := { s with
    boot := { s.boot with running := true, booted := true, bank := c.bank, slot := slot, matrix := manifestMatrix m,
                          checkFail := has && !ok, updStart := 0, superAt := 0, wdogKick := 0 },
    start := if has then srDevice es (match rec' with
      | some r => leAt r.2 16 8
      | none => 0) ok else { StartRec.reset with devAllot := 15000, spareRes := 2 } }
  let s1 := ((((((s0.bootFld 16 1 (boolN c.bank)).bootFld 17 1 (boolN slot)).bootFld 18 1 (boolN c.recovery)).bootFld 19 1 (boolN trial)).bootFld 21 1
    (boolN (!has))).bootFld 8 8 (if !has then 0x10 else if ok then 0 else 0x11))
  let s2 := (s1.setReg (s1.pReg 0x200 .bootFwVer) (BitVec.ofNat 32 (leAt m 8 4))).setFld (s1.pReg 0x200 .bootComp) 0 12 comp
  let s3 := ((((((s2.bootBrims env).bootDiodes env).programLimits).bootDies env).bootCensus env).setupDevice es)
  let s4 := (List.range 4).foldl (fun s b => s.setFld (uReg (brimIdx b) 0x204 .cnfStatus) 0 1 1) s3
  let s5 := ((ofType es 5).filter portOk).foldl State.setupPort s4
  let s6 := if has = true ∧ ok = false then s5.fwFault (s5.pReg 0x200 .bootStatus).addr else s5
  let s7 := if has && ok then s6.setupParts es else s6.powerDownRest
  let s8 := s7.bootFld 0 5 (if has && ok then 13 else 16)
  let s9 := match s8.power.lostRail with
    | some r => let s9 := s8.fault 0x5001 (railDie r) 0x88 0 (railCode r); { s9 with power := { s9.power with lostRail := none } }
    | none => s8
  (trial && has && !ok, s9)

/-- The principal of a start-up and its boot state (R450). -/
def State.startPrincipal (s : State) (env : BootEnv) : State :=
  let p := if env.priSel then 2 else 0
  let s1 : State := { s with boot := { s.boot with principal := p }, power := { s.power with priSel := env.priSel } }
  s1.setReg (s1.pReg 0x200 .bootStatus) 2

/-- The directory's trial bits as a start-up leaves them: a trial already tried is given up, an untried one is tried (R447). -/
def State.startTrial (s : State) (dir : Dir) : State :=
  if dir.trial && dir.tried then s.writeDir { dir with trial := false }
  else if dir.trial then s.writeDir { dir with tried := true } else s

/-- The candidates of a start-up in order. -/
def Dir.cands (dir : Dir) : List Cand :=
  [if dir.trial && dir.tried then ⟨false, dir.lkgBank, dir.lkgSr⟩ else ⟨false, dir.active, dir.activeSr⟩,
    ⟨false, dir.lkgBank, dir.lkgSr⟩, ⟨true, false, false⟩]

/-- One attempt at a start-up: whether it resets the device to try again, and the state. -/
def State.startOnce (s : State) (env : BootEnv) : Bool × State :=
  let s2 := s.startPrincipal env
  if !env.flashOk then (false, s2.bootFld 8 8 4)
  else
    let dir := s2.directory.1
    let s3 := s2.startTrial dir
    match dir.cands.find? (fun c => s3.candFail c == 0) with
    | none => (false, s3.bootFld 8 8 (haltCode (dir.cands.map s3.candFail)))
    | some c =>
      s3.supervisorStart env c (dir.trial && !(dir.trial && dir.tried) && dir.cands.head? == some c)

/-- Start-up from phase 1: straps, the ROM's choice (R453), then the supervisor. A trial whose start record fails resets
the device once more, and the ROM falls back. -/
def State.startUp : Nat → State → BootEnv → State
  | 0, s, _ => s
  | n + 1, s, env =>
    let q := s.startOnce env
    if q.1 then State.startUp n q.2.deviceReset env else q.2

/-- Whether the device is held in reset: RESET_N low, or PGOOD low whatever RESET_N does (R530). -/
def State.held (s : State) : Bool := !s.power.resetN || !s.power.pgood

/-! ## The commands -/

/-- VIN48_RISE: the 48 V input rises; the bus converters, V18_OUT and the crystals start (R529). -/
def runVin48Rise (s : State) : State :=
  { s with power := { s.power with vin48 := true, v18 := true, crystal := true, downBus := [] } }

/-- The command VIN48_RISE. -/
def execVin48Rise (s : State) : Host.Outcome State Fault Refusal := .next (runVin48Rise s)

/-- PGOOD_RISE: the supplies are in regulation; where RESET_N is already high, start-up runs from phase 1 (R530). -/
def runPgoodRise (env : BootEnv) (s : State) : State :=
  if s.power.vin48 && s.power.v18 && !s.power.pgood then
    let s1 : State := { s with power := { s.power with pgood := true } }
    if s1.power.resetN then s1.startUp 2 env else s1
  else s

/-- The command PGOOD_RISE. -/
def execPgoodRise (env : BootEnv) (s : State) : Host.Outcome State Fault Refusal := .next (runPgoodRise env s)

/-- The device resets because PGOOD falls (R530). -/
def State.pgoodLow (s : State) : State :=
  let s1 := s.deviceReset
  { s1 with power := { s1.power with pgood := false } }

/-- PGOOD_FALL. -/
def runPgoodFall (s : State) : State := s.pgoodLow

/-- The command PGOOD_FALL. -/
def execPgoodFall (s : State) : Host.Outcome State Fault Refusal := .next (runPgoodFall s)

/-- RESET_N_ASSERT: a low level of at least 1 µs resets the device; a shorter pulse is ignored (R531). -/
def runResetNAssert (ns : Nat) (s : State) : State :=
  if 1000 ≤ ns then
    let s1 := s.deviceReset
    { s1 with power := { s1.power with resetN := false } }
  else s

/-- The command RESET_N_ASSERT. -/
def execResetNAssert (ns : Nat) (s : State) : Host.Outcome State Fault Refusal := .next (runResetNAssert ns s)

/-- RESET_COMMAND: the key in BOOT_RESET resets the device as RESET_N does (R531); any other value is a firmware fault. -/
def runResetCommand (port : Port) (data : W32) (s : State) : State :=
  s.guardedWrite port (s.pReg 0x200 .bootReset) data.toNat (fun s =>
    let s1 := s.deviceReset
    { s1 with power := { s1.power with resetN := false } })

/-- The command RESET_COMMAND. -/
def execResetCommand (port : Port) (data : W32) (s : State) : Host.Outcome State Fault Refusal := .next (runResetCommand port data s)

/-- RESET_N_RELEASE: the rise samples the straps and starts the start-up sequence (R444, R450), while PGOOD is high. -/
def runResetNRelease (env : BootEnv) (s : State) : State :=
  if s.power.resetN then s
  else
    let s1 : State := { s with power := { s.power with resetN := true } }
    if s1.power.pgood then s1.startUp 2 env else s1

/-- The command RESET_N_RELEASE. -/
def execResetNRelease (env : BootEnv) (s : State) : Host.Outcome State Fault Refusal := .next (runResetNRelease env s)

/-- VIN48_REMOVE: the device stops at any point; THERMTRIP_N returns high (R532, R539). -/
def runVin48Remove (s : State) : State :=
  let s1 := s.deviceReset
  { s1 with power := { s1.power with vin48 := false, pgood := false, v18 := false, crystal := false, thermtrip := false } }

/-- The command VIN48_REMOVE. -/
def execVin48Remove (s : State) : Host.Outcome State Fault Refusal := .next (runVin48Remove s)

end Sys2Proof.Machine
end

