-- ==== Sys2Proof/Machine/Links.lean ====
section
/-!
DEFINITION. The photonic links (10_links.md): lanes, flits and their retry (R331 to R339), control symbols (R340 to R343),
training, identity and latency (R344 to R346), link transfers (R349 to R353), store traffic at its serving end (R355) and
the channel registers (R371).
-/

namespace Sys2Proof.Machine

/-! ## Links, lanes and groups -/

/-- The link group that holds a link (R347). -/
def State.groupOf (s : State) (l : Nat) : Option (Nat × LGroup) := s.start.groups.find? (fun g => g.2.present && g.2.links.contains l)

/-- The LAS_STATE of a laser module (R380). -/
def lasReg (m : Nat) (r : Reg) : RegKey := uReg (brimIdx (m / 2)) 0x20A r (m % 2)

/-- Whether a link's laser supply is LOCKED (R372, R380). -/
def State.lit (s : State) (l : Nat) : Bool := s.fldOf (lasReg (l / 6) .lasState) 0 3 == 4

/-- The identity records that a link's lanes have received. -/
def State.identities (s : State) (l : Nat) : List Identity := (List.range 4).filterMap (fun n => (s.lane l n).identity)

/-- Whether an identity record matches what the start record expects of the link's partner (R346). -/
def State.expects (s : State) (l : Nat) (i : Identity) : Bool :=
  match s.groupOf l with
  | none => false
  | some g =>
    (g.2.partner == 0 || g.2.partner == i.serial) &&
    (match Tbl.find s.start.linkExpect l with
     | some (some n) => n == i.link
     | _ => true)

/-- Whether a link's partner differs from an expected value or between lanes (R346). -/
def State.mismatched (s : State) (l : Nat) : Bool :=
  let ids := s.identities l
  ids.any (fun i => !s.expects l i || ids.any (fun j => decide (j ≠ i)))

/-- The trained lanes of a link. -/
def State.trainedLanes (s : State) (l : Nat) : List Nat := (List.range 4).filter (fun n => (s.lane l n).trained)

/-- LNK_STATE_i: 0 DARK, 1 TRAINING, 2 UP, 3 DEGRADED, 4 MISMATCH, and the trained lanes (R344, R346). -/
def State.showLink (s : State) (l : Nat) : State :=
  let up := s.trainedLanes l
  let training := (List.range 4).any (fun n => (s.lane l n).training)
  let st := if s.mismatched l then 4
    else if !up.isEmpty && !(s.identities l).isEmpty then (if up.length = 4 then 2 else 3)
    else if training || !up.isEmpty then 1 else 0
  (s.setFld (linkReg l .lnkState) 0 3 st).setFld (linkReg l .lnkState) 4 4 (up.foldl (fun a n => a + 2 ^ n) 0)

/-- The lanes of a group, from its first link's lane 0 on (R351). -/
def LGroup.lanes (g : LGroup) : List (Nat × Nat) := g.links.flatMap (fun l => (List.range 4).map (fun n => (l, n)))

/-- The working lanes of a group: the trained lanes of the links that carry traffic. -/
def State.workingLanes (s : State) (g : LGroup) : List (Nat × Nat) :=
  g.lanes.filter (fun e => s.carries e.1 && (s.lane e.1 e.2).trained)

/-! ## Sending flits (R334, R336, R339) -/

/-- Flits waiting on lanes of a group that do not work go onto its first working lane (R337); a group with none holds its
traffic. -/
def State.regroup (s : State) (g : LGroup) : State :=
  match (s.workingLanes g).head? with
  | none => s
  | some w =>
    g.lanes.foldl (fun s e =>
      if (s.workingLanes g).contains e then s
      else
        let x := s.lane e.1 e.2
        (s.setLane e.1 e.2 { x with txq0 := [], txq1 := [] }).modLane w.1 w.2 (fun y => { y with txq0 := y.txq0 ++ x.txq0, txq1 := y.txq1 ++ x.txq1 })) s

/-- The poisoned flits of a packet whose data bytes lie at `a`. -/
def State.badFlits (s : State) (a n : Nat) : List Nat :=
  (List.range (linkFlits n)).filter (fun i =>
    let q := flitSpan n i
    s.poisonedIn (a + q.1) (q.2 - q.1))

/-- A packet goes whole onto a lane of a group (R351), or, where that lane has failed, onto a working one (R337); its flits leave as the
lane sends them. -/
def State.sendPacket (s : State) (g : Nat × LGroup) (i vc : Nat) (h : LinkHdr) (data : List Byte) (bad : List Nat) : State :=
  match g.2.lanes[i % (4 * g.2.links.length)]? with
  | none => s
  | some e =>
    let fs := txFlits vc h data bad
    let s1 := s.modLane e.1 e.2 (fun x => if vc = 0 then { x with txq0 := x.txq0 ++ fs } else { x with txq1 := x.txq1 ++ fs })
    (s1.emit (.packet g.1 (i % (4 * g.2.links.length)) h data bad)).regroup g.2

/-! ## Lane failure (R337, R338) -/

/-- A lane starts to train (R344), and sends this device's identity record (R346). -/
def State.trainLane (s : State) (l n : Nat) : State :=
  if (s.groupOf l).isSome && s.lit l && !(s.lane l n).trained && !s.pllDown (.linkPhy (Fin.ofNat 48 l)) then
    ((s.modLane l n (fun x => { x with training := true, lockTime := s.bow.time })).emit (.identity l n (identityBytes (s.ownIdentity l)))).showLink l
  else s

/-- A trained lane fails: its held flits are to be sent again on the other lanes of the group, and it retrains in the
background while its laser is locked. -/
def State.laneFail (s : State) (l n : Nat) : State :=
  let x := s.lane l n
  if x.trained then
    let b := brimIdx (l / 12)
    let back (vc : Bool) := (x.held.filter (fun h => h.2.2.vc == vc)).map (·.2.2)
    let s1 := s.setLane l n { x with trained := false, training := false, held := [], again := 0, identity := none, pings := 0, lat := 0,
                                     symq := [], pingsDue := 0, due0 := 0, due1 := 0, ackTold := x.rxNext,
                                     txq0 := back false ++ x.txq0, txq1 := back true ++ x.txq1, retryAt := s.bow.time + 1000000000 }
    let s2 := ((s1.setBit (uReg b 0x209 .lnkEvents) 0).bump (linkReg l .lnkRetry) 16 8 1).fault 0x4001 b 0x82 0x209 (l + n * 2 ^ 8)
    let s3 := (s2.trainLane l n).showLink l
    match s3.groupOf l with
    | some g => s3.regroup g.2
    | none => s3
  else s

/-- A lane that fails at once, or gives up its training (R338). -/
def State.laneDark (s : State) (l n : Nat) : State :=
  (s.laneFail l n).modLane l n (fun x => { x with training := false }) |>.showLink l

/-- LANE_SIGNAL_LOSS: loss of light or of codeword lock, or a take-down, fails the lane at once (R338). -/
def runLaneSignalLoss (l : LinkIdx) (n : LaneIdx) (s : State) : State := s.laneFail l.val n.val

/-- The command LANE_SIGNAL_LOSS. -/
def execLaneSignalLoss (l : LinkIdx) (n : LaneIdx) (s : State) : Host.Outcome State Fault Refusal := .next (runLaneSignalLoss l n s)

/-! ## Retry (R335 to R337) -/

/-- The held flits from place `i` on are to be sent again, before any new one; or the lane fails where one of them has been sent 8
times (R336, R337). -/
def State.resendFrom (s : State) (l n i : Nat) : State :=
  let x := s.lane l n
  let old := x.held.drop i
  if old.isEmpty then s
  else if old.any (fun h => decide (8 ≤ h.2.1)) then s.laneFail l n
  else
    ((s.setLane l n { x with again := old.length, ackTime := s.bow.time }).bump (linkReg l .lnkRetry) 0 16 1).event (brimIdx (l / 12)) 0x20E 0x82 1

/-- LINK_NAK: every held flit from the named SEQ on is sent again, in order (R336). -/
def runLinkNak (l : LinkIdx) (n : LaneIdx) (seq : BitVec 16) (s : State) : State :=
  let x := s.lane l.val n.val
  if x.trained then
    match x.held.findIdx? (fun h => h.1 == seq.toNat) with
    | some i => s.resendFrom l.val n.val i
    | none => s
  else s

/-- The command LINK_NAK. -/
def execLinkNak (l : LinkIdx) (n : LaneIdx) (seq : BitVec 16) (s : State) : Host.Outcome State Fault Refusal := .next (runLinkNak l n seq s)

/-- RETRY_TIMEOUT: ACK has not advanced for 4 µs while flits are held, so the lane sends again from the oldest (R336). -/
def runRetryTimeout (l : LinkIdx) (n : LaneIdx) (s : State) : State :=
  let x := s.lane l.val n.val
  if x.trained = true ∧ x.held ≠ [] ∧ x.ackTime + 4000 ≤ s.bow.time then s.resendFrom l.val n.val 0 else s

/-- The command RETRY_TIMEOUT. -/
def execRetryTimeout (l : LinkIdx) (n : LaneIdx) (s : State) : Host.Outcome State Fault Refusal := .next (runRetryTimeout l n s)

/-- A cumulative ACK releases every held flit below it (R333). -/
def Lane.acked (x : Lane) (ack now : Nat) : Lane :=
  let rest := x.held.filter (fun h => decide (256 < (ack + 2 ^ 16 - 1 - h.1) % 2 ^ 16 + 1))
  if rest.length = x.held.length then x
  else { x with held := rest, again := Nat.min x.again rest.length, ackSeen := ack, ackTime := now }

/-- The known codes of control symbols (R340). -/
def linkSymbolKnown (c : Nat) : Bool := [0x00, 0x01, 0x02, 0x03, 0x10, 0x11, 0x12].contains c

/-- NAK for the expected SEQ, not again within 2 µs for the same one (R335). -/
def State.nak (s : State) (l n : Nat) : State :=
  let x := s.lane l n
  let again := match x.nakFor with
    | some k => k.1 == x.rxNext && decide (s.bow.time < k.2 + 2000)
    | none => false
  if again then s
  else (s.setLane l n { x with nakFor := some (x.rxNext, s.bow.time) }).queueSymbol l n 0x01 (BitVec.ofNat 24 x.rxNext)

/-- The receive buffer of an accepted data flit is free again, since its packet's row takes it: its credit is owed (R339). -/
def Lane.bufferFreed (x : Lane) (vc : Bool) : Lane := if vc then { x with due1 := x.due1 + 1 } else { x with due0 := x.due0 + 1 }

/-- FLIT_RECEIVE: a flit is accepted in order, or discarded for its CRC or its SEQ with a NAK (R331, R334, R335). The
codewords that end in it count once each: those the FEC could not correct in LNK_ERR, the symbols it corrected in the lane. What its
payload carries acts through the row of that packet, its symbol through the symbol's row. `flitOf` says what flit the bytes are. -/
def runFlitReceive (l : LinkIdx) (n : LaneIdx) (f : Flit) (s : State) : State :=
  if (s.lane l.val n.val).trained then
    let b := brimIdx (l.val / 12)
    let s0 := (s.bump (linkReg l.val .lnkErr) 16 16 f.uncorr).modLane l.val n.val (fun x => { x with fecFixed := x.fecFixed + f.fixed })
    if f.bad || f.fecBad then
      (((s0.bump (linkReg l.val .lnkErr) 0 16 1).event b 0x20E 0x81 1).nak l.val n.val)
    else
      let s1 := s0.modLane l.val n.val (fun x =>
        let y := x.acked f.ack.toNat s0.bow.time
        if f.cvc then { y with credit1 := y.credit1 + f.credits.toNat } else { y with credit0 := y.credit0 + f.credits.toNat })
      let s2 := if linkSymbolKnown f.symbol.toNat then s1 else s1.setBit (uReg b 0x209 .lnkEvents) 3
      if f.type = 1 ∨ f.type = 2 then
          (if f.seq.toNat = (s2.lane l.val n.val).rxNext then
            s2.modLane l.val n.val (fun x => ({ x with rxNext := (x.rxNext + 1) % 2 ^ 16, nakFor := none } : Lane).bufferFreed f.vc)
          else s2.nak l.val n.val)
      else s2
  else s

/-- The command FLIT_RECEIVE. -/
def execFlitReceive (l : LinkIdx) (n : LaneIdx) (f : Flit) (s : State) : Host.Outcome State Fault Refusal := .next (runFlitReceive l n f s)

/-! ## Training (R344, R346) -/

/-- LANE_RETRAIN_TIMER: a lane left down is retried every 1 s (R344). -/
def runLaneRetrainTimer (l : LinkIdx) (n : LaneIdx) (s : State) : State :=
  let x := s.lane l.val n.val
  if x.training = false ∧ x.retryAt ≤ s.bow.time then s.trainLane l.val n.val else s

/-- The command LANE_RETRAIN_TIMER. -/
def execLaneRetrainTimer (l : LinkIdx) (n : LaneIdx) (s : State) : Host.Outcome State Fault Refusal := .next (runLaneRetrainTimer l n s)

/-- LANE_TRAINING_TIMEOUT: a lane that has not trained within 12 ms of laser lock is left down, to be retried in 1 s
(R344). -/
def runLaneTrainingTimeout (l : LinkIdx) (n : LaneIdx) (s : State) : State :=
  let x := s.lane l.val n.val
  if x.training = true ∧ x.lockTime + 12000000 ≤ s.bow.time then
    (s.setLane l.val n.val { x with training := false, identity := none, retryAt := s.bow.time + 1000000000 }).showLink l.val
  else s

/-- The command LANE_TRAINING_TIMEOUT. -/
def execLaneTrainingTimeout (l : LinkIdx) (n : LaneIdx) (s : State) : Host.Outcome State Fault Refusal := .next (runLaneTrainingTimeout l n s)

/-- LINK_TRAINING_COMPLETE: a lane that trains within 12 ms of laser lock is trained (R344), with empty buffers at both ends: sequence numbers from 0 and 96
credits of each channel (R339). Its link is UP or DEGRADED, and traffic that waited for it goes (R337). -/
def runLinkTrainingComplete (l : LinkIdx) (n : LaneIdx) (s : State) : State :=
  let x := s.lane l.val n.val
  if x.training = true ∧ s.lit l.val = true ∧ s.bow.time ≤ x.lockTime + 12000000 then
    let s1 := ((s.armTimer (.latency l.val n.val) s.bow.time).setLane l.val n.val { x with
      trained := true, training := false, txSeq := 0, held := [], again := 0, ackSeen := 0, ackTime := s.bow.time, rxNext := 0,
      nakFor := none, credit0 := 96, credit1 := 96, vcRun := 0, due0 := 0, due1 := 0, ackTold := 0 }).showLink l.val
    match s1.groupOf l.val with
    | some g => s1.regroup g.2
    | none => s1
  else s

/-- The command LINK_TRAINING_COMPLETE. -/
def execLinkTrainingComplete (l : LinkIdx) (n : LaneIdx) (s : State) : Host.Outcome State Fault Refusal := .next (runLinkTrainingComplete l n s)

/-- IDENTITY_RECORD: a lane in training or trained has the partner's record; the link shows it, and a difference from the
expected partner, or between lanes, holds the link in MISMATCH (R346). -/
def runIdentityRecord (l : LinkIdx) (n : LaneIdx) (id : Identity) (s : State) : State :=
  let x := s.lane l.val n.val
  if x.training || x.trained then
    let b := brimIdx (l.val / 12)
    let s1 := s.setLane l.val n.val { x with identity := some id }
    let s2 := s1.setPair (linkReg l.val .lnkPartnerLo) (linkReg l.val .lnkPartnerHi) id.serial.toNat
    let s3 := s2.setReg (linkReg l.val .lnkPinfo) (BitVec.ofNat 32 (id.link % 2 ^ 6 + id.rackPos % 2 ^ 8 * 2 ^ 8))
    let s4 := s3.showLink l.val
    if s4.mismatched l.val then (s4.setBit (uReg b 0x209 .lnkEvents) 1).fault 0x4002 b 0x82 0x209 id.serial.toNat
    else match s4.groupOf l.val with
      | some g => s4.regroup g.2
      | none => s4
  else s

/-- The command IDENTITY_RECORD. -/
def execIdentityRecord (l : LinkIdx) (n : LaneIdx) (id : Identity) (s : State) : Host.Outcome State Fault Refusal := .next (runIdentityRecord l n id s)

/-! ## Latency (R345) -/

/-- TIME_PING: answered with TIME_ECHO in the next flit of the reverse lane that R341 leaves free for it (R345). -/
def runTimePing (l : LinkIdx) (n : LaneIdx) (value : BitVec 24) (s : State) : State :=
  let x := s.lane l.val n.val
  if x.training || x.trained then s.queueSymbol l.val n.val 0x03 value else s

/-- The command TIME_PING. -/
def execTimePing (l : LinkIdx) (n : LaneIdx) (value : BitVec 24) (s : State) : Host.Outcome State Fault Refusal := .next (runTimePing l n value s)

/-- A measurement of a lane ends: LNK_LAT is the largest value of the link's lanes, RATE_LIMITED shows a round trip beyond
the retry buffer (R336), and a value above the form's LINK_LAT_MAX sets LAT_RISE (R345). -/
def State.latencyDone (s : State) (l n : Nat) : State :=
  let s1 := s.modLane l n (fun x => { x with lat := x.latest })
  let v := (List.range 4).foldl (fun a k => Nat.max a (s1.lane l k).lat) 0
  let s2 := s1.setReg (linkReg l .lnkLat) (BitVec.ofNat 32 (v % 2 ^ 16))
  let s3 := s2.setFld (linkReg l .lnkState) 3 1 (boolN (decide (131072 < 100 * (2 * v + 20))))
  match s3.groupOf l with
  | none => s3
  | some g => match (s3.part g.2.part).form with
    | some f => if f.linkLatMax < v then s3.setBit (uReg (brimIdx (l / 12)) 0x209 .lnkEvents) 2 else s3
    | none => s3

/-- TIME_ECHO: one latency sample, (arrival - value - turnaround) / 2 modulo 2²⁴ (R345). Half a nanosecond is rounded either
way, which the spec leaves open. -/
def runTimeEcho (l : LinkIdx) (n : LaneIdx) (value arrival : BitVec 24) (turnaround : Nat) (s : State) : State :=
  let x := s.lane l.val n.val
  if x.pings = 0 then s
  else
    let d := (arrival.toNat + 2 ^ 24 * (turnaround / 2 ^ 24 + 2) - value.toNat - turnaround) % 2 ^ 24
    let r := s.drawB
    let lat := d / 2 + (if d % 2 = 1 ∧ r.1 = true then 1 else 0)
    let s1 := r.2.setLane l.val n.val { x with pings := x.pings - 1, latest := Nat.max x.latest lat }
    if x.pings = 1 then s1.latencyDone l.val n.val else s1

/-- The command TIME_ECHO. -/
def execTimeEcho (l : LinkIdx) (n : LaneIdx) (value arrival : BitVec 24) (turnaround : Nat) (s : State) : Host.Outcome State Fault Refusal := .next (runTimeEcho l n value arrival turnaround s)

/-- LATENCY_MEASURE_TIMER: once a second, and first after training, a trained lane has 64 TIME_PING symbols to send, one per flit, each with
the bowstring time of its flit's first bit (R341, R345). -/
def runLatencyMeasureTimer (l : LinkIdx) (n : LaneIdx) (s : State) : State :=
  let x := s.lane l.val n.val
  if x.trained = true ∧ s.due (.latency l.val n.val) = true then
    (s.armTimer (.latency l.val n.val) (s.bow.time + 1000000000)).setLane l.val n.val { x with pings := 64, pingsDue := 64, latest := 0 }
  else s

/-- The command LATENCY_MEASURE_TIMER. -/
def execLatencyMeasureTimer (l : LinkIdx) (n : LaneIdx) (s : State) : Host.Outcome State Fault Refusal := .next (runLatencyMeasureTimer l n s)

/-! ## BARRIER, HOLD and JOB_END of a peer (R342, R343) -/

/-- Acts on the first good copy of a symbol: copies with the same code and argument within 1 µs are ignored (R342). -/
def State.firstCopy (s : State) (l code arg : Nat) (f : Nat × LGroup → State → State) : State :=
  match s.groupOf l with
  | none => s
  | some g => match g.2.links.head? with
    | none => s
    | some k =>
      let seen := match Tbl.find (s.lane k 0).lastSym code with
        | some e => e.1 == arg && decide (s.bow.time < e.2 + 1000)
        | none => false
      if g.2.store || seen then s
      else f g (s.modLane k 0 (fun x => { x with lastSym := Tbl.put x.lastSym code (arg, s.bow.time) }))

/-- LINK_BARRIER: recorded for the peer with its step; one for an earlier step is ignored (R343). -/
def runLinkBarrier (l : LinkIdx) (arg : BitVec 24) (s : State) : State :=
  s.firstCopy l.val 0x10 arg.toNat (fun g s =>
    let a := arg.toNat % 2 ^ 16
    let x := s.part g.2.part
    if (a + 2 ^ 16 - x.stepArg) % 2 ^ 16 < 2 ^ 15 ∧ x.barriersRx.any (fun b => b.1 == g.1 && b.2.1 == a) = false then
      s.modPart g.2.part (fun x => { x with barriersRx := x.barriersRx ++ [(g.1, a, s.bow.time)] })
    else s)

/-- The command LINK_BARRIER. -/
def execLinkBarrier (l : LinkIdx) (arg : BitVec 24) (s : State) : Host.Outcome State Fault Refusal := .next (runLinkBarrier l arg s)

/-- LINK_HOLD: counted, with no other action (R343). -/
def runLinkHold (l : LinkIdx) (arg : BitVec 24) (s : State) : State :=
  s.firstCopy l.val 0x11 arg.toNat (fun _ s => s.modLane l.val 0 (fun x => { x with holds := x.holds + 1 }))

/-- The command LINK_HOLD. -/
def execLinkHold (l : LinkIdx) (arg : BitVec 24) (s : State) : Host.Outcome State Fault Refusal := .next (runLinkHold l arg s)

/-- LINK_JOB_END: a peer's JOB_END ends the partition's job (R224, R343). -/
def runLinkJobEnd (l : LinkIdx) (arg : BitVec 24) (s : State) : State :=
  s.firstCopy l.val 0x12 arg.toNat (fun g s =>
    if (s.part g.2.part).job = .running then
      s.jobFault 0x1019 (brimIdx (l.val / 12)) 0x82 0x209 (s.pair (linkReg l.val .lnkPartnerLo) (linkReg l.val .lnkPartnerHi)) (some g.2.part)
    else s)

/-- The command LINK_JOB_END. -/
def execLinkJobEnd (l : LinkIdx) (arg : BitVec 24) (s : State) : Host.Outcome State Fault Refusal := .next (runLinkJobEnd l arg s)

/-! ## Job transfers (R350 to R353) -/

/-- The packets of a transfer: offset and length, at most 4,064 bytes each (R351). -/
def packetsOf (len : Nat) : List (Nat × Nat) := (List.range (ceilDiv len 4064)).map (fun i => (4064 * i, Nat.min 4064 (len - 4064 * i)))

/-- LINK_TRANSFER_START: the link engine reads a complete transfer packet by packet from SRAM and sends it over the lanes of
its channel's group (R350, R351). A group with no working link holds it (R337). -/
def runLinkTransferStart (p : PartIdx) (xfer : Nat) (s : State) : State :=
  let x := s.part p.val
  match x.xfers.find? (fun y => y.xfer == xfer && !y.started) with
  | none => s
  | some y => match Tbl.find s.start.groups y.group with
    | none => s
    | some g =>
      if (s.workingLanes g).isEmpty then s
      else
        let win := s.chanWindow y.channel
        let rchan := s.fldOf (s.pReg 0x209 .lnkChan y.channel) 11 6
        let ps := packetsOf y.len
        let s1 := s.modPart p.val (fun x => { x with xfers := x.xfers.map (fun z =>
          if z.channel = y.channel ∧ z.xfer = y.xfer then { z with started := true } else z) })
        ((List.range ps.length).zip ps).foldl (fun s e =>
          let a := y.dst.toNat + e.2.1
          s.sendPacket (y.group, g) e.1 0
            ⟨rchan, 0, y.land, y.dst.toNat - win.1 + e.2.1, e.2.2, BitVec.ofNat 16 y.xfer, ps.length, none⟩
            (s.bytes a e.2.2) (s.badFlits a e.2.2)) s1

/-- The command LINK_TRANSFER_START. -/
def execLinkTransferStart (p : PartIdx) (xfer : Nat) (s : State) : Host.Outcome State Fault Refusal := .next (runLinkTransferStart p xfer s)

/-- The acknowledgement of a job transfer (R353): one flit of KIND 5 on VC 0 of its group. -/
def State.sendAck (s : State) (g : Nat) (channel xfer : Nat) : State :=
  match Tbl.find s.start.groups g with
  | none => s
  | some x => s.sendPacket (g, x) 0 0 ⟨channel, 5, 0, 0, 0, BitVec.ofNat 16 xfer, 0, none⟩ [] []

/-- The notify increment of a completed job transfer (R352). -/
def State.notify (s : State) (t : TileId) (n : Nat) : State := if (s.tile t).fenced then s else s.landOne t n

/-- The notify tile of an in channel. -/
def State.notifyTile (s : State) (c : Nat) : TileId :=
  tileOf (s.fldOf (s.pReg 0x209 .lnkCnote c) 0 5) (s.fldOf (s.pReg 0x209 .lnkCnote c) 5 9)

/-- Every packet of a transfer is written: its notify increment is applied, or held where its sender's BARRIER for the
partition's step has arrived, and the acknowledgement follows it (R352, R353). -/
def State.transferDone (s : State) (p g : Nat) (h : LinkHdr) : State :=
  let x := s.part p
  let late := x.barriersRx.any (fun b => b.1 == g && b.2.1 == x.stepArg)
  let t := s.notifyTile h.channel
  let n := fld h.land.toNat 0 5
  if bit h.land.toNat 15 then
    (if late then s.modPart p (fun x => { x with heldNotes := x.heldNotes ++ [(t, n, g, h.channel, h.xfer.toNat)] })
     else (s.notify t n).sendAck g h.channel h.xfer.toNat)
  else s.sendAck g h.channel h.xfer.toNat

/-- The data of a packet written at an address, flit by flit: a poisoned flit as poisoned words (R352, R143). -/
def State.setPacket (s : State) (a : Nat) (data : List Byte) (bad : List Nat) : State :=
  (List.range (linkFlits data.length)).foldl (fun s i =>
    let q := flitSpan data.length i
    s.setBytesP (a + q.1) ((data.drop q.1).take (q.2 - q.1)) (bad.contains i)) s

/-- LINK_JOB_WRITE: a packet is written into the in-window of its channel, or discarded where it reaches beyond it, with an
out-of-allocation fault (R352). -/
def runLinkJobWrite (l : LinkIdx) (h : LinkHdr) (data : List Byte) (bad : List Nat) (s : State) : State :=
  match s.groupOf l.val with
  | none => s
  | some g =>
    if g.2.store then s
    else
      let w := s.regN (s.pReg 0x209 .lnkChan h.channel)
      let ok := decide (h.channel < 64) && bit w 0 && bit w 1 && fld w 6 5 == g.1
      let win := s.chanWindow h.channel
      if !ok || decide (win.2 < h.offset + h.len) then
        s.jobFault 0x1012 s.prinDie 0x82 0x209 (win.1 + h.offset) (some g.2.part)
      else
        let p := fld w 2 4
        let s1 := s.setPacket (win.1 + h.offset) (sliceB data 0 h.len) bad
        let x := s1.part p
        let cur := (x.inXfers.find? (fun y => y.channel == h.channel && y.xfer == h.xfer.toNat)).getD ⟨h.channel, h.xfer.toNat, 0, h.packets⟩
        let rest := x.inXfers.filter (fun y => !(y.channel == h.channel && y.xfer == h.xfer.toNat))
        if cur.total ≤ cur.got + 1 then (s1.setPart p { x with inXfers := rest }).transferDone p g.1 h
        else s1.setPart p { x with inXfers := rest ++ [{ cur with got := cur.got + 1 }] }

/-- The command LINK_JOB_WRITE. -/
def execLinkJobWrite (l : LinkIdx) (h : LinkHdr) (data : List Byte) (bad : List Nat) (s : State) : Host.Outcome State Fault Refusal := .next (runLinkJobWrite l h data bad s)

/-- LINK_JOB_ACK: a job transfer is acknowledged; a ready partition whose last one this is sends its BARRIER (R353). -/
def runLinkJobAck (l : LinkIdx) (h : LinkHdr) (s : State) : State :=
  match s.groupOf l.val with
  | none => s
  | some g =>
    let p := g.2.part
    let hit (y : LinkXfer) : Bool :=
      y.started && y.group == g.1 && y.xfer % 2 ^ 16 == h.xfer.toNat && s.fldOf (s.pReg 0x209 .lnkChan y.channel) 11 6 == h.channel
    (s.modPart p (fun x => { x with xfers := x.xfers.filter (fun y => !hit y) })).barrierSend p

/-- The command LINK_JOB_ACK. -/
def execLinkJobAck (l : LinkIdx) (h : LinkHdr) (s : State) : Host.Outcome State Fault Refusal := .next (runLinkJobAck l h s)

/-! ## Store traffic at the serving end (R355) -/

/-- A request of a store group: `f` acts on it with the device address it names, or, where it reaches beyond the group's store
range, it is answered with KIND 4 and counted. -/
def State.storeRequest (s : State) (l : Nat) (h : LinkHdr) (f : Nat × LGroup → Nat → State → State) : State :=
  match s.groupOf l with
  | none => s
  | some g =>
    if !g.2.store then s
    else if h.offset + h.len ≤ g.2.storeLen * 2 ^ 30 then
      f g (mkAddr (crownIdx g.2.storeCw) 0 (g.2.storeBase * 2 ^ 30) + h.offset) s
    else
      (s.setBit (uReg (brimIdx (l / 12)) 0x209 .lnkEvents) 4).sendPacket g 0 1 { h with kind := 4, land := 0, len := 0, packets := 0 } [] []

/-- LINK_STORE_WRITE: written into the store range, or refused beyond it. -/
def runLinkStoreWrite (l : LinkIdx) (h : LinkHdr) (data : List Byte) (s : State) : State :=
  s.storeRequest l.val h (fun _ a s => s.setBytes a (sliceB data 0 h.len))

/-- The command LINK_STORE_WRITE. -/
def execLinkStoreWrite (l : LinkIdx) (h : LinkHdr) (data : List Byte) (s : State) : Host.Outcome State Fault Refusal := .next (runLinkStoreWrite l h data s)

/-- The group of a child of the rack bolt tree that a request on a link comes from, with the object it names (R304). -/
def State.childOf (s : State) (l : Nat) (h : LinkHdr) : Option (Nat × W64 × W32) :=
  match s.groupOf l, h.object with
  | some g, some o => if g.2.store && s.start.children.contains g.1 then some (g.1, o) else none
  | _, _ => none

/-- LINK_STORE_READ_REQ: answered with the data, or refused beyond the store range; one of a child of the rack bolt tree that names
an object is answered as R304 says. -/
def runLinkStoreReadReq (l : LinkIdx) (h : LinkHdr) (s : State) : State :=
  match s.childOf l.val h with
  | some c => s.childAsk c.1 c.2.1 c.2.2.toNat
  | none => s.storeRequest l.val h (fun g a s => s.sendPacket g 0 1 { h with kind := 3, packets := 1 } (s.bytes a h.len) (s.badFlits a h.len))

/-- The command LINK_STORE_READ_REQ. -/
def execLinkStoreReadReq (l : LinkIdx) (h : LinkHdr) (s : State) : Host.Outcome State Fault Refusal := .next (runLinkStoreReadReq l h s)

/-- LINK_STORE_REFUSAL: a refused store request is counted (R355). -/
def runLinkStoreRefusal (l : LinkIdx) (_h : LinkHdr) (s : State) : State :=
  match s.groupOf l.val with
  | none => s
  | some g => if g.2.store then s.setBit (uReg (brimIdx (l.val / 12)) 0x209 .lnkEvents) 4 else s

/-- The command LINK_STORE_REFUSAL. -/
def execLinkStoreRefusal (l : LinkIdx) (h : LinkHdr) (s : State) : Host.Outcome State Fault Refusal := .next (runLinkStoreRefusal l h s)

/-! ## Channel registers (R371) -/

/-- The partition of a channel register write: the one a LNK_CHAN word names, else the channel's. -/
def State.chanPart (s : State) (c : Nat) : Nat := s.fldOf (s.pReg 0x209 .lnkChan c) 2 4

/-- A channel register write (R371): from control cores only, while the partition has no running job; any other write is a
firmware fault. A write that puts a free channel into use belongs to the partition it names. -/
def State.chanWrite (s : State) (port : Port) (k : RegKey) (d : Nat) : State :=
  let free := k.reg == Reg.lnkChan && s.fldOf (s.pReg 0x209 .lnkChan k.idx) 0 1 == 0
  let p := if free then fld d 2 4 else s.chanPart k.idx
  s.guardedWrite port k d (fun s =>
    if port.isCore && (s.part p).job != .running then s.storeReg k d else s.fwFault k.addr)

/-- LINK_CHANNEL_WRITE: LNK_CHAN, LNK_CWIN or LNK_CNOTE of a channel (R371). -/
def runLinkChannelWrite (port : Port) (c : Fin 64) (word : Fin 3) (data : W32) (s : State) : State :=
  let r := match word with
    | 0 => Reg.lnkChan
    | 1 => Reg.lnkCwin
    | 2 => Reg.lnkCnote
  s.chanWrite port (s.pReg 0x209 r c.val) data.toNat

/-- The command LINK_CHANNEL_WRITE. -/
def execLinkChannelWrite (port : Port) (c : Fin 64) (word : Fin 3) (data : W32) (s : State) : Host.Outcome State Fault Refusal := .next (runLinkChannelWrite port c word data s)

end Sys2Proof.Machine
end

