-- ==== Sys2Proof/Machine/ServicePorts.lean ====
section
/-!
DEFINITION. The service ports (10_links.md): frames and their drops (R356, R357), channels and sequence numbers of the
Oroand Service Protocol (R358 to R362), and the answers to address requests, STATUS and RESYNC (R357, R367, R368).
-/

namespace Sys2Proof.Machine

/-- A register of a service port. -/
def ethReg (port : Nat) (r : Reg) : RegKey := uReg (brimIdx port) 0x20B r

/-- Whether a port is enabled (R356). -/
def State.portEnabled (s : State) (port : Nat) : Bool := s.fldOf (ethReg port .ethCtrl) 0 1 == 1

/-- The STATE of a module (LAS_STATE_m). -/
def State.lasIs (s : State) (m : Nat) : Nat := s.fldOf (lasReg m .lasState) 0 3

/-- The source of a Brim die's service port: 0 or 1 (LAS_SPSRC). -/
def State.spSource (s : State) (b : Nat) : Nat := s.fldOf (uReg (brimIdx b) 0x20A .lasSpsrc) 0 1

/-- Whether a port works: enabled, its PLL on its ratio (R417), and its source LOCKED (R383). -/
def State.portOn (s : State) (port : Nat) : Bool :=
  s.portEnabled port && !s.pllDown (.ethernet (Fin.ofNat 4 port)) && s.lasIs (2 * port + s.spSource port) == 4

/-- A protocol violation: unbound channels, unknown types, discarded SUBMITs (ETH_DROP_OSP). -/
def State.ethViolation (s : State) (port : Nat) : State := s.bump (ethReg port .ethDropOsp) 16 16 1

/-! ## Frames (R356, R357) -/

/-- Whether a frame's VLAN tag is accepted: untagged frames while tagging is off, and the port's own VID (R356). -/
def State.vlanOk (s : State) (port : Nat) (vid : Option (BitVec 12)) : Bool :=
  match vid with
  | none => s.fldOf (ethReg port .ethCtrl) 1 1 == 0
  | some v => s.fldOf (ethReg port .ethCtrl) 2 12 == v.toNat

/-- The message types a port takes from outside (R363): those of a client, and BOLT_DATA of a store. -/
def ospKnown (t : Nat) : Bool := [0x01, 0x02, 0x03, 0x04, 0x11].contains t

/-- A dropped frame, counted (R357). -/
def State.dropFrame (s : State) (port lo : Nat) : State :=
  (s.bump (ethReg port .ethDropHdr) lo 16 1).event (brimIdx port) 0x20E 0x84 1

/-- ETH_FRAME_RECEIVE: a frame is accepted as a service-protocol datagram, or dropped and counted (R356, R357, R359, R363).
The message of an accepted one acts through its own row. -/
def runEthFrameReceive (port : BrimDie) (f : EthFrame) (s : State) : State :=
  let n := port.val
  if s.portOn n then
    if f.pause then (s.setBit (ethReg n .ethEvents) 0).dropFrame n 0
    else if f.badFcs || f.tooShort || f.tooLong || f.stackedTag || !s.vlanOk n f.vid || f.fragment || f.ipOptions || f.notUdp
        || f.udpPort.toNat != s.fldOf (ethReg n .ethUdp) 0 16 then s.dropFrame n 0
    else if f.badChecksum then s.dropFrame n 16
    else
      let s1 := s.event (brimIdx n) 0x20E 0x83 1
      if f.hdr.magic = 0x534F ∧ f.hdr.version = 1 ∧ ospKnown f.hdr.type.toNat = true then s1 else s1.ethViolation n
  else s

/-- The command ETH_FRAME_RECEIVE. -/
def execEthFrameReceive (port : BrimDie) (f : EthFrame) (s : State) : Host.Outcome State Fault Refusal := .next (runEthFrameReceive port f s)

/-- ARP_REQUEST: answered for the port's own IPv4 address (R357); ETH_IPV4 holds its bytes in network order from bits [7:0]
up. -/
def runArpRequest (port : BrimDie) (target : BitVec 32) (src : PeerAddr) (s : State) : State :=
  let own := s.regN (ethReg port.val .ethIpv4)
  if s.portOn port.val = true ∧ own ≠ 0 ∧ beNat (leBytes 4 own) = target.toNat then s.emit (.arpReply port.val src) else s

/-- The command ARP_REQUEST. -/
def execArpRequest (port : BrimDie) (target : BitVec 32) (src : PeerAddr) (s : State) : Host.Outcome State Fault Refusal := .next (runArpRequest port target src s)

/-- NEIGHBOUR_SOLICITATION: answered for the port's own IPv6 address (R357). -/
def runNeighbourSolicitation (port : BrimDie) (target : BitVec 128) (src : PeerAddr) (s : State) : State :=
  let own := (List.range 4).flatMap (fun i => leBytes 4 (s.regN (uReg (brimIdx port.val) 0x20B .ethIpv6 i)))
  if s.portOn port.val = true ∧ beNat own ≠ 0 ∧ beNat own = target.toNat then s.emit (.ndAdvert port.val src) else s

/-- The command NEIGHBOUR_SOLICITATION. -/
def execNeighbourSolicitation (port : BrimDie) (target : BitVec 128) (src : PeerAddr) (s : State) : Host.Outcome State Fault Refusal := .next (runNeighbourSolicitation port target src s)

/-! ## Device messages (R362) -/

/-- The bytes of a message with its header (R359, R365 to R368, R370). -/
def Msg.size : Msg → Nat
  | .tokens _ _ toks text => 28 + 4 * toks.length + text.length
  | .done .. => 32
  | .statusReq .. => 40
  | .statusDev .. => 40
  | .resyncReply .. => 32
  | .boltReq .. => 36

/-- The bytes a port's replay store holds. -/
def State.replaySize (s : State) (port : Nat) : Nat :=
  (s.replay.filter (fun e => e.1 == port)).foldl (fun a e => a + e.2.2.2.size) 0

/-- While a port's replay store holds more than 16 MiB, its oldest message is discarded (R362). -/
def State.replayTrim : Nat → Nat → State → State
  | 0, _, s => s
  | n + 1, port, s =>
    if s.replaySize port ≤ 2 ^ 24 then s
    else match s.replay.find? (fun e => e.1 == port) with
      | none => s
      | some e =>
        let c := s.chan port e.2.1
        State.replayTrim n port (({ s with replay := s.replay.erase e }).setChan port e.2.1 { c with lost := Nat.max c.lost e.2.2.1 })

/-- Sends a device message on a channel, with the next SEQ, and retains it (R358, R362). A channel that is not open carries
none; what a port whose link is down sends is lost, and recovered by RESYNC (R383). -/
def State.ospSend (s : State) (port c : Nat) (m : Msg) : State :=
  let x := s.chan port c
  if x.isOpen then
    let q := (x.lastEmit + 1) % 2 ^ 32
    let s1 := s.setChan port c { x with lastEmit := q }
    let s2 := State.replayTrim (s1.replay.length + 1) port { s1 with replay := s1.replay ++ [(port, c, q, m)] }
    if s2.portOn port then s2.emit (.osp port c q x.addr m) else s2
  else s

/-- ACK releases every retained message of the channel up to it; 0 acknowledges none (R359, R362). -/
def State.ospAck (s : State) (port c ack : Nat) : State :=
  if ack = 0 then s
  else { s with replay := s.replay.filter (fun e => !(e.1 == port && e.2.1 == c && decide (e.2.2.1 ≤ ack))) }

/-! ## Client messages (R360, R361) -/

/-- The bound address of a channel: source IP address and UDP port. -/
def samePeer (a b : PeerAddr) : Bool := a.ip == b.ip && a.v6 == b.v6 && a.udp == b.udp

/-- An incomplete SUBMIT is discarded, and a violation counted (R364). -/
def State.dropSubmit (s : State) (port c : Nat) : State :=
  let x := s.chan port c
  if x.pend.isSome then
    ((s.setChan port c { x with pend := none }).ethViolation port).setBit (ethReg port .ethEvents) 2
  else s

/-- A client message on a channel (R360, R361): dropped and counted unless the channel is open, bound to its source, and its
SEQ is the next one; otherwise accepted, and `f` acts on it. -/
def State.ospAccept (s : State) (port : Nat) (src : PeerAddr) (h : OspHdr) (f : State → State) : State :=
  let c := h.channel.toNat
  let x := s.chan port c
  if !(s.portOn port && h.magic == 0x534F && h.version == 1) then s
  else if !(x.isOpen && samePeer x.addr src) then s.ethViolation port
  else if h.seq.toNat ≠ (x.lastAcc + 1) % 2 ^ 32 then s.bump (ethReg port .ethDropOsp) 0 16 1
  else f ((s.setChan port c { x with lastAcc := h.seq.toNat, addr := src }).ospAck port c h.ack.toNat)

/-- The slot of a request of a channel of a service port. -/
def State.slotOfChan (s : State) (port c : Nat) (subSeq : W32) : Option Nat :=
  (s.slots.find? (fun e => e.2.state != .free && !e.2.host && e.2.twinOf.isNone && e.2.port == port && e.2.channel == c && e.2.subSeq == subSeq)).map (·.1)

/-- The slots that are not FREE (REQ_STATUS.ACTIVE). -/
def State.activeSlots (s : State) : Nat := (s.slots.filter (fun e => e.2.state != .free)).length

/-- The partitions with a running job, as a bit mask (R367). -/
def State.jobsMask (s : State) : BitVec 16 :=
  BitVec.ofNat 16 ((List.range 16).foldl (fun a p => a + (if (s.part p).job = .running then 2 ^ p else 0)) 0)

/-- A STATUS reply (R367): of a request's slot, or STATE 0 and REASON 0x41 where there is none. -/
def State.requestStatus (s : State) (subSeq : W32) (slot : Option Nat) : Msg :=
  match slot with
  | some i => let x := s.slot i; .statusReq subSeq x.state.code x.reason x.pos x.genLen
  | none => .statusReq subSeq 0 0x41 0 0

/-- The device summary of R367. -/
def State.deviceStatus (s : State) : Msg :=
  .statusDev (s.parts.any (fun e => e.2.present)) s.jobsMask s.activeSlots s.bow.time

/-- STATUS_REQUEST (R367). -/
def runStatusRequest (port : BrimDie) (src : PeerAddr) (hdr : OspHdr) (subSeq : W32) (s : State) : State :=
  s.ospAccept port.val src hdr (fun s =>
    let c := hdr.channel.toNat
    let s1 := s.dropSubmit port.val c
    s1.ospSend port.val c (if subSeq.toNat = 0xFFFFFFFF then s1.deviceStatus
      else s1.requestStatus subSeq (s1.slotOfChan port.val c subSeq)))

/-- The command STATUS_REQUEST. -/
def execStatusRequest (port : BrimDie) (src : PeerAddr) (hdr : OspHdr) (subSeq : W32) (s : State) : Host.Outcome State Fault Refusal := .next (runStatusRequest port src hdr subSeq s)

/-- The open channels of a port (R360). -/
def State.openChannels (s : State) (port : Nat) : Nat := (s.chans.filter (fun e => e.1.1 == port && e.2.isOpen)).length

/-- RESYNC (R360 to R362, R368): accepted whatever its SEQ. With OPEN it binds the channel to its source and takes its SEQ as
the last accepted; without, it is answered, and every retained message from REPLAY_FROM on is sent again in order. -/
def runResync (port : BrimDie) (src : PeerAddr) (hdr : OspHdr) (replayFrom flags : W32) (s : State) : State :=
  let n := port.val
  let c := hdr.channel.toNat
  let x := s.chan n c
  let opening := bit flags.toNat 0
  if !(s.portOn n && hdr.magic == 0x534F && hdr.version == 1) then s
  else if 1024 ≤ c ∨ (opening = false ∧ (x.isOpen && samePeer x.addr src) = false) then s.ethViolation n
  else
    let s1 := s.dropSubmit n c
    let y := s1.chan n c
    let s2 := s1.setChan n c { y with isOpen := true, addr := src, lastAcc := if opening then hdr.seq.toNat else y.lastAcc }
    let s3 := (s2.setFld (ethReg n .ethChannels) 0 11 (s2.openChannels n)).ospAck n c hdr.ack.toNat
    let kept := s3.replay.filter (fun e => e.1 == n && e.2.1 == c)
    let r := replayFrom.toNat
    let again := !opening && r != 0
    let gap := again && decide (r ≤ x.lost)
    let s4 := if gap then s3.setBit (ethReg n .ethEvents) 1 else s3
    let s5 := s4.ospSend n c (.resyncReply x.lastAcc x.lastEmit ((kept.head?.map (fun e => e.2.2.1)).getD 0) gap)
    if again then (kept.filter (fun e => decide (r ≤ e.2.2.1))).foldl (fun s e => s.emit (.osp n c e.2.2.1 src e.2.2.2)) s5 else s5

/-- The command RESYNC. -/
def execResync (port : BrimDie) (src : PeerAddr) (hdr : OspHdr) (replayFrom flags : W32) (s : State) : Host.Outcome State Fault Refusal := .next (runResync port src hdr replayFrom flags s)

end Sys2Proof.Machine
end

