-- ==== Sys2Proof/Machine/Lasers.lean ====
section
/-!
DEFINITION. The laser modules (11_laser_modules.md): insertion, acceptance and bring-up (R374, R375, R380), monitoring, life
and faults (R376 to R379), removal and the service port's source (R381 to R383), laser control (R373, R384), and the laser
supplies (R528).
-/

namespace Sys2Proof.Machine

/-! ## EEPROM (R374 to R376) -/

/-- A signed 16-bit field. -/
def s16At (l : List Byte) (off : Nat) : Int := sext 16 (leAt l off 2)

/-- The acceptance check (R375). -/
def laserAccept (e : List Byte) : Bool :=
  leAt e 252 4 == crc32 (sliceB e 0 252) && leAt e 0 2 == 1 &&
  decide (1 ≤ leAt e 52 4) && decide (leAt e 52 4 ≤ 1000000) && decide (leAt e 56 1 < leAt e 57 1) &&
  (List.range 4).all (fun w =>
    decide (-650 ≤ s16At e (64 + 8 * w)) && decide (s16At e (64 + 8 * w) ≤ 650) &&
    decide (leAt e (68 + 8 * w) 2 < leAt e (70 + 8 * w) 2))

/-- A log record of the EEPROM, if its CRC holds (R376). -/
def laserLog (e : List Byte) (k : Nat) : Option (List Byte) :=
  let r := sliceB e (0x100 + 0x40 * k) 64
  if leAt r 60 4 = crc32 (r.take 60) then some r else none

/-- The log record read: the valid one with the higher SEQ, and the place of the next write. -/
def laserRead (e : List Byte) : Option (List Byte) × Nat :=
  match laserLog e 0, laserLog e 1 with
  | some a, some b => if leAt a 0 4 < leAt b 0 4 then (some b, 0) else (some a, 1)
  | some a, none => (some a, 1)
  | none, some b => (some b, 0)
  | none, none => (none, 0)

/-- Replaces bytes of a list. -/
def patchB (l : List Byte) (off : Nat) (b : List Byte) : List Byte := sliceB l 0 off ++ b ++ l.drop (off + b.length)

/-- The device writes the log record of a module (R376, R378). -/
def State.laserLogWrite (s : State) (m : Nat) : State :=
  let x := s.laser m
  let body := leBytes 4 (x.logSeq + 1) ++ leBytes 4 (s.regN (lasReg m .lasHours)) ++ leBytes 4 (s.regN (lasReg m .lasEqhours)) ++
    leBytes 2 (s.fldOf (lasReg m .lasRise) 0 16) ++ leBytes 1 (s.fldOf (lasReg m .lasState) 4 2) ++ List.replicate 45 (0 : Byte)
  s.setLaser m { x with
    logSeq := x.logSeq + 1, logNext := (x.logNext + 1) % 2,
    eeprom := patchB x.eeprom (0x100 + 0x40 * x.logNext) (body ++ leBytes 4 (crc32 body)) }

/-! ## State of a module -/

/-- Sets the STATE of a module. -/
def State.lasSet (s : State) (m v : Nat) : State := s.setFld (lasReg m .lasState) 0 3 v

/-- The links that a module feeds (R372). -/
def moduleLinks (m : Nat) : List Nat := (List.range 6).map (6 * m + ·)

/-- Whether a module may be on (R373): one of its links belongs to a group, or it is the source of an enabled port. -/
def State.lasNeeded (s : State) (m : Nat) : Bool :=
  (moduleLinks m).any (fun l => (s.groupOf l).isSome) || (s.portEnabled (m / 2) && s.spSource (m / 2) == m % 2)

/-- A service port's link is up while it works (R383). -/
def State.showPort (s : State) (b : Nat) : State :=
  let up := boolN (s.portOn b)
  (s.setFld (ethReg b .ethStatus) 0 1 up).setFld (ethReg b .ethStatus) 1 1 up

/-- An enabled, accepted module is brought up; one that R373 keeps off, or whose LASER_EN is 0, is OFF. -/
def State.lasBringUp (s : State) (m : Nat) : State :=
  let on := s.fldOf (lasReg m .lasCtrl) 0 1 == 1 && s.lasNeeded m
  let x := s.laser m
  (s.setLaser m { x with powered := on, atPower := false, lowPower := [] }).lasSet m (if on then 3 else 5)

/-- The light of a module goes: every lane of its six links fails at once (R338, R381). -/
def State.lightsOut (s : State) (m : Nat) : State :=
  (moduleLinks m).foldl (fun s l => (List.range 4).foldl (fun s n => s.laneDark l n) s) s

/-- A module leaves LOCKED or bring-up for another state. -/
def State.lasDown (s : State) (m v : Nat) : State :=
  let x := s.laser m
  ((s.setLaser m { x with powered := false, atPower := false, lowPower := [] }).lasSet m v).lightsOut m

/-- A module that R373 keeps off goes off. -/
def State.lasKeepOff (s : State) (m : Nat) : State :=
  if (s.laser m).powered && !s.lasNeeded m then (s.laserLogWrite m).lasDown m 5 else s

/-- The service port's source follows AUTO when module `m` is removed, faulty or off (R383). -/
def State.spSwitch (s : State) (m : Nat) : State :=
  let b := m / 2
  let k := uReg (brimIdx b) 0x20A .lasSpsrc
  let other := 1 - m % 2
  let s1 := if s.fldOf k 1 1 = 1 ∧ s.fldOf k 0 1 = m % 2 ∧ s.lasIs (2 * b + other) = 4 then
      (s.setFld k 0 1 other).setBit (uReg (brimIdx b) 0x20A .lasEvents) 4
    else s
  s1.showPort b

/-- Whether a module's supplies are up and its Brim die runs (R528). -/
def State.lasSupplied (s : State) (m : Nat) : Bool :=
  s.power.vin48 && (s.power.vlas.getD (m / 2) false) && (s.die (brimIdx (m / 2))).alive

/-! ## Bring-up (R380) -/

/-- MODULE_INSERTED: a module is in the cage, and its debounce starts. -/
def runModuleInserted (m : ModuleIdx) (eeprom : List Byte) (s : State) : State :=
  if (s.laser m.val).inCage then s
  else (s.setLaser m.val { Laser.reset with inCage := true, eeprom := sliceB eeprom 0 8192, since := s.bow.time }).setBit (uReg (brimIdx (m.val / 2)) 0x20A .lasEvents) 0

/-- The command MODULE_INSERTED. -/
def execModuleInserted (m : ModuleIdx) (eeprom : List Byte) (s : State) : Host.Outcome State Fault Refusal := .next (runModuleInserted m eeprom s)

/-- PRESENCE_DEBOUNCED: 200 ms after insertion or power-on the identity and the log are read; the module is refused, or accepted and brought up (R375, R376,
R380). -/
def runPresenceDebounced (m : ModuleIdx) (s : State) : State :=
  let x := s.laser m.val
  if x.inCage && !x.debounced && s.lasSupplied m.val && decide (x.since + 200000000 ≤ s.bow.time) then
    let s1 := (s.setLaser m.val { x with debounced := true }).setReg (lasReg m.val .lasState) 8
    if laserAccept x.eeprom then
      let r := laserRead x.eeprom
      let l := r.1.getD (List.replicate 64 0)
      let s2 := s1.setLaser m.val { x with debounced := true, logSeq := leAt l 0 4, logNext := r.2 }
      let s3 := (s2.setReg (lasReg m.val .lasHours) (BitVec.ofNat 32 (leAt l 4 4))).setReg (lasReg m.val .lasEqhours) (BitVec.ofNat 32 (leAt l 8 4))
      let s4 := s3.setReg (lasReg m.val .lasRise) (BitVec.ofNat 32 (leAt l 12 2))
      (s4.setFld (lasReg m.val .lasState) 4 2 (leAt l 14 1)).lasBringUp m.val
    else (s1.lasSet m.val 2).setBit (uReg (brimIdx (m.val / 2)) 0x20A .lasEvents) 2
  else s

/-- The command PRESENCE_DEBOUNCED. -/
def execPresenceDebounced (m : ModuleIdx) (s : State) : Host.Outcome State Fault Refusal := .next (runPresenceDebounced m s)

/-- LASER_OUTPUT_REACHED: an enabled laser is at its rated output; its wavelengths stabilise (R380). -/
def runLaserOutputReached (m : ModuleIdx) (s : State) : State :=
  let x := s.laser m.val
  if s.lasIs m.val = 3 then s.setLaser m.val { x with atPower := true } else s

/-- The command LASER_OUTPUT_REACHED. -/
def execLaserOutputReached (m : ModuleIdx) (s : State) : Host.Outcome State Fault Refusal := .next (runLaserOutputReached m s)

/-- LASER_LOCKED: the module is LOCKED, and every lane of its links starts to train (R344, R380). -/
def runLaserLocked (m : ModuleIdx) (s : State) : State :=
  if s.lasIs m.val = 3 ∧ (s.laser m.val).atPower = true then
    let s1 := (s.lasSet m.val 4).showPort (m.val / 2)
    (moduleLinks m.val).foldl (fun s l => (List.range 4).foldl (fun s n => s.trainLane l n) s) s1
  else s

/-- The command LASER_LOCKED. -/
def execLaserLocked (m : ModuleIdx) (s : State) : Host.Outcome State Fault Refusal := .next (runLaserLocked m s)

/-! ## Removal (R381, R528) -/

/-- A module is gone, or its supply is: its links go dark, the ring heaters' calibration is
abandoned, and the service port may switch (R381, R383, R418). -/
def State.lasGone (s : State) (m : Nat) (inCage : Bool) : State :=
  let x := s.laser m
  if x.inCage then
    let s1 := s.setLaser m { Laser.reset with inCage := inCage, eeprom := if inCage then x.eeprom else [], since := s.bow.time }
    let s2 := ((s1.setReg (lasReg m .lasState) 0).lightsOut m).setBit (uReg (brimIdx (m / 2)) 0x20A .lasEvents) 1
    let s3 := if s.fldOf (lasReg m .lasState) 0 3 = 4 then s2.calAborted (m / 2) else s2
    s3.spSwitch m
  else s

/-- MODULE_REMOVED (R381). -/
def runModuleRemoved (m : ModuleIdx) (s : State) : State := s.lasGone m.val false

/-- The command MODULE_REMOVED. -/
def execModuleRemoved (m : ModuleIdx) (s : State) : Host.Outcome State Fault Refusal := .next (runModuleRemoved m s)

/-- VLAS_OUT_OF_RANGE: both modules of the Brim die behave as removed (R528). -/
def runVlasOutOfRange (b : BrimDie) (s : State) : State :=
  let s1 : State := { s with power := { s.power with vlas := s.power.vlas.set b.val false } }
  (s1.lasGone (2 * b.val) true).lasGone (2 * b.val + 1) true

/-- The command VLAS_OUT_OF_RANGE. -/
def execVlasOutOfRange (b : BrimDie) (s : State) : Host.Outcome State Fault Refusal := .next (runVlasOutOfRange b s)

/-- VLAS_IN_RANGE: the modules of the Brim die are powered again; their debounce starts (R380, R528). -/
def runVlasInRange (b : BrimDie) (s : State) : State :=
  if s.power.vlas.getD b.val false then s
  else [2 * b.val, 2 * b.val + 1].foldl (fun s m => s.setLaser m { s.laser m with since := s.bow.time })
    { s with power := { s.power with vlas := s.power.vlas.set b.val true } }

/-- The command VLAS_IN_RANGE. -/
def execVlasInRange (b : BrimDie) (s : State) : Host.Outcome State Fault Refusal := .next (runVlasInRange b s)

/-! ## Monitoring and life (R377 to R379) -/

/-- FAULT: the laser is off, its links are dark, and a link fault is recorded (R379). -/
def State.lasFault (s : State) (m : Nat) : State :=
  let b := brimIdx (m / 2)
  let s0 := if s.fldOf (lasReg m .lasState) 0 3 = 4 then s.calAborted (m / 2) else s
  let s1 := (s0.lasDown m 6).setBit (uReg b 0x20A .lasEvents) 3
  (s1.fault 0x4003 b 0x82 0x20A m).spSwitch m

/-- The equivalent seconds of a powered second at a case temperature (0.1 °C), in units of 2⁻³² s (R378). -/
def eqSecond (tcase : Int) (rated : Nat) : Nat :=
  let x := tcase - 10 * rated
  if x ≤ 0 then 2 ^ 32
  else
    let r := exp2Of false (x.toNat * 2 ^ 60 / 100) (-60)
    if 0 ≤ r.2 + 32 then r.1 * 2 ^ (r.2 + 32).toNat else r.1 / 2 ^ (-(r.2 + 32)).toNat

/-- How many readings in a row of each wavelength lie 3.0 dB below its rated output, this one included (R379). -/
def Laser.lows (x : Laser) (power : List Int) : List Nat :=
  (List.range 4).map (fun w => if power.getD w 0 ≤ s16At x.eeprom (66 + 8 * w) - 300 then x.lowPower.getD w 0 + 1 else 0)

/-- LASER_MONITOR_POLL: once per second the monitors are read, powered and equivalent time accrues, and a fault is declared (R377 to
R379). -/
def runLaserMonitorPoll (m : ModuleIdx) (r : LaserReading) (s : State) : State :=
  let n := m.val
  let b := brimIdx (n / 2)
  let x := s.laser n
  let st := s.lasIs n
  if st = 0 ∨ st = 2 then s
  else s.every (.laser n) (nextTick s.bow.time 1000000000) (fun s =>
    let opt (w : Nat) : RegKey := uReg b 0x20A (if n % 2 = 0 then .lasOpt0 else .lasOpt1) w
    let s1 := (List.range 4).foldl (fun s w => s.setReg (opt w)
      (BitVec.ofNat 32 (r.bias.getD w 0 % 2 ^ 16 + toBits 16 (r.power.getD w 0) * 2 ^ 16))) s
    let s2 := s1.setReg (lasReg n .lasTcase) (BitVec.ofNat 32 (toBits 16 r.tcase))
    if x.powered then
      let lows := if st = 4 then x.lows r.power else []
      let s3 := s2.setLaser n { x with
        secs := x.secs + 1, eqSecs := x.eqSecs + eqSecond r.tcase (leAt x.eeprom 56 1), lowPower := lows,
        biasSum := (List.range 4).map (fun w => x.biasSum.getD w 0 + r.bias.getD w 0) }
      if (List.range 4).any (fun w => decide (leAt x.eeprom (70 + 8 * w) 2 ≤ r.bias.getD w 0)) || lows.any (fun k => decide (10 ≤ k)) ||
          decide ((10 * leAt x.eeprom 57 1 : Nat) < r.tcase) then s3.lasFault n
      else s3
    else s2)

/-- The command LASER_MONITOR_POLL. -/
def execLaserMonitorPoll (m : ModuleIdx) (r : LaserReading) (s : State) : Host.Outcome State Fault Refusal := .next (runLaserMonitorPoll m r s)

/-- The bias rise of a wavelength over an hour, in units of 0.1 %: the spec states no rounding to a unit, so a fraction goes
either way; with a BIAS_BOL of 0 it is not defined. -/
def State.biasRise (s : State) (x : Laser) (w : Nat) : Nat × State :=
  let bol := leAt x.eeprom (68 + 8 * w) 2 * x.secs
  let sum := x.biasSum.getD w 0
  if bol = 0 then (let d := s.draw; (d.1 % 2 ^ 16, d.2))
  else
    let n := 1000 * (sum - bol)
    let r := s.drawB
    (Nat.min (2 ^ 16 - 1) (n / bol + (if n % bol ≠ 0 ∧ r.1 = true then 1 else 0)), r.2)

/-- The rises of the four wavelengths, the largest and its wavelength. -/
def State.worstRise (s : State) (x : Laser) : (Nat × Nat) × State :=
  (List.range 4).foldl (fun a w =>
    let r := a.2.biasRise x w
    (if a.1.1 < r.1 then (r.1, w) else a.1, r.2)) ((0, 0), s)

/-- LASER_HOUR_TICK: at each powered hour the rise is evaluated, WEAR or EOL declared, and the log written (R377 to R379). -/
def runLaserHourTick (m : ModuleIdx) (s : State) : State :=
  let n := m.val
  let b := brimIdx (n / 2)
  let x := s.laser n
  if x.powered = true ∧ 3600 ≤ x.secs then
    let q := s.worstRise x
    let old := s.fldOf (lasReg n .lasRise) 0 16
    let s1 := q.2.setReg (lasReg n .lasHours) (BitVec.ofNat 32 (s.regN (lasReg n .lasHours) + 1))
    let s2 := s1.setReg (lasReg n .lasEqhours) (BitVec.ofNat 32 (s.regN (lasReg n .lasEqhours) + x.eqSecs / (3600 * 2 ^ 32)))
    let s3 := if old < q.1.1 then s2.setReg (lasReg n .lasRise) (BitVec.ofNat 32 (q.1.1 + q.1.2 * 2 ^ 16)) else s2
    let s4 := s3.setLaser n { x with secs := 0, eqSecs := x.eqSecs % (3600 * 2 ^ 32), biasSum := [] }
    let rise := s4.fldOf (lasReg n .lasRise) 0 16
    let was := s4.fldOf (lasReg n .lasState) 5 1 == 1
    let eol := decide (300 ≤ rise) || decide (leAt x.eeprom 52 4 ≤ s4.regN (lasReg n .lasEqhours))
    let s5 := if 200 ≤ rise then s4.setBit (lasReg n .lasState) 4 else s4
    let s6 := if eol then s5.setBit (lasReg n .lasState) 5 else s5
    let s7 := if eol && !was then s6.fault 0x4003 b 0x82 0x20A n else s6
    s7.laserLogWrite n
  else s

/-- The command LASER_HOUR_TICK. -/
def execLaserHourTick (m : ModuleIdx) (s : State) : Host.Outcome State Fault Refusal := .next (runLaserHourTick m s)

/-! ## Control (R379, R383, R384) -/

/-- A write of LAS_CTRL_m: 0 writes the log, switches the service port and turns the laser off; 1 brings a present, accepted
module up, one in FAULT included. -/
def State.lasCtrlWrite (s : State) (port : Port) (m : Nat) (data : W32) : State :=
  let k := lasReg m .lasCtrl
  s.guardedWrite port k data.toNat (fun s =>
    let s1 := s.storeReg k data.toNat
    let st := s1.lasIs m
    if bit data.toNat 0 then (if st = 5 ∨ st = 6 then s1.lasBringUp m else s1)
    else if st = 3 ∨ st = 4 then ((s1.laserLogWrite m).lasDown m 5).spSwitch m
    else s1)

/-- LASER_OFF (R384). -/
def runLaserOff (port : Port) (m : ModuleIdx) (data : W32) (s : State) : State := s.lasCtrlWrite port m.val data

/-- The command LASER_OFF. -/
def execLaserOff (port : Port) (m : ModuleIdx) (data : W32) (s : State) : Host.Outcome State Fault Refusal := .next (runLaserOff port m data s)

/-- LASER_ON (R379). -/
def runLaserOn (port : Port) (m : ModuleIdx) (data : W32) (s : State) : State := s.lasCtrlWrite port m.val data

/-- The command LASER_ON. -/
def execLaserOn (port : Port) (m : ModuleIdx) (data : W32) (s : State) : Host.Outcome State Fault Refusal := .next (runLaserOn port m data s)

/-- LAS_SPSRC_WRITE: the source of the service port, dropped with a firmware fault where that module is not LOCKED (R383). A
module that the port alone kept on goes off (R373). -/
def runLasSpsrcWrite (port : Port) (b : BrimDie) (data : W32) (s : State) : State :=
  let k := uReg (brimIdx b.val) 0x20A .lasSpsrc
  s.guardedWrite port k data.toNat (fun s =>
    ((((s.storeReg k data.toNat).showPort b.val).lasKeepOff (2 * b.val)).lasKeepOff (2 * b.val + 1)))

/-- The command LAS_SPSRC_WRITE. -/
def execLasSpsrcWrite (port : Port) (b : BrimDie) (data : W32) (s : State) : Host.Outcome State Fault Refusal := .next (runLasSpsrcWrite port b data s)

end Sys2Proof.Machine
end

