-- ==== Sys2Proof/Machine/Sensors.lean ====
section
/-!
DEFINITION. The sensor converters (17_sensor_converter.md) and what the telemetry component makes of their results: the
temperature readings and their flags (R400).
-/

namespace Sys2Proof.Machine

/-- A register of a sensor converter. -/
def snsReg (b : Nat) (r : Reg) (i : Nat := 0) : RegKey := uReg (brimIdx b) 0x20D r i

/-- Changes a sensor converter. -/
def State.modSensor (s : State) (b : Nat) (f : Sensor → Sensor) : State := s.setSensor b (f (s.sensor b))

/-! ## Entries (R497, R498, R503) -/

/-- The clocks of an entry (R497). -/
def entryClocks (w : Nat) : Nat := (if bit w 20 then 2 * fld w 8 10 else fld w 8 10) + 14

/-- Whether an entry has a comparator enabled. -/
def entryGuards (w : Nat) : Bool := bit w 7 && (bit w 21 || bit w 22)

/-- The entries of a sequence, ascending. -/
def State.seqEntries (s : State) (b q : Nat) : List Nat :=
  (List.range 16).filter (fun e => let w := s.regN (snsReg b .snsEnt e); bit w 7 && fld w 5 2 == q)

/-- The sum of R503: the pass durations of every sequence with an enabled comparator. -/
def State.snsBudget (s : State) (b : Nat) : Nat :=
  (List.range 4).foldl (fun a q =>
    let l := s.seqEntries b q
    if l.any (fun e => entryGuards (s.regN (snsReg b .snsEnt e))) then
      a + l.foldl (fun c e => c + entryClocks (s.regN (snsReg b .snsEnt e))) 0
    else a) 0

/-- Whether an entry may name a channel (R498). -/
def channelOk (b chan : Nat) : Bool := decide (chan ≤ 16) && (!(chan == 10 || chan == 11) || decide (b < 2))

/-- SNS_STATUS: BUSY while conversions are due, and the clocks of R503 in use. -/
def State.showSns (s : State) (b : Nat) : State :=
  (s.setFld (snsReg b .snsStatus) 5 1 (boolN (!(s.sensor b).due.isEmpty))).setFld (snsReg b .snsStatus) 16 10 (s.snsBudget b)

/-- The emergency line of a converter (R508): high while the latest result of any emergency-enabled entry is at or above its
EMERG code. A rise raises EMERGENCY and records 0x5003. -/
def State.snsLine (s : State) (b code : Nat) : State :=
  let high := (List.range 16).any (fun e =>
    let w := s.regN (snsReg b .snsEnt e)
    bit w 7 && bit w 22 && s.fldOf (snsReg b .snsRes e) 13 1 == 1)
  let was := (s.sensor b).line
  let s1 := s.modSensor b (fun x => { x with line := high })
  if high && !was then (s1.raiseEmergency 0).fault 0x5003 (brimIdx b) 0x88 0x20D code
  else if was && !high then { s1.showActive with steward := { s1.showActive.steward with lastActive := some s1.bow.time } } else s1

/-! ## Readings (R400) -/

/-- A reading, or the warn limit where the calibration of the converter that reads it is SUSPECT (R415). -/
def State.guarded (s : State) (t : Int) (crown : Bool) (d : Nat) : Int × Bool × Nat :=
  (if (s.sensor (guardOf d)).suspect then 10 * s.thmLimit 0 crown else t, crown, d)

/-- The readings compared with limits: temperature in 0.1 °C, whether it is a Crown die's, die index. -/
def State.readings (s : State) : List (Int × Bool × Nat) :=
  (List.range 32).map (fun d => s.guarded (sext 16 (s.fldOf (s.pReg 0x203 .thmBody d) 0 16)) false d) ++
  (List.range 4).map (fun b => s.guarded (s.sensor b).temp false (brimIdx b)) ++
  (List.range 4).map (fun c => s.guarded (sext 16 (s.fldOf (s.pReg 0x203 .thmCrown c) 0 16)) true (crownIdx c))

/-- Whether a reading is at or above a limit of THM_LIMITS. -/
def State.atLimit (s : State) (i : Nat) (r : Int × Bool × Nat) : Bool := decide (10 * s.thmLimit i r.2.1 ≤ r.1)

/-- Whether every reading lies below its release limit. -/
def State.allBelow (s : State) : Bool := s.readings.all (fun r => !s.atLimit 1 r)

/-- The hottest of a list of readings. -/
def hottest : List (Int × Bool × Nat) → Int × Nat
  | [] => (0, 0)
  | [r] => (r.1, r.2.2)
  | r :: l => let h := hottest l; if h.1 ≤ r.1 then (r.1, r.2.2) else h

/-- Whether a thermistor of BM0 or BM1 is above its limit (R400): `odd` is TH1 or TH3. -/
def State.tooWarm (s : State) (b : Nat) (odd : Bool) : Bool :=
  let o := if odd then 1 else 0
  decide (10 * (s.fldOf (uReg (brimIdx b) 0x203 .thmThLim) (8 * o) 8 : Int) < sext 16 (s.fldOf (uReg (brimIdx b) 0x203 .thmTh) (16 * o) 16))

/-- THM_STATUS of every Brim die. -/
def State.showThermal (s : State) : State :=
  let h := hottest (s.readings.filter (fun r => !r.2.1))
  let warn := s.readings.any (s.atLimit 0)
  let cool := [0, 1].any (fun b => s.tooWarm b false || s.tooWarm b true)
  (List.range 4).foldl (fun s b => s.setReg (uReg (brimIdx b) 0x203 .thmStatus)
    (BitVec.ofNat 32 (toBits 16 h.1 + h.2 % 2 ^ 6 * 2 ^ 16 + boolN warn * 2 ^ 22 + boolN s.power.thermtrip * 2 ^ 23 + boolN cool * 2 ^ 24))) s

/-- A sequence's FAST shows in the readings of the dies it covers (THM_BODY_d, THM_CROWN_c). -/
def State.showFast (s : State) (b : Nat) : State :=
  (List.range 16).foldl (fun s e =>
    let w := s.regN (snsReg b .snsEnt e)
    let f := s.fldOf (snsReg b .snsStatus) (fld w 5 2) 1
    if bit w 7 ∧ fld w 0 5 < 8 then s.setFld (s.pReg 0x203 .thmBody (diodeBody b (fld w 0 5))) 16 1 f
    else if bit w 7 ∧ fld w 0 5 = 8 then s.setFld (s.pReg 0x203 .thmCrown (diodeCrown b)) 16 1 f else s) s

/-- Notes when a reading was last not below its release limit (R396, R403). -/
def State.noteAbove (s : State) : State :=
  if s.allBelow then s else { s with steward := { s.steward with lastAbove := some s.bow.time } }

/-- The telemetry component, while it runs (R462), takes a result into its readings; a thermistor above its limit is logged (R400). The internal
sensor reads code / 16 - 50 °C. `w` is the entry. -/
def State.telemetry (s : State) (b w code : Nat) : State :=
  let s0 := s.noteAbove
  let chan := fld w 0 5
  let s1 :=
    if s.compState 6 ≠ 0 then s0
    else if chan < 9 then
      let r := s0.diodeReading b chan (entryGain w) code
      r.2.setFld (if chan = 8 then s0.pReg 0x203 .thmCrown (diodeCrown b) else s0.pReg 0x203 .thmBody (diodeBody b chan)) 0 16 (toBits 16 r.1)
    else if chan = 9 then
      let r := s0.eitherWay ((10 * code : Nat) - 8000) 16
      r.2.modSensor b (fun x => { x with temp := r.1 })
    else if chan = 10 ∨ chan = 11 then
      let odd := chan == 11
      let r := s0.thermistorReading code
      let s1 := r.2.setFld (uReg (brimIdx b) 0x203 .thmTh) (if odd then 16 else 0) 16 (toBits 16 r.1)
      if s1.tooWarm b odd then s1.fault 0x5005 (brimIdx b) 0x88 0x203 (2 * b + boolN odd) else s1
    else s0
  (s1.noteAbove).showThermal

/-! ## Passes (R502, R507) -/

/-- Whether a sequence starts again as soon as its pass ends (SNS_SEQ_s.CONT). -/
def State.seqCont (s : State) (b q : Nat) : Bool := s.fldOf (snsReg b .snsSeq q) 0 1 == 1

/-- The entries due of a converter that are in use, in their order. -/
def State.dueNow (s : State) (b : Nat) : List Nat := (s.sensor b).due.filter (fun e => bit (s.regN (snsReg b .snsEnt e)) 7)

/-- A sequence outside the fast table is due again (R502): one whose pass still waits or runs is not due twice. -/
def State.seqDue (s : State) (b q : Nat) : State :=
  let es := s.seqEntries b q
  s.modSensor b (fun x => { x with due := if x.due.any es.contains then x.due else x.due ++ es })

/-- The sequences with CONT set, outside the fast table, of which no pass runs are due again (R502). -/
def State.contDue (s : State) (b : Nat) : State :=
  if s.fldOf (snsReg b .snsCtrl) 0 1 = 1 then
    (List.range 4).foldl (fun s q => if s.seqCont b q ∧ s.fldOf (snsReg b .snsStatus) q 1 = 0 then s.seqDue b q else s) s
  else s

/-- SENSOR_FAST_TICK: at every 20 µs a WARN's sequence joins the fast table, and each fast sequence runs one pass before all else (R502,
R507). -/
def runSensorFastTick (b : BrimDie) (s : State) : State :=
  if s.fldOf (snsReg b.val .snsCtrl) 0 1 = 0 ∨ (s.die (brimIdx b.val)).alive = false then s
  else s.every (.fastTick b.val) (nextTick s.bow.time 20000) (fun s =>
    let x := s.sensor b.val
    let s1 := x.toFast.foldl (fun s q => s.setFld (snsReg b.val .snsStatus) q 1 1) s
    let fast := (List.range 4).filter (fun q => s1.fldOf (snsReg b.val .snsStatus) q 1 == 1)
    let es := fast.flatMap (s1.seqEntries b.val)
    ((s1.setSensor b.val { x with toFast := [], due := es ++ x.due.filter (fun e => !es.contains e) }).showFast b.val).showSns b.val)

/-- The command SENSOR_FAST_TICK. -/
def execSensorFastTick (b : BrimDie) (s : State) : Host.Outcome State Fault Refusal := .next (runSensorFastTick b s)

/-- Whether every result of a sequence over the last 1 ms lay below release. -/
def State.seqCalm (s : State) (b q : Nat) : Bool := !(s.seqEntries b q).any (s.sensor b).above.contains

/-- SENSOR_SLOW_TICK: at every 1 ms a fast sequence whose every result of the last 1 ms lay below release leaves the fast table and
is due; each other sequence outside it with CONT clear is due (R502, R507). A due pass is delayed and never skipped. -/
def runSensorSlowTick (b : BrimDie) (s : State) : State :=
  if s.fldOf (snsReg b.val .snsCtrl) 0 1 = 0 ∨ (s.die (brimIdx b.val)).alive = false then s
  else s.every (.slowTick b.val) (nextTick s.bow.time 1000000) (fun s =>
    let was (q : Nat) : Bool := s.fldOf (snsReg b.val .snsStatus) q 1 == 1
    let s1 := (List.range 4).foldl (fun t q => if s.seqCalm b.val q then t.setFld (snsReg b.val .snsStatus) q 1 0 else t) s
    let s2 := (List.range 4).foldl (fun t q =>
      if s1.fldOf (snsReg b.val .snsStatus) q 1 = 0 ∧ (was q || !s.seqCont b.val q) then t.seqDue b.val q else t) s1
    ((s2.modSensor b.val (fun x => { x with above := [] })).showFast b.val).showSns b.val)

/-- The command SENSOR_SLOW_TICK. -/
def execSensorSlowTick (b : BrimDie) (s : State) : Host.Outcome State Fault Refusal := .next (runSensorSlowTick b s)

/-- The trimmed code (R497): rounded to nearest, ties to even. -/
def trimmed (raw : Nat) (offset gain : Int) : Nat :=
  let v := ((raw : Int) - offset) * (2048 + gain)
  let q := v / 2048
  let r := v % 2048
  let n := if 1024 < r ∨ (r = 1024 ∧ q % 2 = 1) then q + 1 else q
  (clampI 0 4095 n).toNat

/-- SENSOR_CONVERSION: the next entry due is converted; its trimmed code is compared with its warn, emergency and release codes (R497,
R502, R506 to R508). A result converted during settling is compared by none (R501). -/
def runSensorConversion (b : BrimDie) (e : Fin 16) (raw : Nat) (s : State) : State :=
  let n := b.val
  let x := s.sensor n
  let w := s.regN (snsReg n .snsEnt e.val)
  let q := fld w 5 2
  if s.fldOf (snsReg n .snsCtrl) 0 1 == 1 && (s.dueNow n).head? == some e.val && (s.die (brimIdx n)).alive then
    let t := s.regN (snsReg n .snsTrim)
    let code := trimmed raw (sext 6 (fld t 0 6)) (sext 8 (fld t 8 8))
    let settling := s.fldOf (snsReg n .snsStatus) 4 1 == 1
    let on := !settling
    let warn := on && bit w 21 && decide (s.fldOf (snsReg n .snsLim e.val) 0 12 ≤ code)
    let em := on && bit w 22 && decide (s.fldOf (snsReg n .snsLim e.val) 16 12 ≤ code)
    let below := on && (bit w 21 || bit w 22) && decide (code < s.fldOf (snsReg n .snsRel e.val) 0 12)
    let count := (s.fldOf (snsReg n .snsRes e.val) 16 16 + 1) % 2 ^ 16
    let s1 := s.setReg (snsReg n .snsRes e.val) (BitVec.ofNat 32
      (code + boolN warn * 2 ^ 12 + boolN em * 2 ^ 13 + boolN below * 2 ^ 14 + boolN settling * 2 ^ 15 + count * 2 ^ 16))
    let fast := warn && s.fldOf (snsReg n .snsSeq q) 1 1 == 1
    let s2 := s1.setSensor n { x with
      due := (s.dueNow n).drop 1,
      above := if below then x.above else x.above.filter (· != e.val) ++ [e.val],
      toFast := if fast then x.toFast.filter (· != q) ++ [q] else x.toFast }
    let s3 := if warn then (s2.setBit (snsReg n .snsEvents) 0).bump (snsReg n .snsEvents) 16 16 1 else s2
    let s4 := if em then s3.setBit (snsReg n .snsEvents) 1 else s3
    ((((s4.snsLine n code).telemetry n w code).sensorPassEnd b).contDue n).showSns n
  else s

/-- The command SENSOR_CONVERSION. -/
def execSensorConversion (b : BrimDie) (e : Fin 16) (raw : Nat) (s : State) : Host.Outcome State Fault Refusal := .next (runSensorConversion b e raw s)

/-! ## Writes (R498, R501, R503, R505) -/

/-- Whether every Body and Crown core rail is off. -/
def State.coreRailsOff (s : State) : Bool := s.dies.all (fun e => (decide (0x20 ≤ e.1) && decide (e.1 < 0x24)) || !e.2.railsOn)

/-- SENSOR_REF_SELECT: a change of the reference is accepted while the Body and Crown core rails are off, and starts 50 µs of
settling; otherwise dropped with a firmware fault (R501). -/
def runSensorRefSelect (port : Port) (b : BrimDie) (data : W32) (s : State) : State :=
  let k := snsReg b.val .snsCtrl
  s.guardedWrite port k data.toNat (fun s =>
    let change := fld data.toNat 1 2 != s.fldOf k 1 2
    if change && !s.coreRailsOff then s.fwFault k.addr
    else
      let s1 := s.storeReg k data.toNat
      let s2 := if bit data.toNat 0 then s1 else s1.modSensor b.val (fun x => { x with due := [] })
      let s3 := if change then (s2.modSensor b.val (fun x => { x with settleFrom := s2.bow.time })).setFld (snsReg b.val .snsStatus) 4 1 1 else s2
      (s3.contDue b.val).showSns b.val)

/-- The command SENSOR_REF_SELECT. -/
def execSensorRefSelect (port : Port) (b : BrimDie) (data : W32) (s : State) : Host.Outcome State Fault Refusal := .next (runSensorRefSelect port b data s)

/-- SENSOR_REF_SETTLED: 50 µs after a change SETTLING clears (R501). -/
def runSensorRefSettled (b : BrimDie) (s : State) : State :=
  if s.fldOf (snsReg b.val .snsStatus) 4 1 = 1 ∧ (s.sensor b.val).settleFrom + 50000 ≤ s.bow.time then
    s.setFld (snsReg b.val .snsStatus) 4 1 0
  else s

/-- The command SENSOR_REF_SETTLED. -/
def execSensorRefSettled (b : BrimDie) (s : State) : Host.Outcome State Fault Refusal := .next (runSensorRefSettled b s)

/-- SENSOR_ENTRY_WRITE: an entry or sequence is written, or dropped with a firmware fault where it names a reserved channel
or breaks the budget (R498, R503). -/
def runSensorEntryWrite (port : Port) (b : BrimDie) (t : SnsTarget) (data : W32) (s : State) : State :=
  let n := b.val
  let k := match t with
    | .ent e => snsReg n .snsEnt e.val
    | .seq q => snsReg n .snsSeq q.val
  let named := match t with
    | .ent _ => channelOk n (fld data.toNat 0 5)
    | .seq _ => true
  s.guardedWrite port k data.toNat (fun s =>
    let s1 := s.storeReg k data.toNat
    if !named then s.fwFault k.addr
    else if 800 < s1.snsBudget n then (s.setBit (snsReg n .snsEvents) 2).fwFault k.addr
    else ((s1.snsLine n 0).contDue n).showSns n)

/-- The command SENSOR_ENTRY_WRITE. -/
def execSensorEntryWrite (port : Port) (b : BrimDie) (t : SnsTarget) (data : W32) (s : State) : Host.Outcome State Fault Refusal := .next (runSensorEntryWrite port b t data s)

/-- SENSOR_LIMIT_WRITE: warn and emergency codes change together, from the entry's next conversion (R505). -/
def runSensorLimitWrite (port : Port) (b : BrimDie) (e : Fin 16) (data : W32) (s : State) : State :=
  s.regWrite port (snsReg b.val .snsLim e.val) data.toNat

/-- The command SENSOR_LIMIT_WRITE. -/
def execSensorLimitWrite (port : Port) (b : BrimDie) (e : Fin 16) (data : W32) (s : State) : Host.Outcome State Fault Refusal := .next (runSensorLimitWrite port b e data s)

end Sys2Proof.Machine
end

