-- ==== Sys2Proof/Machine/Power.lean ====
section
/-!
DEFINITION. Power leave, throttling and thermal protection (12_power_thermal.md): leave windows (R390, R392), the steward's
loop (R393 to R397), converters and rails (R398, R399), limits, trips and NORMAL (R401 to R403).
-/

namespace Sys2Proof.Machine

/-! ## Leave windows (R390, R198) -/

/-- GRANT and FULL of a tile for its partition's running shape (R197). Before the first LAUNCH, GRANT is 0 and FULL the largest
of the tile's entries (R390); with no form, 96 tickets per window full (R451). -/
def State.grants (s : State) (t : TileId) : Nat × Nat :=
  match s.partOfDie t.die.val with
  | none => (0, 96)
  | some p =>
    let x := s.part p
    match x.form with
    | none => (0, 96)
    | some f => match (s.tile t).ltile with
      | none => (0, 0)
      | some lt =>
        let mine := f.tickets.filter (fun e => e.ltile == lt)
        if x.launched then
          match x.running with
          | some st => match mine.find? (fun e => e.shape == st.shape) with
            | some e => (e.grant, e.full)
            | none => (0, 0)
          | none => (0, 0)
        else (0, mine.foldl (fun a e => Nat.max a e.full) 0)

/-- A refill (R390): floor(k × G + f) tickets, the fraction carried; the counter saturates at 2 × G. -/
def refill (k g count frac : Nat) : Nat × Nat :=
  let v := k * g + frac
  (if 2 * g ≤ count then count else Nat.min (2 * g) (count + v / 256), v % 256)

/-- k of a die's partition, in units of 1/256. -/
def State.scaleOf (s : State) (d : Nat) : Nat :=
  match s.partOfDie d with
  | some p => s.fldOf (s.pReg 0x202 .pwrK p) 0 9
  | none => 256

/-- A tile's counters are refilled and its plan meter set to GRANT. -/
def State.refillTile (s : State) (t : TileId) : State :=
  let g := s.grants t
  let k := s.scaleOf t.die.val
  s.modTile t (fun x =>
    let o := refill k g.1 x.opTickets x.opFrac
    let f := refill k g.2 x.fullTickets x.fullFrac
    { x with opTickets := o.1, opFrac := o.2, fullTickets := f.1, fullFrac := f.2, meter := g.1 })

/-- The tiles of a die in which a calibration or a fulling runs. -/
def State.tilesAtWork (s : State) (d : Nat) : List TileId :=
  (s.die d).calRun.map (fun c => tileOf d c.region) ++ (s.die d).full.map (fun j => tileOf d j.tile.val)

/-- The tiles that hold placed logical tiles, a calibration, a fulling or other state, each once. -/
def State.allTiles (s : State) : List TileId :=
  (s.tiles.map (·.1) ++ s.parts.flatMap (fun e => e.2.tiles) ++ (List.range 32).flatMap s.tilesAtWork).eraseDups

/-- LEAVE_WINDOW: at the start of each leave window of 1 µs every tile's counters are refilled and its plan meter set (R198, R390); k of
the window shows in PWR_DIE_K. What a running calibration has drawn by then is settled first (R408). -/
def runLeaveWindow (s : State) : State :=
  s.every .leave (nextTick s.bow.time 1000) (fun s =>
    let s1 := (List.range 32).foldl (fun s d =>
      if (s.die d).alive then s.setReg (uReg d 0x203 .pwrDieK) (BitVec.ofNat 32 (s.scaleOf d)) else s) s
    s1.allTiles.foldl (fun s t => (s.calSettle t).refillTile t) s1)

/-- The command LEAVE_WINDOW. -/
def execLeaveWindow (s : State) : Host.Outcome State Fault Refusal := .next (runLeaveWindow s)

/-! ## The steward's loop (R393 to R397) -/

/-- The units of all partitions. -/
def State.assignedUnits (s : State) : Nat := s.parts.foldl (fun a e => if e.2.present then a + e.2.units else a) 0

/-- Measured power of a partition as a fraction (R393): its units' bus converters, and its share of the edge converters. -/
def State.measured (s : State) (x : Part) (unitW : List Nat) (edgeW : Nat) : Nat × Nat :=
  let n := Nat.max 1 s.assignedUnits
  let own := (List.range x.units).foldl (fun a i => a + unitW.getD (x.unitBase + i) 0) 0
  (own * n + edgeW * x.units, n)

/-- k after an update, in units of 1/256 (R394); with plan power 0 the quotient is not defined, and k is any value the clamp
leaves. -/
def State.nextK (s : State) (p k : Nat) (m : Nat × Nat) : Nat × State :=
  let plan := (s.part p).planMicro
  let allot := s.fldOf (s.pReg 0x202 .pwrAllot p) 0 16
  if plan = 0 then
    let r := s.draw
    (Nat.max 8 (Nat.min 256 r.1), r.2)
  else
    let num : Int := 256 * 1000000 * ((allot * m.2 : Nat) - (m.1 : Int))
    ((clampI 8 256 ((k : Int) + num / ((m.2 * plan : Nat) : Int))).toNat, s)

/-- One partition's update of R394. -/
def State.stewardOne (s : State) (unitW : List Nat) (edgeW p : Nat) : State :=
  let x := s.part p
  let m := s.measured x unitW edgeW
  let kr := s.pReg 0x202 .pwrK p
  let k := s.fldOf kr 0 9
  let allot := s.fldOf (s.pReg 0x202 .pwrAllot p) 0 16
  let r := s.drawB
  let watts := m.1 / m.2 + (if m.1 % m.2 ≠ 0 ∧ r.1 = true then 1 else 0)
  let s1 := r.2.setReg (s.pReg 0x202 .pwrMeas p) (BitVec.ofNat 32 (watts % 2 ^ 16))
  let q := s1.nextK p k m
  let s2 := q.2.setReg kr (BitVec.ofNat 32 q.1)
  let s3 := if allot * m.2 < m.1 then s2.setBit (s2.pReg 0x202 .pwrEvents) 3 else s2
  if q.1 = 8 ∧ k ≠ 8 then s3.setBit (s3.pReg 0x202 .pwrEvents) 4 else s3

/-- PWR_STATUS: THERMAL, POWER, K_FLOOR and the skip counts. -/
def State.showPower (s : State) : State :=
  let k := s.pReg 0x202 .pwrStatus
  let floor := (List.range 16).any (fun p => s.fldOf (s.pReg 0x202 .pwrK p) 0 9 == 8)
  let t := s.steward.mT
  let p := s.steward.mP
  ((((s.setFld k 1 1 (boolN (t != 0))).setFld k 2 1 (boolN (p != 0))).setFld k 3 1 (boolN floor)).setFld k 4 4 t).setFld k 8 4 p

/-- The steward runs on the principal (R461). -/
def State.stewardRuns (s : State) : Bool := s.boot.running && s.fldOf (s.pReg 0x200 .bootComp) 6 2 == 0

/-- STEWARD_K_UPDATE: every 100 µs, each partition with a loaded form (R394). -/
def runStewardKUpdate (unitW : List Nat) (edgeW : Nat) (s : State) : State :=
  if s.stewardRuns then
    s.every .stewardK (nextTick s.bow.time 100000) (fun s =>
      let ps := (List.range 16).filter (fun p => (s.part p).form.isSome)
      (ps.foldl (fun s p => s.stewardOne unitW edgeW p) s).showPower)
  else s

/-- The command STEWARD_K_UPDATE. -/
def execStewardKUpdate (unitW : List Nat) (edgeW : Nat) (s : State) : Host.Outcome State Fault Refusal := .next (runStewardKUpdate unitW edgeW s)

/-- max(M_t, M_p). -/
def State.skipCount (s : State) : Nat := Nat.max s.steward.mT s.steward.mP

/-- When the maximum changes, the steward writes a SKIP with DIV 0; nothing while the emergency latch is set (R397). -/
def State.writeSkip (s : State) : State :=
  let m := s.skipCount
  if m = s.steward.lastSkip ∨ (s.die s.prinDie).emerg = true ∨ s.bow.emergHeld = true then s
  else ({ s with steward := { s.steward with lastSkip := m } }).bowSend (.skip false 0 m)

/-- POWER_SKIP_UPDATE: every 1 ms (R395). -/
def runPowerSkipUpdate (inputW vin : Nat) (s : State) : State :=
  if s.stewardRuns then
    s.every .powerSkip (nextTick s.bow.time 1000000) (fun s =>
      let s1 := s.setReg (s.pReg 0x202 .pwrInput) (BitVec.ofNat 32 (inputW % 2 ^ 16 + vin % 2 ^ 12 * 2 ^ 16))
      let dev := s1.fldOf (s1.pReg 0x202 .pwrDev) 0 16
      let floor := (List.range 16).all (fun p => (s1.part p).job != .running || s1.fldOf (s1.pReg 0x202 .pwrK p) 0 9 == 8)
      let m := s1.steward.mP
      let m' := if floor && decide (dev < inputW) then Nat.min 12 (m + 1)
        else if 100 * inputW < 95 * dev then m - 1 else m
      ({ s1 with steward := { s1.steward with mP := m' } }).showPower.writeSkip)
  else s

/-- The command POWER_SKIP_UPDATE. -/
def execPowerSkipUpdate (inputW vin : Nat) (s : State) : Host.Outcome State Fault Refusal := .next (runPowerSkipUpdate inputW vin s)

/-- Whether every reading has stayed below its release limit for the last 1 ms (R396, R403). -/
def State.calm (s : State) : Bool :=
  s.allBelow && (match s.steward.lastAbove with
    | some t => decide (t + 1000000 ≤ s.bow.time)
    | none => true)

/-- THERMAL_SKIP_UPDATE: every 100 µs (R396). -/
def runThermalSkipUpdate (s : State) : State :=
  if s.stewardRuns then
    s.every .thermSkip (nextTick s.bow.time 100000) (fun s =>
      let m := s.steward.mT
      let m' := if s.readings.any (s.atLimit 0) then Nat.min 12 (m + 1) else if s.calm then m - 1 else m
      ({ s with steward := { s.steward with mT := m' } }).showPower.writeSkip)
  else s

/-- The command THERMAL_SKIP_UPDATE. -/
def execThermalSkipUpdate (s : State) : Host.Outcome State Fault Refusal := .next (runThermalSkipUpdate s)

/-- NORMAL_DECLARED: no source active and every reading below release for 1 ms; the steward sends RELEASE with the current
skip count, and deferred calibrations may start (R397, R403, R414). -/
def runNormalDeclared (s : State) : State :=
  let quiet := match s.steward.lastActive with
    | some t => decide (t + 1000000 ≤ s.bow.time)
    | none => true
  if s.stewardRuns && s.fldOf (s.pReg 0x202 .pwrStatus) 0 1 == 1 && !s.emergActive && quiet && s.calm then
    let m := s.skipCount
    let s0 := (List.range 4).foldl (fun s b => s.setFld (uReg (brimIdx b) 0x204 .cnfStatus) 5 1 0) s
    let s1 : State := { s0 with steward := { s0.steward with normalAt := s.bow.time, lastSkip := m } }
    (s1.setFld (s1.pReg 0x202 .pwrStatus) 0 1 0).bowSend (.skip true 0 m)
  else s

/-- The command NORMAL_DECLARED. -/
def execNormalDeclared (s : State) : Host.Outcome State Fault Refusal := .next (runNormalDeclared s)

/-! ## Over-current (R228, R399) -/

/-- CORE_OC and ARR_OC of a Body die. -/
def State.showOc (s : State) (d : Nat) : State :=
  if d < 0x20 then
    let oc (f : Rail → Bool) : Nat := boolN (s.power.ocActive.any (fun r => railDie r == d && f r))
    let core := oc (fun r => railCode r == 0)
    let arr := oc (fun r => railCode r == 1 || railCode r == 2)
    (s.setFld (uReg d 0x203 .pwrDieOc) 0 1 core).setFld (uReg d 0x203 .pwrDieOc) 1 1 arr
  else s

/-- OVERCURRENT_TRIP: the output is limited, and EMERGENCY raised, once while the comparator stays tripped (R228, R399). -/
def runOvercurrentTrip (r : Rail) (s : State) : State :=
  let d := railDie r
  if s.power.ocActive.contains r || s.power.railsOff.contains r || !(s.die d).railsOn then s
  else
    let s1 : State := { s with power := { s.power with ocActive := s.power.ocActive ++ [r] } }
    let s2 := s1.setBit (s1.pReg 0x202 .pwrEvents) 0
    let s3 := if d < 0x20 then (s2.showOc d).bump (uReg d 0x203 .pwrDieOc) 8 16 1 else s2
    (s3.raiseEmergency 1).fault 0x5004 d 0x88 0 (railCode r)

/-- The command OVERCURRENT_TRIP. -/
def execOvercurrentTrip (r : Rail) (s : State) : Host.Outcome State Fault Refusal := .next (runOvercurrentTrip r s)

/-- A comparator stops tripping: OC_ACTIVE follows, and its next trip raises again. -/
def State.ocClear (s : State) (r : Rail) : State :=
  let s1 : State := { s with
    power := { s.power with ocActive := s.power.ocActive.filter (· != r), ocAt := Tbl.del s.power.ocAt r },
    steward := { s.steward with lastActive := some s.bow.time } }
  (s1.showOc (railDie r)).showActive

/-- OVERCURRENT_COMPARATOR_CLEAR (R228). -/
def runOvercurrentComparatorClear (r : Rail) (s : State) : State := if s.power.ocActive.contains r then s.ocClear r else s

/-- The command OVERCURRENT_COMPARATOR_CLEAR. -/
def execOvercurrentComparatorClear (r : Rail) (s : State) : Host.Outcome State Fault Refusal := .next (runOvercurrentComparatorClear r s)

/-! ## Lost dies (R399) -/

/-- The planned routes of a partition, as pairs of Body dies (R19 to R22): between the dies that hold its tiles, and between
those and the Body dies beside their home Crown dies and beside the principal (DEDUCED, log 41). -/
def State.plannedRoutes (s : State) (x : Part) : List (Nat × Nat) :=
  let ds := x.dies.filter (fun d => !(x.tilesOf d).isEmpty)
  let b := s.boot.principal
  ds.flatMap (fun d =>
    ds.map (fun e => (d, e)) ++ [(d, crownGate (homeCrown d) d), (crownEntry (homeCrown d) d, d), (d, brimGate b d), (brimEntry b d, d)])

/-- The Body dies on the planned routes of a partition. -/
def State.routedDies (s : State) (x : Part) : List Nat := (s.plannedRoutes x).flatMap (fun e => bodyRoute e.1 e.2)

/-- Whether a partition's job uses a die (R399): its own dies and home Crown dies, dies with traffic of its static traffic
plan on any object, and dies of its planned routes. -/
def State.usesDie (s : State) (p d : Nat) : Bool :=
  let x := s.part p
  let planned := match x.form with
    | some f => f.traffic.any (fun t =>
        decide (0 < t.own + t.transit) &&
        (t.object / 2 ^ 11 == d || (t.kind == 1 && beyond (t.object / 2 ^ 11) (t.object % 4) == d)))
    | none => false
  x.dies.contains d || x.dies.any (fun b => crownIdx (homeCrown b) == d) || planned || (s.routedDies x).contains d

/-- A Body or Crown die is lost: it stays off until the next reset, and every job that uses it ends (R399). -/
def State.loseDie (s : State) (d code : Nat) : State :=
  if (s.die d).alive then
    let s1 := (s.modDie d (fun x => { x with alive := false, railsOn := false })).calDieLost d
    let s2 := s1.fault 0x5001 d 0x88 0 code (if d < 0x20 then s1.partOfDie d else none)
    (List.range 16).foldl (fun s p => if s.usesDie p d then s.jobEnd p else s) s2
  else s

/-- A peripheral Brim die is lost: its links, port and modules go dark, every job with a job group on its links ends with a
rail-lost fault, and the dies its converter reads are lost (R399). -/
def State.loseBrim (s : State) (b code : Nat) : State :=
  let r := brimIdx b
  if (s.die r).alive then
    let s1 := (s.modDie r (fun x => { x with alive := false, railsOn := false })).fault 0x5001 r 0x88 0 code
    let s2 := [2 * b, 2 * b + 1].foldl (fun s m => s.lasDown m 0) s1
    let s3 := s2.setReg (ethReg b .ethStatus) 0
    let s4 := (List.range 16).foldl (fun s p =>
      if (s.part p).job = .running ∧ (s.jobGroups p).any (fun g => g.2.links.any (fun l => decide (l / 12 = b))) = true then
        s.jobFault 0x5001 r 0x88 0 code (some p)
      else s) s3
    (List.range 9).foldl (fun s k => s.loseDie (diodeDie b k) code) s4
  else s

/-- Any die is lost; the principal resets the device, and its cause is latched through the reset (R399, R530). -/
def State.loseAny (s : State) (r : Rail) : State :=
  let d := railDie r
  if d = s.prinDie then
    let s1 := s.pgoodLow
    { s1 with power := { s1.power with lostRail := some r } }
  else if 0x20 ≤ d ∧ d < 0x24 then s.loseBrim (d - 0x20) (railCode r)
  else s.loseDie d (railCode r)

/-- Whether a trip has persisted for 100 µs after EMERGENCY was applied (R399). -/
def State.ocPersists (s : State) (r : Rail) : Bool :=
  s.power.ocActive.contains r && (match Tbl.find s.power.ocAt r with
    | some t => decide (t + 100000 ≤ s.bow.time)
    | none => false)

/-- RAIL_SHUTDOWN: a trip that persists shuts its output down (R399). -/
def runRailShutdown (r : Rail) (s : State) : State :=
  if s.ocPersists r then
    let d := railDie r
    let s1 := s.ocClear r
    let s2 : State := { s1 with power := { s1.power with railsOff := s1.power.railsOff ++ [r] } }
    let s3 := s2.setBit (s2.pReg 0x202 .pwrEvents) 1
    let s4 := if d < 0x20 then s3.setFld (uReg d 0x203 .pwrDieOc) 2 1 1 else s3
    s4.loseAny r
  else s

/-- The command RAIL_SHUTDOWN. -/
def execRailShutdown (r : Rail) (s : State) : Host.Outcome State Fault Refusal := .next (runRailShutdown r s)

/-- A rail by which a die that loses its bus converter is lost. -/
def firstRail (d : Nat) : Rail :=
  if d < 0x20 then .vcore (Fin.ofNat 32 d) else if d < 0x24 then .edgeBrim (Fin.ofNat 4 d) false else .edgeCrown (Fin.ofNat 4 d) false

/-- BUS_CONVERTER_UVLO: a converter whose input falls below 38.0 V shuts down, and its dies are lost (R399). -/
def runBusConverterUvlo (c : Fin 20) (s : State) : State :=
  if s.power.downBus.contains c.val then s
  else
    let s1 : State := { s with power := { s.power with downBus := s.power.downBus ++ [c.val] } }
    let s2 := s1.setBit (s1.pReg 0x202 .pwrEvents) 2
    let ds := (List.range 40).filter (fun d => converterOf d == c.val)
    if ds.contains s.prinDie then s2.loseAny (firstRail s.prinDie)
    else ds.foldl (fun s d => s.loseAny (firstRail d)) s2

/-- The command BUS_CONVERTER_UVLO. -/
def execBusConverterUvlo (c : Fin 20) (s : State) : Host.Outcome State Fault Refusal := .next (runBusConverterUvlo c s)

/-- BUS_CONVERTER_RESTART: the converter runs again above 39.5 V; its dies stay off until the next reset (R399). -/
def runBusConverterRestart (c : Fin 20) (s : State) : State :=
  { s with power := { s.power with downBus := s.power.downBus.filter (· != c.val) } }

/-- The command BUS_CONVERTER_RESTART. -/
def execBusConverterRestart (c : Fin 20) (s : State) : Host.Outcome State Fault Refusal := .next (runBusConverterRestart c s)

/-! ## Trips and limits (R401, R402) -/

/-- The latest reading of a die, for the record of its trip. -/
def State.readingOf (s : State) (d : Nat) : Nat :=
  match s.readings.find? (fun r => r.2.2 == d) with
  | some r => toBits 16 r.1
  | none => 0

/-- THERMAL_TRIP: a die's trip comparator latches, pulls THERMTRIP_N low until the 48 V input is removed, and raises EMERGENCY
(R402). -/
def runThermalTrip (d : DieIdx) (s : State) : State :=
  if (s.die d.val).tripped then s
  else
    let s1 := s.modDie d.val (fun x => { x with tripped := true })
    let s2 : State := { s1 with power := { s1.power with thermtrip := true } }
    let s3 := if d.val < 0x20 then s2.setFld (uReg d.val 0x203 .thmDie) 0 1 1 else s2
    let s4 := (s3.showThermal).fault 0x5002 d.val 0x88 0 (s3.readingOf d.val)
    (s4.raiseEmergency 0).fault 0x5003 d.val 0x88 0 (s3.readingOf d.val)

/-- The command THERMAL_TRIP. -/
def execThermalTrip (d : DieIdx) (s : State) : Host.Outcome State Fault Refusal := .next (runThermalTrip d s)

/-- A set of limits that R401 accepts. -/
def limitsOk (w : Nat) : Bool :=
  decide (fld w 8 8 < fld w 0 8) && decide (fld w 0 8 + 3 ≤ fld w 16 8) && decide (fld w 16 8 ≤ 104)

/-- THM_LIMITS_WRITE: the principal's limits are checked and programmed into every converter's comparators; any other write
is a firmware fault (R401). -/
def runThmLimitsWrite (port : Port) (b : BrimDie) (data : W32) (s : State) : State :=
  let k := uReg (brimIdx b.val) 0x203 .thmLimits
  s.guardedWrite port k data.toNat (fun s =>
    if k.die = s.prinDie ∧ limitsOk data.toNat = true then (s.storeReg k data.toNat).programLimits else s.fwFault k.addr)

/-- The command THM_LIMITS_WRITE. -/
def execThmLimitsWrite (port : Port) (b : BrimDie) (data : W32) (s : State) : Host.Outcome State Fault Refusal := .next (runThmLimitsWrite port b data s)

end Sys2Proof.Machine
end

