-- ==== Sys2Proof/Machine/FormChecks.lean ====
section
/-!
DEFINITION. The loader's checks 5 to 11 of R201: tile placement (R177), scratchpad maps, swatch placement, strides and bound
images (R144, R146, R179, R196), the schedule (R92, R104, R114, R183), traffic (R23, R44, R164, R165), tickets (R197, R387),
patch targets (R202) and link latency.
-/

namespace Sys2Proof.Machine

/-! ## Placement (R177, R199) -/

/-- The logical arrays that a tile's array request uses, with their formats. -/
def FormTile.used (t : FormTile) : List (Nat × Nat) := (numbered t.arrays).filterMap (fun a => a.2.map (fun f => (a.1, f)))

/-- A position as one number: die and tile region. -/
def posOf (die region : Nat) : Nat := die * 512 + region
/-- The tile at a position. -/
def tileAt (pos : Nat) : TileId := tileOf (pos / 512) (pos % 512)

/-- Whether a logical tile may take a position: not fenced, not given away, SPARE arrays enough. -/
def State.posFree (s : State) (need : Nat) (taken : List Nat) (pos : Nat) : Bool :=
  !(s.tile (tileAt pos)).fenced && !taken.contains pos && decide (need ≤ (s.arraysIn (tileAt pos) .spare).length)

/-- The first of some regions that a logical tile may take. -/
def State.firstPos (s : State) (t : FormTile) (taken : List Nat) (regions : List Nat) : Option Nat :=
  ((regions.filter (fun r => decide (r < 512))).map (posOf t.dir.die)).find? (s.posFree t.used.length taken)

/-- Places logical tiles in ascending number: the placement, or the tile that finds no position. -/
def State.placeTiles (s : State) : List (Nat × FormTile) → Tbl Nat Nat → Tbl Nat Nat × Option Nat
  | [], acc => (acc, none)
  | t :: r, acc => match s.firstPos t.2 (acc.map (·.2)) [t.2.dir.home, t.2.dir.alt1, t.2.dir.alt2] with
    | none => (acc, some t.1)
    | some pos => State.placeTiles s r (acc ++ [(t.1, pos)])

/-- The assignment of a tile's used logical arrays to its SPARE arrays, both ascending (R199). -/
def State.assignTile (s : State) (lt : Nat) (t : FormTile) (pos : Nat) : Tbl (Nat × Nat) Nat :=
  (t.used.zip (s.arraysIn (tileAt pos) .spare)).map (fun e => ((lt, e.1.1), e.2))

/-- The assignment of a placed form. -/
def State.assignForm (s : State) (f : Form) (placed : Tbl Nat Nat) : Tbl (Nat × Nat) Nat :=
  (numbered f.tiles).flatMap (fun t => match Tbl.find placed t.1 with
    | some pos => s.assignTile t.1 t.2 pos
    | none => [])

/-! ## Check 6 -/

/-- A scratchpad map covers every offset once, in ascending order (R196). -/
def mapCovers : Nat → List ScpRegion → Bool
  | at', [] => at' == 0x60000
  | at', r :: l => r.start == at' && r.len != 0 && mapCovers (at' + r.len) l

/-- The swatch size of a layer (R55). -/
def swatchSize (layers : List Numerics) (n : Nat) : Nat :=
  match layers[n]? with
  | some l => if l.napSlots = 4 then 176 else 160
  | none => 160

/-- A swatch starts 32-byte aligned and lies within one bank of 16 KiB (R144). -/
def swatchPlaced (off size : Nat) : Bool := off % 32 == 0 && decide (off + size ≤ 0x60000) && off / 16384 == (off + size - 1) / 16384

/-- The layer that an operation names. -/
def FormOp.layer? (o : FormOp) : Option Nat :=
  if isPass o.opcode then some o.passLayer else if o.opcode = 0x12 ∨ o.opcode = 0x58 then some o.aux else none

/-- The layer of norm window `k` in a step program: that of the QUANT that writes the swatch its first NSAMP reads, the last one before it,
or else any; with none, the layer of the last operation before it that names one. A form says nowhere else which layer a window has
(DEDUCED, log 22). -/
def windowLayer (k : Nat) (prog : List FormOp) : Option Nat :=
  match prog.findIdx? (fun o => o.opcode == 0x59 && o.aux == k) with
  | none => none
  | some i =>
    let before := (prog.take i).reverse
    let writes (o : FormOp) : Bool := o.opcode == 0x58 && some o.addr == (prog[i]?).map (·.addr)
    match (before ++ prog).find? writes with
    | some o => some o.aux
    | none => before.findSome? FormOp.layer?

/-- The layer of norm window `k` of a logical tile. -/
def FormTile.windowLayer (t : FormTile) (k : Nat) : Option Nat := t.programs.findSome? (Machine.windowLayer k)

/-- Whether an NSAMP can sample a gradient tensor: in a calibration form, at an offset that no QUANT of the tile writes (R82). -/
def Form.samplesGrad (f : Form) (t : FormTile) (o : FormOp) : Bool :=
  f.calib && !t.programs.any (fun p => p.any (fun q => q.opcode == 0x58 && q.addr == o.addr))

/-- Swatch placement and strides of one operation of a tile (R144, R146). -/
def Form.opPlaced (f : Form) (t : FormTile) (o : FormOp) : Bool :=
  let size (n : Nat) : Nat := swatchSize f.layers n
  if o.opcode = 1 ∨ o.opcode = 2 then (List.range o.segs).all (fun k => swatchPlaced (32 * o.swatch k) (size o.passLayer))
  else if o.opcode = 0x12 ∨ o.opcode = 0x58 then swatchPlaced o.addr (size o.aux)
  else if o.opcode = 0x59 then f.samplesGrad t o || swatchPlaced o.addr (((t.windowLayer o.aux).map size).getD 160)
  else if o.opcode = 0x13 then decide (1 ≤ o.imm) && decide (o.imm ≤ 4095)
  else if o.opcode = 0x14 then decide (1 ≤ o.imm) && decide (o.imm ≤ 0x2FFF)
  else true

/-- A bound image within the partition's range or grant (R179). -/
def Part.boundIn (x : Part) (b : BoundImg) : Bool :=
  if b.kind = 2 then decide (b.offset + b.length ≤ x.crownLen * 2 ^ 30)
  else if b.kind = 3 then decide (b.offset + b.length ≤ x.grantLen * 2 ^ 16)
  else true

/-- The first bad operation of a form, by form operation index. -/
def Form.badOp (f : Form) (ok : FormTile → FormOp → Bool) : Option Nat :=
  f.tiles.findSome? (fun t => t.programs.findSome? (fun p => ((numbered p).find? (fun o => !ok t o.2)).map (·.1)))

/-- Check 6 of R201. -/
def Form.planErr (f : Form) (x : Part) : Option LoadErr :=
  firstErr [bad 0x1005 7 (((numbered f.tiles).find? (fun t => !mapCovers 0 t.2.scpMap)).map (·.1)), bad 0x1005 4 (f.badOp f.opPlaced),
    bad 0x1005 6 (f.tiles.findSome? (fun t => ((numbered t.bounds).find? (fun b => !x.boundIn b.2)).map (·.1)))]

/-! ## Check 7: the schedule -/

/-- The issue class of an opcode (R183, R187). -/
def opClass (o : Nat) : Nat := if o ≤ 3 then 0 else if o < 0x60 then 1 else if o = 0x60 then 2 else 3

/-- A pass of a program: form operation index, logical array, launch cycle, nominal interval, whether it is a nap pass, and
whether its nap pass must follow. -/
structure PlanPass where
  idx      : Nat
  array    : Nat
  launch   : Nat
  interval : Nat
  isNap    : Bool
  opens    : Bool
  deriving DecidableEq, Repr

/-- The kind of a pass opcode. -/
def passKind (o : Nat) : PassKind := if o = 1 then .main32 else if o = 2 then .main16 else .nap

/-- The passes of a program, in order. -/
def Form.planPasses (f : Form) (prog : List FormOp) : List PlanPass :=
  (numbered prog).filterMap (fun e =>
    let o := e.2
    if isPass o.opcode then
      let k := passKind o.opcode
      let slots := match f.layers[o.passLayer]? with
        | some n => n.napSlots
        | none => 0
      some ⟨e.1, o.larray, o.cycle + k.lead, k.interval (f.contract == 1) o.segs, o.opcode == 3, o.opcode != 3 && slots != 0⟩
    else none)

/-- Consecutive passes on one array (R104, R114): the first bad one. A nap pass follows its main pass, and nothing else does. -/
def arrayBad : Option PlanPass → List PlanPass → Option Nat
  | none, [] => none
  | some p, [] => if p.opens then some p.idx else none
  | prev, p :: r =>
    let ok := match prev with
      | none => !p.isNap
      | some q => decide (q.launch + q.interval ≤ p.launch) && p.isNap == q.opens
    if ok then arrayBad (some p) r else some p.idx

/-- Non-decreasing CYCLE, at most one operation of each class in a cycle, END no later than PLAN_END (R182, R183): the first bad
operation. `cyc` is the last cycle, `used` the classes issued in it. -/
def orderBad (planEnd : Nat) : Nat → List Nat → List (Nat × FormOp) → Option Nat
  | _, _, [] => none
  | cyc, used, e :: r =>
    let o := e.2
    let c := opClass o.opcode
    if o.cycle < cyc ∨ (o.cycle = cyc ∧ used.contains c = true) ∨ (o.opcode = 0x7F ∧ planEnd < o.cycle) then some e.1
    else orderBad planEnd o.cycle (if o.cycle = cyc then c :: used else [c]) r

/-- The idle intervals between busy spans in ascending order, up to `total`. -/
def idleGaps (total : Nat) : Nat → List (Nat × Nat) → List (Nat × Nat)
  | at', [] => if at' < total then [(at', total)] else []
  | at', b :: r => (if at' < b.1 then [(at', b.1)] else []) ++ idleGaps total (Nat.max at' b.2) r

/-- Whether every window of 1,000 cycles holds 4 consecutive idle ones; `next` is the first window start not yet covered. -/
def idleCovers (total : Nat) : Nat → List (Nat × Nat) → Bool
  | next, [] => decide (total < next + 1000)
  | next, g :: r =>
    if g.2 < g.1 + 4 then idleCovers total next r
    else decide (g.1 ≤ next + 996) && idleCovers total (Nat.max next (g.2 - 3)) r

/-- R92 of one logical array over two steps, of shapes `a` and then `b`. A pass is in progress from its launch to the end of its issue
interval (DESIGN CHOICE, log 53: the spec does not say whether it is until its output is ready). -/
def windowsIdle (la lb : Nat) (a b : List PlanPass) : Bool :=
  let spans := a.map (fun p => (p.launch, p.launch + p.interval)) ++ b.map (fun p => (p.launch + la, p.launch + p.interval + la))
  idleCovers (la + lb) 0 (idleGaps (la + lb) 0 spans)

/-- The schedule of one tile. -/
def Form.tileSchedule (f : Form) (t : FormTile) : Option Nat :=
  let progs := f.shapes.zip t.programs
  let one (e : Shape × List FormOp) : Option Nat :=
    match orderBad e.1.planEnd 0 [] (numbered e.2) with
    | some i => some i
    | none => (List.range 64).findSome? (fun n => arrayBad none ((f.planPasses e.2).filter (fun p => p.array == n)))
  match progs.findSome? one with
  | some i => some i
  | none =>
    let ps := progs.map (fun e => (e.1.length, f.planPasses e.2))
    let ok (n : Nat) : Bool := ps.all (fun a => ps.all (fun b =>
      windowsIdle a.1 b.1 (a.2.filter (fun p => p.array == n)) (b.2.filter (fun p => p.array == n))))
    if (t.used.map (·.1)).all ok then none else some 0

/-- Check 7 of R201. -/
def Form.scheduleErr (f : Form) : Option LoadErr := bad 0x1005 4 (f.tiles.findSome? f.tileSchedule)

/-! ## Check 8: traffic (R23, R44, R164, R165, R452) -/

/-- Plannable bytes per 1 µs of an object kind: one partition, own traffic with more than one, transit share. -/
def trafficLimits (kind : Nat) : Nat × Nat × Nat :=
  match kind with
  | 0 => (86400, 62400, 24000)
  | 1 => (1800000, 1300000, 500000)
  | 2 => (1380000, 1000000, 380000)
  | _ => (2760000, 2000000, 760000)

/-- The partitions of the device. -/
def State.partCount (s : State) : Nat := (s.parts.filter (fun e => e.2.present)).length

/-- Whether the unit of a Body die belongs to a partition. -/
def State.assignedDie (s : State) (d : Nat) : Bool :=
  s.parts.any (fun e => e.2.present && decide (e.2.unitBase ≤ unitOfDie d) && decide (unitOfDie d < e.2.unitBase + e.2.units))

/-- Whether an edge of a Body die is up. -/
def State.edgeUp (s : State) (d e : Nat) : Bool := s.fldOf (uReg d 0x201 .mshEdge e) 0 1 == 1

/-- A traffic plan entry within its limits, on an object that carries traffic at all. -/
def State.trafficIn (s : State) (x : Part) (t : Traffic) : Bool :=
  let l := trafficLimits t.kind
  let d := t.object / 2 ^ 11
  let fits := if 1 < s.partCount then decide (t.own ≤ l.2.1) && decide (16 * t.transit ≤ l.2.2 * x.units)
    else decide (t.own + t.transit ≤ l.1)
  fits && (t.own + t.transit == 0 || (s.assignedDie d && (t.kind != 1 || s.edgeUp d (t.object % 4))))

/-- The edges a route between two Body dies leaves by (R19): along the row, then along the column. -/
def routeEdges (a b : Nat) : List (Nat × Nat) :=
  let e := bodyRoute a b
  e.flatMap (fun d => ([1, 2].filter (fun k => e.contains (beyond d k))).map (fun k => (d, k)))

/-- Whether the planned routes of a placed form keep to assigned units and to edges that are up. -/
def State.routesOk (s : State) (x : Part) : Bool :=
  (s.plannedRoutes x).all (fun r => (bodyRoute r.1 r.2).all s.assignedDie && (routeEdges r.1 r.2).all (fun e => s.edgeUp e.1 e.2))

/-- Check 8 of R201, of the partition with the form placed. -/
def State.trafficErr (s : State) (x : Part) (f : Form) : Option LoadErr :=
  firstErr [bad 0x1005 10 (((numbered f.traffic).find? (fun t => !s.trafficIn x t.2)).map (·.1)), must 0x1005 10 (s.routesOk x)]

/-! ## Check 9: tickets (R197, R387) -/

/-- The plan power in µW: each die's largest total of GRANT + FULL over the shapes, at 220 µW a ticket. -/
def Form.planPower (f : Form) (dies : List Nat) : Nat :=
  let dieOf (lt : Nat) : Nat := match f.tiles[lt]? with
    | some t => t.dir.die
    | none => 32
  let total (d k : Nat) : Nat := (f.tickets.filter (fun e => e.shape == k && dieOf e.ltile == d)).foldl (fun a e => a + e.grant + e.full) 0
  220 * dies.foldl (fun a d => a + (List.range f.shapes.length).foldl (fun m k => Nat.max m (total d k)) 0) 0

/-- Check 9 of R201: the plan power within ALLOT_n − BASE_n. -/
def State.ticketErr (s : State) (p : Nat) (x : Part) (f : Form) : Option LoadErr :=
  let allot := s.fldOf (s.pReg 0x202 .pwrAllot p) 0 16
  let base := s.fldOf (s.pReg 0x202 .pwrBase p) 0 16
  must 0x1005 8 (decide (f.planPower x.dies + base * 1000000 ≤ allot * 1000000))

/-! ## Check 10: patch targets (R202) -/

/-- Whether a patch names a descriptor or operand bits that exist. -/
def Form.patchTarget (f : Form) (p : Patch) : Bool :=
  match f.tiles[p.ltile]? with
  | none => false
  | some t =>
    (p.shape == 0xFF || decide (p.shape < f.shapes.length)) &&
    (if p.target < 3 then decide (p.index < 1024)
     else p.target == 3 && decide (1 ≤ p.width) && decide (p.width ≤ 48) && decide (p.lsb + p.width ≤ 96) &&
      (numbered t.programs).all (fun e => (p.shape != 0xFF && p.shape != e.1) || (p.shape == 0xFF && e.2.isEmpty) || decide (p.index < e.2.length)))

/-- Check 10 of R201. -/
def Form.patchErr (f : Form) : Option LoadErr := bad 0x1003 11 (((numbered f.patches).find? (fun p => !f.patchTarget p.2)).map (·.1))

/-! ## Check 11: link latency -/

/-- The links of a partition: those of its groups (R347). -/
def State.partLinks (s : State) (p : Nat) : List Nat :=
  (s.start.groups.filter (fun g => g.2.present && g.2.part == p)).flatMap (fun g => g.2.links)

/-- LINK_LAT_MAX is not below the measured latency of any link of the partition; a form with 0 issues no link bursts (DEDUCED). -/
def State.latencyErr (s : State) (p : Nat) (f : Form) : Option LoadErr :=
  must 0x1005 0 (f.linkLatMax == 0 ||
    (s.partLinks p).all (fun l => decide (s.fldOf (uReg (brimIdx (l / 12)) 0x209 .lnkLat (l % 12)) 0 16 ≤ f.linkLatMax)))

end Sys2Proof.Machine
end

