-- ==== Sys2Proof/Machine/Forms.lean ====
section
/-!
DEFINITION. Loading a form (R174, R175, R177 to R179, R199, R202 to R204, R270): giving up the old form, the checks in the
order of R201, relocation, patches, and what the loader writes; and the end of a job by the operator (R327).
-/

namespace Sys2Proof.Machine

/-! ## Relocation (R178, R179) -/

/-- The position of a logical tile. -/
def Part.placedAt (x : Part) (lt : Nat) : Nat := Tbl.get x.placed lt 0

/-- A form address relocated to the partition. -/
def State.relocate (s : State) (x : Part) (f : Form) (a : Nat) : Nat :=
  let d := addrDie a
  let off := a % 2 ^ 42
  if d < 0x20 then
    if 512 ≤ addrRegion a then a
    else match (numbered f.tiles).find? (fun t => t.2.dir.die == d && t.2.dir.home == addrRegion a) with
      | some t => mkAddr (x.placedAt t.1 / 512) (x.placedAt t.1 % 512) (addrOff a)
      | none => a
  else if d = 0x20 then s.grantStart x + off
  else d * 2 ^ 42 + (off + x.crownBase * 2 ^ 30) % 2 ^ 42

/-- A bound entry: base and length (R149, R179). -/
def State.boundEntry (s : State) (x : Part) (f : Form) (b : BoundImg) : Nat × Nat :=
  match b.kind with
  | 1 => match (f.tiles[b.target]?).bind (fun t => t.scpMap[b.region]?) with
    | some r => (mkAddr (x.placedAt b.target / 512) (x.placedAt b.target % 512) r.start, r.len)
    | none => (0, 0)
  | 2 => (x.crownStart b.target + b.offset, b.length)
  | 3 => (s.grantStart x + b.offset, b.length)
  | _ => (0, 0)

/-- The words of a relocated descriptor. -/
def State.descWords (s : State) (x : Part) (f : Form) (r : List Byte) : List Nat :=
  let b := leBytes 8 (s.relocate x f (leAt r 0 6)) ++ leBytes 8 (s.relocate x f (leAt r 8 6)) ++ sliceB r 16 16
  (List.range 8).map (fun i => leAt b (4 * i) 4)

/-- Writes consecutive words of a register array. -/
def State.setWords (s : State) (k : Nat → RegKey) (l : List Nat) : State :=
  (numbered l).foldl (fun s e => s.setReg (k e.1) (BitVec.ofNat 32 e.2)) s

/-- The descriptors and the bound table of a placed logical tile. -/
def State.loadTables (s : State) (p lt : Nat) : State :=
  let x := s.part p
  match x.form with
  | none => s
  | some f => match f.tiles[lt]? with
    | none => s
    | some t =>
      let tile := tileAt (x.placedAt lt)
      let s1 := s.setWords (fun i => tReg tile .tilDesc i) (t.descs.flatMap (s.descWords x f))
      (numbered t.bounds).foldl (fun s e =>
        let b := s.boundEntry x f e.2
        (s.setPair (tReg tile .tilBoundLo e.1) (tReg tile .tilBoundHi e.1) b.1).setReg (tReg tile .tilBoundLen e.1) (BitVec.ofNat 32 b.2)) s1

/-! ## Patches (R202, R203) -/

/-- Operand bits replaced in an operation word. -/
def FormOp.patched (o : FormOp) (lsb width : Nat) (v : Int) : FormOp :=
  { o with oper := leBytes 12 (putFld (leNat o.oper) lsb width (toBits width v)) }

/-- A list with its element `i` changed. -/
def changeAt {α : Type} (f : α → α) : Nat → List α → List α
  | _, [] => []
  | 0, a :: r => f a :: r
  | n + 1, a :: r => a :: changeAt f n r

/-- A form with operand bits of a logical tile's operation patched. -/
def Form.patchOps (f : Form) (p : Patch) (v : Int) : Form :=
  { f with tiles := changeAt (fun t => { t with programs := (numbered t.programs).map (fun e =>
      if p.shape = 0xFF ∨ p.shape = e.1 then changeAt (fun o => o.patched p.lsb p.width v) p.index e.2 else e.2) }) p.ltile f.tiles }

/-- A field of a descriptor patched: SRC, DST or LEN. -/
def State.patchDesc (s : State) (t : TileId) (p : Patch) (v : Int) : State :=
  let w (i : Nat) : RegKey := tReg t .tilDesc (8 * p.index + i)
  if p.target = 2 then s.setFld (w 4) 0 20 (toBits 20 v)
  else
    let a := toBits 48 v
    (s.setFld (w (2 * p.target)) 0 32 (a % 2 ^ 32)).setFld (w (2 * p.target + 1)) 0 16 (a / 2 ^ 32)

/-- One patch with its quantity. -/
def State.applyPatch (s : State) (part : Nat) (p : Patch) (q : Nat) : State :=
  let v : Int := p.addend + ((p.mult * q : Nat) : Int)
  if p.target = 3 then s.modPart part (fun x => { x with form := x.form.map (fun f => f.patchOps p v) })
  else s.patchDesc (tileAt ((s.part part).placedAt p.ltile)) p v

/-- The quantity of a patch that is applied at load. The base of the Crown range counts within its die, that of the grant is its
device address. -/
def State.loadQuantity (s : State) (x : Part) (q : Nat) : Option Nat :=
  match q with
  | 0 => some 0
  | 1 => some (x.crownBase * 2 ^ 30)
  | 2 => some (s.grantStart x)
  | 3 => some x.shareBase
  | _ => none

/-- The norm windows of a placed logical tile take their layers (R75). -/
def State.loadWindows (s : State) (p lt : Nat) : State :=
  let x := s.part p
  match x.form.bind (fun f => f.tiles[lt]?) with
  | none => s
  | some t => (List.range 8).foldl (fun s k => match t.windowLayer k with
      | some layer => s.assignWindow (tileAt (x.placedAt lt)) k layer
      | none => s) s

/-- The patches applied at load, in table order. -/
def State.loadPatches (s : State) (p : Nat) : State :=
  match (s.part p).form with
  | none => s
  | some f => f.patches.foldl (fun s e => match s.loadQuantity (s.part p) e.quantity with
    | some q => s.applyPatch p e q
    | none => s) s

/-! ## Page sets (R270) -/

/-- Whether `n` page sets fit the partition's range on a home Crown die. -/
def State.poolFits (s : State) (x : Part) (f : Form) (c n : Nat) : Bool :=
  let vec := upTo (s.poolOff x c + n * s.strideC x c) (2 ^ 20)
  let recs := upTo (vec + x.shareLen * (f.maxContext / 64) * 4) (2 ^ 20)
  decide (recs + n * 320 ≤ x.crownLen * 2 ^ 30)

/-- The largest count at which a test that only falls holds, by its bits from bit `k - 1` down. -/
def largestN (ok : Nat → Bool) : Nat → Nat → Nat
  | 0, acc => acc
  | k + 1, acc => largestN ok k (if ok (acc + 2 ^ k) then acc + 2 ^ k else acc)

/-- The home Crown dies of a partition (R39). -/
def Part.homes (x : Part) : List Nat := homesOf x.unitBase x.units

/-- N: the largest page-set count that fits on every home die. -/
def State.pagesFor (s : State) (x : Part) (f : Form) : Nat :=
  largestN (fun n => x.homes.all (fun c => s.poolFits x f c n)) 28 0

/-! ## The old form -/

/-- A tile gives up its logical tile: map, descriptors, bounds, windows and images. Its arrays, MAPPED ones among them, are SPARE again,
since no map names them any more (DESIGN CHOICE, log 53: R128 names no change for the loading of a form). -/
def State.clearTile (s : State) (t : TileId) : State :=
  let s1 := s.modTile t (fun x => { x with
    ltile := none, windows := List.replicate 8 NormWindow.reset, samples := [], slices := [], emits := [], grads := [], nextOp := 0,
    mapStage := [], bankStage := none, waitq := [],
    ended := false, xfers := [], delta := 0, slackUse := 0, resUse := 0, overSlack := false, reports := [], inbuf := [], heldNotes := [] })
  let s2 := (s1.arraysIn t .staged ++ s1.arraysIn t .mapped).foldl (fun s n => s.modArr (arrOf t n) (fun x => { x with st := .spare, remapOf := none })) s1
  ((s2.setTileState t 0).showStage t).showInflight t

/-- The registers of a tile that a load writes anew. -/
def loadRegs : List Reg :=
  [.tilDesc, .tilBoundLo, .tilBoundHi, .tilBoundLen, .arrMap0, .arrMap1, .arrBank, .tilLand, .ctrLayA, .ctrLayB]

/-- A load that has been accepted ends what the partition's last form held: its tiles, its generations, its page sets and its
index entries. -/
def State.dropForm (s : State) (p : Nat) : State :=
  let ds := (s.part p).dies
  let s1 := (s.loadFail p).disarmCommit p
  let s2 := ((s1.tiles.filter (fun e => ds.contains e.1.die.val)).map (·.1)).foldl State.clearTile s1
  let s3 := { s2 with
    regs := s2.regs.filter (fun (e : RegKey × W32) => !(ds.contains e.1.die && decide (e.1.region < 512) && loadRegs.contains e.1.reg)),
    pages := s2.pages.filter (fun e => e.1.1 != p), coldUsed := s2.coldUsed.filter (fun e => e.1.1 != p),
    index := s2.index.filter (fun e => e.2.part != p), fetches := s2.fetches.filter (fun f => f.part != p) }
  let s4 := s3.modPart p (fun x => { x with
    form := none, placed := [], assign := [], job := .noForm, launched := false, planMicro := 0, stepNo := 0, curGen := 0, curBank := false,
    held := none, chain := [], wpages := 0, adpPages := 0, adapters := [], pageCount := 0, hotCap := 0, hotFreed := [],
    flipStep := none, flipBolt := none, flipHolds := false, load := none })
  let s5 := (((s4.setFld (s4.pReg 0x207 .kvpTotal p) 0 28 0).setReg (s4.pReg 0x206 .smpLists p) 0).setReg (s4.pReg 0x202 .pwrPlan p) 0)
  s5.showGen p

/-! ## The loader (R201) -/

/-- A failed load is recorded (R205, R441): with LOAD, the section and the record index in place of the tile fields. -/
def State.loadFault (s : State) (p : Nat) (e : LoadErr) (formId : Nat) : State :=
  s.putFault ⟨BitVec.ofNat 16 e.code, 8, some p, s.prinDie, 0x86, 0, e.idx % 2 ^ 24, BitVec.ofNat 32 e.sec, s.bow.time,
    if e.code = 0x1004 then e.idx else formId⟩

/-- Check 1: the signature over the signed span, against the key in slot KEY_ID (R172). -/
def State.formSigned (s : State) (m : List Byte) : Bool :=
  let n := leAt m 28 4
  decide (144 ≤ n) && decide (n ≤ m.length) &&
  (match Tbl.find s.start.formKeys (leAt m 40 1) with
   | some k => ecdsaOk k (m.take (n - 96)) ((m.drop (n - 96)).take 96)
   | none => false)

/-- Check 2: CONTRACT is one the stepping accepts (R3, R4). -/
def State.contractOk (s : State) (m : List Byte) : Bool :=
  let c := leAt m 6 1
  (c == 1 || c == 2) && bit s.fuses.contracts (c - 1)

/-- The partition with a form placed in it. -/
def Part.withForm (x : Part) (f : Form) (placed : Tbl Nat Nat) : Part := { x with form := some f, placed := placed }

/-- Checks 5 to 11 of a parsed form, and its placement. -/
def State.planChecks (s : State) (p : Nat) (f : Form) : Option LoadErr × Tbl Nat Nat :=
  let x := s.part p
  let q := s.placeTiles (numbered f.tiles) []
  let y := x.withForm f q.1
  (firstErr [q.2.map (fun lt => ⟨0x1004, 3, lt⟩), f.planErr x, f.scheduleErr, s.trafficErr y f, s.ticketErr p x f, f.patchErr, s.latencyErr p f], q.1)

/-- The loader's checks in order: the first failure, or the form with its placement. -/
def State.formChecks (s : State) (p : Nat) (m : List Byte) : LoadErr ⊕ (Form × Tbl Nat Nat) :=
  let x := s.part p
  if s.formSigned m = false then .inl ⟨0x1001, 0, 0⟩
  else if s.contractOk m = false then .inl ⟨0x1002, 0, 0⟩
  else match malformed s.boot.matrix x.dies x.homes m with
    | some e => .inl e
    | none =>
      let f := parseForm m
      match f.shapeErr with
      | some e => .inl e
      | none => match s.planChecks p f with
        | (some e, _) => .inl e
        | (none, placed) => .inr (f, placed)

/-- The lists per token that firmware writes into SMP_LISTS_n: the logical tiles whose programs hold a TOPK (R252). -/
def Form.lists (f : Form) : Nat := (f.tiles.filter (fun t => t.programs.any (fun p => p.any (fun o => o.opcode == 0x5A)))).length

/-- A form that passes is placed, relocated, patched and given its page sets. -/
def State.installForm (s : State) (p : Nat) (f : Form) (placed : Tbl Nat Nat) : State :=
  let x0 := (s.part p).withForm f placed
  let n := s.pagesFor x0 f
  let plan := f.planPower x0.dies
  let x1 := { x0 with
    assign := s.assignForm f placed, job := .loaded, planMicro := plan, pageCount := n, hotCap := s.hotCapacity x0 }
  let s1 := s.setPart p x1
  let s2 := placed.foldl (fun s e =>
    ((s.modTile (tileAt e.2) (fun t => { t with ltile := some e.1 })).setTileState (tileAt e.2) 1).loadTables p e.1 |>.loadWindows p e.1) s1
  let s3 := s2.loadPatches p
  let s4 := s3.setPage p 0 { PageSet.reset with state := .void, owner := x1.voidSlot }
  let s5 := ((s4.setFld (s4.pReg 0x207 .kvpTotal p) 0 28 n).setReg (s4.pReg 0x206 .smpLists p) (BitVec.ofNat 32 (Nat.min 64 f.lists))).setReg
    (s4.pReg 0x202 .pwrPlan p) (BitVec.ofNat 32 (ceilDiv plan 1000000))
  { s5 with boot := { s5.boot with anyForm := true } }

/-- The fabric and mesh PLLs of a partition's dies whose count check failed are recalibrated before its next load (R417). -/
def State.healPlls (s : State) (p : Nat) : State :=
  let ds := (s.part p).dies
  { s with conf := { s.conf with pllBad := s.conf.pllBad.filter (fun q => match q with
      | .fabric d | .mesh d => !ds.contains d.val
      | .controlCore _ | .linkPhy _ | .crownIf _ | .pcie | .ethernet _ | .sensor _ => true) } }

/-- The request R174 accepts: the partition's units, and no form or an ended job. A partition without a form source, such as the default
one, takes no form (R37). -/
def State.loadAccepted (s : State) (p : Nat) (m : List Byte) : Bool :=
  let x := s.part p
  x.present && x.started && x.formSrc.isSome && leAt m 8 1 == x.units && leAt m 9 1 == x.unitBase && (x.job == .noForm || x.job == .ended)

/-- FORM_LOAD: a form is presented to a partition. -/
def runFormLoad (p : PartIdx) (image : List Byte) (s : State) : State :=
  if s.loadAccepted p.val image then
    let s1 := (s.healPlls p.val).dropForm p.val
    match s1.formChecks p.val image with
    | .inl e => s1.loadFault p.val e (leAt image 32 8)
    | .inr f => s1.installForm p.val f.1 f.2
  else s.fwFault (mkAddr s.prinDie 0 0)

/-- The command FORM_LOAD. -/
def execFormLoad (p : PartIdx) (image : List Byte) (s : State) : Host.Outcome State Fault Refusal := .next (runFormLoad p image s)

/-- OPERATOR_ENDS_JOB: the operator ends a running job, so that a new form can be loaded (R327). -/
def runOperatorEndsJob (p : PartIdx) (s : State) : State := s.jobEnd p.val

/-- The command OPERATOR_ENDS_JOB. -/
def execOperatorEndsJob (p : PartIdx) (s : State) : Host.Outcome State Fault Refusal := .next (runOperatorEndsJob p s)

end Sys2Proof.Machine
end

