-- ==== Sys2Proof/Machine/Fulling.lean ====
section
/-!
DEFINITION. The fulling and maintenance commands (R122 to R129, R134, R309, R321, R326, R424, R425).
-/

namespace Sys2Proof.Machine

/-! ## The end of a fulling -/

/-- A copy is STAGED: the live entries that reference its source are staged to it at once, or after a commit that is armed
(R132, R134). -/
def State.copyDone (s : State) (a : ArrayId) (src : Nat) : State :=
  let s1 := s.modArr a (fun x => { x with remapOf := some src })
  match s1.partOfDie a.tile.die.val with
  | some p => if s1.armed p then s1 else s1.stageCopy a.tile src a.phys.val
  | none => s1.stageCopy a.tile src a.phys.val

/-- The entries of a generation that is to become live, for logical arrays that it leaves unchanged, name the copy of an array that they
would have named (R326). -/
def State.rewriteNew (s : State) (p : Nat) (t : TileId) (src copy : Nat) : State :=
  let x := s.part p
  match x.load with
  | none => s
  | some l =>
    if x.flipBolt.isNone ∨ x.curGen = 0 then s
    else (List.range 64).foldl (fun s n =>
      let e := s.mapEntry t x.curBank n
      if e.2.2 = true ∧ e.1 = src ∧ l.placed.any (fun c => c.2.tile == t && c.1.larray == n) = false then
        s.mapWrite t (!x.curBank) n (entryWord copy e.2.1)
      else s) s

/-- The replacement of a fenced array is STAGED: its live entries are staged to it, those of a generation that is to become live are
rewritten, and the commit is armed (R326, R436). -/
def State.repairDone (s : State) (p : Nat) (a : ArrayId) (old : Nat) : State :=
  (((s.disarmCommit p).copyDone a old).rewriteNew p a.tile old a.phys.val).armRepair p

/-- Whether the entries of a bank are in use or are to be: it is live, or a flip of the tile's partition waits. -/
def State.bankUsed (s : State) (t : TileId) (b : Bool) : Bool :=
  s.bankLive t b || (match s.partOfDie t.die.val with
    | some p => (s.part p).flipBolt.isSome
    | none => false)

/-- The entries in use of a tile: bank, logical array, physical array, format. -/
def State.liveEntries (s : State) (t : TileId) : List (Bool × Nat × Nat × Nat) :=
  [false, true].flatMap (fun b => if s.bankUsed t b then (List.range 64).filterMap (fun n =>
    let e := s.mapEntry t b n
    if e.2.2 then some (b, n, e.1, e.2.1) else none) else [])

/-- Every entry in use of the old tile of a move has its entry in the new one: the new banks' generations are written, their live
bits and the end of the old ones are staged, and the commit is armed (R439). -/
def State.moveReady (s : State) (p : Nat) (from' to' : TileId) : State :=
  if (s.liveEntries from').all (fun e => (s.mapEntry to' e.1 e.2.1).2.2) then
    let w := s.bankNext from'
    let off := [false, true].foldl (fun w b => bankWord w b (s.bankGen from' b) false) (s.regN (tReg from' .arrBank))
    (((s.disarmCommit p).bankWrite to' w).bankWrite from' off).armRepair p
  else s

/-- An image of a moving logical tile is STAGED in its new tile: the entries that referenced the old array name it there. -/
def State.moveDone (s : State) (p : Nat) (from' : TileId) (old : Nat) (a : ArrayId) : State :=
  let s1 := ((s.liveEntries from').filter (fun e => e.2.2.1 == old)).foldl (fun s e => s.mapWrite a.tile e.1 e.2.1 (entryWord a.phys.val e.2.2.2)) s
  s1.moveReady p from' a.tile

/-- What follows when a fulling has brought an array to STAGED. -/
def State.fullDone (s : State) (a : ArrayId) (j : FulJob) : State :=
  match j.why with
  | .pushed => s
  | .refull => s
  | .dropped => s.modArr a (fun x => { x with st := .spare })
  | .remap src => s.copyDone a src
  | .repair p old => s.repairDone p a old
  | .move p from' old => s.moveDone p ⟨a.tile.die, from'⟩ old a
  | .bolt p chunk =>
    (s.modPart p (fun x => { x with load := x.load.map (fun l => { l with done := l.done ++ [chunk] }) })).loadCheck p

/-- The job that fulls a chunk of a bolt load into another SPARE array of the tile, where there is one; else the load is
abandoned (R302, R326). -/
def State.fullAgain (s : State) (d : Nat) (j : FulJob) (p chunk : Nat) : State :=
  let t := (j.array d).tile
  match (s.part p).load with
  | none => s
  | some l => match s.sparesOf t with
    | [] => s.spareExhausted p t l.boltId
    | n :: _ =>
      let s1 := s.modPart p (fun x => { x with load := x.load.map (fun y => { y with arrays := Tbl.put y.arrays chunk (arrOf t n) }) })
      let s2 := s1.submitJob d { j with phys := Fin.ofNat 64 n }
      if (s2.object l.boltId chunk).isSome then s2 else s2.fetchStart p l.boltId chunk imageLen false

/-- What follows when a fulling has fenced its array. -/
def State.fullLost (s : State) (d : Nat) (j : FulJob) : State :=
  match j.why with
  | .bolt p chunk => s.fullAgain d j p chunk
  | .remap src => s.modDie d (fun x => { x with calQueue := (j.tile.val, src) :: x.calQueue.filter (· != (j.tile.val, src)) })
  | .pushed => s
  | .refull => s
  | .repair _ _ => s
  | .dropped => s
  | .move _ _ _ => match s.sparesOf (j.array d).tile with
    | [] => s
    | n :: _ => s.submitJob d { j with phys := Fin.ofNat 64 n }

/-- A fulling that fails (R123, R125): the array is FENCED with cause 0x04, and a fulling-failure fault is recorded. -/
def State.fullFail (s : State) (d : Nat) (j : FulJob) (rounds : Nat) (weak : List Nat) : State :=
  let a := j.array d
  let s1 := weak.foldl (fun s r => s.spoilRow a r) s
  let s2 := s1.fault 0x2007 d (0x40 + a.phys.val) a.tile.region.val (rounds + weak.length * 2 ^ 8) (s1.partOfDie d)
  (((s2.fenceArray a 4).setBit (fulReg d .fulEvents) 0).postResult d j rounds 2).fullLost d j

/-! ## The commands -/

/-- FULLING_JOB_PUSH: GO queues a job, or refuses it: the queue is full or the target is neither SPARE nor MAINT, which for a
MAPPED or FENCED array is a firmware fault (R129, R309). -/
def runFullingJobPush (port : Port) (d : BodyDie) (data : W32) (s : State) : State :=
  let k := fulReg d.val .fulJobPush
  s.guardedWrite port k data.toNat (fun s =>
    if bit data.toNat 0 then
      let tgt := s.regN (fulReg d.val .fulJobTgt)
      let src := s.pair (fulReg d.val .fulJobSrcLo) (fulReg d.val .fulJobSrcHi)
      let j : FulJob := ⟨Fin.ofNat 512 (fld tgt 0 9), Fin.ofNat 64 (fld tgt 9 6), fld tgt 15 2, BitVec.ofNat 48 src,
        BitVec.ofNat 16 (data.toNat / 2 ^ 16), .pushed, 0, 0⟩
      let st := (s.arr (j.array d.val)).st
      if st = .mapped ∨ st = .fenced then (s.setBit (fulReg d.val .fulEvents) 1).fwFault k.addr
      else if (st ≠ .spare ∧ st ≠ .maint) ∨ 64 ≤ (s.die d.val).queue.length then s.setBit (fulReg d.val .fulEvents) 1
      else s.pushJob d.val j
    else s)

/-- The command FULLING_JOB_PUSH. -/
def execFullingJobPush (port : Port) (d : BodyDie) (data : W32) (s : State) : Host.Outcome State Fault Refusal := .next (runFullingJobPush port d data s)

/-- FULLING_JOB_START: the first queued job whose tile has no array in FULLING or calibration starts (R122, R309). Jobs whose
chunk the device does not hold ask for it, and wait (R307). -/
def runFullingJobStart (d : BodyDie) (s : State) : State :=
  if !(s.die d.val).alive then s
  else
    let ready := (s.die d.val).queue.filter (fun j => s.jobReady d.val j)
    match ready.find? (fun j => (s.payloadOf d.val j).isSome) with
    | some j => s.startJob d.val j
    | none => ready.foldl (fun s j => match s.jobImage d.val j, s.partOfDie d.val with
        | some i, some p => s.fetchStart p i.1 i.2.1 imageLen false
        | _, _ => s) s

/-- The command FULLING_JOB_START. -/
def execFullingJobStart (d : BodyDie) (s : State) : Host.Outcome State Fault Refusal := .next (runFullingJobStart d s)

/-- A fulling ends with no weak row and its array STAGED, or with the array fenced; the result is posted (R123). -/
def State.fullEnd (s : State) (a : ArrayId) (j : FulJob) (rounds : List FullRound) : State :=
  let d := a.tile.die.val
  let r := fullRounds 8 512 rounds
  let s1 := (s.modDie d (fun x => { x with full := x.full.filter (fun k => !(k.tile == j.tile && k.phys == j.phys)) })).showFul d
  if r.2.2.isEmpty then
    let s2 := ((s1.modArr a (fun x => { x with st := .staged })).bump (fulReg d .fulStaged) 0 32 1).event d 0x204 0x44 1
    (s2.postResult d j r.1 1).fullDone a j
  else s1.fullFail d j r.1 r.2.2

/-- The running fulling of an array. -/
def State.fullJob (s : State) (a : ArrayId) : Option FulJob :=
  if (s.arr a).st = .fulling then (s.die a.tile.die.val).full.find? (fun j => j.tile == a.tile.region && j.phys == a.phys) else none

/-- A fulling still unfinished at 4.0 ms is stopped and its array fenced (R125). How many rounds it ran, which tickets they drew and
which rows are weak is not stated. -/
def State.fullLate (s : State) (a : ArrayId) (j : FulJob) : State :=
  let d := a.tile.die.val
  let s1 := (s.modDie d (fun x => { x with full := x.full.filter (fun k => !(k.tile == j.tile && k.phys == j.phys)) })).showFul d
  let v := s1.draw
  let w := v.2.draw
  (w.2.drawFull a.tile (w.1 % ((s.tile a.tile).fullTickets + 1))).fullFail d j (v.1 % 9) []

/-- FULLING_COMPLETE: the rounds of a fulling are over once its draws are made; a phase that finds too few tickets waits in the array
for a later command (R126), and past 4.0 ms the array is fenced (R125). -/
def runFullingComplete (a : ArrayId) (rounds : List FullRound) (s : State) : State :=
  match s.fullJob a with
  | none => s
  | some j =>
    if j.start + 4000000 < s.bow.time then s.fullLate a j
    else
      let l := (fullDraws 8 512 rounds).drop j.paid
      let q := paidDraws (s.tile a.tile).fullTickets l
      let s1 := s.drawFull a.tile q.2
      if q.1 < l.length then
        s1.modDie a.tile.die.val (fun x => { x with full := x.full.map (fun k =>
          if k.tile == j.tile && k.phys == j.phys then { k with paid := k.paid + q.1 } else k) })
      else s1.fullEnd a j rounds

/-- The command FULLING_COMPLETE. -/
def execFullingComplete (a : ArrayId) (rounds : List FullRound) (s : State) : Host.Outcome State Fault Refusal := .next (runFullingComplete a rounds s)

/-- FULLING_TIMEOUT: an array still unfinished at 4.0 ms is stopped and fenced (R125). -/
def runFullingTimeout (a : ArrayId) (s : State) : State :=
  match s.fullJob a with
  | none => s
  | some j => if j.start + 4000000 ≤ s.bow.time then s.fullLate a j else s

/-- The command FULLING_TIMEOUT. -/
def execFullingTimeout (a : ArrayId) (s : State) : Host.Outcome State Fault Refusal := .next (runFullingTimeout a s)

/-- What a read of a register leaves on its port. -/
def State.answer (s : State) (port : Port) (v : Nat) : State := { s with readOut := Tbl.put s.readOut port (BitVec.ofNat 32 v) }

/-- A read of FUL_RESULT removes the oldest result and presents the next. -/
def State.fulPop (s : State) (port : Port) (d : Nat) : State :=
  ((s.answer port (s.regN (fulReg d .fulResult))).modDie d (fun x => { x with results := x.results.drop 1 })).showFul d

/-- FUL_RESULT_READ (R309). -/
def runFulResultRead (port : Port) (d : BodyDie) (s : State) : State :=
  if s.shut port (fulReg d.val .fulResult).addr then s else s.fulPop port d.val

/-- The command FUL_RESULT_READ. -/
def execFulResultRead (port : Port) (d : BodyDie) (s : State) : Host.Outcome State Fault Refusal := .next (runFulResultRead port d s)

/-- A write of FUL_COMMIT_CTRL: ARM is accepted where STEP exceeds the partition's step number by at least 2 and by less than
2³¹, or is the first LAUNCH; any other arm is refused, with LATE_ARM and a firmware fault. DISARM leaves staged writes staged. A
generation whose load is complete and that an armed commit kept waiting is made ready after a disarm (R132). -/
def State.commitWrite (s : State) (port : Port) (d : Nat) (data : W32) : State :=
  let k := fulReg d .fulCommitCtrl
  s.guardedWrite port k data.toNat (fun s =>
    let s1 := if bit data.toNat 1 then s.setFld k 0 1 0 else s
    if bit data.toNat 0 then
      let st := s.regN (fulReg d .fulCommitStep)
      let ok := match s.partOfDie d with
        | none => false
        | some p =>
          let x := s.part p
          let n := dist32 x.stepNo.toNat st
          (decide (2 ≤ n) && decide (n < 2 ^ 31)) || (!x.launched && st == 1)
      if ok then s1.setFld k 0 1 1 else (s1.setBit (fulReg d .fulEvents) 2).fwFault k.addr
    else match s.partOfDie d with
      | some p => if bit data.toNat 1 then s1.loadCheck p else s1
      | none => s1)

/-- FUL_COMMIT_ARM (R321). -/
def runFulCommitArm (port : Port) (d : BodyDie) (data : W32) (s : State) : State := s.commitWrite port d.val data

/-- The command FUL_COMMIT_ARM. -/
def execFulCommitArm (port : Port) (d : BodyDie) (data : W32) (s : State) : Host.Outcome State Fault Refusal := .next (runFulCommitArm port d data s)

/-- FUL_COMMIT_DISARM (R326). -/
def runFulCommitDisarm (port : Port) (d : BodyDie) (data : W32) (s : State) : State := s.commitWrite port d.val data

/-- The command FUL_COMMIT_DISARM. -/
def execFulCommitDisarm (port : Port) (d : BodyDie) (data : W32) (s : State) : Host.Outcome State Fault Refusal := .next (runFulCommitDisarm port d data s)

/-- ARRAY_RELEASE: firmware releases a STAGED array to SPARE (R128). -/
def runArrayRelease (a : ArrayId) (s : State) : State :=
  if (s.arr a).st = .staged then s.modArr a (fun x => { x with st := .spare, remapOf := none }) else s

/-- The command ARRAY_RELEASE. -/
def execArrayRelease (a : ArrayId) (s : State) : Host.Outcome State Fault Refusal := .next (runArrayRelease a s)

/-- MAINTENANCE_START: a STAGED or SPARE array enters MAINT; a MAPPED or FENCED one is refused with a firmware fault (R128,
R129). -/
def runMaintenanceStart (a : ArrayId) (s : State) : State :=
  match (s.arr a).st with
  | .staged | .spare => s.modArr a (fun x => { x with st := .maint, remapOf := none })
  | .mapped | .fenced => s.fwFault (tReg a.tile .arrState a.phys.val).addr
  | .fulling | .maint => s

/-- The command MAINTENANCE_START. -/
def execMaintenanceStart (a : ArrayId) (s : State) : Host.Outcome State Fault Refusal := .next (runMaintenanceStart a s)

/-! ## Maintenance remap (R134) and the pounce sweep (R424, R425) -/

/-- A maintenance remap of a MAPPED array starts: the first SPARE array of its tile is fulled with its image. Without a SPARE
array it waits (R135). -/
def State.remapStart (s : State) (a : ArrayId) : State :=
  let d := a.tile.die.val
  let busy := ((s.die d).queue ++ (s.die d).backlog ++ (s.die d).full).any (fun j => j.tile == a.tile.region && j.why == .remap a.phys.val) ||
    (List.range 64).any (fun n => let x := s.arr (arrOf a.tile n); x.st == .staged && x.remapOf == some a.phys.val)
  match s.entryNaming a.tile a.phys.val, s.sparesOf a.tile with
  | some e, n :: _ =>
    if busy then s
    else s.submitJob d ⟨a.tile.region, Fin.ofNat 64 n, (s.mapEntry a.tile e.1 e.2).2.1, 0, 0, .remap a.phys.val, 0, 0⟩
  | _, _ => s

/-- A remap that no SPARE array serves yet leaves its array at the head of the calibration queue. -/
def State.remapOrWait (s : State) (a : ArrayId) : State :=
  if (s.sparesOf a.tile).isEmpty then
    s.modDie a.tile.die.val (fun x => { x with calQueue := (a.tile.region.val, a.phys.val) :: x.calQueue.filter (· != (a.tile.region.val, a.phys.val)) })
  else s.remapStart a

/-- A STAGED array with a corrected row goes to MAINT and is refulled from the live chunk (R425). -/
def State.refullStaged (s : State) (a : ArrayId) : State :=
  let fmt := match s.imageFor a with
    | some i => i.2.2.fmt
    | none => 0
  (s.modArr a (fun x => { x with st := .maint, remapOf := none })).submitJob a.tile.die.val ⟨a.tile.region, a.phys, fmt, 0, 0, .refull, 0, 0⟩

/-- What the sweep does with a row that it could correct. -/
def State.sweepFix (s : State) (a : ArrayId) (code row : Nat) : State :=
  let d := a.tile.die.val
  let s1 := (s.bump (uReg d 0x205 .fltPounce) 0 16 1).fault code d (0x40 + a.phys.val) a.tile.region.val (a.phys.val + row * 2 ^ 8) (s.partOfDie d)
  if (s.arr a).st = .mapped then s1.remapOrWait a else s1.refullStaged a

/-- The row of a visit (R424): ascending, one every 64 µs of bowstring time. -/
def State.sweepRow (s : State) : Nat := s.bow.time / 64000 % 512

/-- One finding of the sweep (R425), on a MAPPED or STAGED array; arrays in other states are skipped. -/
def State.sweepFinding (s : State) (a : ArrayId) (f : Finding) : State :=
  let d := a.tile.die.val
  let st := (s.arr a).st
  let k := uReg d 0x205 .fltPounce
  let name := 0x40 + a.phys.val
  if st = .mapped ∨ st = .staged then
    match f with
    | .single _ => s.sweepFix a 0x2003 s.sweepRow
    | .checkCells => s.sweepFix a 0x2006 s.sweepRow
    | .uncorrectable =>
      ((s.bump k 16 8 1).fault 0x2004 d name a.tile.region.val (a.phys.val + s.sweepRow * 2 ^ 8) (s.partOfDie d)).fenceArray a 3
    | .scaleParity i =>
      let s1 := (s.bump k 24 8 1).fault 0x2005 d name a.tile.region.val (4 * s.sweepRow + i.val) (s.partOfDie d)
      let s2 := if st = .mapped then s1.setBit (tReg a.tile .arrEvents) 5 else s1
      s2.fenceArray a 5
  else s

/-- POUNCE_VISIT: once every 64 µs of bowstring time the sweep reads the next row of every MAPPED or STAGED array and acts on what it
finds (R424). -/
def runPounceVisit (findings : List (ArrayId × Finding)) (s : State) : State :=
  s.every .pounce (nextTick s.bow.time 64000) (fun s => findings.foldl (fun s f => s.sweepFinding f.1 f.2) s)

/-- The command POUNCE_VISIT. -/
def execPounceVisit (findings : List (ArrayId × Finding)) (s : State) : Host.Outcome State Fault Refusal := .next (runPounceVisit findings s)

end Sys2Proof.Machine
end

