-- ==== Sys2Proof/Machine/Bolts.lean ====
section
/-!
DEFINITION. Bolt loads (R300 to R308, R311, R312, R314, R315, R320, R370): the request of a manifest and of chunks, what an
object does when it has arrived whole, and the unloading of an adapter (R318).
-/

namespace Sys2Proof.Machine

/-! ## Requests (R303) -/

/-- Asks for a load's next chunks in ascending index while fewer than 256 objects of its source are outstanding. -/
def State.askChunks (p : Nat) : Nat → State → State
  | 0, s => s
  | n + 1, s => match (s.part p).load, (s.part p).weightSrc with
    | some l, some src => match l.bolt with
      | some b => match b.chunks[l.nextAsk]? with
        | some c =>
          if 256 ≤ s.outstanding src then s
          else State.askChunks p n ((s.fetchStart p l.boltId l.nextAsk c.len true).modPart p (fun x => { x with
            load := x.load.map (fun y => { y with nextAsk := y.nextAsk + 1 }) }))
        | none => s
      | none => s
    | _, _ => s

/-- Every load, and every child of the rack bolt tree, asks for what the source's limit lets it. -/
def State.askMore (s : State) : State := ((List.range 16).foldl (fun s p => State.askChunks p 256 s) s).fetchForChildren

/-- BOLT_LOAD_REQUEST: a load begins with the request of the manifest (R303). The length of a manifest is not known before it
arrives, and the spec names no LEN for its request. -/
def runBoltLoadRequest (p : PartIdx) (boltId : W64) (s : State) : State :=
  let v := s.draw
  if s.servingUp then v.2.fetchStart p.val boltId manifestChunk v.1 true else s

/-- The command BOLT_LOAD_REQUEST. -/
def execBoltLoadRequest (p : PartIdx) (boltId : W64) (s : State) : Host.Outcome State Fault Refusal := .next (runBoltLoadRequest p boltId s)

/-! ## The manifest (R300) -/

/-- A failed load is recorded, with LOAD (R441). -/
def State.boltFault (s : State) (p code idx detail : Nat) : State :=
  s.putFault ⟨BitVec.ofNat 16 code, faultFlags code ||| 8, some p, s.prinDie, 0x86, 0, idx % 2 ^ 24, 0, s.bow.time, detail⟩

/-- Check 3: the form, the parent of a delta, an adapter's A_P. -/
def Part.boltMatches (x : Part) (b : Bolt) : Bool :=
  (match x.form with
   | some f => f.formId == b.formId
   | none => false) &&
  (match b.kind with
   | 0 => true
   | 1 => match x.chain.getLast? with
     | some c => c.boltId == b.parentId
     | none => false
   | _ => x.curGen != 0 && x.adpPages != 0)

/-- The FREE page sets that no request has earmarked, for weights: ascending. -/
def State.poolFree (s : State) (p : Nat) : List Nat := s.freePages p

/-- The chunks of a bolt that name arrays: index and chunk. -/
def Bolt.images (b : Bolt) : List (Nat × Chunk) := (numbered b.chunks).filter (fun c => c.2.type == 1)

/-- The SPARE arrays that a delta's chunks take in their tiles, or none where a tile has too few (R320). -/
def State.deltaArrays (s : State) (x : Part) (b : Bolt) : Option (Tbl Nat ArrayId) :=
  b.images.foldl (fun acc c => match acc with
    | none => none
    | some l =>
      let t := tileAt (x.placedAt c.2.target)
      match (s.sparesOf t).find? (fun n => !l.any (fun e => e.2 == arrOf t n)) with
      | some n => some (l ++ [(c.1, arrOf t n)])
      | none => none) (some [])

/-- The arrays that a full bolt's chunks take: the loader's assignment (R311), or the lowest SPARE array that no chunk has taken
where the assigned one is not SPARE any more. -/
def State.fullArrays (s : State) (x : Part) (b : Bolt) : Tbl Nat ArrayId :=
  b.images.foldl (fun l c =>
    let t := tileAt (x.placedAt c.2.target)
    let free := (s.sparesOf t).filter (fun n => !l.any (fun e => e.2 == arrOf t n))
    match Tbl.find x.assign (c.2.target, c.2.larray) with
    | some n => if free.contains n then l ++ [(c.1, arrOf t n)] else match free.head? with
      | some m => l ++ [(c.1, arrOf t m)]
      | none => l
    | none => match free.head? with
      | some m => l ++ [(c.1, arrOf t m)]
      | none => l) []

/-- Check 5: exclusivity and capacity (R312, R315, R320). -/
def State.boltRoom (s : State) (p : Nat) (b : Bolt) : Bool :=
  let x := s.part p
  x.load.isNone &&
  (match b.kind with
   | 0 => x.job == .loaded && x.chain.isEmpty && decide (1 + b.wpages + 320 * b.adpPages ≤ x.pageCount)
   | 1 => x.held.isNone && (s.deltaArrays x b).isSome
   | _ => decide (x.adpPages ≤ (s.poolFree p).length) && !x.adapters.any (fun a => a.id == b.adapter) && !x.retired.contains b.adapter &&
      decide ((x.adapters.filter (fun a => a.state == .resident)).length < 1024))

/-- A page set that weights hold: PRIVATE, OWNER the void slot, REF 1 (R314). -/
def weightPage (x : Part) : PageSet := { PageSet.reset with state := .priv, owner := x.voidSlot, ref := 1 }

/-- The page sets of a full bolt: weights at 1 to WPAGES, adapter windows after them (R312, R314). -/
def State.takeWeightPages (s : State) (p : Nat) (b : Bolt) : State :=
  let x := s.part p
  let s1 := (List.range b.wpages).foldl (fun s i => s.setPage p (i + 1) (weightPage x)) s
  let s2 := (List.range (320 * b.adpPages)).foldl (fun s i => s.setPage p (1 + b.wpages + i) { PageSet.reset with state := .void }) s1
  s2.modPart p (fun x => { x with wpages := b.wpages, adpPages := b.adpPages })

/-- A manifest that passes every check: the load begins, and asks for its chunks. -/
def State.loadBegin (s : State) (p : Nat) (b : Bolt) : State :=
  let x := s.part p
  let l : BoltLoad := { boltId := b.boltId, bolt := some b, failures := [], verified := [], done := [], nextAsk := 0, adpSets := [], arrays := [] }
  let s1 := match b.kind with
    | 0 => (s.takeWeightPages p b).modPart p (fun y => { y with load := some { l with arrays := s.fullArrays x b } })
    | 1 => s.modPart p (fun y => { y with load := some { l with arrays := (s.deltaArrays x b).getD [] } })
    | _ =>
      let sets := (s.poolFree p).take x.adpPages
      (sets.foldl (fun s i => s.setPage p i (weightPage x)) s).modPart p (fun y => { y with
        load := some { l with adpSets := sets }, adapters := y.adapters ++ [⟨b.adapter, b.tenant, .loading, sets⟩] })
  State.askChunks p 256 s1

/-- A manifest has arrived for a load: the checks of R300 in order. -/
def State.manifestArrived (s : State) (p : Nat) (boltId : W64) (data : List Byte) : State :=
  let id := boltId.toNat
  if boltFramed data = false ∨ matrixIn s.boot.matrix 14 2 (leAt data 4 2) = false then s.boltFault p 0x6010 0 id
  else if s.boltSigned data = false then s.boltFault p 0x6011 0 id
  else
    let s1 := s.toChildren boltId manifestChunk data
    let b := parseBolt data
    let x := s1.part p
    if x.boltMatches b = false then s1.boltFault p 0x6012 0 id
    else if (headerOk data && b.chunks.all (s1.chunkOk x b) && s1.covers x b) = false then s1.boltFault p 0x6010 0 id
    else if s1.boltRoom p b = false then s1.boltFault p 0x6013 0 id
    else (s1.cacheInsert boltId manifestChunk data).loadBegin p b

/-! ## Chunks (R301, R308) -/

/-- Writes a slice into its page set. -/
def State.putSlice (s : State) (p d j page : Nat) (data : List Byte) : State := s.setBytes (s.sliceAddr (s.part p) d j page) data

/-- A chunk of a load is done. -/
def State.chunkDone (s : State) (p i : Nat) : State :=
  (s.modPart p (fun x => { x with load := x.load.map (fun l => { l with done := l.done ++ [i] }) })).loadCheck p

/-- A chunk stands in the SRAM staging area of its Brim die until the fulling controller has read it (R308). -/
def State.stageChunk (s : State) (boltId : W64) (i : Nat) (data : List Byte) : State :=
  { s with staging := Tbl.put s.staging (boltId.toNat, i) data }

/-- A verified chunk goes where its type sends it: a fulling job, a weight page set, or an adapter's page set. -/
def State.chunkPlace (s : State) (p i : Nat) (l : BoltLoad) (c : Chunk) (data : List Byte) : State :=
  match c.type with
  | 1 => match Tbl.find l.arrays i with
    | some a => (s.stageChunk l.boltId i data).submitJob a.tile.die.val ⟨a.tile.region, a.phys, c.fmt, 0, 0, .bolt p i, 0, 0⟩
    | none => s
  | 2 => (s.putSlice p c.target c.layer (c.page + 1) data).chunkDone p i
  | _ => match l.adpSets[c.page]? with
    | some page => (s.putSlice p c.target c.layer page data).chunkDone p i
    | none => s

/-- Whether a chunk's payload matches its digest. -/
def Chunk.digestOk (c : Chunk) (data : List Byte) : Bool := data.length == c.len && sha384 data == c.digest

/-- A chunk that failed its digest is requested again; its fourth failure ends the load. -/
def State.chunkFailed (s : State) (p i : Nat) (l : BoltLoad) (c : Chunk) : State :=
  let n := Tbl.get l.failures i 0 + 1
  if 4 ≤ n then (s.boltFault p 0x6014 i i).loadFail p
  else (s.modPart p (fun x => { x with load := x.load.map (fun y => { y with failures := Tbl.put y.failures i n }) })).fetchStart p l.boltId i c.len true

/-- A chunk has arrived for a load. -/
def State.chunkArrived (s : State) (p : Nat) (boltId : W64) (i : Nat) (data : List Byte) : State :=
  match (s.part p).load with
  | none => s
  | some l => match l.bolt.bind (fun b => b.chunks[i]?) with
    | none => s
    | some c =>
      if l.boltId ≠ boltId ∨ l.verified.contains i = true then s
      else if c.digestOk data = false then s.chunkFailed p i l c
      else
        let s1 := s.toChildren boltId i data
        if c.type = 1 ∧ imageLegal c.fmt data = false then (s1.boltFault p 0x6015 i i).loadFail p
        else ((s1.modPart p (fun x => { x with load := x.load.map (fun y => { y with verified := y.verified ++ [i] }) })).cacheInsert boltId i data).chunkPlace p i l c data

/-! ## Objects for repairs (R307, R436) -/

/-- The chunk table entry of an object of a partition's chain or load. -/
def Part.chunkOf (x : Part) (boltId : W64) (i : Nat) : Option Chunk :=
  ((x.chain ++ (x.load.bind (·.bolt)).toList).find? (fun b => b.boltId == boltId)).bind (fun b => b.chunks[i]?)

/-- A slice rewritten in repair hold: firmware arms the commit for the step 4 above, unless one is armed (R436). -/
def State.sliceRepaired (s : State) (p : Nat) : State :=
  let x := s.part p
  if s.servingUp = true ∧ x.repair.isSome ∧ x.repairStep.isNone = true ∧ s.fetches.any (fun f => f.part == p && !f.isLoad) = false then
    (s.armCommit p (x.stepPlus 4)).modPart p (fun y => { y with repairStep := some (y.stepPlus 4) })
  else s

/-- The jobs that wait for a chunk are given up: it cannot be had (DESIGN CHOICE, log 53). -/
def State.giveUp (s : State) (p : Nat) (boltId : W64) (i : Nat) : State :=
  (s.part p).dies.foldl (fun s d =>
    let needs (j : FulJob) : Bool := match s.jobImage d j with
      | some m => m.1 == boltId && m.2.1 == i
      | none => false
    let s1 := s.modDie d (fun x => { x with backlog := x.backlog.filter (fun j => !needs j) })
    s1.dropJobs d (fun q => q.filter (fun j => !needs j))) s

/-- An object has arrived that no load asked for: a live chunk for a refulling or a slice, whose digest has failed `fails` times. It is
checked as every chunk is (R301): asked for again where its digest fails, up to the fourth time. -/
def State.liveArrived (s : State) (p : Nat) (boltId : W64) (i fails : Nat) (data : List Byte) : State :=
  match (s.part p).chunkOf boltId i with
  | none => s.answerChildren boltId i data
  | some c =>
    if c.digestOk data = false then
      (if 4 ≤ fails + 1 then (s.boltFault p 0x6014 i i).giveUp p boltId i else s.fetchTry p boltId i c.len false (fails + 1))
    else
      let s1 := s.toChildren boltId i data
      if c.type = 1 ∧ imageLegal c.fmt data = false then (s1.boltFault p 0x6015 i i).giveUp p boltId i
      else
        let s2 := s1.cacheInsert boltId i data
        if c.type = 2 then (s2.putSlice p c.target c.layer (c.page + 1) data).sliceRepaired p
        else s2.stageChunk boltId i data

/-- An object has arrived whole. -/
def State.objectArrived (s : State) (f : Fetch) (data : List Byte) : State :=
  let s1 := { s with fetches := s.fetches.filter (fun g => !(g.part == f.part && g.boltId == f.boltId && g.chunk == f.chunk)) }
  let s2 := if f.chunk = manifestChunk then (if f.isLoad then s1.manifestArrived f.part f.boltId data else s1.answerChildren f.boltId f.chunk data)
    else if f.isLoad then s1.chunkArrived f.part f.boltId f.chunk data
    else s1.liveArrived f.part f.boltId f.chunk f.fails data
  s2.askMore

/-! ## Pieces (R370) -/

/-- Inserts a piece in ascending offset; a piece that is there already is kept. -/
def insPiece (x : Nat × List Byte) : List (Nat × List Byte) → List (Nat × List Byte)
  | [] => [x]
  | y :: r => if x.1 < y.1 then x :: y :: r else if x.1 = y.1 then y :: r else y :: insPiece x r

/-- The gaps of pieces in ascending offset, from `at'` up to `total`. -/
def pieceGaps (total : Nat) : Nat → List (Nat × List Byte) → List (Nat × Nat)
  | at', [] => if at' < total then [(at', total - at')] else []
  | at', p :: r => (if at' < p.1 then [(at', p.1 - at')] else []) ++ pieceGaps total (Nat.max at' (p.1 + p.2.length)) r

/-- The bytes of pieces in ascending offset, each from where the last one ended. -/
def joinPieces : Nat → List (Nat × List Byte) → List Byte
  | _, [] => []
  | at', p :: r => p.2.drop (at' - p.1) ++ joinPieces (Nat.max at' (p.1 + p.2.length)) r

/-- The outstanding fetch that an object answers. -/
def State.fetchFor (s : State) (kindOk : Source → Bool) (boltId : W64) (chunk : Nat) : Option Fetch :=
  s.fetches.find? (fun f => f.boltId == boltId && f.chunk == chunk && (match Tbl.find s.start.sources f.src with
    | some x => kindOk x
    | none => false))

/-- Changes an outstanding fetch. -/
def State.modFetch (s : State) (f g : Fetch) : State := { s with fetches := s.fetches.map (fun x => if x = f then g else x) }

/-- BOLT_DATA: a piece from a service-port store; the object is complete once no byte of TOTAL is missing. A piece that answers no
outstanding request is discarded. -/
def runBoltData (port : BrimDie) (boltId : W64) (chunk : W32) (offset total : Nat) (data : List Byte) (s : State) : State :=
  if s.portOn port.val then
    match s.fetchFor (fun x => x.kind == 1 && x.via == port.val) boltId chunk.toNat with
    | none => s
    | some f =>
      let g : Fetch := { f with pieces := insPiece (offset, data) f.pieces, len := total, lastAt := s.bow.time }
      if (pieceGaps total 0 g.pieces).isEmpty then s.objectArrived f (joinPieces 0 g.pieces) else s.modFetch f g
  else s

/-- The command BOLT_DATA. -/
def execBoltData (port : BrimDie) (boltId : W64) (chunk : W32) (offset total : Nat) (data : List Byte) (s : State) : Host.Outcome State Fault Refusal :=
  .next (runBoltData port boltId chunk offset total data s)

/-- BOLT_PIECE_TIMEOUT: 200 µs after an object's last piece, its missing pieces are asked for again (R370). -/
def runBoltPieceTimeout (p : PartIdx) (chunk : W32) (s : State) : State :=
  match s.fetches.find? (fun f => f.part == p.val && f.chunk == chunk.toNat && !f.pieces.isEmpty) with
  | none => s
  | some f =>
    if f.lastAt + 200000 ≤ s.bow.time then
      (pieceGaps f.len 0 f.pieces).foldl (fun s g => s.sourceAsk f.src f.boltId f.chunk g.1 g.2) (s.modFetch f { f with lastAt := s.bow.time })
    else s

/-- The command BOLT_PIECE_TIMEOUT. -/
def execBoltPieceTimeout (p : PartIdx) (chunk : W32) (s : State) : Host.Outcome State Fault Refusal := .next (runBoltPieceTimeout p chunk s)

/-- LINK_STORE_READ_RESP: a packet of an object that a link store or the parent device sends; the object is complete once every
packet of its transfer has arrived (R304, R351, R355). -/
def runLinkStoreReadResp (l : LinkIdx) (h : LinkHdr) (boltId : W64) (chunk : W32) (data : List Byte) (s : State) : State :=
  match s.groupOf l.val with
  | none => s
  | some g =>
    if g.2.store then
      match s.fetchFor (fun x => (x.kind == 0 || x.kind == 3) && x.via == g.1) boltId chunk.toNat with
      | none => s
      | some f =>
        let n : Fetch := { f with pieces := insPiece (h.offset, data) f.pieces, lastAt := s.bow.time }
        if h.packets ≤ n.pieces.length then s.objectArrived f (n.pieces.flatMap (·.2)) else s.modFetch f n
    else s

/-- The command LINK_STORE_READ_RESP. -/
def execLinkStoreReadResp (l : LinkIdx) (h : LinkHdr) (boltId : W64) (chunk : W32) (data : List Byte) (s : State) : Host.Outcome State Fault Refusal :=
  .next (runLinkStoreReadResp l h boltId chunk data s)

/-! ## Adapters (R318) -/

/-- ADAPTER_UNLOAD: from now on a SUBMIT that names it is refused; its page sets become FREE at the first commit at which no live
request names it. -/
def runAdapterUnload (p : PartIdx) (adapter : Fin 1024) (s : State) : State :=
  s.modPart p.val (fun x => { x with adapters := x.adapters.map (fun a =>
    if a.id = adapter.val ∧ (a.state = .resident ∨ a.state = .pending) then { a with state := .unloading } else a) })

/-- The command ADAPTER_UNLOAD. -/
def execAdapterUnload (p : PartIdx) (adapter : Fin 1024) (s : State) : Host.Outcome State Fault Refusal := .next (runAdapterUnload p adapter s)

end Sys2Proof.Machine
end

