-- ==== Sys2Proof/Machine/Conformer.lean ====
section
/-!
DEFINITION. The Conformer (R405 to R420): array calibrations, the calibration queue, the checks of rings, equalisers, PLLs,
sensor converters and bowstring trims, and glides.
-/

namespace Sys2Proof.Machine

/-! ## Deferral (R414) -/

/-- Whether PWR_STATUS.STATE is EMERGENCY. -/
def State.inEmergency (s : State) : Bool := s.fldOf (s.pReg 0x202 .pwrStatus) 0 1 == 1

/-- A calibration that EMERGENCY defers, at the Brim die that reports it. -/
def State.calDefer (s : State) (b : Nat) : State :=
  (s.setBit (uReg (brimIdx b) 0x204 .cnfEvents) 3).setFld (uReg (brimIdx b) 0x204 .cnfStatus) 5 1 1

/-! ## Arrays (targets 0 and 1) -/

/-- Every cell of the array holds code +1: data, checksum and ECC cells (R406). -/
def State.writeOnes (s : State) (a : ArrayId) : State :=
  s.setBytes (winAddr a) (List.replicate 0x11000 (0x55 : Byte) ++ (List.replicate 512 [(0x55 : Byte), 0x05]).flatten)

/-- ARRAY_CAL_START: a calibration starts on an array in MAINT, while no other array of the tile is in FULLING or in calibration
(R407, R408); on a MAPPED or FENCED array it is refused with a firmware fault (R129), and EMERGENCY defers it (R414). -/
def runArrayCalStart (a : ArrayId) (s : State) : State :=
  let d := a.tile.die.val
  if !(s.die d).alive then s
  else match (s.arr a).st with
    | .mapped | .fenced => s.fwFault (tReg a.tile .arrState a.phys.val).addr
    | .maint =>
      if s.inEmergency then s.calDefer (guardOf d)
      else if s.tileBusy a.tile then s
      else
        let k := (a.tile.region.val, a.phys.val)
        ((s.writeOnes a).modDie d (fun x => { x with
          calQueue := x.calQueue.filter (· != k), calRun := x.calRun ++ [⟨k.1, k.2, x.cycles, 0⟩] })).showCal d
    | .spare | .fulling | .staged => s

/-- The command ARRAY_CAL_START. -/
def execArrayCalStart (a : ArrayId) (s : State) : Host.Outcome State Fault Refusal := .next (runArrayCalStart a s)

/-- CNF_DIE_ARRAY: the last array calibrated, and whether its result was discarded. -/
def State.showLastCal (s : State) (a : ArrayId) (failed : Bool) : State :=
  s.setFld (uReg a.tile.die.val 0x206 .cnfDieArray) 0 16 (a.tile.region.val + a.phys.val * 2 ^ 9 + boolN failed * 2 ^ 15)

/-- A discarded array calibration (R415): at the third in a row the array is SUSPECT and FENCED with cause 0x06. -/
def State.arrayCalFail (s : State) (a : ArrayId) (m : ArrayCalMeasure) : State :=
  let r := s.calBad a m
  if r.1 then r.2.fenceArray a 6 else r.2.modArr a (fun x => { x with st := .spare })

/-- The end of an array's calibration (R407, R415). -/
def State.arrayCalEnd (s : State) (a : ArrayId) (c : CalRun) (m : ArrayCalMeasure) (refull : Bool) : State :=
  let d := a.tile.die.val
  let s1 := ((s.modDie d (fun x => { x with calRun := x.calRun.erase c })).showCal d).showLastCal a (!calOk m)
  if !calOk m then s1.arrayCalFail a m
  else
    let temp := sext 16 (s.fldOf (s.pReg 0x203 .thmBody d) 0 16)
    let s2 := (s1.calGood a m).modArr a (fun x => { x with calTime := s.bow.time, calTemp := temp, transients := [] })
    if refull then s2.refullStaged a else s2.modArr a (fun x => { x with st := .spare })

/-- ARRAY_CAL_COMPLETE: once the tickets of its activity and of its writes are drawn, the result is accepted or discarded and counted;
the array leaves as SPARE, as FULLING when it is refulled, or FENCED (R407, R408, R415). Until then the calibration goes on. -/
def runArrayCalComplete (a : ArrayId) (m : ArrayCalMeasure) (refull : Bool) (s : State) : State :=
  let d := a.tile.die.val
  let s1 := s.calSettle a.tile
  match (s1.die d).calRun.find? (fun c => c.region == a.tile.region.val && c.phys == a.phys.val) with
  | none => s
  | some c => if (s1.tile a.tile).fullTickets < onesTickets then s1 else (s1.drawFull a.tile onesTickets).arrayCalEnd a c m refull

/-- The command ARRAY_CAL_COMPLETE. -/
def execArrayCalComplete (a : ArrayId) (m : ArrayCalMeasure) (refull : Bool) (s : State) : Host.Outcome State Fault Refusal :=
  .next (runArrayCalComplete a m refull s)

/-! ## The queue (R412, R413) -/

/-- Nanoseconds of CNF_PERIOD.ARRAY_H. -/
def State.calPeriod (s : State) (d : Nat) : Nat := s.fldOf (uReg (brimIdx (guardOf d)) 0x204 .cnfPeriod) 0 8 * 3600000000000

/-- Whether an array is past its period. -/
def State.calDue (s : State) (a : ArrayId) : Bool := decide ((s.arr a).calTime + s.calPeriod a.tile.die.val ≤ s.bow.time)

/-- Whether an array's die reading differs by more than 15 °C from that at its last calibration. -/
def State.calDrift (s : State) (a : ArrayId) : Bool :=
  let now := sext 16 (s.fldOf (s.pReg 0x203 .thmBody a.tile.die.val) 0 16)
  decide (150 < now - (s.arr a).calTemp) || decide (150 < (s.arr a).calTemp - now)

/-- Whether an array can be taken for calibration now: a SPARE one, or a MAPPED one whose tile has a SPARE array for the remap;
its tile neither fenced nor busy. -/
def State.calTakes (s : State) (a : ArrayId) : Bool :=
  !(s.tile a.tile).fenced && !s.tileBusy a.tile &&
  (match (s.arr a).st with
   | .spare => true
   | .mapped => !(s.sparesOf a.tile).isEmpty
   | .fulling | .staged | .maint | .fenced => false)

/-- The oldest calibrated of some arrays. -/
def State.oldestCal (s : State) : List ArrayId → Option ArrayId
  | [] => none
  | a :: r => match s.oldestCal r with
    | none => some a
    | some b => if (s.arr b).calTime < (s.arr a).calTime then some b else some a

/-- The arrays of a die. -/
def arraysOf (d : Nat) : List ArrayId :=
  (List.range 512).flatMap (fun r => (List.range 64).map (fun n => arrOf (tileOf d r) n))

/-- The next array of a die to calibrate: those moved to the head of the queue, then those whose die has drifted, then those past
their period, each group oldest calibration first; one that must wait does not delay another tile's. -/
def State.calNext (s : State) (d : Nat) : Option ArrayId :=
  let head := ((s.die d).calQueue.map (fun k => arrOf (tileOf d k.1) k.2)).find? s.calTakes
  match head with
  | some a => some a
  | none => match s.oldestCal ((arraysOf d).filter (fun a => s.calDrift a && s.calTakes a)) with
    | some a => some a
    | none => s.oldestCal ((arraysOf d).filter (fun a => s.calDue a && s.calTakes a))

/-- CAL_QUEUE_DISPATCH: the oldest queued array starts, a MAPPED one by its maintenance remap (R134, R413). -/
def runCalQueueDispatch (d : BodyDie) (s : State) : State :=
  if !(s.die d.val).alive then s
  else if s.inEmergency then s.calDefer (guardOf d.val)
  else match s.calNext d.val with
    | none => s
    | some a =>
      if (s.arr a).st = .mapped then s.remapStart a
      else s.modArr a (fun x => { x with st := .maint, remapOf := none })

/-- The command CAL_QUEUE_DISPATCH. -/
def execCalQueueDispatch (d : BodyDie) (s : State) : Host.Outcome State Fault Refusal := .next (runCalQueueDispatch d s)

/-! ## Lanes (targets 2 and 3) -/

/-- A discarded result of a lane's unit: at the third in a row the lane is taken down and retrains, and its count restarts. -/
def State.laneCalFail (s : State) (u : CalUnit) (l n : Nat) : State :=
  let r := s.calReject u
  if r.1 then ((r.2.modCal u (fun x => { x with fails := 0 })).laneDark l n).trainLane l n else r.2

/-- RING_HEATER_CAL: every 10 µs the drive found, in 1/1,000 of the heater's range, is accepted within 2 % to 98 % (R406, R412). -/
def runRingHeaterCal (l : LinkIdx) (n : LaneIdx) (drive : Nat) (s : State) : State :=
  if s.lit l.val then
    s.every (.cal (.ring l n)) (nextTick s.bow.time 10000) (fun s =>
      if 20 ≤ drive ∧ drive ≤ 980 then s.calAccept (.ring l n) [(drive : Nat)] else s.laneCalFail (.ring l n) l.val n.val)
  else s

/-- The command RING_HEATER_CAL. -/
def execRingHeaterCal (l : LinkIdx) (n : LaneIdx) (drive : Nat) (s : State) : Host.Outcome State Fault Refusal := .next (runRingHeaterCal l n drive s)

/-- EQUALISER_CAL: every 1 ms taps are accepted where the measured eye is at least 30 % of the level spacing (R406, R412). -/
def runEqualiserCal (l : LinkIdx) (n : LaneIdx) (eye : Nat) (taps : List Nat) (s : State) : State :=
  if (s.lane l.val n.val).trained && s.due (.cal (.equaliser l n)) then
    if s.inEmergency then s.calDefer (l.val / 12)
    else s.every (.cal (.equaliser l n)) (nextTick s.bow.time 1000000) (fun s =>
      if 30 ≤ eye then s.calAccept (.equaliser l n) (taps.map (fun (t : Nat) => (t : Int)))
      else s.laneCalFail (.equaliser l n) l.val n.val)
  else s

/-- The command EQUALISER_CAL. -/
def execEqualiserCal (l : LinkIdx) (n : LaneIdx) (eye : Nat) (taps : List Nat) (s : State) : Host.Outcome State Fault Refusal := .next (runEqualiserCal l n eye taps s)

/-! ## PLLs (target 4) -/

/-- The cycles of a PLL in 50,000 crystal cycles, 1 ms (R206). -/
def pllNominal : Pll → Nat
  | .fabric _ => 1000000
  | .mesh _ => 1500000
  | .controlCore _ => 1200000
  | .sensor _ => 40000
  | .linkPhy _ => Config.pllNominal 0
  | .crownIf _ => Config.pllNominal 1
  | .pcie => Config.pllNominal 2
  | .ethernet _ => Config.pllNominal 3

/-- The die of a PLL. -/
def State.pllDie (s : State) : Pll → Nat
  | .fabric d | .mesh d => d.val
  | .controlCore b | .ethernet b | .sensor b => brimIdx b.val
  | .linkPhy l => brimIdx (l.val / 12)
  | .crownIf c => crownIdx c.val
  | .pcie => s.prinDie

/-- FABRIC_OK or MESH_OK of a Body die, and a failed count in MISMATCHES. -/
def State.showPll (s : State) (pll : Pll) (ok : Bool) : State :=
  let put (d i : Nat) : State :=
    let s1 := s.setFld (uReg d 0x206 .cnfDiePll) i 1 (boolN ok)
    if ok then s1 else s1.bump (uReg d 0x206 .cnfDiePll) 8 8 1
  match pll with
  | .fabric d => put d.val 0
  | .mesh d => put d.val 1
  | .controlCore _ | .linkPhy _ | .crownIf _ | .pcie | .ethernet _ | .sensor _ => s

/-- What a failed check does to its unit (R417): a fabric or mesh PLL records a firmware fault and ends the job of its die's
partition; a link's lanes and a port go down. -/
def State.pllLost (s : State) (pll : Pll) : State :=
  let d := s.pllDie pll
  let s1 : State := if s.pllDown pll then s else { s with conf := { s.conf with pllBad := s.conf.pllBad ++ [pll] } }
  match pll with
  | .fabric _ | .mesh _ => (s1.fwFault (uReg d 0x206 .cnfDiePll).addr).jobEndOn d
  | .linkPhy l => (List.range 4).foldl (fun s n => s.laneDark l.val n) s1
  | .ethernet b => s1.showPort b.val
  | .controlCore _ | .crownIf _ | .pcie | .sensor _ => s1

/-- A count of a PLL: accepted within 1 of the nominal one, else counted as a failure that takes its unit out (R406, R415, R417). -/
def State.pllChecked (s : State) (pll : Pll) (count : Nat) : State :=
  let nom := pllNominal pll
  if nom ≤ count + 1 ∧ count ≤ nom + 1 then
    ({ s with conf := { s.conf with pllFails := Tbl.del s.conf.pllFails pll } }).showPll pll true
  else
    let n := Tbl.get s.conf.pllFails pll 0 + 1
    let s1 : State := { s with conf := { s.conf with pllFails := Tbl.put s.conf.pllFails pll n } }
    ((s1.calFail (guardOf (s.pllDie pll)) 4 (s.pllDie pll) 0 n).showPll pll false).pllLost pll

/-- PLL_COUNT_CHECK: the check of every second; EMERGENCY defers it (R412, R414). -/
def runPllCountCheck (pll : Pll) (count : Nat) (s : State) : State :=
  if (s.die (s.pllDie pll)).alive && s.due (.pll pll) then
    if s.inEmergency then s.calDefer (guardOf (s.pllDie pll))
    else s.every (.pll pll) (nextTick s.bow.time 1000000000) (fun s => s.pllChecked pll count)
  else s

/-- The command PLL_COUNT_CHECK. -/
def execPllCountCheck (pll : Pll) (count : Nat) (s : State) : Host.Outcome State Fault Refusal := .next (runPllCountCheck pll count s)

/-- Whether the unit of a PLL is idle: for a fabric or mesh PLL, its partition runs no job. -/
def State.pllIdle (s : State) (pll : Pll) : Bool :=
  match pll with
  | .fabric d | .mesh d => match s.partOfDie d.val with
    | some p => (s.part p).job != .running
    | none => true
  | .controlCore _ | .linkPhy _ | .crownIf _ | .pcie | .ethernet _ | .sensor _ => true

/-- PLL_RECALIBRATION: a PLL whose check failed is recalibrated, and its unit resumes (R417); EMERGENCY defers it (R414). -/
def runPllRecalibration (pll : Pll) (s : State) : State :=
  if s.pllDown pll && s.inEmergency then s.calDefer (guardOf (s.pllDie pll))
  else if s.pllDown pll && s.pllIdle pll then
    let s1 : State := { s with conf := { s.conf with pllBad := s.conf.pllBad.filter (· != pll), pllFails := Tbl.del s.conf.pllFails pll } }
    let s2 := s1.showPll pll true
    match pll with
    | .linkPhy l => (List.range 4).foldl (fun s n => s.trainLane l.val n) s2
    | .ethernet b => s2.showPort b.val
    | .fabric _ | .mesh _ | .controlCore _ | .crownIf _ | .pcie | .sensor _ => s2
  else s

/-- The command PLL_RECALIBRATION. -/
def execPllRecalibration (pll : Pll) (s : State) : Host.Outcome State Fault Refusal := .next (runPllRecalibration pll s)

/-! ## Sensors and bowstring trims (targets 5 and 7) -/

/-- The gain trim that corrects a measured gain, both in units of 1/2,048: to the nearest. -/
def gainTrim (g : Int) : Int := if 2048 + g ≤ 0 then 0 else nearest (2048 * 2048) (2048 + g) - 2048

/-- SENSOR_CAL: raw offset, in LSB, within 16 and raw gain error, in units of 1/2,048, within 3 % (R406); deferred while any
sequence runs its fast table (R412). The third discarded result in a row makes the converter SUSPECT (R415). -/
def runSensorCal (b : BrimDie) (rawOffset rawGain : Int) (s : State) : State :=
  let fast := (List.range 4).any (fun q => s.fldOf (snsReg b.val .snsStatus) q 1 == 1)
  let u := CalUnit.sensor b
  if (s.die (brimIdx b.val)).alive = false ∨ fast = true then s
  else s.every (.cal u) (nextTick s.bow.time (s.fldOf (uReg (brimIdx b.val) 0x204 .cnfPeriod) 8 8 * 1000000000)) (fun s => if -16 ≤ rawOffset ∧ rawOffset ≤ 16 ∧ -6144 ≤ 100 * rawGain ∧ 100 * rawGain ≤ 6144 then
    (s.modSensor b.val (fun x => { x with suspect := false })).calAccept u [rawOffset, gainTrim rawGain]
  else
    let r := s.calReject u
    if r.1 then
      ((r.2.modSensor b.val (fun x => { x with suspect := true })).fwFault (snsReg b.val .snsTrim).addr).noteAbove.showThermal
    else r.2)

/-- The command SENSOR_CAL. -/
def execSensorCal (b : BrimDie) (rawOffset rawGain : Int) (s : State) : Host.Outcome State Fault Refusal := .next (runSensorCal b rawOffset rawGain s)

/-- BOWTRIM_CAL: every second the round trips of dies 0 to 39 in steps of 31.25 ps (R409, R412). -/
def runBowtrimCal (rt : List Nat) (s : State) : State :=
  s.every .bowtrim (nextTick s.bow.time 1000000000) (fun s => s.bowTrims ((List.finRange 40).filterMap (fun d => (rt[d.val]?).map (fun v => (d, v)))))

/-- The command BOWTRIM_CAL. -/
def execBowtrimCal (rt : List Nat) (s : State) : Host.Outcome State Fault Refusal := .next (runBowtrimCal rt s)

/-- When a unit's glide has its next step (R419): the next interval of 10 µs or of 1 ms, or the next slot. A converter's follows its
sequence passes, which the next 20 µs tick starts at the earliest. -/
def State.glideNext (s : State) : CalUnit → Nat
  | .ring _ _ => nextTick s.bow.time 10000
  | .equaliser _ _ => nextTick s.bow.time 1000000
  | .sensor _ => nextTick s.bow.time 20000
  | .bowtrim _ => s.bow.time + 16

/-- GLIDE_STEP: one step of a unit's glide (R419). -/
def runGlideStep (u : CalUnit) (s : State) : State :=
  if s.glides u && !(s.cal u).accepted.isEmpty && s.applied u != (s.cal u).accepted then
    s.every (.glide u) (s.glideNext u) (fun s => s.apply u (s.stepped u))
  else s

/-- The command GLIDE_STEP. -/
def execGlideStep (u : CalUnit) (s : State) : Host.Outcome State Fault Refusal := .next (runGlideStep u s)

end Sys2Proof.Machine
end

