-- ==== Sys2Proof/Machine/Counters.lean ====
section
/-!
DEFINITION. The performance counters' commands (18_counters.md): event selection (R512, R513), overflow (R511) and the
forerunner-compatible reader (R517, R518, R520).
-/

namespace Sys2Proof.Machine

/-- COUNTER_SELECT_WRITE: a counter's event selection, dropped for an event that its set does not count (R512, R513). -/
def runCounterSelectWrite (port : Port) (addr : DevAddr) (data : W32) (s : State) : State :=
  s.regWriteAt port [.ctrSel] addr.toNat data.toNat

/-- The command COUNTER_SELECT_WRITE. -/
def execCounterSelectWrite (port : Port) (addr : DevAddr) (data : W32) (s : State) : Host.Outcome State Fault Refusal := .next (runCounterSelectWrite port addr data s)

/-- COUNTER_WRAP: counter `n` of the set at an address counts the events of one fabric cycle; a sum beyond 2⁴⁸ − 1 wraps
and sets its OVF bit (R511). -/
def runCounterWrap (addr : DevAddr) (n : Fin 8) (events : Fin 11) (s : State) : State :=
  let d := addrDie addr.toNat
  let r := addrRegion addr.toNat
  if RUnit.ctr.base d r = none ∨ bit (s.regN (uReg d r .ctrSel n.val)) 8 = false then s
  else s.ctrAdd d r n.val events.val

/-- The command COUNTER_WRAP. -/
def execCounterWrap (addr : DevAddr) (n : Fin 8) (events : Fin 11) (s : State) : Host.Outcome State Fault Refusal := .next (runCounterWrap addr n events s)

/-- READER_ARM: ARM makes the reader capture the next FREEZE (R517); refused while ARMED or READING (R520). -/
def runReaderArm (port : Port) (data : W32) (s : State) : State :=
  let k := s.pReg 0x20E .ctrRdCtrl
  s.guardedWrite port k data.toNat (fun s =>
    let s1 := s.storeReg k data.toNat
    if bit data.toNat 0 then s1.setFld (s1.pReg 0x20E .ctrRdStatus) 0 2 1 else s1)

/-- The command READER_ARM. -/
def execReaderArm (port : Port) (data : W32) (s : State) : Host.Outcome State Fault Refusal := .next (runReaderArm port data s)

/-- A latched register: the shadow of a count. -/
def State.shadowOf (s : State) (k : RegKey) : Nat := (Tbl.get s.shadow k 0).toNat

/-- The shadow of counter `n` of a set. -/
def State.shadowCount (s : State) (d r n : Nat) : Nat :=
  s.shadowOf (uReg d r .ctrValLo n) + 2 ^ 32 * s.shadowOf (uReg d r .ctrValHi n)

/-- The 48-byte record of a counter set (R518), from its list entry. -/
def State.snapRecord (s : State) (entry : Nat) : List Byte :=
  let d := fld entry 0 6
  let r := fld entry 6 10
  let c := (List.range 8).map (s.shadowCount d r)
  let trunc := ((List.range 8).zip c).foldl (fun a e => a + boolN (decide (2 ^ 32 ≤ e.2)) * 2 ^ e.1) 0
  leBytes 4 (entry % 2 ^ 16) ++ leBytes 4 (s.fldOf (uReg d r .ctrStatus) 8 8 + trunc * 2 ^ 8) ++
  leBytes 8 (s.die d).shCycles ++ (c.map (leBytes 4)).flatten

/-- The snapshot (R518): its header and a record for each list entry. -/
def State.snapshot (s : State) : List Byte :=
  let n := s.fldOf (s.pReg 0x20E .ctrRdCount) 0 9
  let recs := (List.range n).map (fun j => s.snapRecord (s.fldOf (s.pReg 0x20E .ctrRdList j) 0 16))
  let trunc := recs.any (fun b => leAt b 4 4 / 2 ^ 8 % 2 ^ 8 != 0)
  leBytes 4 0x50534F41 ++ leBytes 2 3 ++ leBytes 2 n ++
  leBytes 8 (s.pair (s.pReg 0x201 .bowFreezeLastLo) (s.pReg 0x201 .bowFreezeLastHi)) ++
  leBytes 4 (s.bow.readSeq + 1) ++ leBytes 4 (boolN trunc) ++ leBytes 8 0 ++ recs.flatten

/-- READER_DONE: the snapshot is in the principal's SRAM, and a delayed THAW is sent (R517). -/
def runReaderDone (s : State) : State :=
  let k := s.pReg 0x20E .ctrRdStatus
  if s.fldOf k 0 2 = 2 then
    let s1 := s.setBytes (mkAddr s.prinDie 0 (s.fldOf (s.pReg 0x20E .ctrRdBuf) 6 19 * 64)) s.snapshot
    let s2 := { s1 with bow := { s1.bow with readSeq := s1.bow.readSeq + 1, thawWaits := false } }
    let s3 := (s2.setFld k 0 2 3).setFld k 16 16 s2.bow.readSeq
    if s1.bow.thawWaits then s3.bowSend .thaw else s3
  else s

/-- The command READER_DONE. -/
def execReaderDone (s : State) : Host.Outcome State Fault Refusal := .next (runReaderDone s)

end Sys2Proof.Machine
end

