-- ==== Sys2Proof/Machine/Firmware.lean ====
section
/-!
DEFINITION. Firmware in service (R461 to R469, R434): the watchdog, component restarts, updates and their confirmation, the
owner hash, and the fence map in flash.
-/

namespace Sys2Proof.Machine

/-! ## Components (R462, R464) -/

/-- Whether the supervisor is DOWN (R464). -/
def State.degraded (s : State) : Bool := s.fldOf (s.pReg 0x200 .bootStatus) 22 1 == 1

/-- BOOT_UPD_STATUS. -/
def State.updState (s : State) (st reason : Nat) : State :=
  s.setReg (s.pReg 0x200 .bootUpdStatus) (BitVec.ofNat 32 (st + reason * 2 ^ 8))

/-- BOOT_UPD_STATUS.STATE. -/
def State.updIs (s : State) : Nat := s.fldOf (s.pReg 0x200 .bootUpdStatus) 0 3

/-- Every replaced component returns to its old image, the directory names the old set, and the update fails (R467,
R468). -/
def State.rollBack (s : State) : State :=
  let d := s.directory.1
  let s1 := if s.updIs = 6 then s.writeDir { d with active := s.boot.oldBank, trial := false, tried := false } else s
  let s2 : State := { s1 with boot := { s1.boot with
    bank := if s1.updIs = 6 then s1.boot.oldBank else s1.boot.bank, matrix := if s1.updIs = 6 then s1.boot.newMatrix else s1.boot.matrix, replaced := [] } }
  ((s2.bootFld 16 1 (boolN s2.boot.bank)).bootFld 19 1 0).updState 7 5

/-- A component is DOWN: without the power steward the device runs under the emergency pattern (R462). -/
def State.compDown (s : State) (c : Nat) : State :=
  let s1 := s.setFld (s.pReg 0x200 .bootComp) (2 * c - 2) 2 2
  if c = 4 then s1.raiseEmergency 2 else s1

/-- A component is restarted, or stays DOWN once it has been restarted 3 times within 60 s (R462). A restart during a
trial rolls the update back (R468). The supervisor's own failure waits for its watchdog. -/
def State.compRestart (s : State) (c : Nat) : State :=
  if s.boot.running = false ∨ c = 1 ∨ 2 ≤ s.compState c then s
  else if s.degraded then s.compDown c
  else
    let recent := (Tbl.get s.boot.compTimes c []).filter (fun t => decide (s.bow.time < t + 60000000000))
    if 3 ≤ recent.length then s.compDown c
    else
      let s1 : State := { s with boot := { s.boot with compTimes := Tbl.put s.boot.compTimes c (recent ++ [s.bow.time]), restarted := true } }
      let s2 := (s1.bump (s1.pReg 0x200 .bootComp) 16 8 1).fault 0x6002 s1.prinDie 0x87 0x200 c
      if s2.updIs = 6 then s2.rollBack else s2

/-- WATCHDOG_KICK (R464). -/
def runWatchdogKick (port : Port) (data : W32) (s : State) : State :=
  s.guardedWrite port (s.pReg 0x200 .bootWdog) data.toNat (fun s =>
    if bit data.toNat 0 then { s with boot := { s.boot with wdogKick := s.bow.time } } else s)

/-- The command WATCHDOG_KICK. -/
def execWatchdogKick (port : Port) (data : W32) (s : State) : Host.Outcome State Fault Refusal := .next (runWatchdogKick port data s)

/-- WATCHDOG_EXPIRY: the ROM restarts the supervisor alone; after 3 expiries within 60 s it is DOWN (R464). -/
def runWatchdogExpiry (s : State) : State :=
  if s.boot.running = true ∧ s.degraded = false ∧ s.boot.wdogKick + 1000000000 ≤ s.bow.time then
    let recent := s.boot.expiries.filter (fun t => decide (s.bow.time < t + 60000000000)) ++ [s.bow.time]
    let s1 := (s.bump (s.pReg 0x200 .bootWdog) 8 8 1)
    let s2 : State := { s1 with boot := { s1.boot with expiries := recent, wdogKick := s1.bow.time, restarted := true } }
    let s3 := if s2.updIs = 6 then s2.rollBack else s2
    if 3 ≤ recent.length then (s3.bootFld 22 1 1).setFld (s3.pReg 0x200 .bootComp) 0 2 2 else s3
  else s

/-- The command WATCHDOG_EXPIRY. -/
def execWatchdogExpiry (s : State) : Host.Outcome State Fault Refusal := .next (runWatchdogExpiry s)

/-- COMPONENT_FAULT: a protection fault or an exception of a component (R462), one that a blocked access has left (R461) among them. -/
def runComponentFault (c : Component) (s : State) : State :=
  State.compRestart { s with boot := { s.boot with protFaults := s.boot.protFaults.erase c.id } } c.id

/-- The command COMPONENT_FAULT. -/
def execComponentFault (c : Component) (s : State) : Host.Outcome State Fault Refusal := .next (runComponentFault c s)

/-- COMPONENT_HEARTBEAT_STALE: a component whose heartbeat is older than 50 ms (R462). -/
def runComponentHeartbeatStale (c : Component) (s : State) : State := s.compRestart c.id

/-- The command COMPONENT_HEARTBEAT_STALE. -/
def execComponentHeartbeatStale (c : Component) (s : State) : Host.Outcome State Fault Refusal := .next (runComponentHeartbeatStale c s)

/-! ## Updates (R465 to R468) -/

/-- Whether a firmware set may be staged: REASON of the failure, 0 for none. -/
def State.stageFirmware (s : State) (img : List Byte) : Nat :=
  let m := img.take (manifestLen (leAt img 7 1))
  let x := manifestMatrix m
  if !s.manifestOk m then 1
  else if !s.matrixRom x || !matrixIn x 6 2 1 || s.parts.any (fun e => match e.2.form with
      | some f => !matrixIn x 10 2 f.fmtVersion
      | none => false) then 2
  else if !digestsOk (fun o n => sliceB img o n) m then 3 else 0

/-- Whether a start record may be staged: REASON of the failure, 0 for none. -/
def State.stageRecord (s : State) (img : List Byte) : Nat :=
  let n := leAt img 8 4
  let b := img.take n
  let any := s.boot.matrix.take 6 ++ leBytes 2 0 ++ leBytes 2 0xFFFF ++ s.boot.matrix.drop 10
  if !s.srOk b any then 1
  else if !matrixIn s.boot.matrix 6 2 (leAt b 4 2) then 2
  else if !srCheck (srEntries (leAt b 6 2) (b.drop 64)) then 3 else 0

/-- The image of a stage: fetched from a source entry, or in the update buffer (R465). -/
def State.updImage (s : State) (d : Nat) (fetched : List Byte) : List Byte :=
  if bit d 3 then (if (Tbl.find s.start.sources (fld d 4 8)).isSome then fetched else [])
  else s.bytes (mkAddr s.prinDie 0 (s.fldOf (s.pReg 0x200 .bootUpdAddr) 6 20 * 64)) (s.fldOf (s.pReg 0x200 .bootUpdLen) 0 25)

/-- Whether a stage or an activation is in progress. -/
def State.updBusy (s : State) : Bool := [1, 2, 4, 5].contains s.updIs

/-- OP 1: verify, write to the alternate bank or slot, read back; a start record also enters the directory as a trial
(R465, R466). -/
def State.updStage (s : State) (d : Nat) (fetched : List Byte) (writeOk : Bool) : State :=
  if s.updBusy then s.setFld (s.pReg 0x200 .bootUpdStatus) 8 8 7
  else
    let img := s.updImage d fetched
    let kind := bit d 2
    let why := if kind then s.stageRecord img else s.stageFirmware img
    if why ≠ 0 then s.updState 7 why
    else if !writeOk then s.updState 7 4
    else if kind then
      let s1 := s.flashPut (slotBase (!s.boot.slot)) (img.take (leAt img 8 4))
      let s2 := s1.writeDir { s1.directory.1 with activeSr := !s.boot.slot, trial := true, tried := false }
      ({ s2 with boot := { s2.boot with updKind := true } } : State).updState 3 0
    else
      let s1 := s.flashPut (bankBase (!s.boot.bank)) img
      ({ s1 with boot := { s1.boot with updKind := false, newMatrix := manifestMatrix img } } : State).updState 3 0

/-- Whether an open host session lies outside a set's window (R456, R466). -/
def State.hostOutside (s : State) (x : List Byte) : Bool :=
  let v := s.regN (s.pReg 0x20C .hifSessionVer)
  let st := s.fldOf (s.pReg 0x20C .hifStatus) 6 2
  (st == 1 || st == 2) && !matrixIn x 18 4 v

/-- OP 2: activation waits in DEFERRED for the quiescent point (R466). With no staged firmware set it does nothing. -/
def State.updActivate (s : State) : State :=
  if s.updBusy then s.setFld (s.pReg 0x200 .bootUpdStatus) 8 8 7
  else if s.updIs ≠ 3 ∨ s.boot.updKind = true then s
  else if s.hostOutside s.boot.newMatrix then s.setFld (s.pReg 0x200 .bootUpdStatus) 8 8 6
  else s.updState 4 0

/-- OP 3: a stage or a deferred activation is aborted (R465). -/
def State.updAbort (s : State) : State := if s.updIs = 3 ∨ s.updIs = 4 then s.updState 0 0 else s

/-- A write of BOOT_UPD_CMD. -/
def State.updCmd (s : State) (port : Port) (data : W32) (fetched : List Byte) (writeOk : Bool) : State :=
  let d := data.toNat
  s.guardedWrite port (s.pReg 0x200 .bootUpdCmd) d (fun s =>
    if fld d 0 2 = 1 then s.updStage d fetched writeOk
    else if fld d 0 2 = 2 then s.updActivate
    else if fld d 0 2 = 3 then s.updAbort else s)

/-- UPDATE_STAGE (R465). -/
def runUpdateStage (port : Port) (data : W32) (fetched : List Byte) (writeOk : Bool) (s : State) : State := s.updCmd port data fetched writeOk

/-- The command UPDATE_STAGE. -/
def execUpdateStage (port : Port) (data : W32) (fetched : List Byte) (writeOk : Bool) (s : State) : Host.Outcome State Fault Refusal := .next (runUpdateStage port data fetched writeOk s)

/-- UPDATE_ACTIVATE (R466). -/
def runUpdateActivate (port : Port) (data : W32) (s : State) : State := s.updCmd port data [] true

/-- The command UPDATE_ACTIVATE. -/
def execUpdateActivate (port : Port) (data : W32) (s : State) : Host.Outcome State Fault Refusal := .next (runUpdateActivate port data s)

/-- UPDATE_ABORT (R465). -/
def runUpdateAbort (port : Port) (data : W32) (s : State) : State := s.updCmd port data [] true

/-- The command UPDATE_ABORT. -/
def execUpdateAbort (port : Port) (data : W32) (s : State) : Host.Outcome State Fault Refusal := .next (runUpdateAbort port data s)

/-- Whether a map commit is armed on any die of any partition. -/
def State.anyArmed (s : State) : Bool := (List.range 32).any (fun d => s.fldOf (uReg d 0x202 .fulCommitCtrl) 0 1 == 1)

/-- The quiescent point of R466. -/
def State.quiescent (s : State) : Bool :=
  s.parts.all (fun e => e.2.load.isNone && e.2.repair.isNone) && !s.anyArmed &&
    s.fldOf (s.pReg 0x202 .pwrStatus) 0 1 == 0 && !(s.die s.prinDie).emerg &&
    (s.steward.normalAt == 0 || decide (s.steward.normalAt + 10000000000 ≤ s.bow.time))

/-- One component is replaced with its new image, through the restart sequence (R466). -/
def State.compReplace (s : State) (c : Nat) : State :=
  let s1 := (s.bump (s.pReg 0x200 .bootComp) 16 8 1).fault 0x6002 s.prinDie 0x87 0x200 c
  { s1 with boot := { s1.boot with replaced := s1.boot.replaced ++ [c] } }

/-- The order in which an activation replaces the components (R466). -/
def updOrder : List Nat := [6, 5, 3, 2, 4, 1]

/-- Every component is replaced: the directory names the new set, which runs on trial (R468). -/
def State.updDone (s : State) : State :=
  let nb := !s.boot.bank
  let s1 := s.writeDir { s.directory.1 with active := nb, trial := true, tried := true }
  let s2 : State := { s1 with boot := { s1.boot with
    oldBank := s.boot.bank, bank := nb, matrix := s.boot.newMatrix, newMatrix := s.boot.matrix, updStart := s.bow.time } }
  ((s2.bootFld 16 1 (boolN nb)).bootFld 19 1 1).updState 6 0

/-- UPDATE_QUIESCENT_POINT: at the quiescent point the next component is replaced, in the fixed order; once it is lost the rest wait for it
again (R466, R467). -/
def runUpdateQuiescentPoint (s : State) : State :=
  if (s.updIs = 4 ∨ s.updIs = 5) ∧ s.quiescent = true then
    match updOrder.filter (fun c => !s.boot.replaced.contains c) with
    | [] => s
    | c :: r =>
      let s1 := (s.updState 5 0).compReplace c
      if r.isEmpty then s1.updDone else s1
  else s

/-- The command UPDATE_QUIESCENT_POINT. -/
def execUpdateQuiescentPoint (s : State) : Host.Outcome State Fault Refusal := .next (runUpdateQuiescentPoint s)

/-- UPDATE_HEARTBEAT_TIMEOUT: a new component that does not heartbeat rolls the update back (R467). -/
def runUpdateHeartbeatTimeout (c : Component) (s : State) : State :=
  if (s.updIs = 5 ∨ s.updIs = 6) ∧ s.boot.replaced.contains c.id = true then s.rollBack else s

/-- The command UPDATE_HEARTBEAT_TIMEOUT. -/
def execUpdateHeartbeatTimeout (c : Component) (s : State) : Host.Outcome State Fault Refusal := .next (runUpdateHeartbeatTimeout c s)

/-- FIRMWARE_TRIAL_CONFIRM: after 60 s without a restart the running pair is the last known-good one (R468). -/
def runFirmwareTrialConfirm (s : State) : State :=
  if s.updIs = 6 ∧ s.boot.updStart + 60000000000 ≤ s.bow.time then
    let d := s.directory.1
    let s1 := s.writeDir { d with lkgBank := d.active, lkgSr := d.activeSr, trial := false }
    (({ s1 with boot := { s1.boot with replaced := [] } } : State).bootFld 19 1 0).updState 0 0
  else s

/-- The command FIRMWARE_TRIAL_CONFIRM. -/
def execFirmwareTrialConfirm (s : State) : Host.Outcome State Fault Refusal := .next (runFirmwareTrialConfirm s)

/-- START_RECORD_TRIAL_CONFIRM: 60 s after the supervisor started, with no restart and no check failure (R466). -/
def runStartRecordTrialConfirm (s : State) : State :=
  let d := s.directory.1
  if s.boot.running = true ∧ s.fldOf (s.pReg 0x200 .bootStatus) 19 1 = 1 ∧ s.updIs ≠ 6 ∧ d.trial = true ∧ s.boot.restarted = false ∧
      s.boot.checkFail = false ∧ s.boot.superAt + 60000000000 ≤ s.bow.time then
    (s.writeDir { d with lkgBank := d.active, lkgSr := d.activeSr, trial := false, tried := false }).bootFld 19 1 0
  else s

/-- The command START_RECORD_TRIAL_CONFIRM. -/
def execStartRecordTrialConfirm (s : State) : Host.Outcome State Fault Refusal := .next (runStartRecordTrialConfirm s)

/-! ## The owner (R469) -/

/-- OWNER_HASH_WRITE: part of the owner hash, while OWNER_SET is 0. -/
def runOwnerHashWrite (port : Port) (k : Fin 12) (data : W32) (s : State) : State :=
  let key := s.pReg 0x200 .bootOwner k.val
  s.guardedWrite port key data.toNat (fun s => if s.fuses.ownerSet then s.fwFault key.addr else s.storeReg key data.toNat)

/-- The command OWNER_HASH_WRITE. -/
def execOwnerHashWrite (port : Port) (k : Fin 12) (data : W32) (s : State) : Host.Outcome State Fault Refusal := .next (runOwnerHashWrite port k data s)

/-- OWNER_BURN: fuses the owner hash and sets OWNER_SET, once. -/
def runOwnerBurn (port : Port) (data : W32) (s : State) : State :=
  let key := s.pReg 0x200 .bootOwnerBurn
  s.guardedWrite port key data.toNat (fun s =>
    if s.fuses.ownerSet then s.fwFault key.addr
    else if bit data.toNat 0 then
      let s1 := s.storeReg key data.toNat
      { s1 with fuses := { s1.fuses with ownerSet := true, owner := (List.range 12).map (fun k => s1.reg (s1.pReg 0x200 .bootOwner k)) } }
    else s)

/-- The command OWNER_BURN. -/
def execOwnerBurn (port : Port) (data : W32) (s : State) : Host.Outcome State Fault Refusal := .next (runOwnerBurn port data s)

/-! ## The fence map (R434, R448) -/

/-- FENCE_MAP_WRITE: the fences made in service reach the fence map in flash. -/
def runFenceMapWrite (s : State) : State := if s.boot.running then s.writeFences else s

/-- The command FENCE_MAP_WRITE. -/
def execFenceMapWrite (s : State) : Host.Outcome State Fault Refusal := .next (runFenceMapWrite s)

end Sys2Proof.Machine
end

