-- ==== Sys2Proof/Machine/Sampling.lean ====
section
/-!
DEFINITION. The choice of a token (R254, R255) and the drafts of prompt lookup (R257).
-/

namespace Sys2Proof.Machine

/-! ## Candidates and binary32 arithmetic (R254) -/

/-- A candidate: its token ID and its value. -/
structure TokCand where
  id : Nat
  v  : FV
  deriving DecidableEq, Repr

/-- Rank order: value descending, then vocabulary index ascending, −0 equal to +0. -/
def TokCand.before (a b : TokCand) : Bool :=
  match FV.cmp a.v b.v with
  | .gt => true
  | .lt => false
  | .eq => decide (a.id < b.id)

/-- Inserts a candidate in rank order. -/
def insCand (x : TokCand) : List TokCand → List TokCand
  | [] => [x]
  | y :: r => if x.before y then x :: y :: r else y :: insCand x r

/-- The `n` highest of some candidates, in rank order. -/
def topCands (n : Nat) (l : List TokCand) : List TokCand := l.foldl (fun acc x => (insCand x acc).take n) []

/-- A value rounded once to binary32. -/
def b32 (x : FV) : FV := FFmt.b32.decode (FFmt.b32.encode x)

/-- A quotient rounded once to binary32, as IEEE 754 divides. -/
def b32Div (a b : FV) : FV :=
  match a, b with
  | .inf x, .fin y _ _ => .inf (x != y)
  | .fin x _ _, .inf y => .fin (x != y) 0 0
  | .fin x m e, .fin y n g =>
    if n = 0 then .nan
    else b32 (.fin (x != y) (2 * (m * 2 ^ 96 / n) + boolN (m * 2 ^ 96 % n != 0)) (e - g - 97))
  | _, _ => .nan

/-- A sum in binary32, from the first term on. -/
def sampleSum (l : List FV) : FV := l.foldl (fun a x => b32 (FV.add a x)) (.fin false 0 0)

/-- The exponential of an exact value, rounded once to binary32. -/
def b32Exp (x : FV) : FV :=
  match x with
  | .fin neg m e =>
    if m = 0 then .fin false 1 0
    else let r := expOf neg m e; b32 (.fin false r.1 r.2)
  | .inf true => .fin false 0 0
  | .inf false => .inf false
  | .nan => .nan

/-- An FP16 request field. -/
def fp16Of (w : BitVec 16) : FV := FFmt.fp16.decode w.toNat

/-- Whether a value is above zero. -/
def FV.positive (x : FV) : Bool := FV.cmp x (.fin false 0 0) == .gt

/-- Step 1: the repetition penalty of a candidate. -/
def TokCand.penalise (pen : FV) (recent : List Nat) (c : TokCand) : TokCand :=
  if recent.contains c.id then { c with v := if c.v.positive then b32Div c.v pen else b32 (FV.mul c.v pen) } else c

/-- The shortest prefix of weighted candidates whose running sum reaches a threshold; `acc` is the sum so far. -/
def keepPrefix (thr : FV) : FV → List (TokCand × FV) → List (TokCand × FV)
  | _, [] => []
  | acc, x :: r =>
    let a := b32 (FV.add acc x.2)
    if FV.cmp a thr == .lt then x :: keepPrefix thr a r else [x]

/-- Step 6: the first candidate whose running sum exceeds the drawn value, or the last. -/
def drawCand (t : FV) : FV → List (TokCand × FV) → Option Nat
  | _, [] => none
  | acc, x :: r =>
    let a := b32 (FV.add acc x.2)
    if FV.cmp a t == .gt then some x.1.id
    else match r with
      | [] => some x.1.id
      | _ :: _ => drawCand t a r

/-- Steps 2 to 6 for candidates in rank order. None where the difference of two infinities has no exact value. -/
def Slot.drawFrom (x : Slot) (pos : Nat) (c : List TokCand) : Option Nat :=
  let z := c.map (fun y => ({ y with v := b32Div y.v (fp16Of x.temp) } : TokCand))
  let kept := z.take (if x.topK = 0 then 256 else x.topK)
  match kept with
  | [] => none
  | top :: rest =>
    let e := (top, FV.fin false 1 0) :: rest.map (fun y => (y, b32Exp (FV.add y.v top.v.neg)))
    if e.all (fun y => y.2.isFinite) then
      let s := sampleSum (e.map (·.2))
      let p := keepPrefix (b32 (FV.mul (fp16Of x.topP) s)) (.fin false 0 0) e
      let m := p.take 1 ++ (p.drop 1).filter (fun y => FV.cmp y.2 (fp16Of x.minP) != .lt)
      let s2 := sampleSum (m.map (·.2))
      let t := b32 (FV.mul (b32 (FV.mul (.fin false (u24 x.seed.toNat pos) 0) s2)) (.fin false 1 (-24)))
      drawCand t (.fin false 0 0) m
    else none

/-- select of R254: the token at position `pos`, from a complete group's entries and the tokens before `pos`. None where an entry is
NaN, for which no rank is stated. -/
def Slot.select (x : Slot) (pos : Nat) (hist : List Nat) (entries : List (BitVec 16 × Nat)) : Option Nat :=
  let all := entries.map (fun e => (⟨e.2, fp16Of e.1⟩ : TokCand))
  if all.all (fun c => !c.v.isNan) then
    let recent := (hist.take pos).drop (pos - x.rpWindow)
    let c := topCands 256 ((topCands 256 all).map (TokCand.penalise (fp16Of x.repPen) recent))
    if x.temp = 0 then c.head?.map (·.id) else x.drawFrom pos c
  else none

/-- The token at position `pos` where R254 states none (log 5): one of the entries, the same for the same group, fields, history, SEED and
position (R256). -/
def Slot.odd (x : Slot) (pos : Nat) (hist : List Nat) (entries : List (BitVec 16 × Nat)) : Nat :=
  let fields := [x.temp.toNat, x.topP.toNat, x.minP.toNat, x.repPen.toNat, x.topK, x.rpWindow]
  let i := Config.oddToken fields x.seed.toNat pos (hist.take pos) (entries.map (fun e => (e.1.toNat, e.2)))
  ((entries[i % entries.length]?).map (·.2)).getD 0

/-! ## Prompt lookup (R257) -/

/-- The largest start position below `j` + 1, at least `lo`, at which a context repeats a pattern; at most `n` are tried. -/
def lookBack (ctx pat : List Nat) (lo : Nat) : Nat → Nat → Option Nat
  | 0, _ => none
  | n + 1, j =>
    if j < lo then none
    else if (ctx.drop j).take pat.length = pat then some j
    else if j = 0 then none else lookBack ctx pat lo n (j - 1)

/-- Up to `k` drafts for a context whose last token is LAST_TOKEN. -/
def lookupDrafts (n window k : Nat) (ctx : List Nat) : List Nat :=
  let len := ctx.length
  if n = 0 ∨ len ≤ n then []
  else match lookBack ctx (ctx.drop (len - n)) (len - n - 64 * window) (64 * window + 1) (len - 1 - n) with
    | some j => (ctx.drop (j + n)).take k
    | none => []

end Sys2Proof.Machine
end

