-- ==== Sys2Proof/Machine/Requests.lean ====
section
/-!
DEFINITION. Requests (07_serving.md, 08_kv_and_prefixes.md): refusal and admission (R237, R238, R241, R258), the prefix lookup (R291,
R292) and the fetch of cold pages, cancellation (R261 to R263), messages (R250, R365, R366, R492) and the tiers (R279, R282, R283).
-/

namespace Sys2Proof.Machine

/-! ## Messages -/

/-- A DONE for the host waits for the completion ring, and is retained until the ring's head passes it; a full store discards its oldest
(R492). -/
def State.hostDone (s : State) (m : Msg) : State :=
  let full := decide (4096 ≤ s.host.retained.length)
  let s1 := s.hostSay m
  let s2 := { s1 with host := { s1.host with retained := s1.host.retained.drop (boolN full) ++ [m] } }
  if full then (s2.setBit (s2.pReg 0x20C .hifEvents) 7).bump (s2.pReg 0x20C .hifErrcnt) 16 16 1 else s2

/-- Whether a message is a request's final DONE, or a refusal. -/
def Msg.isFinal : Msg → Bool
  | .done _ _ answer _ _ => !answer
  | .tokens .. => false
  | .statusReq .. => false
  | .statusDev .. => false
  | .resyncReply .. => false
  | .boltReq .. => false

/-- A message to where a request came from: the host, or a channel of a service port. -/
def State.say (s : State) (host : Bool) (port c : Nat) (m : Msg) : State :=
  if host then (if m.isFinal then s.hostDone m else s.hostSay m) else s.ospSend port c m

/-- The detokenised text of tokens, where the request set TEXT (R365). -/
def Part.text (x : Part) (toks : List Nat) : List Byte :=
  match x.form with
  | none => []
  | some f => toks.flatMap (fun t => (f.detok[t]?).getD [])

/-- What a commit left for a request is sent: its TOKENS, and after them its final message, with which the slot becomes FREE (R250,
R242). -/
def State.releaseOne (s : State) (p : Nat) (o : Outgoing) : State :=
  let x := s.slot o.slot
  let s1 := if o.tokens.isEmpty then s
    else s.say x.host x.port x.channel (.tokens x.subSeq o.first o.tokens (if x.text then (s.part p).text o.tokens else []))
  if o.ended then (s1.say x.host x.port x.channel (.done x.subSeq x.reason false x.genLen x.matched)).freeSlot o.slot else s1

/-- Releases a partition's messages. -/
def State.releaseAll (s : State) (p : Nat) : State :=
  (s.part p).outgoing.foldl (fun s o => s.releaseOne p o) (s.modPart p (fun x => { x with outgoing := [] }))

/-- Releases the messages of one request. -/
def State.releaseSlot (s : State) (p i : Nat) : State :=
  ((s.part p).outgoing.filter (fun o => o.slot == i)).foldl (fun s o => s.releaseOne p o)
    (s.modPart p (fun x => { x with outgoing := x.outgoing.filter (fun o => o.slot != i) }))

/-- MESSAGE_RELEASE: 1.0 µs after a commit, its messages are sent (R250). -/
def runMessageRelease (p : PartIdx) (s : State) : State :=
  let x := s.part p.val
  if x.job = .running ∧ s.bow.time < x.launchTime + 1000 then s else s.releaseAll p.val

/-- The command MESSAGE_RELEASE. -/
def execMessageRelease (p : PartIdx) (s : State) : Host.Outcome State Fault Refusal := .next (runMessageRelease p s)

/-! ## Refusal (R241) -/

/-- Whether an FP16 field lies in a range; NaN lies in none. -/
def inRange (w : BitVec 16) (lo hi : FV) (loOpen hiOpen : Bool) : Bool :=
  let v := fp16Of w
  v.isFinite && (match FV.cmp v lo with
    | .lt => false
    | .eq => !loOpen
    | .gt => true) && (match FV.cmp v hi with
    | .lt => true
    | .eq => !hiOpen
    | .gt => false)

/-- The value of an integer multiple of a power of two. -/
def fvOf (m : Nat) (e : Int) : FV := .fin false m e

/-- Check 0x08: a field at offsets 40 to 51, 53 or 60 outside its range (R236), or a reserved bit set (R364). -/
def badSampling (b : SubmitBody) : Bool :=
  !((b.temp == 0 || inRange b.temp (fvOf 1 (-7)) (fvOf 16 0) false false) && inRange b.topP (fvOf 0 0) (fvOf 1 0) true false &&
    inRange b.minP (fvOf 0 0) (fvOf 1 0) false true && inRange b.repPen (fvOf 1 0) (fvOf 8 0) false false &&
    decide (b.topK.toNat ≤ 256) && (decide (b.adapter.toNat ≤ 1023) || b.adapter == 0xFFFF) && decide (b.draft.toNat % 16 ≤ 8) &&
    decide (b.promptLen.toNat < 2 ^ 24) && decide (b.maxNew.toNat < 2 ^ 24) && decide (b.partition.toNat < 16) && !bit b.ctrl.toNat 7 &&
    b.res44 == 0 && b.res47 == 0 && b.stops.all (fun w => fld w.toNat 17 14 == 0))

/-- PROMPT_LEN and MAX_NEW of a SUBMIT. -/
def promptTokens (b : SubmitBody) : Nat := b.promptLen.toNat % 2 ^ 24
def newTokens (b : SubmitBody) : Nat := b.maxNew.toNat % 2 ^ 24

/-- The page sets a request needs (R238). -/
def pagesWanted (b : SubmitBody) : Nat := ceilDiv ((promptTokens b) + (newTokens b)) 64

/-- The FREE slots of a share other than the void slot, ascending. -/
def State.freeSlots (s : State) (p : Nat) : List Nat := ((s.part p).share.drop 1).filter (fun i => (s.slot i).state == .free)

/-- Whether a job takes requests: the partition exists with a slot share, a form and a running job. -/
def State.serves (s : State) (p : Nat) : Bool :=
  let x := s.part p
  x.present && x.started && x.shareLen != 0 && x.form.isSome && x.job == .running

/-- A token of a prompt, or a valid stop token, that is not below VOCAB. -/
def badToken (b : SubmitBody) (toks : List W32) (vocab : Nat) : Bool :=
  toks.any (fun t => decide (vocab ≤ t.toNat)) || b.stops.any (fun w => bit w.toNat 31 && decide (vocab ≤ fld w.toNat 0 17))

/-- Whether an adapter is resident for a tenant (R315). -/
def State.adapterOk (s : State) (p id tenant : Nat) : Bool :=
  id == 0xFFFF || (s.part p).adapters.any (fun a => a.id == id && a.tenant == tenant && a.state == .resident)

/-- Whether a draft partition takes a twin (R258): a job, a FREE slot, the same VOCAB; and room for its context and its page sets. -/
def State.twinOk (s : State) (p q vocab : Nat) (b : SubmitBody) : Bool :=
  let n := if q = p then 2 else 1
  s.serves q && decide (n ≤ (s.freeSlots q).length) && (match (s.part q).form with
    | some f => f.vocab == vocab && decide ((promptTokens b) + (newTokens b) ≤ f.maxContext)
    | none => false) && (s.earmarkPick q (n * (pagesWanted b))).isSome

/-- The first refusal check that fails, in ascending code (R241). -/
def State.refusal (s : State) (b : SubmitBody) (toks : List W32) (tenant : Nat) : Option Nat :=
  let p := b.partition.toNat % 16
  let spec := fld b.ctrl.toNat 4 2
  if !s.parts.any (fun e => e.2.present) then some 0x01
  else if !s.serves p then some 0x02
  else match (s.part p).form with
    | none => some 0x02
    | some f =>
      if (s.freeSlots p).isEmpty then some 0x03
      else if (promptTokens b) = 0 then some 0x04
      else if f.maxContext < (promptTokens b) + (newTokens b) then some 0x05
      else if (newTokens b) = 0 then some 0x06
      else if badToken b toks f.vocab then some 0x07
      else if (badSampling b) then some 0x08
      else if !s.adapterOk p b.adapter.toNat tenant then some 0x09
      else if (s.earmarkPick p (pagesWanted b)).isNone then some 0x0A
      else if b.deadline ≠ 0 ∧ b.deadline.toNat < s.bow.time then some 0x0B
      else if spec = 3 ∨ (spec = 2 ∧ s.twinOk p (b.draft.toNat / 16 % 16) f.vocab b = false) then some 0x0C
      else none

/-! ## Admission (R237, R238, R258, R323) -/

/-- The generation number that the partition's next flip makes current. -/
def Part.newGen (x : Part) : Nat := if x.chain.isEmpty then 1 else nextGen x.curGen

/-- Whether the next step is the flip's and its patches are staged (R323). -/
def Part.flipStaged (x : Part) : Bool :=
  x.flipStep == some (x.stepPlus 1) && (match x.next with
    | some n => n.filled
    | none => false)

/-- WGEN stamped at admission: the current generation, or the new one from the staging of its step on. Before the first LAUNCH it is 1
(R311, R319). -/
def Part.stampGen (x : Part) : Nat := if x.flipStaged then x.newGen else if x.curGen = 0 then 1 else x.curGen

/-- Admits a request into slot `i` of partition `p`: QUEUED, stamped, with its page sets earmarked and its lookup started. -/
def State.admitOne (s : State) (p i : Nat) (b : SubmitBody) (toks : List W32) (subSeq : W32) (host : Bool) (port c tenant : Nat) : State :=
  let seq := (s.admitSeq + 1) % 2 ^ 64
  let x : Slot := { Slot.reset with
    state := .queued, priority := fld b.ctrl.toNat 0 3, pin := bit b.ctrl.toNat 3, spec := fld b.ctrl.toNat 4 2, host := host, part := p,
    port := port, promptLen := (promptTokens b), maxNew := (newTokens b), deadline := b.deadline.toNat, seed := b.seed, temp := b.temp, topP := b.topP,
    minP := b.minP, repPen := b.repPen, topK := b.topK.toNat, adapter := b.adapter.toNat, wgen := (s.part p).stampGen,
    rpWindow := b.rpWindow.toNat, channel := c, subSeq := subSeq, draft := b.draft.toNat % 16, draftPart := b.draft.toNat / 16,
    stops := b.stops, admitSeq := seq % 2 ^ 32, admitTime := s.bow.time, tenant := tenant, text := bit b.ctrl.toNat 6 && !host,
    ctx := toks.map (·.toNat), key := prefixKey (s.fldOf (s.pReg 0x208 .pfxEpoch p) 0 16) b.adapter.toNat tenant p, ackPos := (promptTokens b) }
  let s1 := ({ s with admitSeq := seq }.setSlot i x).event s.prinDie 0x20E 0x87 1
  s1.earmarkAll p i ((s.earmarkPick p (pagesWanted b)).getD [])

/-- Admits the twin of a draft-form request: the same prompt and fields, SPEC 0 and TEMP +0. -/
def State.admitTwin (s : State) (i q : Nat) (b : SubmitBody) (toks : List W32) (subSeq : W32) (host : Bool) (port c tenant : Nat) : State :=
  match (s.freeSlots q).head? with
  | none => s
  | some t =>
    let s1 := s.admitOne q t { b with ctrl := BitVec.ofNat 8 (putFld b.ctrl.toNat 4 2 0), temp := 0 } toks subSeq host port c tenant
    (s1.modSlot t (fun x => { x with twinOf := some i })).modSlot i (fun x => { x with twin := some t })

/-- The checks of a SUBMIT and its admission or refusal. -/
def State.submit (s : State) (b : SubmitBody) (toks : List W32) (subSeq : W32) (host : Bool) (port c tenant : Nat) : State :=
  let p := b.partition.toNat % 16
  match s.refusal b toks tenant with
  | some code =>
    let k := s.pReg 0x205 .reqRefuse p
    ((s.setFld k 0 8 code).bump k 16 16 1).say host port c (.done subSeq (BitVec.ofNat 8 code) false 0 0)
  | none =>
    match (s.freeSlots p).head? with
    | none => s
    | some i =>
      let s1 := s.admitOne p i b toks subSeq host port c tenant
      let s2 := if fld b.ctrl.toNat 4 2 = 2 then s1.admitTwin i (b.draft.toNat / 16 % 16) b toks subSeq host port c tenant else s1
      s2.lowater p

/-! ## SUBMIT (R364) -/

/-- The tokens that fragment `n` of a SUBMIT of `plen` tokens carries. -/
def fragTokens (plen n : Nat) : Nat := Nat.min 2048 (plen - 2048 * n)

/-- A fragment that fits nothing is dropped, and a violation counted; an incomplete SUBMIT goes with it. -/
def State.badFragment (s : State) (port c : Nat) : State :=
  if (s.chan port c).pend.isSome then s.dropSubmit port c else s.ethViolation port

/-- A fragment that fits: the SUBMIT waits for the next one, or is complete. -/
def State.takeFragment (s : State) (port c : Nat) (x : PendingSubmit) : State :=
  let y := s.chan port c
  if x.next = Nat.max 1 (ceilDiv (promptTokens x.body) 2048) then
    (s.setChan port c { y with pend := none }).submit x.body x.tokens x.subSeq false port c x.body.tenant.toNat
  else s.setChan port c { y with pend := some x }

/-- SUBMIT: a fragment is accepted, and the last one starts the checks and admission. -/
def runSubmit (port : BrimDie) (src : PeerAddr) (hdr : OspHdr) (f : SubmitFrag) (s : State) : State :=
  s.ospAccept port.val src hdr (fun s =>
    let c := hdr.channel.toNat
    match f.frag, f.body with
    | 0, some b =>
      let s1 := s.dropSubmit port.val c
      if f.tokens.length = fragTokens (promptTokens b) 0 then s1.takeFragment port.val c ⟨b, hdr.seq, 1, f.tokens⟩ else s1.badFragment port.val c
    | 0, none => s.badFragment port.val c
    | n + 1, _ => match (s.chan port.val c).pend with
      | none => s.badFragment port.val c
      | some x =>
        if n + 1 = x.next ∧ f.tokens.length = fragTokens (promptTokens x.body) (n + 1) then
          s.takeFragment port.val c { x with next := n + 2, tokens := x.tokens ++ f.tokens }
        else s.badFragment port.val c)

/-- The command SUBMIT. -/
def execSubmit (port : BrimDie) (src : PeerAddr) (hdr : OspHdr) (f : SubmitFrag) (s : State) : Host.Outcome State Fault Refusal :=
  .next (runSubmit port src hdr f s)

/-! ## The prefix lookup (R239, R240, R291, R292) -/

/-- The slices of a page set: die and layer. -/
def State.layersOf (s : State) (x : Part) : List (Nat × Nat) := x.dies.flatMap (fun d => (List.range (s.layersOn d)).map (fun j => (d, j)))

/-- Reads the slices of a page set. -/
def State.readPage (s : State) (p page : Nat) : List (List Byte) :=
  let x := s.part p
  (s.layersOf x).map (fun e => Memory.bulk s.mem (s.sliceAddr x e.1 e.2 page) x.fr)

/-- Whether a read of a page set's slices returns poison. -/
def State.pagePoisoned (s : State) (p page : Nat) : Bool :=
  let x := s.part p
  (s.layersOf x).any (fun e => s.poisonedIn (s.sliceAddr x e.1 e.2 page) x.fr)

/-- Writes the slices of a page set. -/
def State.writePage (s : State) (p page : Nat) (l : List (List Byte)) : State :=
  let x := s.part p
  ((s.layersOf x).zip l).foldl (fun s e => s.setBytes (s.sliceAddr x e.1.1 e.1.2 page) e.2) s

/-- The packets of a transfer of `n` bytes of a cold slot over the group of the cold store: store traffic from the place that the store
gives the slot (log 16). -/
def State.coldPackets (s : State) (p slot kind n : Nat) (data : List Byte) : State :=
  match Tbl.find s.start.cold p with
  | none => s
  | some c => match Tbl.find s.start.groups c.1 with
    | none => s
    | some g =>
      let ps := packetsOf n
      ((List.range ps.length).zip ps).foldl (fun s e =>
        s.sendPacket (c.1, g) e.1 1 ⟨c.1, kind, 0, Config.coldPlace p slot + e.2.1, e.2.2, 0, ps.length, none⟩ (sliceB data e.2.1 e.2.2) []) s

/-- The bytes of a cold slot: the page set's record, then its slices. -/
def ColdPage.bytes (c : ColdPage) : List Byte := c.record.bytes 0 ++ c.slices.flatten

/-- A cold copy goes out to the cold store (R282, R355). -/
def State.coldWrite (s : State) (p slot : Nat) (c : ColdPage) : State := s.coldPackets p slot 1 c.bytes.length c.bytes

/-- A cold copy is asked for. -/
def State.coldRead (s : State) (p slot : Nat) (c : ColdPage) : State := s.coldPackets p slot 2 c.bytes.length []

/-- The cold copy of a block on its way into the page set taken for it. -/
def State.fetchCold (s : State) (i b : Nat) : State :=
  let x := s.slot i
  match (x.vector[b]?).join, s.entryOfHash (blockHash x.key x.ctx b) x.part x.tenant with
  | some page, some e => match Tbl.find s.coldUsed (x.part, e.2.coldSlot) with
    | some c => (s.coldRead x.part e.2.coldSlot c).writePage x.part page c.slices
    | none => s
  | _, _ => s

/-- A lookup whose blocks have all arrived: POS follows the match, surplus earmarks are released, IDLE ones first, and the request is
eligible; an idle partition composes at once (R238 to R240, R248). -/
def State.lookupDone (s : State) (i : Nat) : State :=
  let x := s.slot i
  let n := x.vector.length
  let keep := ceilDiv (x.promptLen + x.maxNew) 64 - n
  let s1 := s.unearmark x.part ((s.earmarksOf x.part i).drop keep)
  let s2 := s1.modSlot i (fun y => { y with pos := 64 * n, assigned := 64 * n, matched := 64 * n, eligible := true })
  let s3 := if (s2.part x.part).idle then s2.wake x.part else s2
  s3.lowater x.part

/-- PREFIX_LOOKUP_COMPLETE: the lookup's probes are resolved, by the key of the epoch now (R287); a COLD hit waits for its page. -/
def runPrefixLookupComplete (slot : SlotIdx) (s : State) : State :=
  let i := slot.val
  let x := s.slot i
  if (x.state = .queued ∨ (x.state = .parked ∧ x.prev = .queued)) ∧ x.eligible = false ∧ x.vector.isEmpty = true then
    let s0 := s.modSlot i (fun y => { y with key := prefixKey (s.fldOf (s.pReg 0x208 .pfxEpoch x.part) 0 16) x.adapter x.tenant x.part })
    let r := State.probe i ((x.promptLen - 1) / 64) 0 s0
    let s1 := (r.2.bumpPair (s.pReg 0x208 .pfxHitLo) (s.pReg 0x208 .pfxHitHi) r.1).event s.prinDie 0x20E 0x89 r.1
    let s2 := (s1.slot i).fetching.foldl (fun s b => s.fetchCold i b) s1
    if (s2.slot i).fetching.isEmpty then s2.lookupDone i else s2
  else s

/-- The command PREFIX_LOOKUP_COMPLETE. -/
def execPrefixLookupComplete (slot : SlotIdx) (s : State) : Host.Outcome State Fault Refusal := .next (runPrefixLookupComplete slot s)

/-- COLD_FETCH_COMPLETE: a COLD-matched page is in its page set, and its entry is warm again (R291). A page whose entry is gone, or warm
already through another request, stays the request's own. -/
def runColdFetchComplete (slot : SlotIdx) (block : Nat) (s : State) : State :=
  let i := slot.val
  let x := s.slot i
  if x.fetching.contains block then
    let s1 := match (x.vector[block]?).join, s.entryOfHash (blockHash x.key x.ctx block) x.part x.tenant with
      | some page, some e =>
        if e.2.cold then
          let s2 := { s with coldUsed := Tbl.del s.coldUsed (x.part, e.2.coldSlot) }
          (s2.setIdx e.1 { e.2 with cold := false, coldSlot := 0, page := page }).modPage x.part page (fun y => { y with state := .indexed })
        else s
      | _, _ => s
    let s3 := s1.modSlot i (fun y => { y with fetching := y.fetching.erase block })
    if (s3.slot i).fetching.isEmpty then s3.lookupDone i else s3
  else s

/-- The command COLD_FETCH_COMPLETE. -/
def execColdFetchComplete (slot : SlotIdx) (block : Nat) (s : State) : Host.Outcome State Fault Refusal := .next (runColdFetchComplete slot block s)

/-! ## Tiers (R279, R282, R283) -/

/-- The ADMIT_SEQ of the oldest hot-eligible referrer of a page set (R279). -/
def State.hotOldest (s : State) (p i : Nat) : Nat :=
  ((s.slots.filter (fun e => e.2.part == p && e.2.hotEligible && e.2.vector.contains (some i))).map (·.2.admitSeq)).min?.getD 0

/-- The page set that is promoted next (R279): of the full ones with HOT_REF above 0 and no hot index, that of the oldest hot-eligible
referrer, then that of the lowest number. -/
def State.promoteNext (s : State) (p : Nat) : Option Nat :=
  let l := s.pages.filter (fun e => e.1.1 == p && e.2.fill == 64 && (e.2.state == .priv || e.2.state == .indexed) && e.2.hotIdx.isNone &&
    decide (0 < s.hotRef p e.1.2))
  (sortPairs (l.map (fun e => (s.hotOldest p e.1.2, e.1.2)))).head?.map (·.2)

/-- HOT_PROMOTION_COMPLETE: the warm copy of the next full page set that hot-eligible requests reference is in the frames of a free hot
index; promotions land in their order (DEDUCED, log 59). A copy that reads poison carries it, and takes the page set out of the
index (R294). -/
def runHotPromotionComplete (p : PartIdx) (page hot : Nat) (s : State) : State :=
  let x := s.part p.val
  if s.promoteNext p.val = some page ∧ hot < x.hotCap ∧ (s.hotUsed p.val).contains hot = false ∧ x.hotFreed.contains hot = false then
    let s1 := ((s.layersOf x).zip (s.readPage p.val page)).foldl (fun s e =>
      match s.hotFrame x e.1.1 hot e.1.2 with
      | some f => s.setBytesP (mkAddr e.1.1 f.1 f.2) e.2 (s.poisonedIn (s.sliceAddr x e.1.1 e.1.2 page) x.fr)
      | none => s) s
    let s2 := if s.pagePoisoned p.val page then s1.poisonPage p.val page else s1
    (s2.modPage p.val page (fun z => { z with hotIdx := some hot })).demote p.val
  else s

/-- The command HOT_PROMOTION_COMPLETE. -/
def execHotPromotionComplete (p : PartIdx) (page hot : Nat) (s : State) : Host.Outcome State Fault Refusal := .next (runHotPromotionComplete p page hot s)

/-- The cold entry of a partition with the lowest score, ties to the lowest way, then the lowest set (R290). -/
def State.worstCold (s : State) (p : Nat) : Option (Nat × Nat) :=
  let l := s.index.filter (fun e => e.2.valid && e.2.cold && e.2.part == p)
  (sortPairs (l.map (fun e => (s.score e.2, e.1.2 * 2 ^ 17 + e.1.1)))).head?.map (fun m => (m.2 % 2 ^ 17, m.2 / 2 ^ 17))

/-- A cold slot for a copy: the one named, where it is free; in a full store, that of the lowest-scoring cold entry, which is dropped
(R283). -/
def State.coldRoom (s : State) (p named : Nat) : Option (Nat × State) :=
  match Tbl.find s.start.cold p with
  | none => none
  | some c =>
    let used := (s.coldUsed.filter (fun e => e.1.1 == p)).length
    if named < c.2 ∧ (Tbl.find s.coldUsed (p, named)).isNone = true then some (named, s)
    else if used < c.2 then none
    else match s.worstCold p with
      | none => none
      | some k => some ((s.idx k).coldSlot, (s.dropEntry k).setBit (s.pReg 0x207 .kvpEvents) 1)

/-- The page set that moves to the cold store next (R282, R283): while FREE page sets lie below KVP_LOWATER, the lowest-scoring idle one. -/
def State.coldNext (s : State) (p : Nat) : Option Nat :=
  if (s.freePages p).length < s.fldOf (s.pReg 0x207 .kvpLowater) 0 24 then (sortPairs (s.idlePages p)).head?.map (·.2) else none

/-- COLD_COPY_COMPLETE: the page set that is to move is in the cold store, record and slices; its warm copy is freed, and its entry is COLD
(R282). One whose read returns poison is kept out of the index instead (R294). -/
def runColdCopyComplete (p : PartIdx) (page coldSlot : Nat) (s : State) : State :=
  let x := s.page p.val page
  match s.entryOfPage p.val page with
  | none => s
  | some e =>
    if s.coldNext p.val = some page then
      if s.pagePoisoned p.val page then s.poisonPage p.val page
      else match s.coldRoom p.val coldSlot with
        | none => s
        | some r =>
          let c : ColdPage := ⟨x, s.readPage p.val page⟩
          let s1 := ({ r.2 with coldUsed := Tbl.put r.2.coldUsed (p.val, r.1) c }).coldWrite p.val r.1 c
          ((s1.setIdx e.1 { e.2 with cold := true, coldSlot := r.1, page := 0 }).freePageSet p.val page).lowater p.val
    else s

/-- The command COLD_COPY_COMPLETE. -/
def execColdCopyComplete (p : PartIdx) (page coldSlot : Nat) (s : State) : Host.Outcome State Fault Refusal := .next (runColdCopyComplete p page coldSlot s)

/-! ## Cancellation (R261 to R263) -/

/-- A cancellation of a live request: the first one counts. It takes effect at once for a PARKED request or in an idle partition, else at
a commit (R262). -/
def State.cancelLive (s : State) (i : Nat) (reason : Byte) : State :=
  let x := s.slot i
  if x.cancelReq.isSome then s
  else
    let s1 := s.modSlot i (fun y => { y with cancelReq := some (s.bow.time, reason) })
    if x.state = .parked ∨ (s.part x.part).idle = true then
      (((s1.endRequest i .cancelled reason.toNat 0 []).releaseHeld x.part).releaseSlot x.part i)
    else s1

/-- A CANCEL of a request, or of none: it sets CANCEL_TIME if it is the first, and is answered where it does not take effect (R263,
R366). -/
def State.cancel (s : State) (host : Bool) (port c : Nat) (subSeq : W32) (slot : Option Nat) : State :=
  match slot with
  | none => s.say host port c (.done subSeq 0x41 true 0 0)
  | some i =>
    let x := s.slot i
    let s1 := s.modSlot i (fun y => { y with cancelTime := if y.cancelTime = 0 then s.bow.time else y.cancelTime })
    if x.state.live then s1.cancelLive i 0x30
    else s1.say host port c (.done subSeq (if x.state = .done then 0x40 else x.reason) true x.genLen x.matched)

/-- CANCEL: from a client of a service port. -/
def runCancel (port : BrimDie) (src : PeerAddr) (hdr : OspHdr) (subSeq : W32) (s : State) : State :=
  s.ospAccept port.val src hdr (fun s =>
    let c := hdr.channel.toNat
    let s1 := s.dropSubmit port.val c
    s1.cancel false port.val c subSeq (s1.slotOfChan port.val c subSeq))

/-- The command CANCEL. -/
def execCancel (port : BrimDie) (src : PeerAddr) (hdr : OspHdr) (subSeq : W32) (s : State) : Host.Outcome State Fault Refusal :=
  .next (runCancel port src hdr subSeq s)

/-- REQ_KILL: firmware cancels a slot with REASON 0x32; a void or FREE slot is ignored (R262). -/
def runReqKill (port : Port) (data : W32) (s : State) : State :=
  s.guardedWrite port (s.pReg 0x205 .reqKill) data.toNat (fun s =>
    let i := fld data.toNat 0 12
    if (s.slot i).state.live then s.cancelLive i 0x32 else s)

/-- The command REQ_KILL. -/
def execReqKill (port : Port) (data : W32) (s : State) : Host.Outcome State Fault Refusal := .next (runReqKill port data s)

end Sys2Proof.Machine
end

