-- ==== Sys2Proof/Machine/HostPort.lean ====
section
/-!
DEFINITION. The host interface (16_host_interface.md): the endpoint and BAR2 (R472, R475), submission and completion rings (R476 to
R484), the status block (R485), sessions (R486 to R489), and parking, orphan hold and resumption (R490 to R493).
-/

namespace Sys2Proof.Machine

/-! ## The session (R486 to R490, R494) -/

/-- The session state: 0 CLOSED, 1 OPEN, 2 STALE, 3 ERROR. -/
def State.session (s : State) : Nat := s.fldOf (s.hif .hifStatus) 6 2

/-- Whether the endpoint's PLL runs (R417). -/
def State.pcieUp (s : State) : Bool := !s.pllDown .pcie

/-- The session takes a state. Leaving OPEN lets the next commit of every partition park its host-origin requests (R490). -/
def State.setSession (s : State) (v : Nat) : State :=
  let s1 := s.setFld (s.hif .hifStatus) 6 2 v
  if s.session = 1 ∧ v ≠ 1 then { s1 with parts := Tbl.mapV s1.parts (fun _ x => { x with hostGated := true }) } else s1

/-- An access through the endpoint shows that the PCIe link is up. -/
def State.linkSeen (s : State) (port : Port) : State :=
  match port with
  | .pcie => { s with host := { s.host with linkUp := true } }
  | .core .. => s

/-! ## The endpoint (R472) -/

/-- The cause of a 0x7001 fault (R494). -/
def causeCode : EndpointCause → Nat
  | .linkLoss => 1
  | .perst => 2
  | .hotReset => 3
  | .flr => 4

/-- ENDPOINT_RESET: the session closes; a read of host memory under way is lost with it. Everything else survives. -/
def runEndpointReset (c : EndpointCause) (s : State) : State :=
  let s1 := if s.session = 1 then s.hostFail 0x7001 (causeCode c) else s
  let s2 := s1.setSession 0
  { s2 with host := { s2.host with bodyFor := none, bar2Seen := false, linkUp := s2.host.linkUp && c == .flr } }

/-- The command ENDPOINT_RESET. -/
def execEndpointReset (c : EndpointCause) (s : State) : Host.Outcome State Fault Refusal := .next (runEndpointReset c s)

/-- BAR2_OUT_OF_RANGE: an access beyond the 512 KiB of the rings reads 0 or is dropped, and is counted; the first of a session is
recorded. Before the supervisor runs, all of BAR2 is so (R472). -/
def runBar2OutOfRange (offset : BitVec 30) (write : Bool) (s : State) : State :=
  if s.pcieUp = true ∧ (0x80000 ≤ offset.toNat ∨ s.boot.running = false) then
    let s1 := s.linkSeen .pcie
    let s2 := if s1.host.bar2Seen then s1 else s1.hostFail 0x7006 (offset.toNat + 2 * 2 ^ 32)
    let s3 := (s2.bump (s2.hif .hifErrcnt) 0 16 1)
    { s3 with host := { s3.host with bar2Seen := true }, readOut := if write then s3.readOut else Tbl.put s3.readOut .pcie 0 }
  else s

/-- The command BAR2_OUT_OF_RANGE. -/
def execBar2OutOfRange (offset : BitVec 30) (write : Bool) (s : State) : Host.Outcome State Fault Refusal := .next (runBar2OutOfRange offset write s)

/-! ## Ring indices (R476) -/

/-- The entries of a ring: SQ0, SQ1, CQ. -/
def State.ringSize (s : State) (i : Nat) : Nat := 2 ^ s.fldOf (s.hif .hifRingcfg) (4 * i) 4

/-- A ring index register is written; an index at or beyond the ring's size is dropped (R476, R494). -/
def State.ringWrite (s : State) (port : Port) (k : RegKey) (ring d : Nat) (f : State → State) : State :=
  (s.linkSeen port).guardedWrite port k d (fun s =>
    if s.ringSize ring ≤ fld d 0 12 then s.hostDrop 0x7004 (addrOff k.addr) else f s)

/-- SQ0_TAIL_WRITE: new entries are exposed. -/
def runSq0TailWrite (port : Port) (data : W32) (s : State) : State :=
  s.ringWrite port (s.hif .hifSq0Tail) 0 data.toNat (fun s => s.storeReg (s.hif .hifSq0Tail) data.toNat)

/-- The command SQ0_TAIL_WRITE. -/
def execSq0TailWrite (port : Port) (data : W32) (s : State) : Host.Outcome State Fault Refusal := .next (runSq0TailWrite port data s)

/-- SQ1_TAIL_WRITE: new bolt-data entries are exposed. -/
def runSq1TailWrite (port : Port) (data : W32) (s : State) : State :=
  s.ringWrite port (s.hif .hifSq1Tail) 1 data.toNat (fun s => s.storeReg (s.hif .hifSq1Tail) data.toNat)

/-- The command SQ1_TAIL_WRITE. -/
def execSq1TailWrite (port : Port) (data : W32) (s : State) : Host.Outcome State Fault Refusal := .next (runSq1TailWrite port data s)

/-! ## Submission entries (R477 to R479) -/

/-- The head of a submission ring. -/
def State.sqHead (s : State) (ring : Nat) : Nat := s.fldOf (s.hif .hifSqHead) (16 * ring) 12

/-- The tail of a submission ring. -/
def State.sqTail (s : State) (ring : Nat) : Nat := s.fldOf (s.hif (if ring = 0 then .hifSq0Tail else .hifSq1Tail)) 0 12

/-- Whether the device reads the next entry of a ring: the session is OPEN, the tail has exposed it, and no body is being read for
an earlier SQ0 entry (R479, R489). -/
def State.sqReads (s : State) (ring : Nat) : Bool :=
  s.pcieUp && s.session == 1 && s.sqHead ring != s.sqTail ring && (ring != 0 || s.host.bodyFor.isNone)

/-- An entry's ring slot is consumed. -/
def State.sqConsume (s : State) (ring : Nat) : State := s.setFld (s.hif .hifSqHead) (16 * ring) 12 ((s.sqHead ring + 1) % s.ringSize ring)

/-- The sequence number after another (R478). -/
def hostNext (q : Nat) : Nat := if 0xFFFFFFFE ≤ q then 1 else q + 1

/-- A malformed entry of SQ0 at an index: recorded, and a SUBMIT answered with 0x08 (R478, R494). -/
def State.badEntry (s : State) (index : Nat) (seq : W32) (isSubmit : Bool) : State :=
  let s1 := s.hostDrop 0x7004 index
  if isSubmit then s1.hostDone (.done seq 0x08 false 0 0) else s1

/-- Whether the ADDR and LEN of an entry are as R477 lays down. -/
def entryOk (e : SqEntry) : Bool :=
  e.reserved == 0 &&
  (if e.type = 0x01 then e.addr.toNat % 4 == 0 && decide (64 ≤ e.len.toNat) && e.len.toNat % 4 == 0
   else if e.type = 0x11 then e.addr.toNat % 4 == 0
   else e.addr == 0 && e.len == 0)

/-- The slot of a host-origin request. -/
def State.slotOfHost (s : State) (subSeq : W32) : Option Nat :=
  (s.slots.find? (fun e => e.2.state != .free && e.2.host && e.2.twinOf.isNone && e.2.subSeq == subSeq)).map (·.1)

/-- The body of a SUBMIT is read from host memory. -/
def State.hostSubmit (s : State) (e : SqEntry) : State :=
  ({ s with host := { s.host with bodyFor := some e.seq } }).emit (.hostRead e.addr e.len.toNat)

/-- A STATUS entry is answered (R367). -/
def State.hostStatus (s : State) (subSeq : W32) : State :=
  s.hostSay (if subSeq.toNat = 0xFFFFFFFF then s.deviceStatus else s.requestStatus subSeq (s.slotOfHost subSeq))

/-! ## TOKENS from a position on (R487, R493) -/

/-- TOKENS messages of at most 9 tokens each. -/
def tokensMsgs (subSeq : W32) : Nat → Nat → List Nat → List Msg
  | 0, _, _ => []
  | n + 1, first, l => if l.isEmpty then [] else .tokens subSeq first (l.take 9) [] :: tokensMsgs subSeq n (first + 9) (l.drop 9)

/-- The tokens that a request has emitted from its ACK_POS on. -/
def Slot.undeliveredMsgs (x : Slot) : List Msg := tokensMsgs x.subSeq (x.genLen + 1) x.ackPos (x.ctx.drop (Nat.max x.ackPos x.promptLen))

/-- Messages that wait for the completion ring, in order. -/
def State.hostSayAll (s : State) (l : List Msg) : State := l.foldl State.hostSay s

/-! ## RESUME (R493) -/

/-- A twin leaves PARKED with its request (R258, R490). -/
def State.resumeTwin (s : State) (twin : Option Nat) : State :=
  match twin with
  | none => s
  | some t =>
    let y := s.slot t
    if y.state = .parked then
      let s1 := s.setSlot t { y with state := y.prev }
      if (s1.part y.part).idle then s1.wake y.part else s1
    else s

/-- A live host-origin request is resumed: out of PARKED it returns to its PREV state, and is eligible from the next cut; its TOKENS
are written from its new ACK_POS on. Its twin is resumed with it. -/
def State.resumeOne (s : State) (i : Nat) (fromPos : W32) : State :=
  let x := s.slot i
  let y := { x with
    state := if x.state = .parked then x.prev else x.state,
    ackPos := if fromPos.toNat = 0xFFFFFFFF then x.ackPos else Nat.max fromPos.toNat x.promptLen }
  let s1 := ((s.setSlot i y).hostSayAll y.undeliveredMsgs).resumeTwin x.twin
  if (s1.part x.part).idle then s1.wake x.part else s1

/-- RESUME of one request, or of every PARKED host-origin request. -/
def State.resume (s : State) (subSeq fromPos : W32) : State :=
  if subSeq.toNat = 0xFFFFFFFF then
    (s.slots.filter (fun e => e.2.host && e.2.twinOf.isNone && e.2.state == .parked)).foldl (fun s e => s.resumeOne e.1 0xFFFFFFFF) s
  else match s.slotOfHost subSeq with
    | none => s.hostSay (.done subSeq 0x41 true 0 0)
    | some i =>
      let x := s.slot i
      if x.state.live then s.resumeOne i fromPos else s.hostSay (.done subSeq x.reason true x.genLen x.matched)

/-! ## Entries of SQ0 -/

/-- An accepted entry does what its TYPE says. -/
def State.sq0Act (s : State) (index : Nat) (e : SqEntry) : State :=
  if entryOk e then
    match e.type.toNat with
    | 0x01 => s.hostSubmit e
    | 0x02 => s.cancel true 0 0 e.subSeq (s.slotOfHost e.subSeq)
    | 0x03 => s.hostStatus e.subSeq
    | 0x05 => s.resume e.subSeq e.fromPos
    | _ => s.badEntry index e.seq false
  else s.badEntry index e.seq (e.type == 0x01)

/-- The device reads the entry at the head of SQ0: its ring slot is consumed, and it is accepted only with the next SEQ (R478). -/
def State.sq0Read (s : State) (e : SqEntry) : State :=
  if s.sqReads 0 then
    let want := hostNext (s.regN (s.hif .hifLastAcc))
    let s1 := s.sqConsume 0
    if e.seq.toNat = want then (s1.setReg (s1.hif .hifLastAcc) e.seq).sq0Act (s.sqHead 0) e
    else s1.hostDrop 0x7003 (want + e.seq.toNat * 2 ^ 32)
  else s

/-- HOST_SUBMIT: an entry is read, and the body of its SUBMIT asked for. -/
def runHostSubmit (e : SqEntry) (s : State) : State := s.sq0Read e

/-- The command HOST_SUBMIT. -/
def execHostSubmit (e : SqEntry) (s : State) : Host.Outcome State Fault Refusal := .next (runHostSubmit e s)

/-- HOST_SUBMIT_BODY: the body of a SUBMIT has arrived; its tokens are all that LEN counts. Tenant 0 (R477). -/
def runHostSubmitBody (seq : W32) (body : SubmitBody) (tokens : List W32) (s : State) : State :=
  if s.host.bodyFor = some seq then
    let s1 := { s with host := { s.host with bodyFor := none } }
    if tokens.length = promptTokens body then s1.submit body tokens seq true 0 0 0
    else s1.badEntry ((s1.sqHead 0 + s1.ringSize 0 - 1) % s1.ringSize 0) seq true
  else s

/-- The command HOST_SUBMIT_BODY. -/
def execHostSubmitBody (seq : W32) (body : SubmitBody) (tokens : List W32) (s : State) : Host.Outcome State Fault Refusal :=
  .next (runHostSubmitBody seq body tokens s)

/-- HOST_CANCEL: an entry is read; a CANCEL arrives with that read (R261, R479). -/
def runHostCancel (e : SqEntry) (s : State) : State := s.sq0Read e

/-- The command HOST_CANCEL. -/
def execHostCancel (e : SqEntry) (s : State) : Host.Outcome State Fault Refusal := .next (runHostCancel e s)

/-- HOST_STATUS: an entry is read; a STATUS is answered in the CQ. -/
def runHostStatus (e : SqEntry) (s : State) : State := s.sq0Read e

/-- The command HOST_STATUS. -/
def execHostStatus (e : SqEntry) (s : State) : Host.Outcome State Fault Refusal := .next (runHostStatus e s)

/-- HOST_RESUME: an entry is read; a RESUME acts as R493 says. -/
def runHostResume (e : SqEntry) (s : State) : State := s.sq0Read e

/-- The command HOST_RESUME. -/
def execHostResume (e : SqEntry) (s : State) : Host.Outcome State Fault Refusal := .next (runHostResume e s)

/-! ## Bolt data (R484) -/

/-- HOST_BOLT_DATA: an entry of SQ1 gives the whole object in host memory, the LEN bytes read there; one that answers no outstanding
request is dropped. -/
def runHostBoltData (e : SqEntry) (data : List Byte) (s : State) : State :=
  if s.sqReads 1 then
    let at' := s.sqHead 1 + 2 ^ 32
    let s1 := s.sqConsume 1
    if e.type = 0x11 ∧ entryOk e = true then
      match s1.fetchFor (fun x => x.kind == 2) e.boltId e.chunk.toNat with
      | none => s1.hostDrop 0x7004 at'
      | some f => (s1.emit (.hostRead e.addr e.len.toNat)).objectArrived f (if e.len.toNat = data.length then data else [])
    else s1.hostDrop 0x7004 at'
  else s

/-- The command HOST_BOLT_DATA. -/
def execHostBoltData (e : SqEntry) (data : List Byte) (s : State) : Host.Outcome State Fault Refusal := .next (runHostBoltData e data s)

/-! ## The completion ring (R480 to R483, R492) -/

/-- CQ_ENTRY_WRITE: a waiting message is written at the tail, once that leaves the ring's head alone. -/
def runCqEntryWrite (s : State) : State :=
  match s.host.waiting with
  | [] => s
  | m :: l =>
    let n := s.ringSize 2
    let t := s.fldOf (s.hif .hifCqTail) 0 12
    let t' := (t + 1) % n
    if s.pcieUp = true ∧ s.session = 1 ∧ t' ≠ s.fldOf (s.hif .hifCqHead) 0 12 then
      let ph := s.fldOf (s.hif .hifCqTail) 12 1
      let q := hostNext (s.regN (s.hif .hifLastEmit))
      let s1 := (s.setFld (s.hif .hifCqTail) 0 12 t').setFld (s.hif .hifCqTail) 12 1 (if t' = 0 then 1 - ph else ph)
      let s2 := s1.setReg (s1.hif .hifLastEmit) (BitVec.ofNat 32 q)
      ({ s2 with host := { s2.host with waiting := l, inCq := s2.host.inCq ++ [(t, m)] } }).emit (.cq t q (ph == 1) m)
    else s

/-- The command CQ_ENTRY_WRITE. -/
def execCqEntryWrite (s : State) : Host.Outcome State Fault Refusal := .next (runCqEntryWrite s)

/-- The CQ head has passed an entry: ACK_POS follows a TOKENS, and a DONE is retained no longer. -/
def State.cqPassed (s : State) (m : Msg) : State :=
  match m with
  | .tokens q first toks _ => match s.slotOfHost q with
    | some i => s.modSlot i (fun x => { x with ackPos := first + toks.length })
    | none => s
  | .done .. => { s with host := { s.host with retained := s.host.retained.erase m } }
  | .statusReq .. => s
  | .statusDev .. => s
  | .resyncReply .. => s
  | .boltReq .. => s

/-- Idle partitions in which a request may have become eligible again compose a step. -/
def State.wakeAll (s : State) : State := (List.range 16).foldl (fun s p => if (s.part p).idle then s.wake p else s) s

/-- CQ_HEAD_WRITE: every entry before the new head is acknowledged. -/
def runCqHeadWrite (port : Port) (data : W32) (s : State) : State :=
  s.ringWrite port (s.hif .hifCqHead) 2 data.toNat (fun s =>
    let n := s.ringSize 2
    let old := s.fldOf (s.hif .hifCqHead) 0 12
    let k := (fld data.toNat 0 12 + n - old) % n
    let gone (e : Nat × Msg) : Bool := decide ((e.1 + n - old) % n < k)
    let s1 := s.storeReg (s.hif .hifCqHead) data.toNat
    let s2 := { s1 with host := { s1.host with inCq := s1.host.inCq.filter (fun e => !gone e) } }
    ((s.host.inCq.filter gone).foldl (fun s e => s.cqPassed e.2) s2).wakeAll)

/-- The command CQ_HEAD_WRITE. -/
def execCqHeadWrite (port : Port) (data : W32) (s : State) : Host.Outcome State Fault Refusal := .next (runCqHeadWrite port data s)

/-! ## The status block (R485) -/

/-- The host-origin slots in PARKED. -/
def State.parkedSlots (s : State) : Nat := (s.slots.filter (fun e => e.2.host && e.2.state == .parked)).length

/-- The status block as it is now. -/
def State.statusBlock (s : State) : Output :=
  .statusBlock s.bow.time (s.regN (s.hif .hifLastAcc)) (s.regN (s.hif .hifLastEmit)) (s.sqHead 0) (s.sqHead 1)
    (s.fldOf (s.hif .hifCqTail) 0 12 + 2 ^ 15 * s.fldOf (s.hif .hifCqTail) 12 1) s.session
    (s.fldOf (s.pReg 0x202 .pwrStatus) 0 1 + 2 * boolN (s.parts.any (fun e => e.2.present))) s.jobsMask.toNat s.activeSlots
    (s.fldOf (s.pReg 0x20F .fltHead) 0 12) s.parkedSlots s.host.hbSeen

/-- STATUS_BLOCK_WRITE: while the session is OPEN or STALE, once every SB_PERIOD, and after OPEN. -/
def runStatusBlockWrite (s : State) : State :=
  if s.pcieUp = true ∧ (s.session = 1 ∨ s.session = 2) ∧ s.host.sbDue ≤ s.bow.time then
    let s1 := s.emit s.statusBlock
    { s1 with host := { s1.host with sbDue := s.bow.time + 1000 * s.fldOf (s.hif .hifRingcfg) 16 10 } }
  else s

/-- The command STATUS_BLOCK_WRITE. -/
def execStatusBlockWrite (s : State) : Host.Outcome State Fault Refusal := .next (runStatusBlockWrite s)

/-! ## Opening and closing (R486 to R489) -/

/-- The refusal of an open: 1 the version, 2 the ring configuration. -/
def State.openRefusal (s : State) : Nat :=
  let v := s.regN (s.hif .hifSessionVer)
  if v < leAt s.boot.matrix 18 4 ∨ leAt s.boot.matrix 22 4 < v then 1
  else if s.writeOk (s.hif .hifRingcfg) (s.regN (s.hif .hifRingcfg)) then 0 else 2

/-- The messages that a session which opens writes: retained DONEs, then TOKENS from each live request's ACK_POS on, then answers
that still wait, and a BOLT_REQ for each object still outstanding. -/
def State.openMsgs (s : State) : List Msg :=
  s.host.retained ++
  (s.slots.filter (fun e => e.2.host && e.2.twinOf.isNone && e.2.state.live && e.2.state != .parked)).flatMap (fun e => e.2.undeliveredMsgs) ++
  s.host.waiting.filter (fun m => match m with
    | .done _ _ answer _ _ => answer
    | .statusReq .. => true
    | .statusDev .. => true
    | .tokens .. => false
    | .resyncReply .. => false
    | .boltReq .. => false) ++
  (s.fetches.filter (fun f => match Tbl.find s.start.sources f.src with
    | some x => x.kind == 2
    | none => false)).map (fun f => .boltReq f.boltId f.chunk 0 f.len)

/-- OPEN: checked, and then the session opens; an OPEN counts as a heartbeat. -/
def State.sessionOpens (s : State) : State :=
  let r := s.openRefusal
  if r = 0 then
    let s1 := (((((s.setFld (s.hif .hifStatus) 8 2 0).setSession 1).setReg (s.hif .hifSqHead) 0).setReg (s.hif .hifSq0Tail) 0).setReg
      (s.hif .hifSq1Tail) 0).setReg (s.hif .hifCqHead) 0
    let s2 := (s1.setFld (s.hif .hifCqTail) 0 12 0).setFld (s.hif .hifCqTail) 12 1 1
    { s2 with host := { s2.host with
        hbSeen := s.bow.time, sbDue := s.bow.time, waiting := s.openMsgs, inCq := [], bar2Seen := false } }
  else
    (s.setFld (s.hif .hifStatus) 8 2 r).hostFail 0x7002 (s.regN (s.hif .hifSessionVer) + s.regN (s.hif .hifRingcfg) * 2 ^ 32)

/-- CLOSE. -/
def State.sessionCloses (s : State) : State :=
  let s1 := s.setSession 0
  { s1 with host := { s1.host with bar2Seen := false } }

/-- A write of HIF_SESSION_CMD: OPEN first, then CLOSE. -/
def State.sessionCmd (s : State) (port : Port) (data : W32) : State :=
  (s.linkSeen port).guardedWrite port (s.hif .hifSessionCmd) data.toNat (fun s =>
    let s1 := if bit data.toNat 0 then s.sessionOpens else s
    if bit data.toNat 1 then s1.sessionCloses else s1)

/-- SESSION_OPEN. -/
def runSessionOpen (port : Port) (data : W32) (s : State) : State := s.sessionCmd port data

/-- The command SESSION_OPEN. -/
def execSessionOpen (port : Port) (data : W32) (s : State) : Host.Outcome State Fault Refusal := .next (runSessionOpen port data s)

/-- SESSION_CLOSE. -/
def runSessionClose (port : Port) (data : W32) (s : State) : State := s.sessionCmd port data

/-- The command SESSION_CLOSE. -/
def execSessionClose (port : Port) (data : W32) (s : State) : Host.Outcome State Fault Refusal := .next (runSessionClose port data s)

/-- HEARTBEAT: a write through the endpoint; it returns a STALE session to OPEN (R488, R495). -/
def runHeartbeat (port : Port) (data : W32) (s : State) : State :=
  (s.linkSeen port).guardedWrite port (s.hif .hifHeartbeat) data.toNat (fun s =>
    if port.isCore then s
    else
      let s1 := { s with host := { s.host with hbSeen := s.bow.time } }
      if s1.session = 2 then s1.setSession 1 else s1)

/-- The command HEARTBEAT. -/
def execHeartbeat (port : Port) (data : W32) (s : State) : Host.Outcome State Fault Refusal := .next (runHeartbeat port data s)

/-- HEARTBEAT_STALE: an OPEN session without a heartbeat for HB_MS becomes STALE. -/
def runHeartbeatStale (s : State) : State :=
  if s.session = 1 ∧ s.host.hbSeen + 1000000 * s.regN (s.hif .hifHbMs) ≤ s.bow.time then (s.hostFail 0x7007 s.host.hbSeen).setSession 2 else s

/-- The command HEARTBEAT_STALE. -/
def execHeartbeatStale (s : State) : Host.Outcome State Fault Refusal := .next (runHeartbeatStale s)

/-- HOST_ACCESS_ERROR: a device access of host memory failed; the session is in ERROR. -/
def runHostAccessError (addr : W64) (status : Byte) (s : State) : State :=
  let s1 := (s.hostFail 0x7005 (addr.toNat % 2 ^ 56 + status.toNat * 2 ^ 56)).setSession 3
  { s1 with host := { s1.host with bodyFor := none } }

/-- The command HOST_ACCESS_ERROR. -/
def execHostAccessError (addr : W64) (status : Byte) (s : State) : Host.Outcome State Fault Refusal := .next (runHostAccessError addr status s)

/-! ## Orphan hold (R491) -/

/-- ORPHAN_HOLD_EXPIRY: a host-origin request still PARKED ORPHAN_S after its PARK_TIME ends CANCELLED with REASON 0x31. -/
def runOrphanHoldExpiry (slot : SlotIdx) (s : State) : State :=
  let i := slot.val
  let x := s.slot i
  if x.host = true ∧ x.twinOf.isNone = true ∧ x.state = .parked ∧ x.parkTime + 1000000000 * s.regN (s.hif .hifOrphanS) ≤ s.bow.time then
    ((s.endRequest i .cancelled 0x31 0 []).releaseHeld x.part).releaseSlot x.part i
  else s

/-- The command ORPHAN_HOLD_EXPIRY. -/
def execOrphanHoldExpiry (slot : SlotIdx) (s : State) : Host.Outcome State Fault Refusal := .next (runOrphanHoldExpiry slot s)

end Sys2Proof.Machine
end

