-- ==== Sys2Proof/Machine/Steps.lean ====
section
/-!
DEFINITION. The step of a partition before its LAUNCH: the start of a job (R311), the cut (R245), partial lists and the choice of
tokens (R252 to R254, R259), and the staging of the next step (R246, R247, R257, R258, R317, R323).
-/

namespace Sys2Proof.Machine

/-! ## The start of a job -/

/-- Whether a bolt load is complete: every chunk is done and every array it took is STAGED. -/
def State.loadReady (s : State) (l : BoltLoad) : Bool :=
  match l.bolt with
  | none => false
  | some b => decide (b.chunks.length ≤ l.done.length) && l.arrays.all (fun e => (s.arr e.2).st == .staged)

/-- JOB_START: the job starts once every used array is STAGED and every weight slice is written (R311). Its first LAUNCH makes
generation 1 current. -/
def runJobStart (p : PartIdx) (s : State) : State :=
  let x := s.part p.val
  match x.load with
  | none => s
  | some l =>
    if x.job = .loaded ∧ x.flipStep = some 1 ∧ s.loadReady l = true then
      (s.modPart p.val (fun y => { y with job := .running, readyDies := y.dies })).wake p.val
    else s

/-- The command JOB_START. -/
def execJobStart (p : PartIdx) (s : State) : Host.Outcome State Fault Refusal := .next (runJobStart p s)

/-! ## The cut (R245, R248) -/

/-- STEP_CUT: the next step is composed. -/
def runStepCut (p : PartIdx) (s : State) : State :=
  let x := s.part p.val
  if x.job = .running ∧ x.next.isNone = true then
    if x.running.isNone then s.wake p.val
    else if x.cutDone then s
    else (s.compose p.val).modPart p.val (fun y => { y with cutDone := true })
  else s

/-- The command STEP_CUT. -/
def execStepCut (p : PartIdx) (s : State) : Host.Outcome State Fault Refusal := .next (runStepCut p s)

/-! ## Groups and choices (R252, R259) -/

/-- SMP_LISTS of a partition. -/
def State.listsPer (s : State) (p : Nat) : Nat := s.fldOf (s.pReg 0x206 .smpLists p) 0 7

/-- What the sampling unit has chosen for a slot in the running step. -/
def Part.choice (x : Part) (i : Nat) : Chosen := (x.chosen.find? (fun c => c.slot == i)).getD ⟨i, [], false⟩

/-- Further tokens of a slot, and whether no more follow. -/
def Part.choose (x : Part) (i : Nat) (toks : List Nat) (final : Bool) : Part :=
  let c := x.choice i
  { x with chosen := x.chosen.filter (fun e => e.slot != i) ++ [⟨i, c.tokens ++ toks, c.final || final⟩] }

/-- The complete group of a token. -/
def Part.complete (x : Part) (n i pos : Nat) : Option Group := x.groups.find? (fun g => g.slot == i && g.pos == pos && decide (n ≤ g.lists))

/-- The complete groups from which nothing more is drawn are dropped; incomplete ones still take their lists. -/
def Part.tidy (x : Part) (n : Nat) : Part :=
  { x with groups := x.groups.filter (fun g => decide (g.lists < n) || (g.draw && !(x.choice g.slot).final)) }

/-- The token of a complete group at position `pos`, after the tokens `hist` (R254). -/
def State.chooseToken (s : State) (i pos : Nat) (hist : List Nat) (g : Group) : Nat :=
  ((s.slot i).select pos hist g.entries).getD ((s.slot i).odd pos hist g.entries)

/-- A token is chosen: counted, and its group dropped. -/
def State.chosenNow (s : State) (p i pos t : Nat) (final : Bool) : State :=
  let s1 := (s.bumpPair (s.pReg 0x206 .smpDrawnLo) (s.pReg 0x206 .smpDrawnHi) 1).event s.prinDie 0x20E 0x88 1
  s1.modPart p (fun x => { x.choose i [t] final with groups := x.groups.filter (fun g => !(g.slot == i && g.pos == pos)) })

/-- Verification of a decode slot in rank order, as far as its groups are complete (R259): at most `n` tokens more. -/
def State.verify (p i : Nat) (d : DecodeSlot) : Nat → State → State
  | 0, s => s
  | n + 1, s =>
    let x := s.part p
    let c := x.choice i
    let j := c.tokens.length
    if c.final then s
    else match x.complete (s.listsPer p) i (d.pos + j) with
      | none => s
      | some g =>
        let r := s.chooseToken i (d.pos + j + 1) ((s.slot i).ctx ++ c.tokens) g
        State.verify p i d n (s.chosenNow p i (d.pos + j) r (d.drafts[j]? != some r))

/-- The token after a prompt, once the group of its last token is complete. -/
def State.firstToken (s : State) (p i : Nat) : State :=
  let x := s.slot i
  let k := x.promptLen - 1
  match (s.part p).complete (s.listsPer p) i k with
  | none => s
  | some g =>
    let r := s.chooseToken i x.promptLen x.ctx g
    s.chosenNow p i k r true

/-- Chooses what a slot's complete groups allow. -/
def State.chooseFor (s : State) (p i : Nat) : State :=
  match (s.part p).running with
  | none => s
  | some st => match st.dec.find? (fun d => d.slot == some i) with
    | some d => State.verify p i d 9 s
    | none => if st.hasLast i (s.slot i).promptLen && !((s.part p).choice i).final then s.firstToken p i else s

/-- A poisoned list or an empty group poisons its token: its request is replayed, and nothing is drawn. -/
def State.poisonToken (s : State) (p i : Nat) : State :=
  ((s.setBit (s.pReg 0x206 .smpEvents) 0).modPart p (fun x => x.choose i [] true)).poisonRequest p i

/-- A list that matches no token of its step. -/
def State.strayList (s : State) : State := s.setBit (s.pReg 0x206 .smpEvents) 2

/-- The tokens that await selection: complete groups, each by the lists per token of its partition. -/
def State.awaiting (s : State) : Nat :=
  s.parts.foldl (fun a e => a + (e.2.groups.filter (fun g => g.draw && decide (s.listsPer e.1 ≤ g.lists))).length) 0

/-- The contract of R253 at the arrival of a step's last list; a choice beyond it may be late: the spec gives no time at which it is
(log 5). -/
def State.lateMark (s : State) (p : Nat) : State :=
  if (s.part p).groups.all (fun g => decide (s.listsPer p ≤ g.lists)) && (decide (64000 < s.unmerged) || decide (40 < s.awaiting)) then
    let r := s.drawB
    if r.1 then r.2.setBit (s.pReg 0x206 .smpEvents) 1 else r.2
  else s

/-! ## PARTIAL_LIST_ARRIVE -/

/-- The entries of a list by vocabulary index (R157). -/
def listEntries (l : PartialList) : List (BitVec 16 × Nat) := l.entries.map (fun e => (e.1, l.base + e.2))

/-- A list joins the group of its token. -/
def State.takeList (s : State) (p : Nat) (l : PartialList) : State :=
  let i := l.slot.val
  let s1 := s.modPart p (fun x => { x with groups := x.groups.map (fun g =>
    if g.slot = i ∧ g.pos = l.pos then
      { g with lists := g.lists + 1, poison := g.poison || l.poison || l.entries.isEmpty, entries := g.entries ++ listEntries l }
    else g) })
  let s2 := ({ s1 with unmerged := s1.unmerged + l.entries.length }).lateMark p
  let s3 := if l.poison || l.entries.isEmpty then s2.poisonToken p i else s2.chooseFor p i
  s3.modPart p (fun x => x.tidy (s3.listsPer p))

/-- PARTIAL_LIST_ARRIVE: a list is grouped, discarded, or poisons its token; tokens are chosen as their groups become complete. -/
def runPartialListArrive (p : PartIdx) (l : PartialList) (s : State) : State :=
  let x := s.part p.val
  if l.slot.val = x.voidSlot then s
  else if x.groups.any (fun g => g.slot == l.slot.val && g.pos == l.pos && decide (g.lists < s.listsPer p.val)) then s.takeList p.val l
  else s.strayList

/-- The command PARTIAL_LIST_ARRIVE. -/
def execPartialListArrive (p : PartIdx) (l : PartialList) (s : State) : Host.Outcome State Fault Refusal := .next (runPartialListArrive p l s)

/-! ## Staging (R246) -/

/-- At the staging of a flip's step, every request with PIN 0 takes the new generation; the old one becomes held where a live
request with PIN 1 has it (R323). -/
def State.stampFlip (s : State) (p : Nat) : State :=
  let x := s.part p
  if x.flipStep = some (x.stepPlus 1) then
    let live := (s.heldSlots p).filter (fun i => (s.slot i).state.live)
    let s1 := live.foldl (fun s i => if (s.slot i).pin then s else s.modSlot i (fun y => { y with wgen := x.newGen })) s
    s1.modPart p (fun y => { y with
      flipHolds := x.curGen != 0 && live.any (fun i => (s.slot i).pin && (s.slot i).wgen == x.curGen) })
  else s

/-- Whether a decode slot of the next step becomes void at staging: its request ended, was cancelled, or is to be replayed after the
running step. -/
def State.staysVoid (s : State) (p i : Nat) (y : Slot) (ended : Bool) : Bool :=
  ended || !y.state.live || y.state == .parked || y.cancelReq.isSome || y.twinWaits ||
    ((s.part p).carriesSlot i && (y.poisoned || y.wantReplay))

/-- The drafts of a request as the running step leaves it (R257, R258). -/
def State.draftsOf (s : State) (maxDraft : Nat) (y : Slot) : List Nat :=
  let k := Nat.min (Nat.min maxDraft y.draft) (y.maxNew - y.genLen - 1)
  match y.spec with
  | 1 => lookupDrafts (s.fldOf (s.pReg 0x206 .smpLookup) 0 4) (s.fldOf (s.pReg 0x206 .smpLookup) 16 11) k y.ctx
  | 2 => match y.twin with
    | some t => ((s.slot t).ctx.drop (y.pos + 1)).take k
    | none => []
  | _ => []

/-- A decode slot of the next step, completed. -/
def State.fillDecode (s : State) (p maxDraft : Nat) (d : DecodeSlot) : DecodeSlot :=
  match d.slot with
  | none => d
  | some i =>
    let a := s.slotAfter p i
    match a.1.lastToken with
    | none => ⟨none, 0, 0, []⟩
    | some t => if s.staysVoid p i a.1 a.2.isSome then ⟨none, 0, 0, []⟩ else ⟨some i, a.1.pos, t, s.draftsOf maxDraft a.1⟩

/-- A page set for a block of a request that has none yet, from its earmarks (R238). -/
def State.needPage (s : State) (i b : Nat) : State :=
  let x := s.slot i
  if ((x.vector[b]?).join).isSome then s
  else match s.allocPage x.part i with
    | some r => r.2.modSlot i (fun y => { y with vector := setVec y.vector b r.1 })
    | none => s

/-- Page sets for the positions that a step writes for requests that are live. -/
def State.stepPages (s : State) (st : Step) : State :=
  let s1 := st.dec.foldl (fun s d => match d.slot with
    | some i => (List.range ((d.pos + d.drafts.length) / 64 - d.pos / 64 + 1)).foldl (fun s n => s.needPage i (d.pos / 64 + n)) s
    | none => s) s
  st.pre.foldl (fun s q =>
    let x := s.slot q.slot
    if x.state.live ∧ x.state ≠ .parked ∧ x.cancelReq.isNone = true then s.needPage q.slot (q.pos / 64) else s) s1

/-- The adapter bound to the stream of a request (R317). -/
def State.adapterFor (s : State) (i : Option Nat) : Option Nat :=
  match i with
  | none => none
  | some j => if (s.slot j).adapter = 0xFFFF then none else some (s.slot j).adapter

/-- The next step with its decode slots completed and its streams bound. -/
def State.fillStep (s : State) (p maxDraft : Nat) (st : Step) : Step :=
  let dec := st.dec.map (s.fillDecode p maxDraft)
  { st with dec := dec, filled := true, adapters := padTo 256 none (dec.map (fun d => s.adapterFor d.slot)) ++ st.streams.map s.adapterFor }

/-- MAX_DRAFT of a step's shape. -/
def Part.maxDraft (x : Part) (st : Step) : Nat :=
  match x.form.bind (fun f => f.shapes[st.shape]?) with
  | some sh => sh.maxDraft
  | none => 0

/-- STEP_STAGING: once every token of the running step is chosen, the decode slots of the next one are completed and its patches
staged. -/
def runStepStaging (p : PartIdx) (s : State) : State :=
  let x := s.part p.val
  match x.next with
  | none => s
  | some n =>
    if x.job = .running ∧ n.filled = false ∧ (x.running.isNone || x.sampled) = true then
      let s1 := s.stampFlip p.val
      let st := s1.fillStep p.val (x.maxDraft n) n
      let drafts := st.dec.foldl (fun a d => a + d.drafts.length) 0
      let s2 := s1.bumpPair (s1.pReg 0x206 .smpProposedLo) (s1.pReg 0x206 .smpProposedHi) drafts
      ((s2.modPart p.val (fun y => { y with next := some st })).stepPages st).lowater p.val
    else s

/-- The command STEP_STAGING. -/
def execStepStaging (p : PartIdx) (s : State) : Host.Outcome State Fault Refusal := .next (runStepStaging p s)

/-- STAGING_COMPLETE: the patches of the next step are staged, and the principal is ready (R247, R216). -/
def runStagingComplete (p : PartIdx) (s : State) : State :=
  let x := s.part p.val
  match x.next with
  | none => s
  | some n =>
    if n.filled = true ∧ x.staged = false then
      let s1 := s.modPart p.val (fun y => { y with staged := true, stagedAt := s.bow.time })
      if s1.prinCanReady p.val then (s1.modPart p.val (fun y => { y with prinReady := true })).readyCheck p.val else s1
    else s

/-- The command STAGING_COMPLETE. -/
def execStagingComplete (p : PartIdx) (s : State) : Host.Outcome State Fault Refusal := .next (runStagingComplete p s)

end Sys2Proof.Machine
end

