-- ==== Sys2Proof/Machine/Launch.lean ====
section
/-!
DEFINITION. LAUNCH (R217): the commit of the step that ran (R249), and the start of the next one at every die: staged maps (R322),
step patches (R203, R204, R234), landing counters (R152), notify increments held for it (R353), hot copies (R280), stream cursors
(R272), plan meters (R392) and the tile sequencers (R183, R184).
-/

namespace Sys2Proof.Machine

/-! ## The hold that ends (R219) -/

/-- BOW_LASTHOLD takes the length of the hold that the LAUNCH ends, and the tiles raise it no longer. -/
def State.endHold (s : State) (p : Nat) : State :=
  let x := s.part p
  match x.heldSince with
  | none => s
  | some t =>
    let s1 := s.setFld (s.pReg 0x201 .bowLasthold p) 0 24 (Nat.min ((s.bow.time - t) / 16) (2 ^ 24 - 1))
    x.tiles.foldl (fun s t => s.setFld (tReg t .tilStatus) 3 1 0) s1

/-! ## Requests at a LAUNCH (R242, R243, R429) -/

/-- The slots of requests that a step carries. -/
def Step.slots (st : Step) (void : Nat) : List Nat :=
  (st.dec.filterMap (fun d => d.slot) ++ (st.pre.map (fun q => q.slot)).filter (fun i => i != void)).eraseDups

/-- The parts of requests that ended, or are parked, run as void tokens (R243). -/
def State.dropEnded (s : State) (p : Nat) (st : Step) : Step :=
  let void := (s.part p).voidSlot
  (st.slots void).foldl (fun st i => if (s.slot i).state.live && (s.slot i).state != .parked then st else st.without i void) st

/-- A request enters PREFILL with its first prompt tokens (R242), and a replay run begins (R429). -/
def State.enterStep (s : State) (st : Step) (void : Nat) : State :=
  (st.slots void).foldl (fun s i => s.modSlot i (fun x => { x with
    state := if x.state = .queued then .prefill else x.state, replaying := x.wantReplay, wantReplay := false })) s

/-- The groups of a step: one for each of its tokens that a request has (R252); a token is drawn for each position of a decode slot
and for the last prompt token of a request. -/
def State.groupsOf (s : State) (st : Step) (void : Nat) : List Group :=
  st.dec.flatMap (fun d => match d.slot with
    | some i => (List.range (d.drafts.length + 1)).map (fun j => ⟨i, d.pos + j, true, 0, false, []⟩)
    | none => []) ++
  (st.pre.filter (fun q => q.slot != void)).map (fun q => ⟨q.slot, q.pos, decide (q.pos + 1 = (s.slot q.slot).promptLen), 0, false, []⟩)

/-! ## Step patches (R202 to R204, R234) -/

/-- A token of a step as a patch sees it: REQ_SLOT, TOKEN_POS, token ID, WGEN and page set. -/
structure TokenQ where
  slot : Nat
  pos  : Nat
  id   : Nat
  wgen : Nat
  page : Nat

/-- A token of a request at a position. -/
def State.tokenQ (s : State) (i pos id : Nat) : TokenQ := ⟨i, pos, id, (s.slot i).wgen, (((s.slot i).vector[pos / 64]?).join).getD 0⟩

/-- A void token. -/
def Part.voidQ (x : Part) : TokenQ := ⟨x.voidSlot, 0, 0, x.curGen, 0⟩

/-- The token that a patch names in a step. -/
def State.patchToken (s : State) (p : Nat) (st : Step) (e : Patch) : TokenQ :=
  let x := s.part p
  if e.prefill then
    match st.pre[e.slot]? with
    | some q => if q.slot = x.voidSlot then x.voidQ else s.tokenQ q.slot q.pos (((s.slot q.slot).ctx[q.pos]?).getD 0)
    | none => x.voidQ
  else match st.dec[e.slot]? with
    | none => x.voidQ
    | some d => match d.slot with
      | none => x.voidQ
      | some i =>
        if e.draft = 0 then s.tokenQ i d.pos d.token
        else match d.drafts[e.draft - 1]? with
          | some t => s.tokenQ i (d.pos + e.draft) t
          | none => x.voidQ

/-- The quantity of a step patch, with what is added to it. -/
def State.stepQuantity (s : State) (x : Part) (q : TokenQ) (n : Nat) : Option (Nat × Nat) :=
  match n with
  | 0x10 => some (q.slot, 0)
  | 0x11 => some (q.pos, 0)
  | 0x12 => some (q.id, 0)
  | 0x13 => some (q.wgen, 0)
  | 0x14 => some (q.page, (s.loadQuantity x 1).getD 0)
  | _ => none

/-- The patches of a step, in table order. -/
def State.stepPatches (s : State) (p : Nat) (st : Step) : State :=
  match (s.part p).form with
  | none => s
  | some f => f.patches.foldl (fun s e =>
      if e.shape = 0xFF ∨ e.shape = st.shape then
        match s.stepQuantity (s.part p) (s.patchToken p st e) e.quantity with
        | some v => s.applyPatch p { e with addend := e.addend + (v.2 : Int) } v.1
        | none => s
      else s) s

/-! ## The tiles -/

/-- A tile begins a step: its sequencer runs from step cycle 0 with Δ 0. One without operations for the shape has nothing to do. -/
def State.launchTile (s : State) (shape : Nat) (t : TileId) : State :=
  let s1 := s.flushAll t
  let prog := match s1.formOf t, (s1.tile t).ltile with
    | some f, some lt => ((f.tiles[lt]?).bind (fun y => y.programs[shape]?)).getD []
    | _, _ => []
  let s2 := s1.modTile t (fun y => { y.settled with
    nextOp := 0, slices := [], emits := [], grads := [],
    delta := 0, slackUse := 0, resUse := 0, overSlack := false, reported := [], reports := [], samples := [], nwHits := [], access := [],
    vecFree := 0, dmaFree := 0, waitq := [], shields := [], xfers := [], inbuf := [], ended := prog.isEmpty || y.fenced, waitDraw := false,
    meter := (s1.grants t).1 })
  (s2.setTileState t 2).showInflight t

/-- A LAUNCH clears the landing counters of every tile of its partition (R152). -/
def State.clearLandings (s : State) (p : Nat) : State :=
  let ds := (s.part p).dies
  { s with regs := Tbl.mapV s.regs (fun k v => if k.reg = .tilLand ∧ ds.contains k.die = true then 0 else v) }

/-- POS and the page vector of the requests of a step, as its streams read them (R272, R273). -/
def State.streamsAt (s : State) (st : Step) (void : Nat) : Tbl Nat (Nat × List (Option Nat)) :=
  (st.slots void).map (fun i => (i, (s.slot i).pos, (s.slot i).vector))

/-- Step cycles count anew for the arrays of a partition. -/
def State.launchArrays (s : State) (p : Nat) : State :=
  let ds := (s.part p).dies
  { s with arrays := Tbl.mapV s.arrays (fun k a => if ds.contains k.tile.die.val then { a with busyUntil := 0, outReady := 0, extra := 0 } else a) }

/-- The hot index of every page set at the LAUNCH (R280). -/
def State.hotNow (s : State) (p : Nat) : Tbl Nat Nat :=
  (s.pages.filter (fun e => e.1.1 == p)).filterMap (fun e => e.2.hotIdx.map (fun h => (e.1.2, h)))

/-! ## LAUNCH -/

/-- A repair's commit step is reached: repair hold ends (R436). -/
def State.endRepair (s : State) (p : Nat) : State :=
  let x := s.part p
  if x.repairStep = some x.stepNo.toNat then
    (s.modPart p (fun y => { y with repair := none, repairStep := none, repairCause := 0 })).setFld (s.pReg 0x20F .fltRepairlim) (16 + p) 1 0
  else s

/-- A partition whose live banks still reference a FENCED array enters repair hold again (R435). -/
def State.stillFenced (s : State) (p : Nat) : State :=
  if (s.part p).repair.isSome then s
  else match (s.part p).tiles.findSome? s.refsFenced with
    | some c => s.repairEnter p c
    | none => s

/-- The schedule of the step that starts. -/
def Part.begin (x : Part) (st : Step) (now : Nat) (groups : List Group) (hot : Tbl Nat Nat)
    (streams : Tbl Nat (Nat × List (Option Nat))) : Part :=
  { x with
    running := some st, next := none, staged := false, idle := false, cutDone := false, prinReady := false, readyDies := [],
    readyAt := none, heldSince := none, barrier := none, holdSent := false, overrun := false, barrierTx := false, launched := true,
    launchTime := now, groups := groups, chosen := [], cursors := [], readers := [], hotSnap := hot, hotFreed := [],
    cyc := 0, atLaunch := streams,
    barriersRx := x.barriersRx.filter (fun b => decide ((b.2.1 + 2 ^ 16 - x.stepArg) % 2 ^ 16 < 2 ^ 15)), heldNotes := [] }

/-- The next step starts; `st` is the step as it was staged. -/
def State.startStep (s : State) (p : Nat) (st0 : Step) : State :=
  let s1 := s.modPart p (fun x => { x with stepNo := x.stepNo + 1, next := none, running := none })
  let s2 := ((((s1.endRepair p).applyMaps p).stillFenced p).stageCopies p).loadCheck p
  let x := s2.part p
  let st := s2.dropEnded p st0
  let s3 := s2.enterStep st x.voidSlot
  let s4 := s3.setPart p (x.begin st s3.bow.time (s3.groupsOf st x.voidSlot) (s3.hotNow p) (s3.streamsAt st x.voidSlot))
  let s5 := x.tiles.foldl (fun s t => s.launchTile st.shape t) ((s4.launchArrays p).clearLandings p)
  let s6 := x.heldNotes.foldl (fun s n => (s.notify n.1 n.2.1).sendAck n.2.2.1 n.2.2.2.1 n.2.2.2.2) s5
  (s6.stepPatches p st).dropHold p

/-- PHASE 0x10 of BOOT_STATUS: serving. -/
def State.servingNow (s : State) : State := s.bootFld 0 5 0x10

/-- A LAUNCH is applied. -/
def State.launchStep (s : State) (p : Nat) : State :=
  let s1 := (s.endHold p).commit p
  let x := s1.part p
  match x.next with
  | none => s1
  | some st => if x.job = .running then (s1.startStep p st).servingNow else s1

/-- LAUNCH: the symbol of its slot, applied at t_L of R217. The source sends one for a partition whose next step is staged, and not
before that time: otherwise its slot carries no command. -/
def runLaunch (p : PartIdx) (s : State) : State :=
  s.applySymbol (.launch p.val) (fun s =>
    let x := s.part p.val
    if x.job = .running ∧ x.staged = true ∧ (match s.launchAt p.val with
        | some t => decide (t ≤ s.bow.time)
        | none => false) = true then s.launchStep p.val
    else s)

/-- The command LAUNCH. -/
def execLaunch (p : PartIdx) (s : State) : Host.Outcome State Fault Refusal := .next (runLaunch p s)

end Sys2Proof.Machine
end

