-- ==== Sys2Proof/Machine/RegView.lean ====
section
/-!
DEFINITION. What each register reads as (R6, R31): most hold their own word; the registers here show other state, as their tables
say.
-/

namespace Sys2Proof.Machine

/-! ## Tiles and arrays -/

/-- TIL_ID. -/
def viewTilId (k : RegKey) : Nat := k.region % 32 + k.region / 32 % 16 * 2 ^ 8 + k.die % 32 * 2 ^ 16

/-- ARR_STATE of a physical array. -/
def ArrState.code : ArrState → Nat
  | .spare => 0
  | .fulling => 1
  | .staged => 2
  | .mapped => 3
  | .maint => 4
  | .fenced => 5

/-- ARR_STATE_n. -/
def State.viewArr (s : State) (t : TileId) (n : Nat) : Nat :=
  let x := s.arr (arrOf t n)
  x.st.code + boolN x.suspect * 2 ^ 3 + (if x.st = .fenced then x.cause.toNat else 0) * 2 ^ 8 +
    boolN (s.bankRefs t false n) * 2 ^ 16 + boolN (s.bankRefs t true n) * 2 ^ 17

/-- How many arrays of a tile are in a state. -/
def State.countArr (s : State) (t : TileId) (st : ArrState) : Nat := ((List.range 64).filter (fun n => (s.arr (arrOf t n)).st == st)).length

/-- ARR_GOOD. -/
def State.viewGood (s : State) (t : TileId) : Nat :=
  64 - s.countArr t .fenced + s.countArr t .spare * 2 ^ 8 + s.countArr t .mapped * 2 ^ 16

/-- CNF_DIE_ARRAY.DUE: the arrays of a die past their period; it saturates. -/
def State.viewDue (s : State) (d : Nat) : Nat :=
  Nat.min 0xFFFF ((s.arrays.filter (fun e => e.1.tile.die.val == d && e.2.st != .fenced && s.calDue e.1)).length)

/-! ## Bowstring, requests, pages -/

/-- BOW_STATUS of a Brim die. -/
def State.viewBow (s : State) (d : Nat) : Nat :=
  let x := s.die d
  let w := s.throttle x
  boolN (d == s.prinDie) + boolN x.alive * 2 + boolN x.emerg * 4 + boolN x.frozen * 8 + w.2 % 16 * 2 ^ 4 + w.1 % 4 * 2 ^ 8

/-- REQ_OCC of a partition. -/
def State.viewOcc (s : State) (p : Nat) : Nat :=
  let n (f : SlotState → Bool) : Nat := ((s.heldSlots p).filter (fun i => f (s.slot i).state)).length
  n (fun st => st == .queued || st == .prefill) + n (fun st => st == .decode) * 2 ^ 16

/-- A word of REQ_SLOT: the slot's record as of its partition's last commit. -/
def State.viewSlot (s : State) (i : Nat) : Nat := leAt (Tbl.get s.slotRec (i / 32) Slot.reset.bytes) (4 * (i % 32)) 4

/-- SMP_STATUS: how many of the entries that the groups hold are not merged yet is a matter of time the spec leaves open (log 5);
PENDING counts the complete groups. -/
def State.viewSmp (s : State) : Nat × State :=
  let gs := s.parts.flatMap (fun e => e.2.groups.map (fun g => (g, s.listsPer e.1)))
  let total := gs.foldl (fun a g => a + g.1.entries.length) 0
  let done := (gs.filter (fun g => g.1.draw && decide (g.2 ≤ g.1.lists))).length
  let r := s.draw
  (Nat.min 0xFFFF (r.1 % (total + 1)) + Nat.min 0xFF done * 2 ^ 16, r.2)

/-- KVP_HOT of a partition. -/
def State.viewHot (s : State) (p : Nat) : Nat := (s.part p).hotCap % 2 ^ 16 + (s.hotUsed p).length % 2 ^ 16 * 2 ^ 16

/-! ## Faults, boot, host -/

/-- A word of a fault record, 0 where there is none. -/
def recWord (r : Option FaultRec) (w : Nat) : Nat :=
  match r with
  | some x => leAt x.bytes (4 * w) 4
  | none => 0

/-- BOOT_ID of a die. -/
def State.viewBootId (s : State) (d : Nat) : Nat :=
  d % 64 + s.fuses.stepping % 16 * 2 ^ 8 + s.fuses.contracts % 16 * 2 ^ 12 + s.fuses.grade % 4 * 2 ^ 16

/-- BOOT_ROLE of a Brim die. -/
def State.viewRole (s : State) (d : Nat) : Nat :=
  (d - 0x20) % 4 + boolN s.power.priSel * 4 + boolN (d == s.prinDie) * 8 + s.boot.principal % 4 * 2 ^ 4

/-- BOOT_GOOD: the arrays of the device that are not FENCED. -/
def State.viewAllGood (s : State) : Nat := 32 * 512 * 64 - (s.arrays.filter (fun e => e.2.st == .fenced)).length

/-- HIF_STATUS: the rate and width of a link that is up are what training reached (log 5). -/
def State.viewHif (s : State) : Nat × State :=
  let w := s.regN (s.hif .hifStatus) / 2 ^ 6 * 2 ^ 6
  if s.host.linkUp then
    let r := s.draw
    let q := r.2.draw
    (w + 1 + (r.1 % 5 + 1) * 2 + q.1 % 3 * 2 ^ 4, q.2)
  else (w, s)

/-- Converter telemetry of a Body die: a measured value, 0 with its rails off. -/
def State.viewRail (s : State) (d : Nat) : Nat × State :=
  if (s.die d).railsOn then
    let r := s.draw
    let q := r.2.draw
    (r.1 % 2 ^ 12 + q.1 % 2 ^ 12 * 2 ^ 16, q.2)
  else (0, s)

/-! ## The view of a register -/

/-- A register that shows other state, as a word; none for one that holds its own. -/
def State.viewOf (s : State) (k : RegKey) : Option Nat :=
  let t := tileOf k.die k.region
  let stored := s.regN k
  match k.reg with
  | .tilId => some (viewTilId k)
  | .tilStatus => some (putFld (putFld stored 8 4 ((s.partOfDie k.die).getD 0)) 3 1 (if s.tileDone t then 0 else fld stored 3 1))
  | .tilTicket => some ((s.tile t).opTickets % 2 ^ 16 + (s.tile t).fullTickets % 2 ^ 16 * 2 ^ 16)
  | .tilMeter => some ((s.tile t).meter % 2 ^ 16 + boolN (s.tile t).waitDraw * 2 ^ 16)
  | .arrState => some (s.viewArr t k.idx)
  | .arrGood => some (s.viewGood t)
  | .cnfDieArray => some (putFld stored 16 16 (s.viewDue k.die))
  | .bowStatus => some (s.viewBow k.die)
  | .bowTimeLo => some ((s.die k.die).timeCopy % 2 ^ 32)
  | .bowTimeHi => some ((s.die k.die).timeCopy / 2 ^ 32 % 2 ^ 32)
  | .bowStep => some (s.part k.idx).stepNo.toNat
  | .thmLimits => some (s.regN (s.pReg 0x203 .thmLimits))
  | .reqStatus => some s.activeSlots
  | .reqAdmitLo => some (s.admitSeq % 2 ^ 32)
  | .reqAdmitHi => some (s.admitSeq / 2 ^ 32)
  | .reqOcc => some (s.viewOcc k.idx)
  | .reqSlot => some (s.viewSlot k.idx)
  | .kvpFree => some (s.freePages k.idx).length
  | .kvpIdle => some (s.idlePages k.idx).length
  | .kvpHot => some (s.viewHot k.idx)
  | .pfxUsed => some (s.index.filter (fun e => e.2.valid)).length
  | .cnfBandgap => some (((s.fuses.bandgap[k.die - 0x20]?).getD 0).toNat)
  | .fltRec => some (recWord (Tbl.find (s.die k.die).flog (k.idx / 8)) (k.idx % 8))
  | .fltBrec => some (recWord (Tbl.find (s.die k.die).flog (k.idx / 8)) (k.idx % 8))
  | .fltLog => some (recWord (Tbl.find s.central (k.idx / 8)) (k.idx % 8))
  | .bootId => some (s.viewBootId k.die)
  | .bootBid => some (s.viewBootId k.die)
  | .bootRole => some (s.viewRole k.die)
  | .bootSerialLo => some (s.fuses.serial.toNat % 2 ^ 32)
  | .bootSerialHi => some (s.fuses.serial.toNat / 2 ^ 32)
  | .bootCensus => some (s.fuses.firstGood % 2 ^ 21 + boolN s.fuses.censusDone * 2 ^ 31)
  | .bootGood => some s.viewAllGood
  | .bootOwner => if s.fuses.ownerSet then some ((s.fuses.owner[k.idx]?).getD 0).toNat else none
  | .hifParked => some (s.parkedSlots % 2 ^ 13 + s.host.retained.length % 2 ^ 13 * 2 ^ 16)
  | .ctrCycleLo => some ((s.die k.die).cycles % 2 ^ 32)
  | .ctrCycleHi => some ((s.die k.die).cycles / 2 ^ 32 % 2 ^ 32)
  | .ctrStatus => some (putFld stored 16 1 (boolN (s.die k.die).frozen))
  | .ctrShCycleLo => some ((s.die k.die).shCycles % 2 ^ 32)
  | .ctrShCycleHi => some ((s.die k.die).shCycles / 2 ^ 32 % 2 ^ 32)
  | .ctrShLo => some (s.shadowOf { k with reg := .ctrValLo })
  | .ctrShHi => some (s.shadowOf { k with reg := .ctrValHi })
  | _ => none

/-- What a register reads as, and the state with the free values drawn for it. A register of the principal reads 0 on another Brim
die (R31), and so does one of the bowstring for each partition (06_bowstring.md, "BOW_ registers"). -/
def State.view (s : State) (k : RegKey) : Nat × State :=
  let hidden := match k.reg.row.unit with
    | .prin _ | .brimP _ | .prinB _ => decide (k.die ≠ s.prinDie)
    | .tile | .body _ | .brim _ | .crown _ | .ctr =>
      decide (k.die ≠ s.prinDie) && [Reg.bowStep, .bowHoldlim, .bowLasthold, .bowJob].contains k.reg
  if hidden then (0, s)
  else match k.reg with
    | .smpStatus => s.viewSmp
    | .hifStatus => s.viewHif
    | .pwrDieCore => s.viewRail k.die
    | .pwrDieArr => s.viewRail k.die
    | _ => match s.viewOf k with
      | some v => (v, s)
      | none => (fieldsRead k.reg.row.fields (s.regN k), s)

end Sys2Proof.Machine
end

