-- ==== Sys2Proof/Machine/Repairs.lean ====
section
/-!
DEFINITION. Poison reports (R426 to R428), the repairs of a repair hold (R436, R437, R439), the central fault log (R442), and
firmware's answer to a fence before a flip (R326).
-/

namespace Sys2Proof.Machine

/-! ## Poison (R426) -/

/-- POISON_REPORT_ARRIVE: a tile's report for a slot and step reaches the principal (R426). -/
def runPoisonReportArrive (p : PartIdx) (slot : SlotIdx) (step : W32) (s : State) : State :=
  let x := s.part p.val
  let s1 := match x.tiles.find? (fun t => (s.tile t).reports.contains slot.val) with
    | some t => s.modTile t (fun y => { y with reports := y.reports.erase slot.val })
    | none => s
  if x.job = .running ∧ step = x.stepNo ∧ slot.val ≠ x.voidSlot ∧ x.carriesSlot slot.val = true then s1.poisonRequest p.val slot.val else s1

/-- The command POISON_REPORT_ARRIVE. -/
def execPoisonReportArrive (p : PartIdx) (slot : SlotIdx) (step : W32) (s : State) : Host.Outcome State Fault Refusal :=
  .next (runPoisonReportArrive p slot step s)

/-! ## Repairs (R436, R439) -/

/-- A fenced array of a partition is refulled into a SPARE array of its tile, from the live chunk. -/
def State.repairArray (s : State) (p : Nat) (old : ArrayId) (spare : Nat) : State :=
  if (s.arr old).st = .fenced ∧ s.partOfDie old.tile.die.val = some p ∧ (s.sparesOf old.tile).contains spare = true then
    match s.imageFor old with
    | none => s
    | some i =>
      let j : FulJob := ⟨old.tile.region, Fin.ofNat 64 spare, i.2.2.fmt, 0, 0, .repair p old.phys.val, 0, 0⟩
      let s1 := s.submitJob old.tile.die.val j
      if (s.object i.1 i.2.1).isSome then s1 else s1.fetchStart p i.1 i.2.1 imageLen false
  else s

/-- A slice of a weight page that holds an uncorrectable line is rewritten from its live chunk, from the cache or else from the source. -/
def State.repairSlice (s : State) (p page d j : Nat) : State :=
  if !s.poisonedIn (s.sliceAddr (s.part p) d j (page + 1)) (s.part p).fr then s
  else match latestSlice (s.part p).chain page d j with
  | none => s
  | some i => match s.object i.1 i.2.1 with
    | some b => ((s.touch i.1 i.2.1).putSlice p d j (page + 1) b).sliceRepaired p
    | none => s.fetchStart p i.1 i.2.1 (s.part p).fr false

/-- Drops every hot copy of a partition. -/
def State.dropHot (s : State) (p : Nat) : State :=
  { s with pages := s.pages.map (fun e => if e.1.1 = p then (e.1, { e.2 with hotIdx := none }) else e) }

/-- A logical tile takes a new position: its program, descriptors, bound table and norm windows are loaded there, every descriptor and bound
entry that names the old position is relocated, and its images are fulled there from the live chunks. Frames are numbered by tile
region, so hot copies are dropped: the warm copies are current (R278). -/
def State.moveTile (s : State) (p lt pos : Nat) (t : FormTile) : State :=
  let old := tileAt ((s.part p).placedAt lt)
  let new := tileAt pos
  let s1 := (s.dropHot p).modPart p (fun x => { x with placed := Tbl.put x.placed lt pos })
  let s2 := (s1.modTile old (fun y => { y with ltile := none, waitq := [] })).setTileState old 0
  let s3 := (s2.modTile new (fun y => { y with ltile := some lt, windows := List.replicate 8 NormWindow.reset })).setTileState new 1
  let s4 := (((List.range ((s3.part p).placed.length)).foldl (fun s n => s.loadTables p n) s3).loadWindows p lt).loadPatches p
  let olds := (s4.liveEntries old).map (fun e => (e.2.2.1, e.2.2.2))
  let imgs := olds.foldl (fun l e => if l.any (fun k => k.1 == e.1) then l else l ++ [e]) ([] : List (Nat × Nat))
  let s5 := (imgs.zip (s4.sparesOf new)).foldl (fun s e =>
    s.submitJob t.dir.die ⟨new.region, Fin.ofNat 64 e.2, e.1.2, 0, 0, .move p old.region e.1.1, 0, 0⟩) s4
  s5.moveReady p old new

/-- Whether a logical tile has to move (R436): its tile is fenced, or a live entry names a fenced array of it and no array of it is
SPARE. -/
def State.mustMove (s : State) (p lt : Nat) : Bool :=
  let t := tileAt ((s.part p).placedAt lt)
  (s.tile t).fenced || ((List.range 64).any (fun n => (s.arr (arrOf t n)).st == .fenced && s.liveRefs t n) && (s.sparesOf t).isEmpty)

/-- TILE_MOVE (R439): to the first of ALT1 and ALT2 that is not fenced, holds no placed logical tile and has SPARE arrays enough;
with none, the job ends with a tile-unavailable fault. -/
def State.repairMove (s : State) (p lt : Nat) : State :=
  let x := s.part p
  if !s.mustMove p lt then s
  else match x.form.bind (fun f => f.tiles[lt]?) with
  | none => s
  | some t => match s.firstPos t (x.placed.map (·.2)) [t.dir.alt1, t.dir.alt2] with
    | some pos => s.moveTile p lt pos t
    | none => s.jobFault 0x1004 t.dir.die 0x87 (x.placedAt lt % 512) lt (some p)

/-- REPAIR_BEGIN: firmware repairs a partition in repair hold. -/
def runRepairBegin (p : PartIdx) (k : RepairKind) (s : State) : State :=
  if (s.part p.val).repair.isNone || !s.servingUp then s
  else match k with
    | .array old spare => s.repairArray p.val old spare.val
    | .slice page d j => s.repairSlice p.val page d.val j.val
    | .tileMove lt => s.repairMove p.val lt

/-- The command REPAIR_BEGIN. -/
def execRepairBegin (p : PartIdx) (k : RepairKind) (s : State) : Host.Outcome State Fault Refusal := .next (runRepairBegin p k s)

/-- REPAIR_TIMEOUT: a repair hold that has not reached its commit within FLT_REPAIRLIM ends the job (R437). -/
def runRepairTimeout (p : PartIdx) (s : State) : State :=
  let x := s.part p.val
  match x.repair with
  | none => s
  | some t =>
    if t + 1000000 * s.fldOf (s.pReg 0x20F .fltRepairlim) 0 16 ≤ s.bow.time then
      s.jobFault 0x101C s.prinDie 0x87 0 x.repairCause.toNat (some p.val)
    else s

/-- The command REPAIR_TIMEOUT. -/
def execRepairTimeout (p : PartIdx) (s : State) : Host.Outcome State Fault Refusal := .next (runRepairTimeout p s)

/-! ## The central log (R442) -/

/-- FAULT_LOG_APPEND: the oldest record on its way from a die reaches the central log; when the log is full, the oldest record is
overwritten and counted. -/
def runFaultLogAppend (d : DieIdx) (s : State) : State :=
  match (s.die d.val).toCentral with
  | [] => s
  | r :: l =>
    let j := s.centralN % 4096
    let s1 := s.modDie d.val (fun x => { x with toCentral := l })
    let s2 := { s1 with central := Tbl.put s1.central j r, centralN := s.centralN + 1 }
    let s3 := s2.setFld (s2.pReg 0x20F .fltHead) 0 12 ((j + 1) % 4096)
    if 4096 ≤ s.centralN then s3.bump (s3.pReg 0x20F .fltLost) 0 32 1 else s3

/-- The command FAULT_LOG_APPEND. -/
def execFaultLogAppend (d : DieIdx) (s : State) : Host.Outcome State Fault Refusal := .next (runFaultLogAppend d s)

/-! ## A fence before a flip (R326) -/

/-- The replacement of a fenced array of a generation that is not live yet: the commit is disarmed, another SPARE array of the
tile takes the chunk, and the bank is written and the commit armed again once it is STAGED. -/
def State.replaceNew (s : State) (p i : Nat) (a : ArrayId) (l : BoltLoad) (c : Chunk) : State :=
  match s.sparesOf a.tile with
  | [] => s.spareExhausted p a.tile l.boltId
  | n :: _ =>
    let s1 := (s.unstageFlip p).modPart p (fun x => { x with
      flipStep := none, load := some { l with done := l.done.filter (· != i), arrays := Tbl.put l.arrays i (arrOf a.tile n) } })
    let s2 := s1.submitJob a.tile.die.val ⟨a.tile.region, Fin.ofNat 64 n, c.fmt, 0, 0, .bolt p i, 0, 0⟩
    if (s1.object l.boltId i).isSome then s2 else s2.fetchStart p l.boltId i c.len false

/-- The replacement of a fenced array that the generation to become live leaves unchanged: the commit is disarmed and a SPARE array of the
tile takes the live image, unless a repair already fulls one; the bank is rewritten and the commit armed again once it is STAGED. -/
def State.replaceOld (s : State) (p : Nat) (a : ArrayId) (l : BoltLoad) : State :=
  let d := a.tile.die.val
  let s1 := (s.disarmCommit p).modPart p (fun x => { x with flipStep := none, flipHolds := false })
  let busy := ((s.die d).queue ++ (s.die d).backlog ++ (s.die d).full).any (fun j => j.tile == a.tile.region && j.why == .repair p a.phys.val)
  if busy then s1
  else match s.sparesOf a.tile, s.imageFor a with
    | [], _ => s.spareExhausted p a.tile l.boltId
    | _ :: _, none => s1
    | n :: _, some i =>
      let s2 := s1.submitJob d ⟨a.tile.region, Fin.ofNat 64 n, i.2.2.fmt, 0, 0, .repair p a.phys.val, 0, 0⟩
      if (s1.object i.1 i.2.1).isSome then s2 else s2.fetchStart p i.1 i.2.1 imageLen false

/-- FLIP_FENCE_RESPONSE: firmware acts while the partition's step number is at least 2 below S, or before its first LAUNCH; later,
it lets the commit proceed. -/
def runFlipFenceResponse (p : PartIdx) (a : ArrayId) (s : State) : State :=
  let x := s.part p.val
  match x.flipStep, x.load with
  | some st, some l =>
    let d := dist32 x.stepNo.toNat st
    if s.servingUp = true ∧ (s.arr a).st = .fenced ∧ ((2 ≤ d ∧ d < 2 ^ 31) ∨ x.launched = false) then
      match l.arrays.find? (fun e => e.2 == a) with
      | none => if s.bankRefs a.tile x.curBank a.phys.val && s.partOfDie a.tile.die.val == some p.val then s.replaceOld p.val a l else s
      | some e => match l.bolt.bind (fun b => b.chunks[e.1]?) with
        | none => s
        | some c => s.replaceNew p.val e.1 a l c
    else s
  | _, _ => s

/-- The command FLIP_FENCE_RESPONSE. -/
def execFlipFenceResponse (p : PartIdx) (a : ArrayId) (s : State) : Host.Outcome State Fault Refusal := .next (runFlipFenceResponse p a s)

end Sys2Proof.Machine
end

