-- ==== Sys2Proof/Machine/RegAccess.lean ====
section
/-!
DEFINITION. Access to device addresses through the access ports (R6 to R12, R31, R33, R91, R474, R544, R545): register writes, reads
with their snapshots, and memory.
-/

namespace Sys2Proof.Machine

/-! ## Writes -/

/-- A write of a register whose write is a command of its own: that command's meaning. An image that the supervisor fetches is
UPDATE_STAGE's operand, and none comes with this one. -/
def State.ownWrite (s : State) (port : Port) (k : RegKey) (data : W32) : Option State :=
  let t := tileOf k.die k.region
  let body : BodyDie := Fin.ofNat 32 k.die
  let brim : BrimDie := Fin.ofNat 4 (k.die - 0x20)
  let m : ModuleIdx := Fin.ofNat 8 (2 * (k.die - 0x20) + k.idx)
  match k.reg with
  | .tilDesc | .tilBoundLo | .tilBoundHi | .tilBoundLen => some (runDescriptorWrite port t (BitVec.ofNat 16 (addrOff k.addr)) data s)
  | .arrMap0 => some (runArrMapWrite port t false (Fin.ofNat 64 k.idx) data s)
  | .arrMap1 => some (runArrMapWrite port t true (Fin.ofNat 64 k.idx) data s)
  | .arrBank => some (runArrBankWrite port t data s)
  | .mshPart => some (runMshPartWrite port body data s)
  | .mshBorder => some (runMshBorderWrite port body data s)
  | .bowSkipCmd => if s.absent k then some s else some (runSkipIssue port data s)
  | .bowEmerg => if k.die = s.prinDie then some (runBowEmergWrite port data s) else none
  | .bowEmergSrc => if k.die = s.prinDie then some (runEmergencyForce port data s) else none
  | .bowFreezeCmd => if s.absent k then some s else some (runFreezeArm port data s)
  | .reqKill => if s.absent k then some s else some (runReqKill port data s)
  | .fulJobPush => some (runFullingJobPush port body data s)
  | .fulCommitCtrl => some (runFulCommitArm port body data s)
  | .lnkChan => if s.absent k then some s else some (runLinkChannelWrite port (Fin.ofNat 64 k.idx) 0 data s)
  | .lnkCwin => if s.absent k then some s else some (runLinkChannelWrite port (Fin.ofNat 64 k.idx) 1 data s)
  | .lnkCnote => if s.absent k then some s else some (runLinkChannelWrite port (Fin.ofNat 64 k.idx) 2 data s)
  | .lasCtrl => some (runLaserOn port m data s)
  | .lasSpsrc => some (runLasSpsrcWrite port brim data s)
  | .thmLimits => some (runThmLimitsWrite port brim data s)
  | .snsCtrl => some (runSensorRefSelect port brim data s)
  | .snsEnt => some (runSensorEntryWrite port brim (.ent (Fin.ofNat 16 k.idx)) data s)
  | .snsSeq => some (runSensorEntryWrite port brim (.seq (Fin.ofNat 4 k.idx)) data s)
  | .bootReset => if k.die = s.prinDie then some (runResetCommand port data s) else none
  | .bootWdog => if k.die = s.prinDie then some (runWatchdogKick port data s) else none
  | .bootUpdCmd => if k.die = s.prinDie then some (runUpdateStage port data [] true s) else none
  | .bootOwner => if s.absent k then some s else some (runOwnerHashWrite port (Fin.ofNat 12 k.idx) data s)
  | .bootOwnerBurn => if s.absent k then some s else some (runOwnerBurn port data s)
  | .hifSq0Tail => if s.absent k then some s else some (runSq0TailWrite port data s)
  | .hifSq1Tail => if s.absent k then some s else some (runSq1TailWrite port data s)
  | .hifCqHead => if s.absent k then some s else some (runCqHeadWrite port data s)
  | .hifSessionCmd => if s.absent k then some s else some (runSessionOpen port data s)
  | .hifHeartbeat => if s.absent k then some s else some (runHeartbeat port data s)
  | .ctrSel => some (runCounterSelectWrite port (BitVec.ofNat 48 k.addr) data s)
  | .ctrRdCtrl => if s.absent k then some s else some (runReaderArm port data s)
  | _ => none

/-- A write of PFX_EPOCH: adapter ids that were retired may be used again in a new epoch (R318). -/
def State.epochWrite (s : State) (port : Port) (k : RegKey) (d : Nat) : State :=
  let s1 := s.regWrite port k d
  if s1.fldOf k 0 16 = s.fldOf k 0 16 then s1 else s1.modPart k.idx (fun x => { x with retired := [] })

/-- A whole write of a register. -/
def State.writeReg (s : State) (port : Port) (k : RegKey) (data : W32) : State :=
  match s.ownWrite port k data with
  | some s1 => s1
  | none => if k.reg = .pfxEpoch then s.epochWrite port k data.toNat else s.regWrite port k data.toNat

/-- The bytes that a write's byte enables leave in a word. -/
def mergeWord (old data : Nat) (be : BitVec 4) : Nat :=
  (List.range 4).foldl (fun w i => if bit be.toNat i then putFld w (8 * i) 8 (fld data (8 * i) 8) else w) old

/-- The BAR0 offset through which the endpoint reaches a device address (R473). -/
def State.bar0Off (s : State) (a : Nat) : Nat :=
  if addrDie a = s.prinDie ∧ 0x200 ≤ addrRegion a ∧ addrRegion a < 0x220 ∧ addrOff a < 2 ^ 20 then (addrRegion a - 0x200) * 2 ^ 20 + addrOff a
  else 0x2000000 + (a - s.pair (s.hif .hifApertureLo) (s.hif .hifApertureHi))

/-- A write of the enabled bytes of an aligned word of memory. -/
def State.writeMem (s : State) (a : Nat) (data : W32) (be : BitVec 4) : State :=
  (List.range 4).foldl (fun s i => if bit be.toNat i then s.setBytes (a + i) [BitVec.ofNat 8 (fld data.toNat (8 * i) 8)] else s) s

/-- An aligned word of memory written whole, or its enabled bytes. -/
def State.storeMem (s : State) (a : Nat) (data : W32) (be : BitVec 4) : State :=
  if be = 15 then s.setBytes a (leBytes 4 data.toNat) else s.writeMem a data be

/-- The same in Crown memory, where records may stand (R268, R289). -/
def State.storeDram (s : State) (a : Nat) (data : W32) (be : BitVec 4) : State :=
  if be = 15 then s.dramPut (addrDie a - 0x24) a (leBytes 4 data.toNat)
  else (List.range 4).foldl (fun s i => if bit be.toNat i then s.dramPut (addrDie a - 0x24) (a + i) [BitVec.ofNat 8 (fld data.toNat (8 * i) 8)] else s) s

/-- A write through a port of one aligned dword. Of memory a component writes only what the spec gives it in the SRAM (R461): where its own
region lies there is not stated, and no write of SRAM is blocked (DESIGN CHOICE, log 44). -/
def State.busWrite (s : State) (port : Port) (a : Nat) (data : W32) (be : BitVec 4) : State :=
  match regAt a with
  | some k =>
    if be = 15 then s.writeReg port k data
    else if port.isCore then s.writeReg port k (BitVec.ofNat 32 (mergeWord (s.regN k) data.toNat be))
    else s.hostDrop 0x7006 (s.bar0Off a)
  | none => match memAt a with
    | some .sram => s.storeMem a data be
    | some .scratchpad => if port.isCore then s.protFault port else s.storeMem a data be
    | some .dram => if port.isCore then s.protFault port else s.storeDram a data be
    | some .arrayWindow => s.addrFault port a
    | none => s.addrFault port a

/-- REGISTER_WRITE: a write of the aligned dword at an address. -/
def runRegisterWrite (port : Port) (addr : DevAddr) (data : W32) (be : BitVec 4) (s : State) : State :=
  let a := addr.toNat / 4 * 4
  if !s.shut port a then (s.linkSeen port).busWrite port a data be else s

/-- The command REGISTER_WRITE. -/
def execRegisterWrite (port : Port) (addr : DevAddr) (data : W32) (be : BitVec 4) (s : State) : Host.Outcome State Fault Refusal :=
  .next (runRegisterWrite port addr data be s)

/-- PAIR_HI_WRITE: a write of a pair's _HI half takes the _LO value last written on the port (R12). -/
def runPairHiWrite (port : Port) (addr : DevAddr) (data : W32) (s : State) : State :=
  let a := addr.toNat / 4 * 4
  if !s.shut port a then (s.linkSeen port).busWrite port a data 15 else s

/-- The command PAIR_HI_WRITE. -/
def execPairHiWrite (port : Port) (addr : DevAddr) (data : W32) (s : State) : Host.Outcome State Fault Refusal := .next (runPairHiWrite port addr data s)

/-! ## Reads -/

/-- A read of a register: its value is answered; a _LO half captures the pair, a _HI half answers from the port's snapshot, and RC
fields are cleared (R6, R7, R9 to R11). -/
def State.readReg (s : State) (port : Port) (k : RegKey) : State :=
  match k.reg with
  | .fulResult => runFulResultRead port (Fin.ofNat 32 k.die) s
  | _ => match k.reg.row.half with
    | .hi => s.answer port (Tbl.get s.snaps (port, k.loKey) 0).toNat
    | .single =>
      let v := s.view k
      let s1 := v.2.answer port v.1
      if k.reg.row.fields.any (fun f => f.acc == .rc) && !s.absent k then s1.setReg k (BitVec.ofNat 32 (fieldsCleared k.reg.row.fields (s1.regN k))) else s1
    | .lo =>
      let v := s.view k
      let hi := match k.reg.hiOf with
        | some r => (v.2.view { k with reg := r }).1
        | none => 0
      { v.2.answer port v.1 with snaps := Tbl.put v.2.snaps (port, k) (BitVec.ofNat 32 hi) }

/-- A read through a port of one aligned dword; one that reaches nothing answers 0 and is recorded (R33). -/
def State.busRead (s : State) (port : Port) (a : Nat) : State :=
  match regAt a with
  | some k => s.readReg port k
  | none => match memAt a with
    | some .dram => s.answer port (leNat (s.dramBytes (addrDie a - 0x24) a 4))
    | some .scratchpad => s.answer port (s.memLe a 4)
    | some .sram => s.answer port (s.memLe a 4)
    | some .arrayWindow => s.answer port (s.memLe a 4)
    | none => (s.addrFault port a).answer port 0

/-- RC_FIELD_READ: a read of the aligned dword at an address; RC fields take their reset values. -/
def runRcFieldRead (port : Port) (addr : DevAddr) (s : State) : State :=
  let a := addr.toNat / 4 * 4
  if !s.shut port a then (s.linkSeen port).busRead port a else s.answer port 0

/-- The command RC_FIELD_READ. -/
def execRcFieldRead (port : Port) (addr : DevAddr) (s : State) : Host.Outcome State Fault Refusal := .next (runRcFieldRead port addr s)

/-- PAIR_LO_READ: a read of a pair's _LO half captures all 64 bits. -/
def runPairLoRead (port : Port) (addr : DevAddr) (s : State) : State :=
  let a := addr.toNat / 4 * 4
  if !s.shut port a then (s.linkSeen port).busRead port a else s.answer port 0

/-- The command PAIR_LO_READ. -/
def execPairLoRead (port : Port) (addr : DevAddr) (s : State) : Host.Outcome State Fault Refusal := .next (runPairLoRead port addr s)

end Sys2Proof.Machine
end

