-- ==== Sys2Proof/Machine/Dispatch.lean ====
section
/-!
DEFINITION. One arm per command: the meaning of each row of spec/opcode_table.json.
-/

namespace Sys2Proof.Machine

def exec (i : Instr) (s : State) : Host.Outcome State Fault Refusal :=
  match i with
  | .registerWrite port addr data be => Sys2Proof.Machine.execRegisterWrite port addr data be s
  | .rcFieldRead port addr => Sys2Proof.Machine.execRcFieldRead port addr s
  | .pairLoRead port addr => Sys2Proof.Machine.execPairLoRead port addr s
  | .pairHiWrite port addr data => Sys2Proof.Machine.execPairHiWrite port addr data s
  | .vin48Rise => Sys2Proof.Machine.execVin48Rise s
  | .pgoodRise env => Sys2Proof.Machine.execPgoodRise env s
  | .pgoodFall => Sys2Proof.Machine.execPgoodFall s
  | .resetNAssert ns => Sys2Proof.Machine.execResetNAssert ns s
  | .resetCommand port data => Sys2Proof.Machine.execResetCommand port data s
  | .resetNRelease env => Sys2Proof.Machine.execResetNRelease env s
  | .vin48Remove => Sys2Proof.Machine.execVin48Remove s
  | .busConverterUvlo c => Sys2Proof.Machine.execBusConverterUvlo c s
  | .busConverterRestart c => Sys2Proof.Machine.execBusConverterRestart c s
  | .vlasOutOfRange b => Sys2Proof.Machine.execVlasOutOfRange b s
  | .watchdogKick port data => Sys2Proof.Machine.execWatchdogKick port data s
  | .watchdogExpiry => Sys2Proof.Machine.execWatchdogExpiry s
  | .componentFault c => Sys2Proof.Machine.execComponentFault c s
  | .componentHeartbeatStale c => Sys2Proof.Machine.execComponentHeartbeatStale c s
  | .updateStage port data fetched writeOk => Sys2Proof.Machine.execUpdateStage port data fetched writeOk s
  | .updateActivate port data => Sys2Proof.Machine.execUpdateActivate port data s
  | .updateAbort port data => Sys2Proof.Machine.execUpdateAbort port data s
  | .updateQuiescentPoint => Sys2Proof.Machine.execUpdateQuiescentPoint s
  | .updateHeartbeatTimeout c => Sys2Proof.Machine.execUpdateHeartbeatTimeout c s
  | .firmwareTrialConfirm => Sys2Proof.Machine.execFirmwareTrialConfirm s
  | .startRecordTrialConfirm => Sys2Proof.Machine.execStartRecordTrialConfirm s
  | .ownerHashWrite port k data => Sys2Proof.Machine.execOwnerHashWrite port k data s
  | .ownerBurn port data => Sys2Proof.Machine.execOwnerBurn port data s
  | .fenceMapWrite => Sys2Proof.Machine.execFenceMapWrite s
  | .idle corrected => Sys2Proof.Machine.execIdle corrected s
  | .freeze => Sys2Proof.Machine.execFreeze s
  | .thaw => Sys2Proof.Machine.execThaw s
  | .emergency => Sys2Proof.Machine.execEmergency s
  | .launch p => Sys2Proof.Machine.execLaunch p s
  | .hold p => Sys2Proof.Machine.execHold p s
  | .skip release div m => Sys2Proof.Machine.execSkip release div m s
  | .bowSymbolUncorrectable d frame => Sys2Proof.Machine.execBowSymbolUncorrectable d frame s
  | .bowTimeFrame d frame => Sys2Proof.Machine.execBowTimeFrame d frame s
  | .emergencyForce port data => Sys2Proof.Machine.execEmergencyForce port data s
  | .skipIssue port data => Sys2Proof.Machine.execSkipIssue port data s
  | .releaseIssue port data => Sys2Proof.Machine.execReleaseIssue port data s
  | .bowEmergWrite port data => Sys2Proof.Machine.execBowEmergWrite port data s
  | .freezeArm port data => Sys2Proof.Machine.execFreezeArm port data s
  | .freezeTimeReached => Sys2Proof.Machine.execFreezeTimeReached s
  | .thawIssue port data => Sys2Proof.Machine.execThawIssue port data s
  | .stepBarrier p => Sys2Proof.Machine.execStepBarrier p s
  | .dieReady p u => Sys2Proof.Machine.execDieReady p u s
  | .holdLimitExpiry p => Sys2Proof.Machine.execHoldLimitExpiry p s
  | .leaveWindow => Sys2Proof.Machine.execLeaveWindow s
  | .ticketDrawGranted t cycles => Sys2Proof.Machine.execTicketDrawGranted t cycles s
  | .stewardKUpdate unitW edgeW => Sys2Proof.Machine.execStewardKUpdate unitW edgeW s
  | .powerSkipUpdate inputW vin => Sys2Proof.Machine.execPowerSkipUpdate inputW vin s
  | .thermalSkipUpdate => Sys2Proof.Machine.execThermalSkipUpdate s
  | .normalDeclared => Sys2Proof.Machine.execNormalDeclared s
  | .overcurrentTrip r => Sys2Proof.Machine.execOvercurrentTrip r s
  | .railShutdown r => Sys2Proof.Machine.execRailShutdown r s
  | .thermalTrip d => Sys2Proof.Machine.execThermalTrip d s
  | .thmLimitsWrite port b data => Sys2Proof.Machine.execThmLimitsWrite port b data s
  | .sensorFastTick b => Sys2Proof.Machine.execSensorFastTick b s
  | .sensorSlowTick b => Sys2Proof.Machine.execSensorSlowTick b s
  | .sensorConversion b e raw => Sys2Proof.Machine.execSensorConversion b e raw s
  | .sensorRefSelect port b data => Sys2Proof.Machine.execSensorRefSelect port b data s
  | .sensorRefSettled b => Sys2Proof.Machine.execSensorRefSettled b s
  | .sensorEntryWrite port b t data => Sys2Proof.Machine.execSensorEntryWrite port b t data s
  | .sensorLimitWrite port b e data => Sys2Proof.Machine.execSensorLimitWrite port b e data s
  | .arrayCalStart a => Sys2Proof.Machine.execArrayCalStart a s
  | .arrayCalComplete a m refull => Sys2Proof.Machine.execArrayCalComplete a m refull s
  | .calQueueDispatch d => Sys2Proof.Machine.execCalQueueDispatch d s
  | .ringHeaterCal l n drive => Sys2Proof.Machine.execRingHeaterCal l n drive s
  | .equaliserCal l n eye taps => Sys2Proof.Machine.execEqualiserCal l n eye taps s
  | .pllCountCheck pll count => Sys2Proof.Machine.execPllCountCheck pll count s
  | .sensorCal b rawOffset rawGain => Sys2Proof.Machine.execSensorCal b rawOffset rawGain s
  | .bowtrimCal rt => Sys2Proof.Machine.execBowtrimCal rt s
  | .glideStep u => Sys2Proof.Machine.execGlideStep u s
  | .pass32 h o => Sys2Proof.Machine.execPass32 h o s
  | .pass16 h o => Sys2Proof.Machine.execPass16 h o s
  | .nap h o => Sys2Proof.Machine.execNap h o s
  | .passOutputReady a env => Sys2Proof.Machine.execPassOutputReady a env s
  | .tileParityError t => Sys2Proof.Machine.execTileParityError t s
  | .aout h dst larray fmt => Sys2Proof.Machine.execAout h dst larray fmt s
  | .load h dst addr => Sys2Proof.Machine.execLoad h dst addr s
  | .eccWriteback t addr => Sys2Proof.Machine.execEccWriteback t addr s
  | .store h src addr => Sys2Proof.Machine.execStore h src addr s
  | .swload h dst addr layer fmt => Sys2Proof.Machine.execSwload h dst addr layer fmt s
  | .gather h dst addr n1 width stride => Sys2Proof.Machine.execGather h dst addr n1 width stride s
  | .transpose h dst addr width stride => Sys2Proof.Machine.execTranspose h dst addr width stride s
  | .add h dst a b fmt => Sys2Proof.Machine.execAdd h dst a b fmt s
  | .sub h dst a b fmt => Sys2Proof.Machine.execSub h dst a b fmt s
  | .mul h dst a b fmt => Sys2Proof.Machine.execMul h dst a b fmt s
  | .fma h dst a b c fmt => Sys2Proof.Machine.execFma h dst a b c fmt s
  | .min h dst a b fmt => Sys2Proof.Machine.execMin h dst a b fmt s
  | .max h dst a b fmt => Sys2Proof.Machine.execMax h dst a b fmt s
  | .abs h dst a fmt => Sys2Proof.Machine.execAbs h dst a fmt s
  | .neg h dst a fmt => Sys2Proof.Machine.execNeg h dst a fmt s
  | .cmp h dst a b fmt pred => Sys2Proof.Machine.execCmp h dst a b fmt pred s
  | .sel h dst a b c fmt => Sys2Proof.Machine.execSel h dst a b c fmt s
  | .i8add h dst a b => Sys2Proof.Machine.execI8add h dst a b s
  | .i8sub h dst a b => Sys2Proof.Machine.execI8sub h dst a b s
  | .i8min h dst a b => Sys2Proof.Machine.execI8min h dst a b s
  | .i8max h dst a b => Sys2Proof.Machine.execI8max h dst a b s
  | .i8dot4 h dst a b => Sys2Proof.Machine.execI8dot4 h dst a b s
  | .cvt h dst a src tgt => Sys2Proof.Machine.execCvt h dst a src tgt s
  | .exp2 h dst a fmt => Sys2Proof.Machine.execExp2 h dst a fmt s
  | .log2 h dst a fmt => Sys2Proof.Machine.execLog2 h dst a fmt s
  | .rcp h dst a fmt => Sys2Proof.Machine.execRcp h dst a fmt s
  | .rsqrt h dst a fmt => Sys2Proof.Machine.execRsqrt h dst a fmt s
  | .rsum h dst a fmt => Sys2Proof.Machine.execRsum h dst a fmt s
  | .rdot h dst a b fmt => Sys2Proof.Machine.execRdot h dst a b fmt s
  | .rsumsq h dst a fmt => Sys2Proof.Machine.execRsumsq h dst a fmt s
  | .rmax h dst a fmt => Sys2Proof.Machine.execRmax h dst a fmt s
  | .rargmax h dst a fmt => Sys2Proof.Machine.execRargmax h dst a fmt s
  | .bcast h dst a fmt elem => Sys2Proof.Machine.execBcast h dst a fmt elem s
  | .rot h dst a fmt lanes => Sys2Proof.Machine.execRot h dst a fmt lanes s
  | .gatherr h dst a b fmt => Sys2Proof.Machine.execGatherr h dst a b fmt s
  | .tagset h dst slot wgen pos => Sys2Proof.Machine.execTagset h dst slot wgen pos s
  | .quant h src addr layer fmt => Sys2Proof.Machine.execQuant h src addr layer fmt s
  | .nsamp h addr window => Sys2Proof.Machine.execNsamp h addr window s
  | .topk h src inp n1 out k1 base => Sys2Proof.Machine.execTopk h src inp n1 out k1 base s
  | .dma h desc => Sys2Proof.Machine.execDma h desc s
  | .waitl h counter target => Sys2Proof.Machine.execWaitl h counter target s
  | .endOp h => Sys2Proof.Machine.execEndOp h s
  | .operationWaitEnd t cycles => Sys2Proof.Machine.execOperationWaitEnd t cycles s
  | .meshPacketArrival d region p => Sys2Proof.Machine.execMeshPacketArrival d region p s
  | .dmaLanding t xfer env => Sys2Proof.Machine.execDmaLanding t xfer env s
  | .dmaRelease t xfer => Sys2Proof.Machine.execDmaRelease t xfer s
  | .d2dCrcRetry d edge => Sys2Proof.Machine.execD2dCrcRetry d edge s
  | .d2dLinkDown d edge => Sys2Proof.Machine.execD2dLinkDown d edge s
  | .mshPartWrite port d data => Sys2Proof.Machine.execMshPartWrite port d data s
  | .mshBorderWrite port d data => Sys2Proof.Machine.execMshBorderWrite port d data s
  | .descriptorWrite port t offset data => Sys2Proof.Machine.execDescriptorWrite port t offset data s
  | .arrMapWrite port t bank n data => Sys2Proof.Machine.execArrMapWrite port t bank n data s
  | .arrBankWrite port t data => Sys2Proof.Machine.execArrBankWrite port t data s
  | .crownStreamRead c src offset len ecc => Sys2Proof.Machine.execCrownStreamRead c src offset len ecc s
  | .crownAppendWrite c src offset data poison => Sys2Proof.Machine.execCrownAppendWrite c src offset data poison s
  | .crownPoolAccess c src addr write len ecc => Sys2Proof.Machine.execCrownPoolAccess c src addr write len ecc s
  | .adapterWindowRead c src addr len => Sys2Proof.Machine.execAdapterWindowRead c src addr len s
  | .crownRefreshWindow c granule => Sys2Proof.Machine.execCrownRefreshWindow c granule s
  | .crownPatrolScrub c line corrected uncorrectable => Sys2Proof.Machine.execCrownPatrolScrub c line corrected uncorrectable s
  | .fullingJobPush port d data => Sys2Proof.Machine.execFullingJobPush port d data s
  | .fullingJobStart d => Sys2Proof.Machine.execFullingJobStart d s
  | .fullingComplete a rounds => Sys2Proof.Machine.execFullingComplete a rounds s
  | .fullingTimeout a => Sys2Proof.Machine.execFullingTimeout a s
  | .fulResultRead port d => Sys2Proof.Machine.execFulResultRead port d s
  | .fulCommitArm port d data => Sys2Proof.Machine.execFulCommitArm port d data s
  | .fulCommitDisarm port d data => Sys2Proof.Machine.execFulCommitDisarm port d data s
  | .arrayRelease a => Sys2Proof.Machine.execArrayRelease a s
  | .maintenanceStart a => Sys2Proof.Machine.execMaintenanceStart a s
  | .pounceVisit findings => Sys2Proof.Machine.execPounceVisit findings s
  | .poisonReportArrive p slot step => Sys2Proof.Machine.execPoisonReportArrive p slot step s
  | .repairBegin p k => Sys2Proof.Machine.execRepairBegin p k s
  | .repairTimeout p => Sys2Proof.Machine.execRepairTimeout p s
  | .faultLogAppend d => Sys2Proof.Machine.execFaultLogAppend d s
  | .flipFenceResponse p a => Sys2Proof.Machine.execFlipFenceResponse p a s
  | .formLoad p image => Sys2Proof.Machine.execFormLoad p image s
  | .boltLoadRequest p boltId => Sys2Proof.Machine.execBoltLoadRequest p boltId s
  | .boltData port boltId chunk offset total data => Sys2Proof.Machine.execBoltData port boltId chunk offset total data s
  | .boltPieceTimeout p chunk => Sys2Proof.Machine.execBoltPieceTimeout p chunk s
  | .jobStart p => Sys2Proof.Machine.execJobStart p s
  | .adapterUnload p adapter => Sys2Proof.Machine.execAdapterUnload p adapter s
  | .submit port src hdr f => Sys2Proof.Machine.execSubmit port src hdr f s
  | .prefixLookupComplete slot => Sys2Proof.Machine.execPrefixLookupComplete slot s
  | .coldFetchComplete slot block => Sys2Proof.Machine.execColdFetchComplete slot block s
  | .stepCut p => Sys2Proof.Machine.execStepCut p s
  | .partialListArrive p l => Sys2Proof.Machine.execPartialListArrive p l s
  | .stepStaging p => Sys2Proof.Machine.execStepStaging p s
  | .stagingComplete p => Sys2Proof.Machine.execStagingComplete p s
  | .messageRelease p => Sys2Proof.Machine.execMessageRelease p s
  | .cancel port src hdr subSeq => Sys2Proof.Machine.execCancel port src hdr subSeq s
  | .reqKill port data => Sys2Proof.Machine.execReqKill port data s
  | .hotPromotionComplete p page hot => Sys2Proof.Machine.execHotPromotionComplete p page hot s
  | .coldCopyComplete p page coldSlot => Sys2Proof.Machine.execColdCopyComplete p page coldSlot s
  | .flitReceive l n f => Sys2Proof.Machine.execFlitReceive l n f s
  | .linkNak l n seq => Sys2Proof.Machine.execLinkNak l n seq s
  | .retryTimeout l n => Sys2Proof.Machine.execRetryTimeout l n s
  | .laneSignalLoss l n => Sys2Proof.Machine.execLaneSignalLoss l n s
  | .laneRetrainTimer l n => Sys2Proof.Machine.execLaneRetrainTimer l n s
  | .linkTrainingComplete l n => Sys2Proof.Machine.execLinkTrainingComplete l n s
  | .identityRecord l n id => Sys2Proof.Machine.execIdentityRecord l n id s
  | .timePing l n value => Sys2Proof.Machine.execTimePing l n value s
  | .timeEcho l n value arrival turnaround => Sys2Proof.Machine.execTimeEcho l n value arrival turnaround s
  | .latencyMeasureTimer l n => Sys2Proof.Machine.execLatencyMeasureTimer l n s
  | .linkBarrier l arg => Sys2Proof.Machine.execLinkBarrier l arg s
  | .linkHold l arg => Sys2Proof.Machine.execLinkHold l arg s
  | .linkJobEnd l arg => Sys2Proof.Machine.execLinkJobEnd l arg s
  | .linkTransferStart p xfer => Sys2Proof.Machine.execLinkTransferStart p xfer s
  | .linkJobWrite l h data badFlits => Sys2Proof.Machine.execLinkJobWrite l h data badFlits s
  | .linkJobAck l h => Sys2Proof.Machine.execLinkJobAck l h s
  | .linkStoreWrite l h data => Sys2Proof.Machine.execLinkStoreWrite l h data s
  | .linkStoreReadReq l h => Sys2Proof.Machine.execLinkStoreReadReq l h s
  | .linkStoreReadResp l h boltId chunk data => Sys2Proof.Machine.execLinkStoreReadResp l h boltId chunk data s
  | .linkStoreRefusal l h => Sys2Proof.Machine.execLinkStoreRefusal l h s
  | .linkChannelWrite port c word data => Sys2Proof.Machine.execLinkChannelWrite port c word data s
  | .ethFrameReceive port f => Sys2Proof.Machine.execEthFrameReceive port f s
  | .arpRequest port target src => Sys2Proof.Machine.execArpRequest port target src s
  | .neighbourSolicitation port target src => Sys2Proof.Machine.execNeighbourSolicitation port target src s
  | .statusRequest port src hdr subSeq => Sys2Proof.Machine.execStatusRequest port src hdr subSeq s
  | .resync port src hdr replayFrom flags => Sys2Proof.Machine.execResync port src hdr replayFrom flags s
  | .moduleInserted m eeprom => Sys2Proof.Machine.execModuleInserted m eeprom s
  | .presenceDebounced m => Sys2Proof.Machine.execPresenceDebounced m s
  | .laserOutputReached m => Sys2Proof.Machine.execLaserOutputReached m s
  | .laserLocked m => Sys2Proof.Machine.execLaserLocked m s
  | .moduleRemoved m => Sys2Proof.Machine.execModuleRemoved m s
  | .laserMonitorPoll m r => Sys2Proof.Machine.execLaserMonitorPoll m r s
  | .laserHourTick m => Sys2Proof.Machine.execLaserHourTick m s
  | .laserOff port m data => Sys2Proof.Machine.execLaserOff port m data s
  | .laserOn port m data => Sys2Proof.Machine.execLaserOn port m data s
  | .lasSpsrcWrite port b data => Sys2Proof.Machine.execLasSpsrcWrite port b data s
  | .endpointReset c => Sys2Proof.Machine.execEndpointReset c s
  | .bar2OutOfRange offset write => Sys2Proof.Machine.execBar2OutOfRange offset write s
  | .sq0TailWrite port data => Sys2Proof.Machine.execSq0TailWrite port data s
  | .sq1TailWrite port data => Sys2Proof.Machine.execSq1TailWrite port data s
  | .hostSubmit e => Sys2Proof.Machine.execHostSubmit e s
  | .hostSubmitBody seq body tokens => Sys2Proof.Machine.execHostSubmitBody seq body tokens s
  | .hostCancel e => Sys2Proof.Machine.execHostCancel e s
  | .hostStatus e => Sys2Proof.Machine.execHostStatus e s
  | .hostResume e => Sys2Proof.Machine.execHostResume e s
  | .hostBoltData e data => Sys2Proof.Machine.execHostBoltData e data s
  | .cqEntryWrite => Sys2Proof.Machine.execCqEntryWrite s
  | .cqHeadWrite port data => Sys2Proof.Machine.execCqHeadWrite port data s
  | .statusBlockWrite => Sys2Proof.Machine.execStatusBlockWrite s
  | .sessionOpen port data => Sys2Proof.Machine.execSessionOpen port data s
  | .sessionClose port data => Sys2Proof.Machine.execSessionClose port data s
  | .heartbeat port data => Sys2Proof.Machine.execHeartbeat port data s
  | .heartbeatStale => Sys2Proof.Machine.execHeartbeatStale s
  | .hostAccessError addr status => Sys2Proof.Machine.execHostAccessError addr status s
  | .orphanHoldExpiry slot => Sys2Proof.Machine.execOrphanHoldExpiry slot s
  | .counterSelectWrite port addr data => Sys2Proof.Machine.execCounterSelectWrite port addr data s
  | .counterWrap addr n events => Sys2Proof.Machine.execCounterWrap addr n events s
  | .readerArm port data => Sys2Proof.Machine.execReaderArm port data s
  | .readerDone => Sys2Proof.Machine.execReaderDone s
  | .laneTrainingTimeout l n => Sys2Proof.Machine.execLaneTrainingTimeout l n s
  | .overcurrentComparatorClear r => Sys2Proof.Machine.execOvercurrentComparatorClear r s
  | .vlasInRange b => Sys2Proof.Machine.execVlasInRange b s
  | .pllRecalibration pll => Sys2Proof.Machine.execPllRecalibration pll s
  | .operatorEndsJob p => Sys2Proof.Machine.execOperatorEndsJob p s

end Sys2Proof.Machine
end

