-- ==== Sys2Proof/Machine/Messages.lean ====
section
/-!
DEFINITION. The bytes of what passes outside the device, least significant byte first (R5): Oroand Service Protocol messages (R359, R363
to R368, R370), and the host's submission entries, completion entries and status block (R477, R480, R485).
-/

namespace Sys2Proof.Machine

/-! ## The protocol header (R359, R363) -/

/-- The 16 bytes of a header. -/
def ospHdrBytes (h : OspHdr) : List Byte :=
  leBytes 2 h.magic.toNat ++ leBytes 1 h.version.toNat ++ leBytes 1 h.type.toNat ++ leBytes 2 h.channel.toNat ++
  leBytes 2 h.reserved.toNat ++ leBytes 4 h.seq.toNat ++ leBytes 4 h.ack.toNat

/-- The header of a datagram's first 16 bytes. -/
def ospHdrOf (b : List Byte) : OspHdr :=
  { magic := BitVec.ofNat 16 (leAt b 0 2), version := BitVec.ofNat 8 (leAt b 2 1), type := BitVec.ofNat 8 (leAt b 3 1),
    channel := BitVec.ofNat 16 (leAt b 4 2), reserved := BitVec.ofNat 16 (leAt b 6 2), seq := BitVec.ofNat 32 (leAt b 8 4),
    ack := BitVec.ofNat 32 (leAt b 12 4) }

/-- The TYPE of a device message. -/
def Msg.type : Msg → Nat
  | .tokens .. => 0x81
  | .done .. => 0x82
  | .statusReq .. => 0x83
  | .statusDev .. => 0x83
  | .resyncReply .. => 0x84
  | .boltReq .. => 0x10

/-- The body of a device message. -/
def Msg.body : Msg → List Byte
  | .tokens subSeq first toks text =>
    leBytes 4 subSeq.toNat ++ leBytes 4 first ++ leBytes 2 toks.length ++ leBytes 2 text.length ++ toks.flatMap (leBytes 4) ++ text
  | .done subSeq code answer genLen matched =>
    leBytes 4 subSeq.toNat ++ leBytes 1 code.toNat ++ leBytes 1 (boolN answer) ++ leBytes 2 0 ++ leBytes 4 genLen ++ leBytes 4 matched
  | .statusReq subSeq state reason pos genLen =>
    leBytes 4 subSeq.toNat ++ leBytes 1 (state % 8) ++ leBytes 1 reason.toNat ++ leBytes 2 0 ++ leBytes 4 pos ++ leBytes 4 genLen ++ leBytes 8 0
  | .statusDev hasPart jobs active time =>
    leBytes 4 0xFFFFFFFF ++ leBytes 1 (boolN hasPart) ++ leBytes 1 0 ++ leBytes 2 jobs.toNat ++ leBytes 4 0 ++ leBytes 4 active ++ leBytes 8 time
  | .resyncReply lastAcc lastEmit earliest gap => leBytes 4 lastAcc ++ leBytes 4 lastEmit ++ leBytes 4 earliest ++ leBytes 4 (boolN gap)
  | .boltReq boltId chunk offset len => leBytes 8 boltId.toNat ++ leBytes 4 chunk ++ leBytes 4 offset ++ leBytes 4 len

/-- The datagram of a device message. ACK names the client's last message received in order. -/
def Msg.datagram (m : Msg) (channel seq ack : Nat) : List Byte :=
  ospHdrBytes ⟨0x534F, 1, BitVec.ofNat 8 m.type, BitVec.ofNat 16 channel, 0, BitVec.ofNat 32 seq, BitVec.ofNat 32 ack⟩ ++ m.body

/-! ## Client messages (R364, R366 to R368) -/

/-- The 4-byte numbers of a byte list from `off` up. -/
def wordsAt (b : List Byte) (off n : Nat) : List W32 := (List.range n).map (fun i => BitVec.ofNat 32 (leAt b (off + 4 * i) 4))

/-- The fields of fragment 0 of a SUBMIT. -/
def submitBodyOf (b : List Byte) : SubmitBody :=
  { promptLen := BitVec.ofNat 32 (leAt b 4 4), maxNew := BitVec.ofNat 32 (leAt b 8 4), partition := BitVec.ofNat 8 (leAt b 12 1),
    ctrl := BitVec.ofNat 8 (leAt b 13 1), tenant := BitVec.ofNat 16 (leAt b 14 2), deadline := BitVec.ofNat 64 (leAt b 16 8),
    seed := BitVec.ofNat 64 (leAt b 24 8), temp := BitVec.ofNat 16 (leAt b 32 2), topP := BitVec.ofNat 16 (leAt b 34 2),
    minP := BitVec.ofNat 16 (leAt b 36 2), repPen := BitVec.ofNat 16 (leAt b 38 2), topK := BitVec.ofNat 16 (leAt b 40 2),
    adapter := BitVec.ofNat 16 (leAt b 42 2), res44 := BitVec.ofNat 8 (leAt b 44 1), rpWindow := BitVec.ofNat 8 (leAt b 45 1),
    draft := BitVec.ofNat 8 (leAt b 46 1), res47 := BitVec.ofNat 8 (leAt b 47 1), stops := wordsAt b 48 4 }

/-- The fragment of a SUBMIT that a message's body holds: fragment 0 with all its fields, a later one with NTOK tokens. -/
def submitFragOf (b : List Byte) : SubmitFrag :=
  let n := leAt b 0 4
  if n = 0 then { frag := 0, body := some (submitBodyOf b), tokens := wordsAt b 64 ((b.length - 64) / 4) }
  else { frag := n, body := none, tokens := wordsAt b 8 (leAt b 4 2) }

/-- The data of a BOLT_DATA piece: its object, OFFSET, TOTAL and bytes (R370). -/
def boltPiece (b : List Byte) : W64 × Nat × Nat × Nat × List Byte :=
  (BitVec.ofNat 64 (leAt b 0 8), leAt b 8 4, leAt b 12 4, leAt b 16 4, sliceB b 24 (leAt b 20 4))

/-! ## Ring entries (R477, R480) -/

/-- The submission entry of 64 bytes. A RESUME's INLINE starts as a CANCEL's, and a BOLT_DATA's names its object. -/
def sqEntryOf (b : List Byte) : SqEntry :=
  { seq := BitVec.ofNat 32 (leAt b 0 4), type := BitVec.ofNat 8 (leAt b 4 1), reserved := BitVec.ofNat 24 (leAt b 5 3),
    addr := BitVec.ofNat 64 (leAt b 8 8), len := BitVec.ofNat 32 (leAt b 16 4), subSeq := BitVec.ofNat 32 (leAt b 20 4),
    fromPos := BitVec.ofNat 32 (leAt b 24 4), boltId := BitVec.ofNat 64 (leAt b 20 8), chunk := BitVec.ofNat 32 (leAt b 28 4) }

/-- A message as the ring's BODY holds it: without text. -/
def Msg.cqBody (m : Msg) : List Byte :=
  match m with
  | .tokens q first toks _ => (Msg.tokens q first toks []).body
  | .done .. | .statusReq .. | .statusDev .. | .resyncReply .. | .boltReq .. => m.body

/-- The 64 bytes of a completion entry. -/
def Msg.cqEntry (m : Msg) (seq : Nat) (phase : Bool) : List Byte :=
  leBytes 4 seq ++ leBytes 1 m.type ++ leBytes 1 (boolN phase) ++ leBytes 2 m.cqBody.length ++ sliceB m.cqBody 0 56

/-! ## What leaves the device, as bytes -/

/-- The bytes that an output writes: a datagram's payload, a completion entry, the status block (R485). A link packet's bytes
are its flits', and reads and address replies carry no payload here. `ack` is the ACK of the channel. -/
def Output.bytes (ack : Nat) : Output → Option (List Byte)
  | .osp _ channel seq _ m => some (m.datagram channel seq ack)
  | .boltFetch _ _ m => some (m.datagram 0xFFFF 0 0)
  | .cq _ seq phase m => some (m.cqEntry seq phase)
  | .statusBlock time lastAcc lastEmit sq0 sq1 cqTail session flags jobs active fltHead parked hbSeen =>
    some (leBytes 8 time ++ leBytes 4 lastAcc ++ leBytes 4 lastEmit ++ leBytes 2 sq0 ++ leBytes 2 sq1 ++ leBytes 2 cqTail ++ leBytes 1 session ++
      leBytes 1 flags ++ leBytes 2 jobs ++ leBytes 2 0 ++ leBytes 4 active ++ leBytes 4 fltHead ++ leBytes 4 parked ++ leBytes 8 hbSeen ++
      leBytes 8 0 ++ leBytes 8 0)
  | .flit _ _ b | .identity _ _ b => some b
  | .arpReply .. | .ndAdvert .. | .packet .. | .hostRead .. | .forward .. => none

/-- Where in host memory an output is written: an entry in the ring at HIF_CQ_BASE, the status block at HIF_SB_BASE. -/
def State.hostPlace (s : State) : Output → Option Nat
  | .cq index _ _ _ => some (s.pair (s.hif .hifCqBaseLo) (s.hif .hifCqBaseHi) + 64 * index)
  | .statusBlock .. => some (s.pair (s.hif .hifSbBaseLo) (s.hif .hifSbBaseHi))
  | .osp .. | .boltFetch .. | .flit .. | .identity .. | .arpReply .. | .ndAdvert .. | .packet .. | .hostRead .. | .forward .. => none

/-- The ACK that a channel's messages carry (R359). -/
def State.ospAckOf (s : State) (port c : Nat) : Nat := (s.chan port c).lastAcc

end Sys2Proof.Machine
end

