-- ==== Sys2Proof/Safety.lean ====
section
/-!
DEFINITION. What counts as a safe run: every step answers a next state, and the memory keeps its canonical form. And what
every command keeps, whatever it does.
-/

namespace Sys2Proof

/-- The invariant of the model: the one memory is in its canonical form, so equal memories are equal data. -/
def Inv (s : Machine.State) : Prop := Machine.Memory.wf s.mem = true

/-- A step that stops on nothing and keeps the invariant. -/
def SafeStep (s : Machine.State) : Prop := ∃ t, Machine.step s = .next t ∧ Inv t

/-- What every command keeps from a state `s` to the state `t` after it: the queue of commands; the canonical form of the memory;
what the device has sent, to which it only adds; and the free values drawn, none of which is drawn again. -/
structure Kept (s t : Machine.State) : Prop where
  pending : t.pending = s.pending
  mem     : Machine.Memory.wf s.mem = true → Machine.Memory.wf t.mem = true
  outputs : s.outputs <+: t.outputs
  fresh   : s.fresh ≤ t.fresh

/-- What a command that writes no memory keeps: the same, and every byte of the memory. -/
structure Quiet (s t : Machine.State) : Prop where
  pending : t.pending = s.pending
  mem     : t.mem = s.mem
  outputs : s.outputs <+: t.outputs
  fresh   : s.fresh ≤ t.fresh

/-! ## What a command does, and what it leaves alone -/

/-- The command runs to its end: from `s` it answers a next state, and `P` holds of that state. -/
def Completes (c : Instr) (s : Machine.State) (P : Machine.State → Prop) : Prop :=
  ∃ t, Machine.exec c s = .next t ∧ P t

/-- A place of the state: one register, one byte, one unit's own record, or one of the device's single records. -/
inductive Place where
  | pending
  | reg (k : Machine.RegKey)
  | snap (q : Port × Machine.RegKey)
  | loHeld (q : Port × Machine.RegKey)
  | readOut (q : Port)
  | byte (a : Nat)
  | poison (w : Nat)
  | badScale
  | tile (t : TileId)
  | arr (a : ArrayId)
  | die (d : Nat)
  | part (p : Nat)
  | slot (i : Nat)
  | slotRec (i : Nat)
  | admitSeq
  | page (p i : Nat)
  | idx (e : Nat × Nat)
  | coldUsed
  | pfxCache
  | cache
  | unmerged
  | staging
  | fetches
  | childAsks
  | start
  | lane (l n : Nat)
  | chan (q c : Nat)
  | replay
  | laser (m : Nat)
  | bow
  | power
  | steward
  | sensor (b : Nat)
  | conf
  | boot
  | fuses
  | flash
  | recovery
  | host
  | central
  | shadow
  | mesh (b : Machine.MeshBuf)
  | meshTurn (q : TileId × Nat)
  | refresh (q : Nat × Nat)
  | deferred
  | timer (t : Machine.Timer)
  | outputs
  | fresh
  deriving DecidableEq, Repr

/-- What stands at a place of `t` is what stands there in `s`. -/
def Place.same (s t : Machine.State) : Place → Prop
  | .pending => t.pending = s.pending
  | .reg k => t.reg k = s.reg k
  | .snap q => Machine.Tbl.find t.snaps q = Machine.Tbl.find s.snaps q
  | .loHeld q => Machine.Tbl.find t.loHeld q = Machine.Tbl.find s.loHeld q
  | .readOut q => Machine.Tbl.find t.readOut q = Machine.Tbl.find s.readOut q
  | .byte a => Machine.Memory.read t.mem a = Machine.Memory.read s.mem a
  | .poison w => (w ∈ t.poison ↔ w ∈ s.poison)
  | .badScale => t.badScale = s.badScale
  | .tile u => t.tile u = s.tile u
  | .arr a => t.arr a = s.arr a
  | .die d => t.die d = s.die d
  | .part p => t.part p = s.part p
  | .slot i => t.slot i = s.slot i
  | .slotRec i => Machine.Tbl.find t.slotRec i = Machine.Tbl.find s.slotRec i
  | .admitSeq => t.admitSeq = s.admitSeq
  | .page p i => t.page p i = s.page p i
  | .idx e => t.idx e = s.idx e
  | .coldUsed => t.coldUsed = s.coldUsed
  | .pfxCache => t.pfxCache = s.pfxCache
  | .cache => t.cache = s.cache ∧ t.cacheMiss = s.cacheMiss
  | .unmerged => t.unmerged = s.unmerged
  | .staging => t.staging = s.staging
  | .fetches => t.fetches = s.fetches
  | .childAsks => t.childAsks = s.childAsks
  | .start => t.start = s.start
  | .lane l n => t.lane l n = s.lane l n
  | .chan q c => t.chan q c = s.chan q c
  | .replay => t.replay = s.replay
  | .laser m => t.laser m = s.laser m
  | .bow => t.bow = s.bow
  | .power => t.power = s.power
  | .steward => t.steward = s.steward
  | .sensor b => t.sensor b = s.sensor b
  | .conf => t.conf = s.conf
  | .boot => t.boot = s.boot
  | .fuses => t.fuses = s.fuses
  | .flash => t.flash = s.flash
  | .recovery => t.recovery = s.recovery
  | .host => t.host = s.host
  | .central => t.central = s.central ∧ t.centralN = s.centralN
  | .shadow => t.shadow = s.shadow
  | .mesh b => Machine.Tbl.find t.mesh b = Machine.Tbl.find s.mesh b
  | .meshTurn q => Machine.Tbl.find t.meshTurn q = Machine.Tbl.find s.meshTurn q
  | .refresh q => Machine.Tbl.find t.refresh q = Machine.Tbl.find s.refresh q
  | .deferred => t.deferred = s.deferred
  | .timer u => Machine.Tbl.find t.timers u = Machine.Tbl.find s.timers u
  | .outputs => t.outputs = s.outputs
  | .fresh => t.fresh = s.fresh

/-- Every place outside `P` is as before. -/
def OnlyIn (P : Place → Prop) (s t : Machine.State) : Prop := ∀ x, ¬ P x → x.same s t

/-- Every place but the listed ones is as before. -/
def Only (l : List Place) (s t : Machine.State) : Prop := OnlyIn (fun x => x ∈ l) s t

/-- The places that a fault record of a die changes beside the record itself: the die's local log and its way to the central one, and the
registers FLT_STATUS and FLT_CLASS that count it (R442). -/
def faultPlaces (d : Nat) : List Place :=
  [.die d, .reg (Machine.fltRegs d).1, .reg (Machine.fltRegs d).2]

/-- The die's log has the record `r` as its newest, and the record is on its way to the central log (R442). -/
def Logged (r : Machine.FaultRec) (s t : Machine.State) : Prop :=
  (t.die r.die).toCentral = (s.die r.die).toCentral ++ [r] ∧
  (r.die < 0x24 → Machine.Tbl.find (t.die r.die).flog ((s.die r.die).fnext % 16) = some r)

/-- One fault record of this code, partition, die, unit and detail is the die's newest (R441, R442). -/
def Faults (code : BitVec 16) (part : Option Nat) (die unit detail : Nat) (s t : Machine.State) : Prop :=
  ∃ r : Machine.FaultRec, r.code = code ∧ r.part = part ∧ r.die = die ∧ r.unit = unit ∧ r.detail = detail ∧ Logged r s t

/-- The field of a register that holds bit `i`. -/
def fieldAt (fields : List Machine.RField) (i : Nat) : Option Machine.RField :=
  fields.find? (fun f => decide (f.lo ≤ i) && decide (i < f.lo + f.len))

/-- Bit `i` of a register word after a write of `d` over `old`, by the access type of the field that holds it (R6); a bit that no field
holds keeps its value (R8). -/
def bitAfter (fields : List Machine.RField) (old d : Nat) (i : Nat) : Bool :=
  match fieldAt fields i with
  | none => old.testBit i
  | some f => match f.acc with
    | .rw => d.testBit i
    | .w1c => old.testBit i && !d.testBit i
    | .w1s => old.testBit i || d.testBit i
    | .ro | .wo | .rc => old.testBit i

/-- Bit `i` of what a register word reads as: a WO field reads 0 (R6). -/
def bitRead (fields : List Machine.RField) (old : Nat) (i : Nat) : Bool :=
  match fieldAt fields i with
  | none => old.testBit i
  | some f => if f.acc = .wo then false else old.testBit i

/-- Bit `i` of a register word after a read: an RC field is at its reset value (R6). -/
def bitCleared (fields : List Machine.RField) (old : Nat) (i : Nat) : Bool :=
  match fieldAt fields i with
  | none => old.testBit i
  | some f => if f.acc = .rc then f.rst.testBit (i - f.lo) else old.testBit i

/-! ## Tiles and vector registers -/

/-- A tile whose sequencer runs, with no operation waiting ahead of the one it comes to. -/
abbrev CanIssue (s : Machine.State) (h : OpHdr) : Prop := s.running h.tile = true ∧ (s.tile h.tile).waitq = []

/-- The operation `c` with header `h` runs to its end, where it is the one that the tile's step program holds next (R170). -/
def Issues (h : OpHdr) (c : Instr) (s : Machine.State) (P : Machine.State → Prop) : Prop := s.inProgram h c = true → Completes c s P

/-- The cycle in which a vector operation issues (R183, R184, R187). -/
def vecCycle (s : Machine.State) (h : OpHdr) : Nat := s.issueAt h (s.tile h.tile).vecFree

/-- The bytes of a register as a vector operation that issues now finds them (R193). -/
def vin (s : Machine.State) (h : OpHdr) (r : Nat) : List Byte := (s.tile h.tile).vregAt (vecCycle s h) r

/-- The tag of a register as a vector operation that issues now finds it. -/
def vtag (s : Machine.State) (h : OpHdr) (r : Nat) : Machine.Tag := (s.tile h.tile).tagAt (vecCycle s h) r

/-- What the issue of an operation can change: its tile's own record, TIL_OPIDX and the tile's event counters, the free values drawn, and the
bytes of engine writes that were pending (R138). -/
def issuePlaces (s : Machine.State) (t : TileId) : Place → Prop
  | .tile u => u = t
  | .reg k => k.die = t.die.val ∧ k.region = t.region.val ∧ k.reg ∈ [Machine.Reg.tilOpidx, .ctrValLo, .ctrValHi, .ctrStatus]
  | .fresh => True
  | .byte a => ∃ w ∈ (s.tile t).wpend, w.addr ≤ a ∧ a < w.addr + w.bytes.length
  | .poison p => ∃ w ∈ (s.tile t).wpend, w.addr / 8 ≤ p ∧ p ≤ (w.addr + w.bytes.length - 1) / 8
  | _ => False

/-- What a register operation leaves alone in its tile beside the results that its registers await: the registers as they stand, its
tickets and meter, the arrays' outputs, the queue of waiting operations, its place in the form, the norm windows, its transfers and its
staged writes. -/
structure TileKept (x y : Machine.Tile) : Prop where
  regs     : y.vr = x.vr ∧ y.tags = x.tags ∧ y.satRegs = x.satRegs ∧ y.vfmt = x.vfmt
  tickets  : y.opTickets = x.opTickets ∧ y.fullTickets = x.fullTickets ∧ y.meter = x.meter ∧ y.waitDraw = x.waitDraw
  outputs  : y.lastOut = x.lastOut ∧ y.lastMain = x.lastMain
  waitq    : y.waitq = x.waitq
  place    : y.ended = x.ended ∧ y.ltile = x.ltile ∧ y.fenced = x.fenced ∧ y.residues = x.residues
  norms    : y.windows = x.windows ∧ y.samples = x.samples ∧ y.nwHits = x.nwHits ∧ y.slices = x.slices ∧ y.emits = x.emits
  xfers    : y.xfers = x.xfers ∧ y.nextXfer = x.nextXfer ∧ y.inbuf = x.inbuf ∧ y.heldNotes = x.heldNotes ∧ y.shields = x.shields
  staged   : y.mapStage = x.mapStage ∧ y.bankStage = x.bankStage ∧ y.eccPend = x.eccPend

/-- A register image holds these elements of `w` bytes; of an element `none` nothing is said. -/
def Holds (b : List Byte) (w : Nat) (l : List (Option Nat)) : Prop :=
  ∀ i v : Nat, l[i]? = some (some v) → (Machine.elemsN w (256 / w) b)[i]? = some (v % 2 ^ (8 * w))

/-- INT32 element `i` of a register image. -/
def lane (b : List Byte) (i : Nat) : BitVec 32 := BitVec.ofNat 32 (Machine.leAt b (4 * i) 4)

/-- Byte `i` of a register image. -/
def lane8 (b : List Byte) (i : Nat) : BitVec 8 := BitVec.ofNat 8 (Machine.leAt b i 1)

/-- A tile's registers await these results beside the ones they awaited, each from its ready cycle on (R187, R193). -/
def Awaits (s t : Machine.State) (u : TileId) (l : List Machine.VRes) : Prop :=
  (t.tile u).vpend = l.foldl (fun v e => Machine.insRes e v) (s.tile u).vpend

/-- An operation on vector registers has issued: `dst` awaits a result with `P`, from the cycle of the contract's latency on (`lc2` or `lc1`
cycles after issue, R193), with the first source's tag and POISON the OR over all sources (R191); the rest of the tile and of the device
is as before. -/
structure VecDone (s t : Machine.State) (h : OpHdr) (dst src : Nat) (more : List Nat) (lc2 lc1 : Nat) (P : List Byte → Prop) : Prop where
  places : OnlyIn (issuePlaces s h.tile) s t
  tile   : TileKept (s.tile h.tile) (t.tile h.tile)
  next   : (t.tile h.tile).nextOp = h.opidx + 1
  result : ∃ b fmt, P b ∧ Awaits s t h.tile [⟨dst, vecCycle s h + s.lat h.tile lc2 lc1, some b,
    { vtag s h src with poison := (src :: more).any (fun r => (vtag s h r).poison) }, false,
    (s.tile h.tile).satOf (vecCycle s h) (src :: more), fmt⟩]

/-- An operation that issues on a tile with nothing under way in its scratchpad: no logged access, no pending engine write, and nothing met in
the silicon. -/
structure Clear (s : Machine.State) (h : OpHdr) : Prop where
  issue : CanIssue s h
  idle  : (s.tile h.tile).access = [] ∧ (s.tile h.tile).wpend = []
  env   : h.env = OpEnv.quiet

/-- `n` bytes of memory, once the engine writes that a tile has pending are visible (R138). -/
def settled (s : Machine.State) (t : TileId) (a n : Nat) : List Byte := (s.flushAll t).bytes a n

/-- An operation has left the vector registers alone, and the results that they await. -/
def SameRegs (s t : Machine.State) (u : TileId) : Prop :=
  (t.tile u).vr = (s.tile u).vr ∧ (t.tile u).tags = (s.tile u).tags ∧ (t.tile u).vpend = (s.tile u).vpend

/-- An operation has written exactly `b` at a scratchpad offset of its tile, and nothing else: its pending writes spell these bytes, memory has not
changed yet, and once they are visible every other byte is as before. -/
structure Wrote (s t : Machine.State) (h : OpHdr) (off : Nat) (b : List Byte) : Prop where
  places : OnlyIn (fun x => issuePlaces s h.tile x) s t
  regs   : SameRegs s t h.tile
  bytes  : settled t h.tile (Machine.tAddr h.tile off) b.length = b
  others : ∀ a, a < Machine.tAddr h.tile off ∨ Machine.tAddr h.tile off + b.length ≤ a →
    Machine.Memory.read (t.flushAll h.tile).mem a = Machine.Memory.read s.mem a

/-! ## Registers and reset -/

/-- A port's write of `d` to a register passes every check: the register is here, the port is permitted and the value is in range (R31, R472,
R544, R545). -/
abbrev Accepts (s : Machine.State) (port : Port) (k : Machine.RegKey) (d : Nat) : Prop :=
  s.absent k = false ∧ s.barred port k = false ∧ (Machine.coreOnly k.reg = true → port.isCore = true) ∧ s.writeOk k d = true

/-- The device has been reset (R93, R531): every register is at its reset value, memory and every unit's state are lost; flash, fuses and what
stands outside the device stay. -/
structure WasReset (s t : Machine.State) : Prop where
  regs   : ∀ k, t.reg k = k.resetVal
  mem    : ∀ a, Machine.Memory.read t.mem a = Machine.Memory.blank
  tiles  : ∀ u, t.tile u = Machine.Tile.reset
  arrays : ∀ a, t.arr a = Machine.Arr.reset
  parts  : ∀ p, t.part p = Machine.Part.reset
  slots  : ∀ i, t.slot i = Machine.Slot.reset
  lasers : ∀ m, (t.laser m).inCage = (s.laser m).inCage ∧ (t.laser m).eeprom = (s.laser m).eeprom ∧ (t.laser m).powered = false
  boot   : t.boot = Machine.State.reset.boot
  host   : t.host = Machine.State.reset.host
  units  : t.mesh = [] ∧ t.meshTurn = [] ∧ t.refresh = [] ∧ t.deferred = [] ∧ t.timers = [] ∧ t.unmerged = 0 ∧ t.pfxCache = [] ∧ t.childAsks = []
  kept   : t.flash = s.flash ∧ t.recovery = s.recovery ∧ t.fuses = s.fuses
  rest   : t.pending = s.pending ∧ t.outputs = s.outputs ∧ t.fresh = s.fresh

/-! ## Units of the device -/

/-- One slot of the bowstring has passed (R209, R210): the time count is 16 further, and each running die's copy of it too; each running die
has run the cycles that its throttle leaves (R225). -/
structure SlotPassed (s t : Machine.State) : Prop where
  time : t.bow.time = s.bow.time + 16
  dies : ∀ d, (s.die d).alive = true →
    (t.die d).timeCopy = (s.die d).timeCopy + 16 ∧
    (t.die d).cycles = (s.die d).cycles + Machine.slotCycles (s.throttle (s.die d)).1 (s.throttle (s.die d)).2
  mem  : t.mem = s.mem

/-- The source is up, no partition waits idle for its last step to commit, and no Crown access waits for a refresh window. -/
abbrev BowQuiet (s : Machine.State) : Prop := s.bowRuns = true ∧ (∀ p < 16, (s.part p).idle = false) ∧ s.deferred = []

/-- The source's queue holds no RELEASE that a new emergency would refuse (R404). -/
def NoRelease (s : Machine.State) : Prop := ∀ div m, .skip true div m ∉ s.bow.sendq ∧ .skip true div m ∉ s.bow.newq

/-- The steward has written the SKIP of its new count, or nothing (R397). -/
def SkipWritten (s t : Machine.State) (count : Nat) : Prop :=
  let still := count = s.steward.lastSkip ∨ (s.die s.prinDie).emerg = true ∨ s.bow.emergHeld = true
  (still → t.bow = s.bow ∧ t.steward.lastSkip = s.steward.lastSkip) ∧
  (¬ still → t.bow = { s.bow with newq := s.bow.newq ++ [.skip false 0 count] } ∧ t.steward.lastSkip = count)

/-- What happens at an interval has its next turn at `next` (R390, R394 to R396, R412, R419, R424, R502; log 61). -/
def Turn (t : Machine.State) (x : Machine.Timer) (next : Nat) : Prop := Machine.Tbl.find t.timers x = some next

/-- A row of an interval before its next turn: it completes and changes nothing. -/
def Early (c : Instr) (s : Machine.State) (x : Machine.Timer) : Prop := s.due x = false → Completes c s (fun t => t = s)

/-- A calibration is deferred: DEFERRED in CNF_EVENTS and CNF_STATUS of the Brim die that reports it, and nothing else (R414). -/
def Deferred (s t : Machine.State) (b : Nat) : Prop :=
  Only [.reg (Machine.uReg (Machine.brimIdx b) 0x204 .cnfEvents), .reg (Machine.uReg (Machine.brimIdx b) 0x204 .cnfStatus)] s t ∧
  t.fldOf (Machine.uReg (Machine.brimIdx b) 0x204 .cnfEvents) 3 1 = 1 ∧ t.fldOf (Machine.uReg (Machine.brimIdx b) 0x204 .cnfStatus) 5 1 = 1

/-- A controller's answer has reached a tile: these bytes from this address, poisoned or not. -/
def Answered (t : Machine.State) (u : TileId) (a : Nat) (b : List Byte) (poison : Bool) : Prop := ⟨a, b, poison⟩ ∈ (t.tile u).inbuf

/-- Exactly these bytes are written from `a` up, and poisoned or made good; no other byte and nothing else of the device is new. -/
structure BytesWritten (s t : Machine.State) (a : Nat) (b : List Byte) (poison : Bool) (also : Place → Prop) : Prop where
  places : OnlyIn (fun x => also x ∨ match x with
    | .byte i => a ≤ i ∧ i < a + b.length
    | .poison w => a / 8 ≤ w ∧ w ≤ (a + b.length - 1) / 8
    | _ => False) s t
  bytes  : t.bytes a b.length = b
  bad    : poison = true → 0 < b.length → t.poisonedIn a b.length = true

/-- A client message fits its channel (R360, R361): the port works, the channel is open and bound to the sender, and its SEQ is the next. -/
abbrev OspFits (s : Machine.State) (port : BrimDie) (src : PeerAddr) (h : OspHdr) : Prop :=
  let x := s.chan port.val h.channel.toNat
  s.portOn port.val = true ∧ h.magic = 0x534F ∧ h.version = 1 ∧ x.isOpen = true ∧ Machine.samePeer x.addr src = true ∧
  h.seq.toNat = (x.lastAcc + 1) % 2 ^ 32

/-- A symbol with this argument arrives on a link of a job group as the first good copy: `k` is the group's first link, whose lane 0 keeps the
last one of each code. -/
def FirstCopy (s : Machine.State) (l : LinkIdx) (code arg : Nat) (g : Nat × Machine.LGroup) (k : Nat) : Prop :=
  s.groupOf l.val = some g ∧ g.2.store = false ∧ g.2.links.head? = some k ∧
  ∀ e, Machine.Tbl.find (s.lane k 0).lastSym code = some e → e.1 = arg → e.2 + 1000 ≤ s.bow.time

/-- The device reads this entry of SQ0 with the next SEQ (R478, R479). -/
abbrev Sq0Fits (s : Machine.State) (e : SqEntry) : Prop :=
  s.sqReads 0 = true ∧ e.seq.toNat = Machine.hostNext (s.regN (s.hif .hifLastAcc))

/-- An entry of SQ0 has been consumed: the head has moved by one place around the ring, and LAST_ACCEPTED is `q`. -/
def Sq0Taken (s t : Machine.State) (q : Nat) : Prop :=
  t.sqHead 0 = (s.sqHead 0 + 1) % s.ringSize 0 % 4096 ∧ t.regN (s.hif .hifLastAcc) = q

/-! ## Commands that store nothing -/

/-- The commands that write no byte of memory, whatever they meet. -/
def storesNothing : Instr → Bool
  | .registerWrite _ _ _ _ => false
  | .rcFieldRead _ _ => true
  | .pairLoRead _ _ => true
  | .pairHiWrite _ _ _ => false
  | .vin48Rise => true
  | .pgoodRise _ => false
  | .pgoodFall => false
  | .resetNAssert _ => false
  | .resetCommand _ _ => false
  | .resetNRelease _ => false
  | .vin48Remove => false
  | .busConverterUvlo _ => false
  | .busConverterRestart _ => true
  | .vlasOutOfRange _ => true
  | .watchdogKick _ _ => true
  | .watchdogExpiry => true
  | .componentFault _ => true
  | .componentHeartbeatStale _ => true
  | .updateStage _ _ _ _ => true
  | .updateActivate _ _ => true
  | .updateAbort _ _ => true
  | .updateQuiescentPoint => true
  | .updateHeartbeatTimeout _ => true
  | .firmwareTrialConfirm => true
  | .startRecordTrialConfirm => true
  | .ownerHashWrite _ _ _ => true
  | .ownerBurn _ _ => true
  | .fenceMapWrite => true
  | .idle _ => false
  | .freeze => false
  | .thaw => false
  | .emergency => false
  | .launch _ => false
  | .hold _ => false
  | .skip _ _ _ => false
  | .bowSymbolUncorrectable _ _ => true
  | .bowTimeFrame _ _ => true
  | .emergencyForce _ _ => true
  | .skipIssue _ _ => true
  | .releaseIssue _ _ => true
  | .bowEmergWrite _ _ => true
  | .freezeArm _ _ => true
  | .freezeTimeReached => true
  | .thawIssue _ _ => true
  | .stepBarrier _ => true
  | .dieReady _ _ => true
  | .holdLimitExpiry _ => true
  | .leaveWindow => true
  | .ticketDrawGranted _ _ => false
  | .stewardKUpdate _ _ => true
  | .powerSkipUpdate _ _ => true
  | .thermalSkipUpdate => true
  | .normalDeclared => true
  | .overcurrentTrip _ => true
  | .railShutdown _ => false
  | .thermalTrip _ => true
  | .thmLimitsWrite _ _ _ => true
  | .sensorFastTick _ => true
  | .sensorSlowTick _ => true
  | .sensorConversion _ _ _ => true
  | .sensorRefSelect _ _ _ => true
  | .sensorRefSettled _ => true
  | .sensorEntryWrite _ _ _ _ => true
  | .sensorLimitWrite _ _ _ _ => true
  | .arrayCalStart _ => false
  | .arrayCalComplete _ _ _ => false
  | .calQueueDispatch _ => false
  | .ringHeaterCal _ _ _ => true
  | .equaliserCal _ _ _ _ => true
  | .pllCountCheck _ _ => true
  | .sensorCal _ _ _ => true
  | .bowtrimCal _ => true
  | .glideStep _ => true
  | .pass32 _ _ => false
  | .pass16 _ _ => false
  | .nap _ _ => false
  | .passOutputReady _ _ => true
  | .tileParityError _ => true
  | .aout _ _ _ _ => false
  | .load _ _ _ => false
  | .eccWriteback _ _ => true
  | .store _ _ _ => false
  | .swload _ _ _ _ _ => false
  | .gather _ _ _ _ _ _ => false
  | .transpose _ _ _ _ _ => false
  | .add _ _ _ _ _ => false
  | .sub _ _ _ _ _ => false
  | .mul _ _ _ _ _ => false
  | .fma _ _ _ _ _ _ => false
  | .min _ _ _ _ _ => false
  | .max _ _ _ _ _ => false
  | .abs _ _ _ _ => false
  | .neg _ _ _ _ => false
  | .cmp _ _ _ _ _ _ => false
  | .sel _ _ _ _ _ _ => false
  | .i8add _ _ _ _ => false
  | .i8sub _ _ _ _ => false
  | .i8min _ _ _ _ => false
  | .i8max _ _ _ _ => false
  | .i8dot4 _ _ _ _ => false
  | .cvt _ _ _ _ _ => false
  | .exp2 _ _ _ _ => false
  | .log2 _ _ _ _ => false
  | .rcp _ _ _ _ => false
  | .rsqrt _ _ _ _ => false
  | .rsum _ _ _ _ => false
  | .rdot _ _ _ _ _ => false
  | .rsumsq _ _ _ _ => false
  | .rmax _ _ _ _ => false
  | .rargmax _ _ _ _ => false
  | .bcast _ _ _ _ _ => false
  | .rot _ _ _ _ _ => false
  | .gatherr _ _ _ _ _ => false
  | .tagset _ _ _ _ _ => false
  | .quant _ _ _ _ _ => false
  | .nsamp _ _ _ => false
  | .topk _ _ _ _ _ _ _ => false
  | .dma _ _ => false
  | .waitl _ _ _ => false
  | .endOp _ => false
  | .operationWaitEnd _ _ => false
  | .meshPacketArrival _ _ _ => true
  | .dmaLanding _ _ _ => false
  | .dmaRelease _ _ => true
  | .d2dCrcRetry _ _ => true
  | .d2dLinkDown _ _ => true
  | .mshPartWrite _ _ _ => true
  | .mshBorderWrite _ _ _ => true
  | .descriptorWrite _ _ _ _ => true
  | .arrMapWrite _ _ _ _ _ => true
  | .arrBankWrite _ _ _ => true
  | .crownStreamRead _ _ _ _ _ => true
  | .crownAppendWrite _ _ _ _ _ => false
  | .crownPoolAccess _ _ _ _ _ _ => false
  | .adapterWindowRead _ _ _ _ => true
  | .crownRefreshWindow _ _ => true
  | .crownPatrolScrub _ _ _ _ => true
  | .fullingJobPush _ _ _ => true
  | .fullingJobStart _ => false
  | .fullingComplete _ _ => false
  | .fullingTimeout _ => false
  | .fulResultRead _ _ => true
  | .fulCommitArm _ _ _ => true
  | .fulCommitDisarm _ _ _ => true
  | .arrayRelease _ => true
  | .maintenanceStart _ => true
  | .pounceVisit _ => false
  | .poisonReportArrive _ _ _ => true
  | .repairBegin _ _ => false
  | .repairTimeout _ => true
  | .faultLogAppend _ => true
  | .flipFenceResponse _ _ => false
  | .formLoad _ _ => true
  | .boltLoadRequest _ _ => true
  | .boltData _ _ _ _ _ _ => false
  | .boltPieceTimeout _ _ => true
  | .jobStart _ => true
  | .adapterUnload _ _ => true
  | .submit _ _ _ _ => true
  | .prefixLookupComplete _ => false
  | .coldFetchComplete _ _ => true
  | .stepCut _ => true
  | .partialListArrive _ _ => true
  | .stepStaging _ => true
  | .stagingComplete _ => true
  | .messageRelease _ => true
  | .cancel _ _ _ _ => true
  | .reqKill _ _ => true
  | .hotPromotionComplete _ _ _ => false
  | .coldCopyComplete _ _ _ => true
  | .flitReceive _ _ _ => true
  | .linkNak _ _ _ => true
  | .retryTimeout _ _ => true
  | .laneSignalLoss _ _ => true
  | .laneRetrainTimer _ _ => true
  | .linkTrainingComplete _ _ => true
  | .identityRecord _ _ _ => true
  | .timePing _ _ _ => true
  | .timeEcho _ _ _ _ _ => true
  | .latencyMeasureTimer _ _ => true
  | .linkBarrier _ _ => true
  | .linkHold _ _ => true
  | .linkJobEnd _ _ => true
  | .linkTransferStart _ _ => true
  | .linkJobWrite _ _ _ _ => false
  | .linkJobAck _ _ => true
  | .linkStoreWrite _ _ _ => false
  | .linkStoreReadReq _ _ => true
  | .linkStoreReadResp _ _ _ _ _ => false
  | .linkStoreRefusal _ _ => true
  | .linkChannelWrite _ _ _ _ => true
  | .ethFrameReceive _ _ => true
  | .arpRequest _ _ _ => true
  | .neighbourSolicitation _ _ _ => true
  | .statusRequest _ _ _ _ => true
  | .resync _ _ _ _ _ => true
  | .moduleInserted _ _ => true
  | .presenceDebounced _ => true
  | .laserOutputReached _ => true
  | .laserLocked _ => true
  | .moduleRemoved _ => true
  | .laserMonitorPoll _ _ => true
  | .laserHourTick _ => true
  | .laserOff _ _ _ => true
  | .laserOn _ _ _ => true
  | .lasSpsrcWrite _ _ _ => true
  | .endpointReset _ => true
  | .bar2OutOfRange _ _ => true
  | .sq0TailWrite _ _ => true
  | .sq1TailWrite _ _ => true
  | .hostSubmit _ => true
  | .hostSubmitBody _ _ _ => true
  | .hostCancel _ => true
  | .hostStatus _ => true
  | .hostResume _ => true
  | .hostBoltData _ _ => false
  | .cqEntryWrite => true
  | .cqHeadWrite _ _ => true
  | .statusBlockWrite => true
  | .sessionOpen _ _ => true
  | .sessionClose _ _ => true
  | .heartbeat _ _ => true
  | .heartbeatStale => true
  | .hostAccessError _ _ => true
  | .orphanHoldExpiry _ => true
  | .counterSelectWrite _ _ _ => true
  | .counterWrap _ _ _ => true
  | .readerArm _ _ => true
  | .readerDone => false
  | .laneTrainingTimeout _ _ => true
  | .overcurrentComparatorClear _ => true
  | .vlasInRange _ => true
  | .pllRecalibration _ => true
  | .operatorEndsJob _ => true

end Sys2Proof
end

