-- ==== Sys2Proof/Certificates/Slice0/Obligations.lean ====
section
/-!
DEFINITION. The statements for the provers. A `Completes c s P` says that the command `c` runs to its end from `s` and that the state after it
meets `P`. Where a statement rests on a choice of the model and not on the spec, its docstring names the log entry.
-/

open Sys2Proof Sys2Proof.Machine

/-- For every command c and every state with c at the front of its queue, step answers what exec answers for c on the state with the rest of the queue. On an empty queue step answers the state unchanged, which is the model's choice (log 6). -/
def Obligations.StepRunsFrontCommand : Prop :=
  (∀ (s : State) (c : Instr) (rest : List Instr), s.pending = c :: rest → step s = exec c { s with pending := rest }) ∧
  (∀ s : State, s.pending = [] → step s = .next s)

/-- Every command, in every state and with every operand, runs to its end: exec answers a next state, never a fault or a refusal. The state after it has the same queue, keeps the memory in canonical form if it was, only adds to what the device has sent, and draws no free value twice. What the state after it holds is said by the statements of each family. -/
def Obligations.EveryCommandCompletes : Prop := ∀ (c : Instr) (s : State), Completes c s (Kept s)

/-- From every state whose memory is a list of rising addresses that lists no byte equal to what an unlisted address reads as, a step that answers a next state answers one whose memory has the same form. The form and the byte an unlisted address reads as are the model's (log 4). -/
def Obligations.StepKeepsCanonicalMemory : Prop := ∀ s t : State, Inv s → step s = .next t → Inv t

/-- After reset the memory is canonical and reads the model's choice 0 everywhere (log 4); no command waits and nothing has been sent; every field of every register but the sensor entries reads the reset value of its register table; the sensor entries read what the spec's default table gives them; every tile is in its reset state, no partition has a form, every request slot is free, firmware does not run, RESET_N is low (log 2) and the host session is closed. Reset values the spec does not give are the model's choice (log 3). -/
def Obligations.ResetState : Prop :=
  Inv State.reset ∧ State.reset.pending = [] ∧ State.reset.outputs = [] ∧
  (∀ a, Memory.read State.reset.mem a = 0) ∧
  (∀ k : RegKey, k.reg ≠ .snsEnt → ∀ f ∈ k.reg.row.fields, State.reset.fldOf k f.lo f.len = f.rst) ∧
  (∀ (b : BrimDie) (e : Fin 16), State.reset.regN (snsReg b.val .snsEnt e.val) = snsEntReset (brimIdx b.val) e.val) ∧
  (∀ u, State.reset.tile u = Tile.reset) ∧ (∀ p, (State.reset.part p).job = .noForm) ∧ (∀ i, (State.reset.slot i).state = .free) ∧
  State.reset.boot.running = false ∧ State.reset.power.resetN = false ∧ State.reset.session = 0

/-- Every command that storesNothing names (those of the registers, bowstring, power, lasers, calibration, sensors, counters, requests, links and host interface that store no byte) completes from every state with the whole memory unchanged. IDLE, FREEZE, THAW, EMERGENCY, HOLD and SKIP do so where no Crown access waits for a refresh window to end, which the passing of a slot lets go on (log 47). -/
def Obligations.QuietCommandsLeaveMemory : Prop :=
  (∀ (c : Instr) (s : State), storesNothing c = true → Completes c s (fun t => t.mem = s.mem)) ∧
  (∀ (c : Instr) (s : State), s.deferred = [] →
    (∃ d, c = .idle d) ∨ c = .freeze ∨ c = .thaw ∨ c = .emergency ∨ (∃ p, c = .hold p) ∨ (∃ r d m, c = .skip r d m) →
    Completes c s (fun t => t.mem = s.mem))

/-- A write of a whole 32-bit register that is no half of a pair, whose port reaches it, that its component may access, that no command of its own and no rule of the register holds back, and whose value every field admits, completes and changes that one register. Each bit becomes what its field's access type makes of it: RW takes the bit written, W1C clears and W1S sets where 1 is written, RO, WO, RC and reserved bits stay. The bus reach and the rules that hold a write back are read as log 13 says. -/
def Obligations.RegisterWriteByAccessType : Prop :=
  ∀ (s : State) (port : Port) (addr : DevAddr) (data : W32) (k : RegKey),
    regAt (addr.toNat / 4 * 4) = some k → k.reg.row.half = .single → s.shut port (addr.toNat / 4 * 4) = false →
    (s.linkSeen port).ownWrite port k data = none → k.reg ≠ .pfxEpoch → s.sessionLocked k = false →
    s.absent k = false → s.barred port k = false → (port.isCore = true ∨ coreOnly k.reg = false) → s.writeOk k data.toNat = true →
    Completes (.registerWrite port addr data 15) s (fun t =>
        Only [.host, .reg k] s t ∧
        ∀ i < 32, (t.reg k).getLsbD i = bitAfter k.reg.row.fields (s.regN k) data.toNat i)

/-- A read of a register that is no half of a pair and no computed view completes: it returns each bit as its field's access type reads (WO and reserved bits 0), sets the RC fields to their reset values, and changes no other register. That this row serves every read is the model's reading (log 13). -/
def Obligations.ReadClearsRcFields : Prop :=
  ∀ (s : State) (port : Port) (addr : DevAddr) (k : RegKey),
    regAt (addr.toNat / 4 * 4) = some k → k.reg.row.half = .single → s.shut port (addr.toNat / 4 * 4) = false →
    s.absent k = false → s.viewOf k = none → k.reg ∉ [Reg.fulResult, .smpStatus, .hifStatus, .pwrDieCore, .pwrDieArr] →
    Completes (.rcFieldRead port addr) s (fun t =>
      Only [.host, .readOut port, .reg k] s t ∧
      (∃ v : W32, Tbl.find t.readOut port = some v ∧ ∀ i < 32, v.getLsbD i = bitRead k.reg.row.fields (s.regN k) i) ∧
      ∀ i < 32, (t.reg k).getLsbD i = bitCleared k.reg.row.fields (s.regN k) i)

/-- A read of a low half captures the whole pair in the port's own snapshot for that pair and returns the low word; a read of a high half returns the high word of the port's snapshot, and 0 where the port has made none. A write of a low half changes nothing but the value held for its port; a write of the high half applies both halves, the low one with the value the port last wrote, and leaves the low half as it is where the port has written none. Each reads and writes only the snapshot and held value of its own port. -/
def Obligations.RegisterPairs : Prop :=
  ((∀ (s : State) (port : Port) (addr : DevAddr) (k : RegKey) (hi : Reg),
    regAt (addr.toNat / 4 * 4) = some k → k.reg.row.half = .lo → k.reg.hiOf = some hi →
    s.shut port (addr.toNat / 4 * 4) = false →
    Completes (.pairLoRead port addr) s (fun t =>
      Only [.host, .readOut port, .snap (port, k)] s t ∧
      Tbl.find t.readOut port = some (BitVec.ofNat 32 ((s.linkSeen port).view k).1) ∧
      Tbl.find t.snaps (port, k) = some (BitVec.ofNat 32 ((s.linkSeen port).view ⟨k.die, k.region, hi, k.idx⟩).1))) ∧
  (∀ (s : State) (port : Port) (addr : DevAddr) (k : RegKey),
    regAt (addr.toNat / 4 * 4) = some k → k.reg.row.half = .hi → s.shut port (addr.toNat / 4 * 4) = false →
    Completes (.rcFieldRead port addr) s (fun t =>
      Only [.host, .readOut port] s t ∧
      Tbl.find t.readOut port = some ((Tbl.find s.snaps (port, k.loKey)).getD 0)))) ∧
  ((∀ (s : State) (port : Port) (addr : DevAddr) (data : W32) (k : RegKey),
    regAt (addr.toNat / 4 * 4) = some k → k.reg.row.half = .lo → s.shut port (addr.toNat / 4 * 4) = false →
    (s.linkSeen port).ownWrite port k data = none → s.sessionLocked k = false →
    s.absent k = false → s.barred port k = false → (port.isCore = true ∨ coreOnly k.reg = false) → s.writeOk k data.toNat = true →
    Completes (.registerWrite port addr data 15) s (fun t =>
      Only [.host, .loHeld (port, k)] s t ∧ Tbl.find t.loHeld (port, k) = some data)) ∧
  (∀ (s : State) (port : Port) (addr : DevAddr) (data : W32) (k : RegKey),
    regAt (addr.toNat / 4 * 4) = some k → k.reg.row.half = .hi → s.shut port (addr.toNat / 4 * 4) = false →
    (s.linkSeen port).ownWrite port k data = none → s.sessionLocked k = false →
    s.absent k = false → s.barred port k = false → (port.isCore = true ∨ coreOnly k.reg = false) → s.writeOk k data.toNat = true →
    Completes (.pairHiWrite port addr data) s (fun t =>
      Only [.host, .reg k, .reg k.loKey] s t ∧
      (∀ i < 32, (t.reg k).getLsbD i = bitAfter k.reg.row.fields (s.regN k) data.toNat i) ∧
      (∀ lo, Tbl.find s.loHeld (port, k.loKey) = some lo → ∀ i < 32,
        (t.reg k.loKey).getLsbD i = bitAfter k.loKey.reg.row.fields (s.regN k.loKey) lo.toNat i) ∧
      (Tbl.find s.loHeld (port, k.loKey) = none → t.reg k.loKey = s.reg k.loKey))))

/-- A register write from the PCIe endpoint to a register only control cores may write changes no register and records an address fault naming the port. A write of a value a field does not admit changes no register and records a firmware fault. A write of a register that the open host session locks changes no register and is counted and recorded. An access outside its component's table, to a register or to scratchpad or Crown memory, changes nothing but the protection fault it leaves to the component. A write to a principal register of another Brim die changes nothing and records nothing. A write or read at an address that is neither a register nor memory changes no register, reads 0, and records an address fault naming the port, but in a region of the principal's registers on another Brim die, where it records nothing. How a fault names a port and its DETAIL are the model's (logs 9, 10), and which memory a component's table leaves out is log 44. -/
def Obligations.RefusedAccessesAreDropped : Prop :=
  (∀ (s : State) (port : Port) (addr : DevAddr) (data : W32) (k : RegKey),
    regAt (addr.toNat / 4 * 4) = some k → s.shut port (addr.toNat / 4 * 4) = false →
    (s.linkSeen port).ownWrite port k data = none → k.reg ≠ .pfxEpoch → s.sessionLocked k = false →
    s.absent k = false → s.barred port k = false →
    (coreOnly k.reg = true → port.isCore = false → s.otherRole k.addr = false →
      Completes (.registerWrite port addr data 15) s (fun t => Only (.host :: faultPlaces (s.portDU port).1) s t ∧
        Faults 0x2008 none (s.portDU port).1 (s.portDU port).2 (k.addr) s t)) ∧
    ((port.isCore = true ∨ coreOnly k.reg = false) → s.writeOk k data.toNat = false →
      Completes (.registerWrite port addr data 15) s (fun t => Only (.host :: faultPlaces (addrDie k.addr)) s t ∧
        Faults 0x6001 none (addrDie k.addr) 0x87 (k.addr) s t))) ∧
  (∀ (s : State) (port : Port) (addr : DevAddr) (data : W32) (k : RegKey),
    regAt (addr.toNat / 4 * 4) = some k → s.shut port (addr.toNat / 4 * 4) = false →
    (s.linkSeen port).ownWrite port k data = none → k.reg ≠ .pfxEpoch →
    s.barred port k = false → s.sessionLocked k = true → Completes (.registerWrite port addr data 15) s (fun t =>
      t.reg k = s.reg k ∧ t.fldOf (s.hif .hifErrcnt) 0 16 = min 65535 (s.fldOf (s.hif .hifErrcnt) 0 16 + 1) ∧
      Faults 0x7004 none s.prinDie 0x8B (addrOff k.addr) s t)) ∧
  (∀ (s : State) (port : Port) (addr : DevAddr) (data : W32) (k : RegKey),
    regAt (addr.toNat / 4 * 4) = some k → s.shut port (addr.toNat / 4 * 4) = false →
    (s.linkSeen port).ownWrite port k data = none → k.reg ≠ .pfxEpoch →
    s.barred port k = false → s.absent k = true → Completes (.registerWrite port addr data 15) s (Only [.host] s)) ∧
  (∀ (s : State) (port : Port) (addr : DevAddr) (data : W32) (k : RegKey),
    regAt (addr.toNat / 4 * 4) = some k → s.shut port (addr.toNat / 4 * 4) = false →
    (s.linkSeen port).ownWrite port k data = none → k.reg ≠ .pfxEpoch → s.shut port k.addr = false → s.blocked port k.reg = true →
    Completes (.registerWrite port addr data 15) s (fun t => Only [.boot] s t ∧
      t.boot = { s.boot with protFaults := s.boot.protFaults ++ [s.portComp port] })) ∧
  (∀ (s : State) (b : BrimDie) (n : Fin 8) (addr : DevAddr) (data : W32),
    regAt (addr.toNat / 4 * 4) = none → memAt (addr.toNat / 4 * 4) = some .scratchpad ∨ memAt (addr.toNat / 4 * 4) = some .dram →
    s.shut (.core b n) (addr.toNat / 4 * 4) = false →
    Completes (.registerWrite (.core b n) addr data 15) s (fun t => Only [.boot] s t ∧
      t.boot = { s.boot with protFaults := s.boot.protFaults ++ [s.portComp (.core b n)] })) ∧
  (∀ (s : State) (port : Port) (addr : DevAddr) (data : W32),
    regAt (addr.toNat / 4 * 4) = none → memAt (addr.toNat / 4 * 4) = none → s.shut port (addr.toNat / 4 * 4) = false →
    (s.otherRole (addr.toNat / 4 * 4) = false →
      Completes (.registerWrite port addr data 15) s (fun t => Only (.host :: faultPlaces (s.portDU port).1) s t ∧
        Faults 0x2008 none (s.portDU port).1 (s.portDU port).2 (addr.toNat / 4 * 4) s t) ∧
      Completes (.rcFieldRead port addr) s (fun t => Only (.host :: .readOut port :: faultPlaces (s.portDU port).1) s t ∧
        Tbl.find t.readOut port = some 0 ∧
        Faults 0x2008 none (s.portDU port).1 (s.portDU port).2 (addr.toNat / 4 * 4) s t)) ∧
    (s.otherRole (addr.toNat / 4 * 4) = true →
      Completes (.registerWrite port addr data 15) s (Only [.host] s) ∧
      Completes (.rcFieldRead port addr) s (fun t => Only [.host, .readOut port] s t ∧ Tbl.find t.readOut port = some 0)))

/-- When the vector unit can issue: ADD, SUB, MUL and FMA on INT32 give each of 64 lanes modulo 2^32, MIN and MAX the signed extreme, ABS and NEG their value but for the most negative number, of which no result is stated (log 26). I8ADD and I8SUB saturate each of 256 bytes to -128 to 127, I8MIN and I8MAX give the signed extreme, I8DOT4 the exact sum of four products. The operands are the registers as they stand in the cycle of issue; the destination awaits the result, with its tag, from the cycle of the contract's latency on, and nothing else of the tile but its issue changes (log 21). -/
def Obligations.VectorIntegersWrapOrSaturate : Prop :=
  (∀ (s : State) (h : OpHdr) (dst a b c : VReg), CanIssue s h → h.env.residue = false →
    Issues h (.add h dst a b .int32) s (fun t => VecDone s t h dst a [b.val] 3 4 (fun v =>
      ∀ i < 64, lane v i = lane (vin s h a) i + lane (vin s h b) i)) ∧
    Issues h (.sub h dst a b .int32) s (fun t => VecDone s t h dst a [b.val] 3 4 (fun v =>
      ∀ i < 64, lane v i = lane (vin s h a) i - lane (vin s h b) i)) ∧
    Issues h (.mul h dst a b .int32) s (fun t => VecDone s t h dst a [b.val] 3 4 (fun v =>
      ∀ i < 64, lane v i = lane (vin s h a) i * lane (vin s h b) i)) ∧
    Issues h (.fma h dst a b c .int32) s (fun t => VecDone s t h dst a [b.val, c.val] 4 5 (fun v =>
      ∀ i < 64, lane v i = lane (vin s h a) i * lane (vin s h b) i + lane (vin s h c) i)) ∧
    Issues h (.min h dst a b .int32) s (fun t => VecDone s t h dst a [b.val] 3 4 (fun v =>
      ∀ i < 64, (lane v i).toInt = min (lane (vin s h a) i).toInt (lane (vin s h b) i).toInt)) ∧
    Issues h (.max h dst a b .int32) s (fun t => VecDone s t h dst a [b.val] 3 4 (fun v =>
      ∀ i < 64, (lane v i).toInt = max (lane (vin s h a) i).toInt (lane (vin s h b) i).toInt)) ∧
    Issues h (.abs h dst a .int32) s (fun t => VecDone s t h dst a [] 3 4 (fun v =>
      ∀ i < 64, lane (vin s h a) i ≠ BitVec.intMin 32 → lane v i = (lane (vin s h a) i).abs)) ∧
    Issues h (.neg h dst a .int32) s (fun t => VecDone s t h dst a [] 3 4 (fun v =>
      ∀ i < 64, lane (vin s h a) i ≠ BitVec.intMin 32 → lane v i = -lane (vin s h a) i))) ∧
  (∀ (s : State) (h : OpHdr) (dst a b : VReg), CanIssue s h → h.env.residue = false →
    Issues h (.i8add h dst a b) s (fun t => VecDone s t h dst a [b.val] 2 3 (fun v => ∀ i < 256,
      (lane8 v i).toInt = max (-128) (min 127 ((lane8 (vin s h a) i).toInt + (lane8 (vin s h b) i).toInt)))) ∧
    Issues h (.i8sub h dst a b) s (fun t => VecDone s t h dst a [b.val] 2 3 (fun v => ∀ i < 256,
      (lane8 v i).toInt = max (-128) (min 127 ((lane8 (vin s h a) i).toInt - (lane8 (vin s h b) i).toInt)))) ∧
    Issues h (.i8min h dst a b) s (fun t => VecDone s t h dst a [b.val] 2 3 (fun v => ∀ i < 256,
      (lane8 v i).toInt = min (lane8 (vin s h a) i).toInt (lane8 (vin s h b) i).toInt)) ∧
    Issues h (.i8max h dst a b) s (fun t => VecDone s t h dst a [b.val] 2 3 (fun v => ∀ i < 256,
      (lane8 v i).toInt = max (lane8 (vin s h a) i).toInt (lane8 (vin s h b) i).toInt)) ∧
    Issues h (.i8dot4 h dst a b) s (fun t => VecDone s t h dst a [b.val] 3 4 (fun v => ∀ i < 64,
      (lane v i).toInt = ((List.range 4).map (fun j =>
        (lane8 (vin s h a) (4 * i + j)).toInt * (lane8 (vin s h b) (4 * i + j)).toInt)).sum)))

/-- When the vector unit can issue: ADD, SUB, MUL, FMA, MIN, MAX, ABS and NEG on FP16 or bfloat16 give in every element the exact result of its source elements encoded once in the format, by the model's exact values FV and their encoder; the destination awaits that result from the cycle of the contract's latency on, and nothing else of the tile but its issue changes. That SUB, ABS and NEG are the sum with, the magnitude of and the sign change of the operand is log 26. -/
def Obligations.VectorFloatArithmeticRoundsOnce : Prop :=
  ∀ (s : State) (h : OpHdr) (dst a b c : VReg) (f : VFmt), vIsFloat f = true → CanIssue s h → h.env.residue = false →
    let ea := vElems f (vin s h a)
    let eb := vElems f (vin s h b)
    let ec := vElems f (vin s h c)
    let round (v : FV) : Option Nat := some ((vFloat f).encode v)
    Issues h (.add h dst a b f) s (fun t => VecDone s t h dst a [b.val] 3 4 (fun v =>
      Holds v 2 (zip2 (fun p q => round (FV.add (vVal f p) (vVal f q))) ea eb))) ∧
    Issues h (.sub h dst a b f) s (fun t => VecDone s t h dst a [b.val] 3 4 (fun v =>
      Holds v 2 (zip2 (fun p q => round (FV.add (vVal f p) (vVal f q).neg)) ea eb))) ∧
    Issues h (.mul h dst a b f) s (fun t => VecDone s t h dst a [b.val] 3 4 (fun v =>
      Holds v 2 (zip2 (fun p q => round (FV.mul (vVal f p) (vVal f q))) ea eb))) ∧
    Issues h (.fma h dst a b c f) s (fun t => VecDone s t h dst a [b.val, c.val] 4 5 (fun v =>
      Holds v 2 (zip3 (fun p q r => round (FV.add (FV.mul (vVal f p) (vVal f q)) (vVal f r))) ea eb ec))) ∧
    Issues h (.min h dst a b f) s (fun t => VecDone s t h dst a [b.val] 3 4 (fun v =>
      Holds v 2 (zip2 (fun p q => round (FV.min (vVal f p) (vVal f q))) ea eb))) ∧
    Issues h (.max h dst a b f) s (fun t => VecDone s t h dst a [b.val] 3 4 (fun v =>
      Holds v 2 (zip2 (fun p q => round (FV.max (vVal f p) (vVal f q))) ea eb))) ∧
    Issues h (.abs h dst a f) s (fun t => VecDone s t h dst a [] 3 4 (fun v => Holds v 2 (ea.map (fun p => round (vVal f p).abs)))) ∧
    Issues h (.neg h dst a f) s (fun t => VecDone s t h dst a [] 3 4 (fun v => Holds v 2 (ea.map (fun p => round (vVal f p).neg))))

/-- When the vector unit can issue: CMP on INT32 gives in each lane one of two encodings of true and false, which the spec leaves open (log 20), by the signed comparison; SEL takes SRC2 where SRC1's lane counts as true (log 20) and SRC3 elsewhere; CVT of INT32 to INT8 saturates; and every CVT gives the conversion of each source element (a pair whose conversion the spec does not state is free, log 57). The destination awaits the result from the cycle of the contract's latency on. -/
def Obligations.VectorCompareSelectConvert : Prop :=
  ∀ (s : State) (h : OpHdr) (dst a b c : VReg), CanIssue s h →
    let la := lane (vin s h a)
    let lb := lane (vin s h b)
    (∀ p : CmpPred, Issues h (.cmp h dst a b .int32 p) s (fun t => VecDone s t h dst a [b.val] 3 4 (fun v => ∀ i < 64,
      lane v i = BitVec.ofNat 32 (Config.cmpResult 2 (match p with
        | .eq => la i == lb i
        | .ne => la i != lb i
        | .lt => (la i).slt (lb i)
        | .le => (la i).sle (lb i)
        | .gt => (lb i).slt (la i)
        | .ge => (lb i).sle (la i)))))) ∧
    Issues h (.sel h dst a b c .int32) s (fun t => VecDone s t h dst a [b.val, c.val] 3 4 (fun v => ∀ i < 64,
      lane v i = if Config.selTrue 2 (la i).toNat then lb i else lane (vin s h c) i)) ∧
    Issues h (.cvt h dst a .int32 .int8) s (fun t => VecDone s t h dst a [] 3 4 (fun v => ∀ i < 64,
      (lane8 v i).toInt = max (-128) (min 127 (la i).toInt))) ∧
    (∀ src tgt : VFmt, Issues h (.cvt h dst a src tgt) s (fun t => VecDone s t h dst a [] 3 4 (fun v =>
      Holds v (vWidth tgt) (((vElems src (vin s h a)).take (vCount tgt)).map (fun e => (eCvt src tgt e).1)))))

/-- When the vector unit can issue and a ticket is there: EXP2, LOG2, RCP and RSQRT take one ticket from the operation counter and the meter, and the destination awaits, from the cycle of the contract's latency on, each element of the function of the source element, rounded once as the spec says also of infinities and NaN; of an operand for which no value is stated the element is free (log 5, log 26). The tag is the source's and no register changes at issue. -/
def Obligations.VectorFunctionsDrawOneTicket : Prop :=
  ∀ (s : State) (h : OpHdr) (dst a : VReg) (f : VFmt), CanIssue s h →
    let x := s.tile h.tile
    1 ≤ x.opTickets → 1 ≤ x.meter → x.waitDraw = false →
    let done (t : State) (g : Nat → Option Nat) : Prop :=
      OnlyIn (issuePlaces s h.tile) s t ∧
      (t.tile h.tile).opTickets = x.opTickets - 1 ∧ (t.tile h.tile).meter = x.meter - 1 ∧ (t.tile h.tile).waitDraw = false ∧
      (t.tile h.tile).waitq = [] ∧ (t.tile h.tile).vr = x.vr ∧ (t.tile h.tile).tags = x.tags ∧
      ∃ b fmt, Holds b (vWidth f) ((vElems f (vin s h a)).map g) ∧
        Awaits s t h.tile [⟨dst.val, vecCycle s h + s.lat h.tile 8 10, some b, vtag s h a, false, x.satOf (vecCycle s h) [a.val], fmt⟩]
    Issues h (.exp2 h dst a f) s (fun t => done t (eExp2 f)) ∧ Issues h (.log2 h dst a f) s (fun t => done t (eLog2 f)) ∧
    Issues h (.rcp h dst a f) s (fun t => done t (eRcp f)) ∧ Issues h (.rsqrt h dst a f) s (fun t => done t (eRsqrt f))

/-- When the vector unit can issue: RSUM, RDOT, RSUMSQ and RMAX give element 0 the reduction of the source elements (the elements after it are log 20); RARGMAX gives it the index of one of the largest elements (which one of equal ones is free, log 20). On INT32 the sum, the dot product and the sum of squares wrap modulo 2^32 and the maximum is the signed one. The destination awaits the result from the cycle of the contract's latency on. -/
def Obligations.VectorReductions : Prop :=
  (∀ (s : State) (h : OpHdr) (dst a b : VReg) (f : VFmt), CanIssue s h → h.env.residue = false →
    let ea := vElems f (vin s h a)
    let eb := vElems f (vin s h b)
    Issues h (.rsum h dst a f) s (fun t => VecDone s t h dst a [] 10 12 (fun v => Holds v (vWidth f) [redSum f ea])) ∧
    Issues h (.rdot h dst a b f) s (fun t => VecDone s t h dst a [b.val] 10 12 (fun v => Holds v (vWidth f) [redDot f ea eb])) ∧
    Issues h (.rsumsq h dst a f) s (fun t => VecDone s t h dst a [] 10 12 (fun v => Holds v (vWidth f) [redDot f ea ea])) ∧
    Issues h (.rmax h dst a f) s (fun t => VecDone s t h dst a [] 10 12 (fun v => Holds v (vWidth f) [redMax f ea])) ∧
    Issues h (.rargmax h dst a f) s (fun t => VecDone s t h dst a [] 10 12 (fun v =>
      ∀ l, argMaxes f ea = some l → l ≠ [] → ∃ i ∈ l, Holds v (vWidth f) [some i]))) ∧
  (∀ (s : State) (h : OpHdr) (dst a b : VReg), CanIssue s h → h.env.residue = false →
    let la := lane (vin s h a)
    let lb := lane (vin s h b)
    Issues h (.rsum h dst a .int32) s (fun t => VecDone s t h dst a [] 10 12 (fun v =>
      lane v 0 = ((List.range 64).map (fun i => la i)).foldl (· + ·) 0)) ∧
    Issues h (.rdot h dst a b .int32) s (fun t => VecDone s t h dst a [b.val] 10 12 (fun v =>
      lane v 0 = ((List.range 64).map (fun i => la i * lb i)).foldl (· + ·) 0)) ∧
    Issues h (.rsumsq h dst a .int32) s (fun t => VecDone s t h dst a [] 10 12 (fun v =>
      lane v 0 = ((List.range 64).map (fun i => la i * la i)).foldl (· + ·) 0)) ∧
    Issues h (.rmax h dst a .int32) s (fun t => VecDone s t h dst a [] 10 12 (fun v =>
      (∀ i < 64, (la i).sle (lane v 0) = true) ∧ ∃ i < 64, lane v 0 = la i)))

/-- When the vector unit can issue: BCAST fills the register with one element; ROT moves lanes by IMM in the direction the spec leaves open (log 20); GATHERR takes the elements that SRC2 indexes, free where an index is out of range (log 20); TAGSET sets the tag to its operand, clears POISON (log 28) and changes no register's bytes. The destination awaits the result from the cycle of the contract's latency on. -/
def Obligations.VectorPermutationsAndTags : Prop :=
  ∀ (s : State) (h : OpHdr) (dst a b : VReg) (f : VFmt) (imm : BitVec 16), CanIssue s h →
    let x := s.tile h.tile
    let ea := vElems f (vin s h a)
    Issues h (.bcast h dst a f imm) s (fun t => VecDone s t h dst a [] 2 3 (fun v =>
      ∀ e, ea[imm.toNat]? = some e → Holds v (vWidth f) (List.replicate (vCount f) (some e)))) ∧
    Issues h (.rot h dst a f imm) s (fun t => VecDone s t h dst a [] 2 3 (fun v =>
      ∀ i < 64, lane v i = lane (vin s h a) (if Config.rotUp then (i + 64 - imm.toNat % 64) % 64 else (i + imm.toNat % 64) % 64))) ∧
    Issues h (.gatherr h dst a b f) s (fun t => VecDone s t h dst a [b.val] 2 3 (fun v =>
      Holds v (vWidth f) ((vElems f (vin s h b)).map (fun i => ea[i]?)))) ∧
    (∀ (slot : SlotIdx) (wgen : Byte) (pos : BitVec 24), Issues h (.tagset h dst slot wgen pos) s (fun t =>
      OnlyIn (issuePlaces s h.tile) s t ∧ TileKept x (t.tile h.tile) ∧ (t.tile h.tile).nextOp = h.opidx + 1 ∧
      Awaits s t h.tile [⟨dst.val, vecCycle s h + 1, none, ⟨slot.val, pos.toNat, wgen.toNat, false⟩, false, false, none⟩]))

/-- Whatever results a tile's registers await in the order of their cycles, a further one keeps that order, shows in no register before its ready cycle and in no other register at all, and from its cycle on gives its register its bytes and its tag (a result that keeps the register's tag only sets POISON), unless a later one for the register has come. That a register reads so by cycle is log 21. -/
def Obligations.RegisterResultsShowOnTheirCycle : Prop :=
  ∀ (x : Tile) (e : VRes), x.vpend.Pairwise (fun a b => a.ready ≤ b.ready) →
    let y : Tile := { x with vpend := insRes e x.vpend }
    y.vpend.Pairwise (fun a b => a.ready ≤ b.ready) ∧
    (∀ c r, (r = e.reg → c < e.ready) → y.vregAt c r = x.vregAt c r ∧ y.tagAt c r = x.tagAt c r) ∧
    (∀ c, e.ready ≤ c → (∀ d ∈ x.vpend, d.reg = e.reg → d.ready ≤ e.ready ∨ c < d.ready) →
      (∀ b, e.bytes = some b → y.vregAt c e.reg = b) ∧ (e.bytes = none → y.vregAt c e.reg = x.vregAt c e.reg) ∧
      (e.keep = false → y.tagAt c e.reg = e.tag) ∧
      (e.keep = true → y.tagAt c e.reg = { x.tagAt c e.reg with poison := e.tag.poison }))

/-- When nothing is under way in the scratchpad: LOAD's register awaits, from its ready cycle on, the 256 bytes from the row that holds ADDR (log 20 on an unaligned ADDR), keeps its tag and gets POISON where a word read is poisoned. STORE writes the 256 bytes of its register as it stands in the cycle of issue, and nothing elsewhere, and poisons the words where the register is poisoned. -/
def Obligations.LoadAndStoreMoveFourRows : Prop :=
  ∀ (s : State) (h : OpHdr) (reg : VReg) (addr : BitVec 19), Clear s h →
    let base := addr.toNat / 64 * 64
    let ready := vecCycle s h + scpLat addr.toNat + s.lat h.tile 4 5
    base + 256 ≤ 0x60000 →
    Issues h (.load h reg addr) s (fun t =>
      OnlyIn (issuePlaces s h.tile) s t ∧ TileKept (s.tile h.tile) (t.tile h.tile) ∧
      Awaits s t h.tile [⟨reg.val, ready, some (s.bytes (tAddr h.tile base) 256),
        { (s.tile h.tile).tagAt ready reg with poison := s.poisonedIn (tAddr h.tile base) 256 }, true, false, none⟩]) ∧
    ((vin s h reg).length = 256 →
      Issues h (.store h reg addr) s (fun t => Wrote s t h base (vin s h reg) ∧ TileKept (s.tile h.tile) (t.tile h.tile) ∧
        (s.isCalib h.tile = false → (t.tile h.tile).grads = (s.tile h.tile).grads) ∧
        ((vtag s h reg).poison = true → (t.flushAll h.tile).poisonedIn (tAddr h.tile base) 256 = true)))

/-- When nothing is under way in the scratchpad: SWLOAD of a swatch that passes its checks brings its 128 decoded elements and the tag from its header. GATHER, where no two rows of a cycle lie in one bank, brings n elements at the stride and zeros after them, poisoned exactly where an element touches a poisoned word. TRANSPOSE brings element j of line i to element 32 j + i, for the lines that reach it; a line of a cycle that lies in the bank of an earlier line of the cycle is dropped, which poisons the result and ends the partition's job. AOUT, which waits for the array's output, brings the 512 closed outputs of the array that served the last closing pass of its logical array, with their tag. The registers await the result from its ready cycle on. -/
def Obligations.SwatchAndStridedReads : Prop :=
  ∀ (s : State) (h : OpHdr) (dst : VReg) (addr : BitVec 19), Clear s h →
    let x := s.tile h.tile
    let c := vecCycle s h
    -- a swatch of a layer, valid and not poisoned: its decoded elements and the tag its header gives
    (∀ (layer : Fin 256) (f : VFmt), vIsFloat f = true →
      let cx := s.swCtx h.tile layer.val
      let b := s.bytes (tAddr h.tile addr.toNat) (swSize cx.slots)
      addr.toNat + swSize cx.slots ≤ 0x60000 → s.poisonedIn (tAddr h.tile addr.toNat) (swSize cx.slots) = false → swPoison b = false →
      swMalformed cx b = none →
      Issues h (.swload h dst addr layer f) s (fun t =>
        OnlyIn (issuePlaces s h.tile) s t ∧ TileKept x (t.tile h.tile) ∧
        ∃ v, Holds v 2 ((List.range 128).map (fun j => some ((vFloat f).encode (swElem b (swN cx.slots) j)))) ∧
          Awaits s t h.tile [⟨dst.val, c + scpLat addr.toNat + s.lat h.tile 6 7, some v, ⟨swSlot b, swPos b, swWgen b, false⟩, false, false, some f⟩])) ∧
    -- n elements of e bytes with a stride of stride × e bytes, no two rows of one issue cycle in one bank
    (∀ (n1 : Fin 256) (width : BitVec 2) (stride : BitVec 16),
      let e := 2 ^ width.toNat
      let off (k : Nat) := addr.toNat + k * stride.toNat * e
      let ready := c + ceilDiv (n1.val + 1) 4 + scpLat addr.toNat + s.lat h.tile 1 2
      (n1.val + 1) * e ≤ 256 → addr.toNat % e = 0 → width.toNat < 3 → (∀ k ≤ n1.val, off k + e ≤ 0x60000) →
      (∀ k ≤ n1.val, ∀ j ≤ n1.val, k / 4 = j / 4 → off k / 64 = off j / 64 ∨ scpBank (off k) ≠ scpBank (off j)) →
      Issues h (.gather h dst addr n1 width stride) s (fun t =>
        OnlyIn (issuePlaces s h.tile) s t ∧ TileKept x (t.tile h.tile) ∧
        ∃ (v : List Byte) (p : Bool), Awaits s t h.tile [⟨dst.val, ready, some v, { x.tagAt ready dst with poison := p }, true, false, none⟩] ∧
          (p = true ↔ ∃ k ≤ n1.val, tAddr h.tile (off k) / 8 ∈ s.poison) ∧
          (∀ k ≤ n1.val, ((v.drop (k * e)).take e) = s.bytes (tAddr h.tile (off k)) e) ∧
          (∀ i, (n1.val + 1) * e ≤ i → i < 256 → v[i]? = some 0))) ∧
    -- 32 lines of 32 bytes, four to an issue cycle: element j of line i is element 32 j + i of the result; of two lines of one cycle in one bank the
    -- later is dropped, which poisons the result and ends the job (R140)
    (∀ (width : BitVec 2) (stride : BitVec 16),
      let e := 2 ^ width.toNat
      let off (i : Nat) := addr.toNat + i * (stride.toNat * 32)
      let drops (i : Nat) : Prop := ∃ j < i, j / 4 = i / 4 ∧ scpBank (off j) = scpBank (off i)
      let ready := c + scpLat addr.toNat + s.lat h.tile 10 11
      dst.val ≤ 28 → width.toNat < 3 → addr.toNat % 32 = 0 → (∀ i < 32, off i + 32 ≤ 0x60000) →
      Issues h (.transpose h dst addr width stride) s (fun t => t.mem = s.mem ∧ (t.tile h.tile).vr = x.vr ∧ (t.tile h.tile).tags = x.tags ∧
        ∃ (v : Nat → List Byte) (p : Bool),
          Awaits s t h.tile ((List.range 4).map (fun k =>
            ⟨dst.val + k, ready, some (v k), { x.tagAt ready (dst.val + k) with poison := p }, true, false, none⟩)) ∧
          (∀ i < 32, ¬ drops i → ∀ j, j < 32 / e →
            let q := (32 * j + i) * e
            (((v (q / 256)).drop (q % 256)).take e) = s.bytes (tAddr h.tile (off i + j * e)) e) ∧
          ((∃ i < 32, drops i) → p = true ∧
            ∀ q, s.partOfDie h.tile.die.val = some q → (s.part q).job = .running → (t.part q).job = .ended))) ∧
    -- the 512 closed outputs of the array that served the last closing pass of the logical array
    (∀ (larray : Fin 64) (f : VFmt) (phys : Nat),
      let a := s.arr (arrOf h.tile phys)
      let ready := s.issueAt h (max x.vecFree a.outReady) + s.lat h.tile 4 5
      dst.val ≤ 28 → (Tbl.find x.lastOut larray.val).join = some phys → a.passes = [] → a.out.length = 512 →
      Issues h (.aout h dst larray f) s (fun t =>
        OnlyIn (issuePlaces s h.tile) s t ∧ TileKept x (t.tile h.tile) ∧
        ∃ v : Nat → List Byte,
          Awaits s t h.tile ((List.range 4).map (fun k => ⟨dst.val + k, ready, some (v k), a.outTag, false, a.outSat, some f⟩)) ∧
          ∀ k < 4, elemsN 2 128 (v k) = ((a.out.drop (128 * k)).take 128).map (·.toNat)))

/-- QUANT of finite inputs writes the swatch of the quantiser with the source's tag and no other byte. NSAMP adds the swatch's squares to its token's slice, giving no sample while the token goes on; at the first swatch of another token the slice before gives its sample where its level does not jump. TOPK of up to 4,096 finite logits writes the header and the min(k, n) largest in order, equal values by rising index, and no register. ECC_WRITEBACK takes the word off the words awaiting it. -/
def Obligations.QuantiseSampleAndSelect : Prop :=
  (∀ (s : State) (h : OpHdr) (src : VReg) (addr : BitVec 19), Clear s h →
    let x := s.tile h.tile
    let g := vtag s h src
    (∀ (layer : Fin 256) (f : VFmt), vIsFloat f = true → g.poison = false →
      let ln := s.layerOf h.tile layer.val
      let vals := ((vElems f (vin s h src)).map (vVal f)).take 128
      addr.toNat + swSize ln.napSlots ≤ 0x60000 → (∀ v ∈ vals, v.isFinite = true) → ln.napSlots ∈ [0, 2, 4] →
      x.satAt (vecCycle s h) src.val = false → x.nwHits.contains (layer.val, g.slot) = false →
      Issues h (.quant h src addr layer f) s (fun t => SameRegs s t h.tile ∧
        settled t h.tile (tAddr h.tile addr.toNat) (swSize ln.napSlots) =
          (quantSwatch vals ln.napSlots ln.napFactor g.slot layer.val g.wgen g.pos).1 ∧
        ∀ a, a < tAddr h.tile addr.toNat ∨ tAddr h.tile addr.toNat + swSize ln.napSlots ≤ a →
          Memory.read (t.flushAll h.tile).mem a = Memory.read s.mem a)) ∧
    (∀ (window : Fin 8),
      let w := x.window window.val
      let ln := s.layerOf h.tile w.layer
      let b := s.bytes (tAddr h.tile addr.toNat) (swSize ln.napSlots)
      let old := Tbl.find x.slices window.val
      let sampled (before : Option Slice) : Slice := ⟨swSlot b, swPos b, h.opidx,
        accSq ((before.map (·.sum)).getD 0) (sampleVals none b ln.napSlots), swPoison b || (before.map (·.poison)).getD false, false⟩
      w.used = true → s.isCalib h.tile = false → addr.toNat + swSize ln.napSlots ≤ 0x60000 → ln.nwPolicy ≠ 3 →
      s.poisonedIn (tAddr h.tile addr.toNat) (swSize ln.napSlots) = false → s.isVoid h.tile (swSlot b) = false →
      -- a further swatch of the token's slice, or the first: it is summed, and no sample is given yet
      ((∀ o, old = some o → o.slot = swSlot b ∧ o.pos = swPos b) →
        Issues h (.nsamp h addr window) s (fun t =>
          OnlyIn (issuePlaces s h.tile) s t ∧ SameRegs s t h.tile ∧ (t.tile h.tile).samples = x.samples ∧
          Tbl.find (t.tile h.tile).slices window.val = some (sampled old))) ∧
      -- the first swatch of another token: the slice before gives its sample
      (∀ o level, old = some o → ¬ (o.slot = swSlot b ∧ o.pos = swPos b) → o.poison = false → normLevel o.sum = some level →
        w.jumps ln level = false →
        Issues h (.nsamp h addr window) s (fun t =>
          OnlyIn (issuePlaces s h.tile) s t ∧ SameRegs s t h.tile ∧
          (t.tile h.tile).samples = x.samples ++ [⟨window.val, o.slot, o.opidx, level⟩] ∧
          Tbl.find (t.tile h.tile).slices window.val = some (sampled none)))) ∧
    (∀ (n1 : Fin 8192) (out : BitVec 19) (k1 : Fin 256) (base : BitVec 17),
      let n := n1.val + 1
      let k := k1.val + 1
      let l := elemsN 2 n (s.bytes (tAddr h.tile addr.toNat) (2 * n))
      let top := topK k l
      n ≤ 4096 → addr.toNat % 2 = 0 → addr.toNat + 2 * n ≤ 0x60000 → out.toNat + 16 + 4 * min k n ≤ 0x60000 →
      s.poisonedIn (tAddr h.tile addr.toNat) (2 * n) = false → (∀ v ∈ l, (FFmt.fp16.decode v).isFinite = true) → g.poison = false →
      Issues h (.topk h src addr n1 out k1 base) s (fun t => SameRegs s t h.tile ∧
        top.length = min k n ∧
        (∀ i, ∀ e ∈ top[i]?, l[e.2]? = some e.1 ∧ ∀ y ∈ top[i + 1]?, FV.cmp (FFmt.fp16.decode y.1) (FFmt.fp16.decode e.1) ≠ .gt) ∧
        settled t h.tile (tAddr h.tile out.toNat) (16 + 4 * min k n) =
          listHeader g.slot (min k n) g.pos base.toNat false ++ top.flatMap (fun y => leBytes 2 y.1 ++ leBytes 2 y.2)))) ∧
  (∀ (s : State) (u : TileId) (addr : BitVec 19), Completes (.eccWriteback u addr) s (fun t =>
    Only [.tile u] s t ∧ (t.tile u).eccPend = (s.tile u).eccPend.erase (addr.toNat / 8)))

/-- A main pass over swatches in different banks that pass their checks, on a mapped array, issues at its schedule cycle or when the array frees, takes 2s or 3s tickets, and is appended to its array with launch, ready and busy times by the latency table; a nap pass takes 1 ticket, or none with no occupied slot, launches on the same array over the same swatches, and gives them up. No other array, no register of the tile and no byte of memory changes. -/
def Obligations.PassesLaunchOnSchedule : Prop :=
  (∀ (s : State) (h : OpHdr) (o : PassOps), Clear s h →
    let x := s.tile h.tile
    let n := o.swatches.length
    let c := s.swCtx h.tile o.layer.val
    let data := o.swatches.map (fun w => s.bytes (tAddr h.tile (32 * w.val)) (swSize c.slots))
    let gen := swWgen (data.headD [])
    x.waitDraw = false → 1 ≤ n → n ≤ 4 → (o.swatches.map (fun w => scpBank (32 * w.val))).Nodup →
    (∀ w ∈ o.swatches, scpBank (32 * w.val) = scpBank (32 * w.val + swSize c.slots - 1) ∧ 32 * w.val + swSize c.slots ≤ 0x60000 ∧
      s.poisonedIn (tAddr h.tile (32 * w.val)) (swSize c.slots) = false) →
    (∀ b ∈ data, swPoison b = false ∧ swSat b = false) → passMalformed c (data.map (fun b => (b, false))) = none →
    ∀ phys fmt, s.resolve h.tile gen o.larray.val = some (phys, fmt) →
    let a := arrOf h.tile phys
    (s.arr a).st = .mapped → s.isLc1 h.tile = false →
    let launched (t : State) (issue : Nat) (k : PassKind) (draw lead per : Nat) : Prop :=
      (t.tile h.tile).opTickets = x.opTickets - draw ∧ (t.tile h.tile).meter = x.meter - draw ∧
      (∀ b, b ≠ a → t.arr b = s.arr b) ∧ t.mem = s.mem ∧ SameRegs s t h.tile ∧
      (t.arr a).passes = (s.arr a).passes ++ [⟨decide (k = .nap), decide (k = .main32), o, h.opidx, n, true, swTag (data.headD []) false, fmt, data,
        issue + lead, issue + lead + 14 + per * n, draw, 0, none⟩] ∧
      (t.arr a).lastSwatch = data ∧ (t.arr a).lastPoison = false ∧
      (t.arr a).busyUntil = issue + lead + 6 + per * n
    let issue := max (h.cycle + x.delta) ((s.arr a).busyUntil - 12)
    (2 * n ≤ x.opTickets → 2 * n ≤ x.meter →
      Issues h (.pass32 h o) s (fun t => launched t issue .main32 (2 * n) 12 16)) ∧
    (3 * n ≤ x.opTickets → 3 * n ≤ x.meter →
      Issues h (.pass16 h o) s (fun t => launched t issue .main16 (3 * n) 12 32))) ∧
  (∀ (s : State) (h : OpHdr) (o : PassOps) (phys fmt : Nat), Clear s h →
    let x := s.tile h.tile
    let a := arrOf h.tile phys
    let data := (s.arr a).lastSwatch
    let draw := if napOccupied (s.layerOf h.tile o.layer.val).napSlots data then 1 else 0
    x.waitDraw = false → Tbl.find x.lastMain o.larray.val = some phys → data ≠ [] → (s.arr a).lastPoison = false →
    s.resolve h.tile (swWgen (data.headD [])) o.larray.val = some (phys, fmt) → (s.arr a).st = .mapped → s.isLc1 h.tile = false →
    draw ≤ x.opTickets → draw ≤ x.meter →
    let issue := max (h.cycle + x.delta) ((s.arr a).busyUntil - 2)
    Issues h (.nap h o) s (fun t =>
      (t.tile h.tile).opTickets = x.opTickets - draw ∧ (t.tile h.tile).meter = x.meter - draw ∧
      (∀ b, b ≠ a → t.arr b = s.arr b) ∧ t.mem = s.mem ∧ SameRegs s t h.tile ∧
      (t.arr a).passes = (s.arr a).passes ++ [⟨true, false, o, h.opidx, o.swatches.length, true, swTag (data.headD []) false, fmt, data,
        issue + 2, issue + 2 + 14 + 8 * o.swatches.length, draw, 0, none⟩] ∧
      (t.arr a).lastSwatch = [] ∧ (t.arr a).busyUntil = issue + 2 + 6 + 8 * o.swatches.length))

/-- A pass that did not fire leaves the accumulators and, where it closes, an output of poisoned tag (of free values, log 27). A main pass of 32-row groups that meets no deviation and no parity error adds its promoted sums to the accumulators and, where it closes, writes the 512 outputs in the format CLOSE names, with the pass's tag. A parity error fences the tile and each of its arrays and shows it in TIL_STATUS and MSH_TFENCE. And the narrow sum of a group whose converters are not over range is the dot product of its swatch elements with the weight codes. -/
def Obligations.PassesDeliverTheirOutput : Prop :=
  ((∀ (s : State) (a : ArrayId) (env : PassEnv) (p : Pass) (rest : List Pass), (s.arr a).passes = p :: rest → p.fires = false → p.closing = true →
    Completes (.passOutputReady a env) s (fun t =>
      Only [.arr a, .fresh] s t ∧ (t.arr a).passes = rest ∧ (t.arr a).outTag = { p.tag with poison := true } ∧
      (t.arr a).outReady = p.ready ∧ (t.arr a).out.length = 512)) ∧
  (∀ (s : State) (a : ArrayId) (env : PassEnv) (p : Pass) (rest : List Pass), (s.arr a).passes = p :: rest → p.fires = true →
    p.isNap = false → p.g32 = true → p.met = none → env.first = [] → env.residue = [] → env.parity = [] → env.waited = 0 →
    let r := runMain32 p.data (s.arrayRows a (128 * p.data.length)) (s.layerOf a.tile p.ops.layer.val).satPolicy []
    let acc := (promoteAll p.ops.accExp (s.arrayScales a) r (List.replicate 512 (0, false))).1
    r.failed = [] → r.overs = [] → r.retries = 0 → s.badScale = [] →
    Completes (.passOutputReady a env) s (fun t =>
      (t.arr a).passes = rest ∧ (t.arr a).acc = acc.map (·.1) ∧ (∀ b, b ≠ a → t.arr b = s.arr b) ∧ t.mem = s.mem ∧
      (p.closing = true → (t.arr a).out = acc.map (closeCol p.ops.close p.ops.accExp) ∧ (t.arr a).outReady = p.ready ∧
        (t.arr a).outTag = { p.tag with poison := false }) ∧
      (p.closing = false → (t.arr a).out = (s.arr a).out ∧ (t.arr a).outTag = (s.arr a).outTag))) ∧
  (∀ (s : State) (u : TileId), (s.tile u).fenced = false →
    Completes (.tileParityError u) s (fun t =>
      (t.tile u).fenced = true ∧ t.fldOf (tReg u .tilStatus) 0 3 = 5 ∧
      t.fldOf (uReg u.die.val 0x201 .mshTfence (u.region.val / 32)) (u.region.val % 32) 1 = 1 ∧
      ∀ n < 64, (t.arr (arrOf u n)).st = .fenced))) ∧
  (∀ (lo hi : Int) (g : Nat) (qs : List Int) (rows : List (List Int)), qs.length = rows.length →
    (∀ q ∈ qs, -128 ≤ q ∧ q ≤ 127) → (∀ r ∈ rows, r.length = 544) → groupOver (convertGroup lo hi [] g qs rows) = false →
    ∀ c < 512, (narrow (convertGroup lo hi [] g qs rows))[c]? = some (((qs.zip rows).map (fun x => x.1 * x.2.getD c 0)).sum))

/-- A DMA whose descriptor passes its checks, with fewer than 8 in flight, takes its tickets and adds the transfer to those in flight. WAITL goes on where the landing counter has reached the target and waits where it has not; OPERATION_WAIT_END lets it go on once it has. END ends the step program, shows it, and leaves in each register the result that it awaited. A granted draw takes the waiting operation's ticket, runs it from the cycle it has waited to, and adds the cycles it waited to PWR_WAIT. -/
def Obligations.SequencerOperations : Prop :=
  (∀ (s : State) (h : OpHdr), CanIssue s h →
    let x := s.tile h.tile
    (∀ desc : Fin 1024,
      let d := s.desc h.tile desc.val
      x.xfers.length < 8 → s.dmaCheck h.tile desc.val d = none → x.waitDraw = false → d.tickets ≤ x.opTickets → d.tickets ≤ x.meter →
      s.poison = [] →
      Issues h (.dma h desc) s (fun t =>
        OnlyIn (fun y => issuePlaces s h.tile y ∨ y = .reg (tReg h.tile .tilDmaStatus)) s t ∧ SameRegs s t h.tile ∧
        (t.tile h.tile).opTickets = x.opTickets - d.tickets ∧ (t.tile h.tile).meter = x.meter - d.tickets ∧
        (t.tile h.tile).nextXfer = x.nextXfer + 1 ∧
        (t.tile h.tile).xfers = x.xfers ++ [⟨x.nextXfer, BitVec.ofNat 48 d.src, BitVec.ofNat 48 d.dst, d.len, BitVec.ofNat 16 d.land, h.opidx, desc.val, d.ordered, false⟩] ∧
        t.fldOf (tReg h.tile .tilDmaStatus) 0 4 = x.xfers.length + 1 ∧ t.fldOf (tReg h.tile .tilDmaStatus) 16 10 = desc.val)) ∧
    (∀ (n : Fin 32) (target : BitVec 16),
      (target.toNat ≤ s.fldOf (tReg h.tile .tilLand n.val) 0 16 →
        Issues h (.waitl h n target) s (fun t => OnlyIn (issuePlaces s h.tile) s t ∧ SameRegs s t h.tile ∧ (t.tile h.tile).waitq = [])) ∧
      (s.fldOf (tReg h.tile .tilLand n.val) 0 16 < target.toNat →
        Issues h (.waitl h n target) s (fun t => Only [.tile h.tile] s t ∧ (t.tile h.tile).waitq = [.waitl h n target]))) ∧
    Issues h (.endOp h) s (fun t => (t.tile h.tile).ended = true ∧ (t.tile h.tile).wpend = [] ∧
      t.fldOf (tReg h.tile .tilStatus) 0 3 = 3 ∧ (t.tile h.tile).vpend = [] ∧
      ∀ c, (∀ e ∈ x.vpend, e.ready ≤ c) → ∀ r < 32, (t.tile h.tile).vreg r = x.vregAt c r ∧ (t.tile h.tile).tag r = x.tagAt c r)) ∧
  (∀ (s : State) (h : OpHdr) (n : Fin 32) (target : BitVec 16) (cycles : Nat), s.running h.tile = true →
    (s.tile h.tile).waitq = [.waitl h n target] → (s.modTile h.tile (fun x => { x with waitq := [] })).inProgram h (.waitl h n target) = true →
    target.toNat ≤ s.fldOf (tReg h.tile .tilLand n.val) 0 16 →
    Completes (.operationWaitEnd h.tile cycles) s (fun t => OnlyIn (issuePlaces s h.tile) s t ∧ SameRegs s t h.tile ∧
      (t.tile h.tile).waitq = [])) ∧
  (∀ (s : State) (h : OpHdr) (dst a : VReg) (f : VFmt) (cycles : Nat), s.running h.tile = true → (s.tile h.tile).waitDraw = true →
    (s.tile h.tile).waitq = [.exp2 h dst a f] → (s.modTile h.tile (fun x => { x with waitq := [] })).inProgram h (.exp2 h dst a f) = true →
    1 ≤ (s.tile h.tile).opTickets →
    let x := s.tile h.tile
    let c := max (h.cycle + (x.delta + cycles)) x.vecFree
    Completes (.ticketDrawGranted h.tile cycles) s (fun t =>
      (t.tile h.tile).waitq = [] ∧ (t.tile h.tile).waitDraw = false ∧ (t.tile h.tile).opTickets = x.opTickets - 1 ∧
      (t.tile h.tile).meter = x.meter ∧ (t.tile h.tile).vr = x.vr ∧
      (∃ b fmt, Holds b (vWidth f) ((vElems f (x.vregAt c a)).map (eExp2 f)) ∧
        Awaits s t h.tile [⟨dst.val, c + s.lat h.tile 8 10, some b, x.tagAt c a, false, x.satOf c [a.val], fmt⟩]) ∧
      t.fldOf (s.pReg 0x202 .pwrWait (s.partOf h.tile)) 0 32 = min (2 ^ 32 - 1) (s.fldOf (s.pReg 0x202 .pwrWait (s.partOf h.tile)) 0 32 + cycles)))

/-- A transfer between scratchpads of one partition lands by copying its bytes and no others and incrementing the landing counter its LAND field names; its release takes it off those in flight. A packet of at most 4 flits in an idle mesh: for a tile of its own partition it is delivered; one for a fenced tile is discarded and counted; one that may not be there is discarded and counted; one that goes on stands in the buffer of its next router, or has left the Body dies. No arrival fills a buffer beyond 4 flits. A CRC retry is counted on its edge, and a link that goes down is shown and ends the job of every partition that crosses it (log 24). How routers choose and when packets move is log 49; that packets reach their landing as transfers is log 25. -/
def Obligations.TransfersLandAndRelease : Prop :=
  (∀ (s : State) (u : TileId) (x : Xfer), (s.tile u).xfers = [x] → x.landed = false → (s.tile u).shields = [] →
    memAt x.src.toNat = some .scratchpad → memAt x.dst.toNat = some .scratchpad →
    s.partOfDie (addrTile x.src.toNat).die.val = s.partOfDie u.die.val → s.partOfDie (addrTile x.dst.toNat).die.val = s.partOfDie u.die.val →
    (s.tile (addrTile x.src.toNat)).wpend = [] → (s.tile (addrTile x.dst.toNat)).wpend = [] → s.poison = [] →
    (s.tile (addrTile x.dst.toNat)).fenced = false →
    Completes (.dmaLanding u x.id OpEnv.quiet) s (fun t =>
      t.bytes x.dst.toNat x.len = s.bytes x.src.toNat x.len ∧
      (∀ a, a < x.dst.toNat ∨ x.dst.toNat + x.len ≤ a → Memory.read t.mem a = Memory.read s.mem a) ∧
      (t.tile u).xfers = [{ x with landed := true }] ∧
      (∀ v, SameRegs s t v) ∧
      (x.land.toNat.testBit 15 = true → let k := tReg (addrTile x.dst.toNat) .tilLand (x.land.toNat % 32)
        t.fldOf k 0 16 = (s.fldOf k 0 16 + 1) % 2 ^ 16))) ∧
  (∀ (s : State) (u : TileId) (x : Xfer), (s.tile u).xfers = [x] → x.landed = true →
    Completes (.dmaRelease u x.id) s (fun t => Only [.tile u, .reg (tReg u .tilDmaStatus)] s t ∧ SameRegs s t u ∧
      (t.tile u).xfers = [] ∧ t.fldOf (tReg u .tilDmaStatus) 0 4 = 0)) ∧
  (∀ (s : State) (d : BodyDie) (region : Fin 512) (p : Packet), s.mesh = [] → packetFlits p ≤ 4 →
    let u : TileId := ⟨d, region⟩
    (s.hop u p = .deliver → Completes (.meshPacketArrival d region p) s (fun t => t = s)) ∧
    (s.hop u p = .fenced → Completes (.meshPacketArrival d region p) s (fun t => t.mem = s.mem ∧ t.mesh = [] ∧
      t.fldOf (uReg d.val 0x201 .mshDiscard) 0 16 = min 65535 (s.fldOf (uReg d.val 0x201 .mshDiscard) 0 16 + 1))) ∧
    (s.hop u p = .discard → Completes (.meshPacketArrival d region p) s (fun t => t.mem = s.mem ∧ t.mesh = [] ∧
      t.fldOf (uReg d.val 0x201 .mshDiscard) 16 16 = min 65535 (s.fldOf (uReg d.val 0x201 .mshDiscard) 16 16 + 1))) ∧
    (∀ e, s.hop u p = .onward e → Completes (.meshPacketArrival d region p) s (fun t => t.mem = s.mem ∧
      t.mesh = (if leavesDie region.val e = true ∧ 0x20 ≤ beyond d.val e then [] else [(s.outBuf u p e, [(p, false)])])))) ∧
  (∀ (s : State) (d : BodyDie) (region : Fin 512) (p : Packet),
    let fits (x : State) : Prop := ∀ b, (x.meshBuf b).foldl (fun a e => a + packetFlits e.1) 0 ≤ 4
    fits s → Completes (.meshPacketArrival d region p) s fits) ∧
  (∀ (s : State) (d : BodyDie) (e : Fin 4),
    Completes (.d2dCrcRetry ⟨d.val, by omega⟩ e) s (fun t => t.mem = s.mem ∧ (∀ q, t.part q = s.part q) ∧
      t.fldOf (uReg d.val 0x201 .mshEdge e.val) 8 16 = min 65535 (s.fldOf (uReg d.val 0x201 .mshEdge e.val) 8 16 + 1)) ∧
    Completes (.d2dLinkDown ⟨d.val, by omega⟩ e) s (fun t => t.mem = s.mem ∧
      t.fldOf (uReg d.val 0x201 .mshEdge e.val) 0 1 = 0 ∧
      ∀ p < 16, s.crosses p d.val e.val = true → (s.part p).job = .running → (t.part p).job = .ended))

/-- From a control core: MSH_PART sets a die's partition and MSH_BORDER its borders before the first form load; a descriptor word takes the value written; a map entry of a bank that is not live takes its fields at once and one of a live bank is staged; ARR_BANK sets the generations of both banks and stages which is live (log 27). Nothing else changes. -/
def Obligations.TileTableWrites : Prop :=
  (∀ (s : State) (b : BrimDie) (n : Fin 8) (d : BodyDie) (data : W32), s.pllDown (.controlCore b) = false → s.boot.anyForm = false →
    (Completes (.mshPartWrite (.core b n) d data) s (fun t => Only [.reg (uReg d.val 0x201 .mshPart)] s t ∧
      t.partOfDie d.val = if data.getLsbD 4 then some (data.toNat % 16) else none)) ∧
    (Completes (.mshBorderWrite (.core b n) d data) s (fun t => Only [.reg (uReg d.val 0x201 .mshBorder)] s t ∧
      t.fldOf (uReg d.val 0x201 .mshBorder) 0 4 = data.toNat % 16))) ∧
  (∀ (s : State) (b : BrimDie) (n : Fin 8) (u : TileId) (data : W32), s.pllDown (.controlCore b) = false →
    (∀ i : Fin 8192, Completes (.descriptorWrite (.core b n) u (BitVec.ofNat 16 (0x8000 + 4 * i.val)) data) s (fun t =>
      Only [.reg (tReg u .tilDesc i.val)] s t ∧ t.reg (tReg u .tilDesc i.val) = data)) ∧
    (∀ (bank : Bool) (m : Fin 64), s.arrRefusedEntry u data.toNat = false → (s.bankLive u bank && s.commitArmed u) = false →
      Completes (.arrMapWrite (.core b n) u bank m data) s (fun t =>
        (s.bankLive u bank = false → Only [.reg (mapKey u bank m.val)] s t ∧
          t.mapEntry u bank m.val = (data.toNat % 64, data.toNat / 64 % 4, data.getLsbD 8)) ∧
        (s.bankLive u bank = true → Only [.tile u, .reg (tReg u .arrStage)] s t ∧ 
          ∃ w : W32, (bank, m.val, w) ∈ (t.tile u).mapStage ∧ w.toNat % 512 = data.toNat % 512))) ∧
    (s.bankLive u false = false → s.bankLive u true = false → data.getLsbD 8 = true → data.getLsbD 24 = false →
      Completes (.arrBankWrite (.core b n) u data) s (fun t =>
        Only [.tile u, .reg (tReg u .arrBank), .reg (tReg u .arrStage)] s t ∧ t.bankGen u false = data.toNat % 256 ∧
        t.bankGen u true = data.toNat / 65536 % 256 ∧ t.bankLive u false = false ∧ (∃ w : W32, (t.tile u).bankStage = some w ∧ w.getLsbD 8 = true ∧ w.getLsbD 24 = false))))

/-- The supply's rise brings up the 1.80 V rail and the crystal. A fall of PGOOD, a RESET_N low for at least 1 microsecond, an accepted reset command and the removal of the supply each put the device through reset, with the pins as the event leaves them (that a reset command leaves RESET_N low is log 44); a shorter low of RESET_N changes nothing. Start-up runs when PGOOD is high and RESET_N is released, on the principal that PRI_SEL selects; otherwise only the pin changes. Without a readable flash it halts with FAIL_CODE 4 in phase 2. With one, and no trial pending, it runs the first candidate of the directory that passes its checks, and firmware runs from that bank; where none passes it halts with the FAIL_CODE of the candidates' failures (which of several is log 44). -/
def Obligations.SupplyResetAndStartUp : Prop :=
  ((∀ s : State, Completes .vin48Rise s (fun t => Only [.power] s t ∧ t.power.vin48 = true ∧ t.power.v18 = true ∧ t.power.crystal = true ∧
    t.power.downBus = [])) ∧
  (∀ s : State, Completes .pgoodFall s (fun t => WasReset s t ∧ t.power.pgood = false ∧ t.power.resetN = s.power.resetN)) ∧
  (∀ (s : State) (ns : Nat), 1000 ≤ ns →
    Completes (.resetNAssert ns) s (fun t => WasReset s t ∧ t.power.resetN = false ∧ t.power.pgood = s.power.pgood)) ∧
  (∀ (s : State) (ns : Nat), ns < 1000 → Completes (.resetNAssert ns) s (Only [] s)) ∧
  (∀ (s : State) (port : Port) (data : W32), Accepts s port (s.pReg 0x200 .bootReset) data.toNat →
    Completes (.resetCommand port data) s (fun t => WasReset s t ∧ t.power.resetN = false)) ∧
  (∀ s : State, Completes .vin48Remove s (fun t => WasReset s t ∧ t.power.vin48 = false ∧ t.power.pgood = false ∧ t.power.v18 = false ∧
    t.power.thermtrip = false))) ∧
  (∀ (s : State) (c : Instr) (env : BootEnv),
    (c = .pgoodRise env ∧ s.power.vin48 = true ∧ s.power.v18 = true ∧ s.power.pgood = false) ∨ (c = .resetNRelease env ∧ s.power.resetN = false) →
    let go := (c = .pgoodRise env ∧ s.power.resetN = true) ∨ (c = .resetNRelease env ∧ s.power.pgood = true)
    let u := if env.priSel then 2 else 0
    (¬ go → Completes c s (fun t => Only [.power] s t ∧ t.power.pgood = (s.power.pgood || c = .pgoodRise env) ∧
      t.power.resetN = (s.power.resetN || c = .resetNRelease env))) ∧
    (go → env.flashOk = false → Completes c s (fun t =>
      Only [.power, .boot, .reg (uReg (brimIdx u) 0x200 .bootStatus)] s t ∧ t.boot = { s.boot with principal := u } ∧
      t.reg (uReg (brimIdx u) 0x200 .bootStatus) = 0x0402)) ∧
    (go → env.flashOk = true →
      let dir := s.directory.1
      let at' := s.startPrincipal env
      let l := dir.cands
      dir.trial = false →
      Completes c s (fun t => match l.find? (fun x => at'.candFail x == 0) with
        | none => Only [.power, .boot, .reg (uReg (brimIdx u) 0x200 .bootStatus)] s t ∧ t.boot = { s.boot with principal := u } ∧
            t.reg (uReg (brimIdx u) 0x200 .bootStatus) = BitVec.ofNat 32 (2 + 2 ^ 8 * haltCode (l.map at'.candFail))
        | some x => t.boot.running = true ∧ t.boot.principal = u ∧ t.boot.bank = x.bank ∧ t.fuses.owner = s.fuses.owner)))

/-- A kick restarts the watchdog. An expiry after 1 s without a kick restarts the supervisor and counts; the third within 60 s degrades. A faulted or stale component is restarted, counted and recorded, until the fourth within 60 s or a degraded device holds it down, which for the power steward raises EMERGENCY; the access outside its table that faulted it is answered with that. An expiry during the activation of an update is another rule's (log 44). -/
def Obligations.ComponentsAreSupervised : Prop :=
  (∀ (s : State) (port : Port) (data : W32), Accepts s port (s.pReg 0x200 .bootWdog) data.toNat → data.getLsbD 0 = true →
    Completes (.watchdogKick port data) s (fun t => Only [.boot] s t ∧ t.boot = { s.boot with wdogKick := s.bow.time })) ∧
  (∀ s : State, s.boot.running = true → s.degraded = false → s.boot.wdogKick + 1000000000 ≤ s.bow.time → s.updIs ≠ 6 →
    let recent := s.boot.expiries.filter (fun t => decide (s.bow.time < t + 60000000000))
    let counted (t : State) : Prop :=
      t.boot = { s.boot with expiries := recent ++ [s.bow.time], wdogKick := s.bow.time, restarted := true } ∧
      t.fldOf (s.pReg 0x200 .bootWdog) 8 8 = min 255 (s.fldOf (s.pReg 0x200 .bootWdog) 8 8 + 1)
    (recent.length < 2 → Completes .watchdogExpiry s (fun t => Only [.boot, .reg (s.pReg 0x200 .bootWdog)] s t ∧ counted t)) ∧
    (2 ≤ recent.length → Completes .watchdogExpiry s (fun t =>
      Only [.boot, .reg (s.pReg 0x200 .bootWdog), .reg (s.pReg 0x200 .bootStatus), .reg (s.pReg 0x200 .bootComp)] s t ∧ counted t ∧
      t.degraded = true ∧ t.compState 1 = 2))) ∧
  (∀ (s : State) (c : Instr) (k : Component), c = .componentFault k ∨ c = .componentHeartbeatStale k →
    s.boot.running = true → k.id ≠ 1 → s.compState k.id < 2 →
    let recent := (Tbl.get s.boot.compTimes k.id []).filter (fun t => decide (s.bow.time < t + 60000000000))
    let left := if c = .componentFault k then s.boot.protFaults.erase k.id else s.boot.protFaults
    (s.degraded = false → recent.length < 3 → s.updIs ≠ 6 → Completes c s (fun t =>
      Only (.boot :: .reg (s.pReg 0x200 .bootComp) :: faultPlaces s.prinDie) s t ∧
      t.boot = { s.boot with protFaults := left, compTimes := Tbl.put s.boot.compTimes k.id (recent ++ [s.bow.time]), restarted := true } ∧
      t.fldOf (s.pReg 0x200 .bootComp) 16 8 = min 255 (s.fldOf (s.pReg 0x200 .bootComp) 16 8 + 1) ∧
      Faults 0x6002 none s.prinDie 0x87 k.id s t)) ∧
    (s.degraded = true ∨ 3 ≤ recent.length → k.id ≠ 4 → Completes c s (fun t =>
      Only [.boot, .reg (s.pReg 0x200 .bootComp)] s t ∧ t.boot = { s.boot with protFaults := left } ∧ t.compState k.id = 2)) ∧
    (s.degraded = true ∨ 3 ≤ recent.length → k.id = 4 → Completes c s (fun t =>
      t.compState 4 = 2 ∧ t.bow.emergHeld = true ∧ t.fldOf (s.pReg 0x201 .bowEmergSrc) 2 1 = 1)))

/-- A firmware image that passes its checks and is written becomes staged in the other bank and in no other byte of flash; a failing one, a failed write or a busy update shows its reason. Activation of a staged image waits for the quiescent point unless the host session is outside its matrix; an abort clears what is staged or waiting. At the quiescent point the components are replaced one after the other in the fixed order, each recorded; after the last the banks change, the directory says a trial runs, and memory, partitions and requests stay. A component whose heartbeat stays away after it was replaced rolls back: between two components those replaced are restored, and on trial the old bank runs again. -/
def Obligations.UpdatesAreStagedAndActivated : Prop :=
  (∀ (s : State) (port : Port) (data : W32) (fetched : List Byte) (writeOk : Bool),
    let st := s.pReg 0x200 .bootUpdStatus
    Accepts s port (s.pReg 0x200 .bootUpdCmd) data.toNat →
    (data.toNat % 4 = 1 → s.updBusy = true → Completes (.updateStage port data fetched writeOk) s (fun t => Only [.reg st] s t ∧
      t.fldOf st 8 8 = 7 ∧ t.updIs = s.updIs)) ∧
    (data.toNat % 4 = 1 → s.updBusy = false → data.getLsbD 2 = false →
      let img := s.updImage data.toNat fetched
      let why := s.stageFirmware img
      Completes (.updateStage port data fetched writeOk) s (fun t =>
        if why ≠ 0 then Only [.reg st] s t ∧ t.reg st = BitVec.ofNat 32 (7 + why * 2 ^ 8)
        else if writeOk = false then Only [.reg st] s t ∧ t.reg st = 0x407
        else Only [.boot, .flash, .reg st] s t ∧ t.updIs = 3 ∧ t.boot = { s.boot with updKind := false, newMatrix := manifestMatrix img } ∧
          t.flashB false (bankBase (!s.boot.bank)) img.length = img ∧
          ∀ o, o < bankBase (!s.boot.bank) ∨ bankBase (!s.boot.bank) + img.length ≤ o → Tbl.get t.flash o 0xFF = Tbl.get s.flash o 0xFF)) ∧
    (data.toNat % 4 = 2 → s.updIs = 3 → s.boot.updKind = false →
      (s.hostOutside s.boot.newMatrix = false → Completes (.updateActivate port data) s (fun t => Only [.reg st] s t ∧ t.reg st = 4)) ∧
      (s.hostOutside s.boot.newMatrix = true → Completes (.updateActivate port data) s (fun t => Only [.reg st] s t ∧
        t.fldOf st 8 8 = 6 ∧ t.updIs = 3))) ∧
    (data.toNat % 4 = 3 → s.updIs = 3 ∨ s.updIs = 4 → Completes (.updateAbort port data) s (fun t => Only [.reg st] s t ∧ t.reg st = 0))) ∧
  (∀ (s : State) (c : Nat) (r : List Nat), s.updIs = 4 ∨ s.updIs = 5 → s.quiescent = true →
    updOrder.filter (fun c => !s.boot.replaced.contains c) = c :: r → r ≠ [] → Completes .updateQuiescentPoint s (fun t =>
      Only (.boot :: .reg (s.pReg 0x200 .bootComp) :: .reg (s.pReg 0x200 .bootUpdStatus) :: faultPlaces s.prinDie) s t ∧
      t.boot = { s.boot with replaced := s.boot.replaced ++ [c] } ∧ t.reg (s.pReg 0x200 .bootUpdStatus) = 5 ∧
      Faults 0x6002 none s.prinDie 0x87 c s t)) ∧
  (∀ (s : State) (c : Nat), s.updIs = 4 ∨ s.updIs = 5 → s.quiescent = true →
    updOrder.filter (fun c => !s.boot.replaced.contains c) = [c] → Completes .updateQuiescentPoint s (fun t =>
    t.updIs = 6 ∧ t.boot.bank = !s.boot.bank ∧ t.boot.oldBank = s.boot.bank ∧ t.boot.matrix = s.boot.newMatrix ∧ t.boot.updStart = s.bow.time ∧
    (∀ c, 1 ≤ c → c ≤ 6 → c ∈ t.boot.replaced) ∧ t.fldOf (s.pReg 0x200 .bootStatus) 19 1 = 1 ∧
    t.fldOf (s.pReg 0x200 .bootStatus) 16 1 = boolN (!s.boot.bank) ∧
    t.flash = (s.writeDir { s.directory.1 with active := !s.boot.bank, trial := true, tried := true }).flash ∧
    t.mem = s.mem ∧ (∀ p, t.part p = s.part p) ∧ ∀ i, t.slot i = s.slot i)) ∧
  (∀ (s : State) (k : Component), s.updIs = 5 → s.boot.replaced.contains k.id = true →
    Completes (.updateHeartbeatTimeout k) s (fun t =>
      Only [.boot, .reg (s.pReg 0x200 .bootStatus), .reg (s.pReg 0x200 .bootUpdStatus)] s t ∧
      t.boot = { s.boot with replaced := [] } ∧ t.reg (s.pReg 0x200 .bootUpdStatus) = 0x507)) ∧
  (∀ (s : State) (k : Component), s.updIs = 6 → s.boot.replaced.contains k.id = true →
    Completes (.updateHeartbeatTimeout k) s (fun t =>
      Only [.boot, .flash, .reg (s.pReg 0x200 .bootStatus), .reg (s.pReg 0x200 .bootUpdStatus)] s t ∧
      t.boot = { s.boot with bank := s.boot.oldBank, matrix := s.boot.newMatrix, replaced := [] } ∧
      t.reg (s.pReg 0x200 .bootUpdStatus) = 0x507 ∧ t.fldOf (s.pReg 0x200 .bootStatus) 19 1 = 0 ∧
      t.flash = (s.writeDir { s.directory.1 with active := s.boot.oldBank, trial := false, tried := false }).flash))

/-- A firmware trial of 60 s, and a start-record trial of 60 s without restart or failed check, is confirmed in the directory. The owner hash registers and the burn act while the fuse is unset, the burn storing the twelve words, and once set are refused with a firmware fault. FENCE_MAP_WRITE writes the map to flash and changes no register, array or memory byte. -/
def Obligations.TrialsOwnerAndFenceMap : Prop :=
  (∀ s : State, s.updIs = 6 → s.boot.updStart + 60000000000 ≤ s.bow.time → Completes .firmwareTrialConfirm s (fun t =>
    let d := s.directory.1
    Only [.boot, .flash, .reg (s.pReg 0x200 .bootStatus), .reg (s.pReg 0x200 .bootUpdStatus)] s t ∧ t.updIs = 0 ∧
    t.boot = { s.boot with replaced := [] } ∧ t.fldOf (s.pReg 0x200 .bootStatus) 19 1 = 0 ∧
    t.flash = (s.writeDir { d with lkgBank := d.active, lkgSr := d.activeSr, trial := false }).flash)) ∧
  (∀ s : State, s.boot.running = true → s.fldOf (s.pReg 0x200 .bootStatus) 19 1 = 1 → s.updIs ≠ 6 → s.directory.1.trial = true →
    s.boot.restarted = false → s.boot.checkFail = false → s.boot.superAt + 60000000000 ≤ s.bow.time →
    Completes .startRecordTrialConfirm s (fun t =>
      let d := s.directory.1
      Only [.flash, .reg (s.pReg 0x200 .bootStatus)] s t ∧ t.fldOf (s.pReg 0x200 .bootStatus) 19 1 = 0 ∧
      t.flash = (s.writeDir { d with lkgBank := d.active, lkgSr := d.activeSr, trial := false, tried := false }).flash)) ∧
  (∀ (s : State) (port : Port) (k : Fin 12) (data : W32), Accepts s port (s.pReg 0x200 .bootOwner k.val) data.toNat →
    (s.fuses.ownerSet = false → Completes (.ownerHashWrite port k data) s (fun t => Only [.reg (s.pReg 0x200 .bootOwner k.val)] s t ∧
      t.reg (s.pReg 0x200 .bootOwner k.val) = data)) ∧
    (s.fuses.ownerSet = true → Completes (.ownerHashWrite port k data) s (fun t => Only (faultPlaces (addrDie (s.pReg 0x200 .bootOwner k.val).addr)) s t ∧
      Faults 0x6001 none (addrDie (s.pReg 0x200 .bootOwner k.val).addr) 0x87 (s.pReg 0x200 .bootOwner k.val).addr s t))) ∧
  (∀ (s : State) (port : Port) (data : W32), Accepts s port (s.pReg 0x200 .bootOwnerBurn) data.toNat →
    (s.fuses.ownerSet = false → data.getLsbD 0 = true → Completes (.ownerBurn port data) s (fun t =>
      Only [.fuses, .reg (s.pReg 0x200 .bootOwnerBurn)] s t ∧
      t.fuses = { s.fuses with ownerSet := true, owner := (List.range 12).map (fun k => s.reg (s.pReg 0x200 .bootOwner k)) })) ∧
    (s.fuses.ownerSet = true → Completes (.ownerBurn port data) s (fun t => Only (faultPlaces (addrDie (s.pReg 0x200 .bootOwnerBurn).addr)) s t ∧
      Faults 0x6001 none (addrDie (s.pReg 0x200 .bootOwnerBurn).addr) 0x87 (s.pReg 0x200 .bootOwnerBurn).addr s t))) ∧
  (∀ s : State, s.boot.running = true → Completes .fenceMapWrite s (fun t => t.flash = s.writeFences.flash ∧ t.mem = s.mem ∧
    (∀ k, t.reg k = s.reg k) ∧ ∀ a, t.arr a = s.arr a))

/-- The source sends, of the commands due, one of the least rank, and IDLE where none is due. With no partition waiting idle and no Crown access waiting, each symbol passes one slot of 16 ns on every living die with the frame of its code: IDLE changes only the slot (a corrected one is counted), FREEZE latches the shadows unless they are held, THAW releases them, EMERGENCY sets the latch, leaves NORMAL, starts at the end of its slot the time of the rails that have tripped, and counts the commands it displaces, SKIP sets the throttle and RELEASE clears the latch; a die that could not read the symbol takes none of it and sets its latch. A symbol that is not the one due, and a SKIP of no legal pattern, changes nothing, which is the model's reading (log 15). M skipped cycles leave those of the 16 whose reversed number is not below M, /2 leaves 8, /4 leaves 4, and an emergency runs the slower of its pattern and the SKIP. Both bytes of a frame are read back from their 13 bits without a correction (their order in the frame is log 55). -/
def Obligations.SymbolsOfTheBowstring : Prop :=
  (∀ s : State, BowQuiet s →
    let sends (c : BowCmd) : Prop := s.fallDue.bowNext = some c
    let dies (t : State) (P : Die → Die → Prop) : Prop := ∀ d, (s.die d).alive = true → P (s.die d) (t.die d)
    let slot (code : Nat) (t : State) : Prop := SlotPassed s t ∧ t.bow.frame = frameOf code s.bow.time
    (∀ c, sends c → c ∈ s.fallDue.bowDue ∧ ∀ e ∈ s.fallDue.bowDue, c.rank ≤ e.rank) ∧
    (s.fallDue.bowNext = none → Completes (.idle none) s (fun t => slot 0 t ∧
      (∀ p, (t.part p).job = (s.part p).job ∧ (t.part p).stepNo = (s.part p).stepNo ∧ (t.part p).running = (s.part p).running ∧
        (t.part p).heldSince = (s.part p).heldSince ∧ (t.part p).readyAt = (s.part p).readyAt) ∧
      dies t (fun x y => y.emerg = (x.emerg || x.deaf) ∧ y.emergOn = x.emerg ∧ y.deaf = false ∧ y.skipDiv = x.skipDiv ∧ y.skipM = x.skipM ∧
        y.frozen = x.frozen ∧ y.shCycles = x.shCycles))) ∧
    (s.fallDue.bowNext = none → ∀ b : BrimDie, Completes (.idle (some ⟨brimIdx b.val, by simp [brimIdx]; omega⟩)) s (fun t => slot 0 t ∧
      t.fldOf (uReg (brimIdx b.val) 0x201 .bowSlotErr) 0 16 = min 65535 (s.fldOf (uReg (brimIdx b.val) 0x201 .bowSlotErr) 0 16 + 1))) ∧
    (sends .freeze → s.frozen = false → Completes .freeze s (fun t => slot 1 t ∧
      dies t (fun x y => if x.deaf then y.frozen = x.frozen ∧ y.shCycles = x.shCycles else y.frozen = true ∧ y.shCycles = y.cycles) ∧
      t.fldOf (s.pReg 0x201 .bowFreezeCmd) 0 1 = 0 ∧
      ∀ b < 4, (s.die (brimIdx b)).deaf = false →
        t.pair (uReg (brimIdx b) 0x201 .bowFreezeLastLo) (uReg (brimIdx b) 0x201 .bowFreezeLastHi) = (s.bow.time + 16) % 2 ^ 64)) ∧
    (sends .freeze → s.frozen = true → Completes .freeze s (fun t => slot 1 t ∧
      dies t (fun x y => y.frozen = x.frozen ∧ y.shCycles = x.shCycles) ∧ t.shadow = s.shadow)) ∧
    (sends .thaw → Completes .thaw s (fun t => slot 2 t ∧
      dies t (fun x y => y.frozen = (x.frozen && x.deaf) ∧ y.shCycles = x.shCycles) ∧ t.shadow = s.shadow)) ∧
    (sends .emergency → Completes .emergency s (fun t => slot 3 t ∧ dies t (fun x y => y.emerg = true ∧ y.emergOn = x.emerg) ∧
      t.fldOf (s.pReg 0x202 .pwrStatus) 0 1 = 1 ∧
      (∀ r ∈ s.power.ocActive, Tbl.find s.power.ocAt r = none → Tbl.find t.power.ocAt r = some (s.bow.time + 16)) ∧
      (let n := (s.fallDue.bowDue.erase .emergency).length
       t.fldOf (s.pReg 0x201 .bowSlotErr) 16 16 = min 65535 (s.fldOf (s.pReg 0x201 .bowSlotErr) 16 16 + n)))) ∧
    (∀ (release : Bool) (div : BitVec 2) (m : BitVec 4), skipIllegal div.toNat m.toNat = false → sends (.skip release div.toNat m.toNat) →
      Completes (.skip release div m) s (fun t => slot (BowCmd.code (.skip release div.toNat m.toNat)) t ∧ dies t (fun x y =>
        if x.deaf then y.skipDiv = x.skipDiv ∧ y.skipM = x.skipM ∧ y.emerg = true
        else y.skipDiv = div.toNat ∧ y.skipM = m.toNat ∧ y.emerg = (x.emerg && !release) ∧ y.emergOn = (x.emerg && !release)))) ∧
    (∀ (release : Bool) (div : BitVec 2) (m : BitVec 4), skipIllegal div.toNat m.toNat = true →
      Completes (.skip release div m) s (fun t => t = s)) ∧
    (let none' (c : Instr) : Prop := Completes c s (fun t => t = s)
     (s.fallDue.bowNext ≠ none → ∀ d, none' (.idle d)) ∧ (¬ sends .freeze → none' .freeze) ∧ (¬ sends .thaw → none' .thaw) ∧
     (¬ sends .emergency → none' .emergency) ∧ (∀ p : PartIdx, ¬ sends (.launch p.val) → none' (.launch p)) ∧
     (∀ p : PartIdx, ¬ sends (.hold p.val) → none' (.hold p)) ∧
     (∀ (r : Bool) (d : BitVec 2) (m : BitVec 4), ¬ sends (.skip r d.toNat m.toNat) → none' (.skip r d m)))) ∧
  ((∀ m < 16, slotCycles 0 m = 16 - m ∧ (cyclesRun m).length = 16 - m ∧ (∀ i < 16, i ∈ cyclesRun m ↔ m ≤ rev4 i)) ∧
  (∀ i < 16, i ∈ cyclesRun 8 ↔ i % 2 = 1) ∧ slotCycles 1 0 = 8 ∧ slotCycles 2 0 = 4 ∧ skipIllegal 3 0 = true ∧
  (∀ s : State, ∀ x : Die, (x.emergOn = false → s.throttle x = (x.skipDiv, x.skipM)) ∧
    (x.emergOn = true → slotCycles (s.throttle x).1 (s.throttle x).2 =
      min (slotCycles s.emergPattern.1 s.emergPattern.2) (slotCycles x.skipDiv x.skipM))) ∧
  (∀ code now : Nat, secded (frameOf code now % 2 ^ 13) = some (code % 256, false) ∧
    secded (frameOf code now / 2 ^ 13) = some ((now / 128 * 128 + 16) / 256 ^ (now / 16 % 8) % 256, false)))

/-- A LAUNCH is due for a staged step with no peers at the first multiple of 16 ns at or after the barrier and 48 ns after readiness; sent, it commits the running step, increments the step number and starts the next. A HOLD marks the partition held from the first slot boundary at or after its barrier and shows it on those of its tiles that are not done. The barrier comes in the slot in which the running step's cycles have passed, and not before; then a partition that is not ready has a HOLD queued, and the late event where the step is not staged. The last die's readiness makes the partition ready. A hold beyond its limit, counted from the barrier where there are peers, ends the job with the overrun fault. The rows' timing is log 15. -/
def Obligations.StepsLaunchAndHold : Prop :=
  (∀ (s : State) (p : PartIdx) (c b : Nat), (s.part p.val).job = .running → (s.part p.val).staged = true → (s.part p.val).next.isSome = true →
    (s.part p.val).running.isSome = true → (s.part p.val).readyAt = some c → (s.part p.val).barrier = some b →
    s.fldOf (s.pReg 0x201 .bowJob p.val) 0 8 = 0 →
    (p.val ∈ s.launchesDue ↔ (max b (c + 48) + 15) / 16 * 16 ≤ s.bow.time + 16)) ∧
  (∀ (s : State) (p : PartIdx) (st : Step), BowQuiet s → (s.part p.val).next = some st → p.val ∈ s.fallDue.launchesDue →
    s.fallDue.bowNext = some (.launch p.val) →
    let v := ((s.fallDue.sendFrame (BowCmd.code (.launch p.val))).bowSent (.launch p.val)).slotEnd
    let u := (v.endHold p.val).commit p.val
    (u.part p.val).next = some st → (u.part p.val).job = .running →
      Completes (.launch p) s (fun t =>
        let x := t.part p.val
        x.stepNo = (u.part p.val).stepNo + 1 ∧ x.running.isSome = true ∧ x.next = none ∧ x.staged = false ∧ x.launched = true ∧
        x.launchTime = s.bow.time + 16 ∧ x.heldSince = none ∧ x.readyAt = none ∧ x.barrier = none ∧
        t.fldOf (s.pReg 0x200 .bootStatus) 0 5 = 0x10)) ∧
  (∀ (s : State) (p : PartIdx) (tb : Nat), BowQuiet s → s.fallDue.bowNext = some (.hold p.val) → (s.part p.val).job = .running →
    (s.part p.val).heldSince = none → (s.fallDue.part p.val).barrier = some tb →
    Completes (.hold p) s (fun t => SlotPassed s t ∧
      (t.part p.val).heldSince = some ((tb + 15) / 16 * 16) ∧ (t.part p.val).holdSent = true ∧
      ∀ u ∈ (s.part p.val).tiles, t.fldOf (tReg u .tilStatus) 3 1 = if s.tileDone u then s.fldOf (tReg u .tilStatus) 3 1 else 1)) ∧
  (∀ (s : State) (p : PartIdx) (sh : Shape), (s.part p.val).job = .running → (s.part p.val).running.isSome = true →
    (s.part p.val).barrier = none → (s.part p.val).idle = false → (s.part p.val).shape? = some sh →
    let w := s.sourceThrottle
    let left := sh.length - (s.part p.val).cyc
    let tb := s.bow.time + cycleEnd w.1 w.2 left
    (slotCycles w.1 w.2 < left → Completes (.stepBarrier p) s (fun t => t = s)) ∧
    (left ≤ slotCycles w.1 w.2 →
      Completes (.stepBarrier p) s (fun t => (t.part p.val).barrier = some tb) ∧
      (∀ c, (s.part p.val).readyAt = some c → c + 32 ≤ s.bow.time → (s.peersReady p.val).1 = true →
        Completes (.stepBarrier p) s (fun t => Only [.part p.val] s t ∧ (t.part p.val).barrier = some tb)) ∧
      ((s.part p.val).readyAt = none ∨ (s.peersReady p.val).1 = false → Completes (.stepBarrier p) s (fun t =>
        Only [.part p.val, .bow, .fresh, .reg (s.pReg 0x205 .reqEvents p.val)] s t ∧ (t.part p.val).barrier = some tb ∧
        t.bow = { s.bow with sendq := s.bow.sendq ++ [.hold p.val] } ∧
        ((s.part p.val).staged = false → t.fldOf (s.pReg 0x205 .reqEvents p.val) 0 1 = 1))))) ∧
  (∀ (s : State) (p : PartIdx) (d : BodyDie), (s.part p.val).job = .running → s.dieCanReady p.val d.val = true →
    s.fldOf (s.pReg 0x201 .bowJob p.val) 0 8 = 0 → (s.part p.val).readyAt = none →
    Completes (.dieReady p (.die d)) s (fun t => Only [.part p.val] s t ∧ d.val ∈ (t.part p.val).readyDies ∧
      ((s.part p.val).prinReady = true → (∀ e ∈ (s.part p.val).dies, e = d.val ∨ e ∈ (s.part p.val).readyDies) →
        (t.part p.val).readyAt = some s.bow.time) ∧
      (∀ e ∈ (s.part p.val).dies, e ≠ d.val → e ∉ (s.part p.val).readyDies → (t.part p.val).readyAt = none))) ∧
  (∀ (s : State) (p : PartIdx) (ta : Nat), (s.part p.val).job = .running → (s.part p.val).heldSince = some ta →
    let t0 := if s.fldOf (s.pReg 0x201 .bowJob p.val) 0 8 = 0 then ta else (s.part p.val).barrier.getD ta
    t0 + 1000 * s.fldOf (s.pReg 0x201 .bowHoldlim p.val) 0 16 < s.bow.time + 16 →
    Completes (.holdLimitExpiry p) s (fun t => (t.part p.val).job = .ended ∧
      Faults 0x1018 (some p.val) (s.overrunUnit p.val).1 (s.overrunUnit p.val).2 (s.bow.time - t0) s t))

/-- A frame whose symbol cannot be corrected, or is of no known code, makes the die deaf to its slot, records a fault naming the die, and ends the job of the die's partition; one that is corrected is counted on a Brim die. A time frame, whole after eight slots and equal to the count it carries, corrects a die's count that disagrees and is recorded; any other changes nothing (log 15). FORCE raises EMERGENCY; SKIP and RELEASE are queued, a RELEASE while a source is active refused with a firmware fault; the emergency pattern is written unless the latch is held; FREEZE is armed for its time and sent when it comes; THAW is sent, or waits for the reader. DETAIL packings are log 9, and the order of the bits in a frame log 55. -/
def Obligations.BowstringCommandRegisters : Prop :=
  (∀ (s : State) (d : DieIdx) (frame : BitVec 26),
    let lost (sym : Nat) : Prop :=
      ((32 ≤ d.val ∨ s.partOfDie d.val = none) → Completes (.bowSymbolUncorrectable d frame) s (fun t => Only (faultPlaces d.val) s t ∧
        (t.die d.val).deaf = true ∧ Faults 0x101B none d.val 0x89 sym s t)) ∧
      (∀ p, d.val < 32 → s.partOfDie d.val = some p → (s.part p).job = .running → Completes (.bowSymbolUncorrectable d frame) s (fun t =>
        (t.die d.val).deaf = true ∧ (t.part p).job = .ended ∧ Faults 0x101B (some p) d.val 0x89 sym s t))
    (secded (frame.toNat % 2 ^ 13) = none → lost (frame.toNat % 256)) ∧
    (∀ v, secded (frame.toNat % 2 ^ 13) = some v → symbolKnown v.1 = false → lost v.1) ∧
    (∀ v, secded (frame.toNat % 2 ^ 13) = some v → symbolKnown v.1 = true →
      let fixed : Bool := v.2 || ((secded (frame.toNat / 2 ^ 13)).map (fun u => u.2)).getD false
      Completes (.bowSymbolUncorrectable d frame) s (fun t =>
        if fixed = true ∧ 32 ≤ d.val ∧ d.val < 36 then Only [.reg (uReg d.val 0x201 .bowSlotErr)] s t ∧
          t.fldOf (uReg d.val 0x201 .bowSlotErr) 0 16 = min 65535 (s.fldOf (uReg d.val 0x201 .bowSlotErr) 0 16 + 1)
        else t = s))) ∧
  (∀ (s : State) (d : DieIdx) (frame : W64),
    let whole : Prop := s.bow.time % 128 = 0 ∧ 128 ≤ s.bow.time ∧ frame.toNat = s.bow.time - 112
    (¬ whole ∨ (s.die d.val).timeCopy = s.bow.time → Completes (.bowTimeFrame d frame) s (fun t => t = s)) ∧
    (whole → (s.die d.val).timeCopy ≠ s.bow.time → Completes (.bowTimeFrame d frame) s (fun t => Only (faultPlaces d.val) s t ∧
      (t.die d.val).timeCopy = s.bow.time ∧
      Faults 0x101A none d.val 0x89 ((s.die d.val).timeCopy % 2 ^ 32 + s.bow.time % 2 ^ 32 * 2 ^ 32) s t))) ∧
  (∀ (s : State) (port : Port) (data : W32),
    (Accepts s port (s.pReg 0x201 .bowEmergSrc) data.toNat → data.getLsbD 16 = true → Completes (.emergencyForce port data) s (fun t =>
      t.bow.emergHeld = true ∧ .emergency ∈ t.bow.newq ∧ t.fldOf (s.pReg 0x201 .bowEmergSrc) 2 1 = 1 ∧ t.mem = s.mem)) ∧
    (Accepts s port (s.pReg 0x201 .bowSkipCmd) data.toNat →
      let sent (r : Bool) (t : State) : Prop := Only [.bow] s t ∧
        t.bow = { s.bow with newq := s.bow.newq ++ [.skip r (data.toNat / 16 % 4) (data.toNat % 16)] }
      (data.getLsbD 6 = false → Completes (.skipIssue port data) s (sent false)) ∧
      (data.getLsbD 6 = true → s.emergActive = false → Completes (.releaseIssue port data) s (sent true)) ∧
      (data.getLsbD 6 = true → s.emergActive = true → Completes (.releaseIssue port data) s (fun t =>
        let a := (s.pReg 0x201 .bowSkipCmd).addr
        Only (faultPlaces (addrDie a)) s t ∧ Faults 0x6001 none (addrDie a) 0x87 a s t))) ∧
    (Accepts s port (s.pReg 0x201 .bowEmerg) data.toNat →
      let k := s.pReg 0x201 .bowEmerg
      (s.bow.emergHeld = false → Completes (.bowEmergWrite port data) s (fun t =>
        Only ((List.range 4).map (fun b => Place.reg (uReg (brimIdx b) 0x201 .bowEmerg))) s t ∧
        t.emergPattern = (data.toNat / 16 % 4, data.toNat % 16))) ∧
      (s.bow.emergHeld = true → Completes (.bowEmergWrite port data) s (fun t => Only (faultPlaces (addrDie k.addr)) s t ∧
        Faults 0x6001 none (addrDie k.addr) 0x87 k.addr s t))) ∧
    (Accepts s port (s.pReg 0x201 .bowFreezeCmd) data.toNat →
      let k := s.pReg 0x201 .bowFreezeCmd
      (data.getLsbD 0 = true → data.getLsbD 1 = false → Completes (.freezeArm port data) s (fun t => Only [.bow, .reg k] s t ∧
        t.bow = { s.bow with freezeAt := s.pair (s.pReg 0x201 .bowFreezeAtLo) (s.pReg 0x201 .bowFreezeAtHi) } ∧ t.fldOf k 0 1 = 1)) ∧
      (data.getLsbD 0 = false → data.getLsbD 1 = true → Completes (.thawIssue port data) s (fun t => Only [.bow, .reg k] s t ∧
        (s.fldOf (s.pReg 0x20E .ctrRdStatus) 0 2 = 2 → t.bow = { s.bow with thawWaits := true }) ∧
        (s.fldOf (s.pReg 0x20E .ctrRdStatus) 0 2 ≠ 2 → t.bow = { s.bow with newq := s.bow.newq ++ [.thaw] }))))) ∧
  (∀ s : State, s.fldOf (s.pReg 0x201 .bowFreezeCmd) 0 1 = 1 → s.bow.freezeAt ≤ s.bow.time + 16 → s.bow.sendq.contains .freeze = false →
    Completes .freezeTimeReached s (fun t => Only [.bow] s t ∧ t.bow = { s.bow with sendq := s.bow.sendq ++ [.freeze] }))

/-- A leave window refills the counters of every tile at work by floor(k G + f), saturating at 2 G, after the draws of a calibration that runs in the tile, and shows the scale. The steward moves k of every partition with plan power by (allotment - measured) / plan power within 8/256 to 256/256 (the measured power's rounding is free, log 42). M_p rises by 1, to at most 12, where every running partition has k at 8/256 and the input exceeds the allotment, falls by 1 below 95 % of it, and else stays. M_t rises by 1, to at most 12, where a reading is at or above its warn limit, falls by 1 where every reading stayed below its release limit for 1 ms, and else stays. NORMAL is declared, and RELEASE sent, when the emergency has been over for 1 ms. What an interval brings does nothing before its next turn, and once it has come the next turn is set (log 61). -/
def Obligations.PowerAndThermalLoops : Prop :=
  ((∀ s : State, Early .leaveWindow s .leave) ∧
  (∀ s : State, s.due .leave = true → Completes .leaveWindow s (fun t =>
    OnlyIn (fun x => match x with
      | .tile _ => True
      | .reg k => k.reg ∈ [Reg.pwrDieK, .ctrValLo, .ctrValHi, .ctrStatus]
      | .die d => (s.die d).calRun ≠ []
      | .timer q => q = .leave
      | _ => False) s t ∧
    Turn t .leave (nextTick s.bow.time 1000) ∧
    (∀ d < 32, (s.die d).alive = true → t.regN (uReg d 0x203 .pwrDieK) = s.scaleOf d) ∧
    ∀ u ∈ s.allTiles,
      let x := s.tile u
      let g := s.grants u
      let k := s.scaleOf u.die.val
      let add (n count frac : Nat) : Nat := if 2 * n ≤ count then count else min (2 * n) (count + (k * n + frac) / 256)
      match (s.die u.die.val).calRun.find? (fun c => c.region == u.region.val) with
      | none => t.tile u = { x with
          opTickets := add g.1 x.opTickets x.opFrac, opFrac := (k * g.1 + x.opFrac) % 256,
          fullTickets := add g.2 x.fullTickets x.fullFrac, fullFrac := (k * g.2 + x.fullFrac) % 256, meter := g.1 }
      | some c =>
          let drawn := (calRunsTo c.act ((s.die u.die.val).cycles - c.last) x.fullTickets).2
          (t.tile u).opTickets = add g.1 x.opTickets x.opFrac ∧ (t.tile u).meter = g.1 ∧
          (t.tile u).fullTickets = add g.2 (x.fullTickets - drawn) x.fullFrac)) ∧
  (∀ (s : State) (unitW : List Nat) (edgeW : Nat), Early (.stewardKUpdate unitW edgeW) s .stewardK) ∧
  (∀ (s : State) (unitW : List Nat) (edgeW : Nat), s.stewardRuns = true → s.due .stewardK = true → Completes (.stewardKUpdate unitW edgeW) s (fun t =>
    OnlyIn (fun x => match x with
      | .reg k => k.die = s.prinDie ∧ k.region = 0x202 ∧ k.reg ∈ [Reg.pwrMeas, .pwrK, .pwrEvents, .pwrStatus]
      | .fresh => True
      | .timer q => q = .stewardK
      | _ => False) s t ∧
    Turn t .stewardK (nextTick s.bow.time 100000) ∧
    ∀ p < 16,
      ((s.part p).form = none → t.reg (s.pReg 0x202 .pwrK p) = s.reg (s.pReg 0x202 .pwrK p)) ∧
      ((s.part p).form.isSome = true → (s.part p).planMicro ≠ 0 →
        let m := s.measured (s.part p) unitW edgeW
        let allot := s.fldOf (s.pReg 0x202 .pwrAllot p) 0 16
        let k := s.fldOf (s.pReg 0x202 .pwrK p) 0 9
        let d : Int := 256000000 * ((allot * m.2 : Nat) - (m.1 : Int)) / ((m.2 * (s.part p).planMicro : Nat) : Int)
        (t.regN (s.pReg 0x202 .pwrK p) : Int) = max 8 (min 256 (k + d)) ∧
        (allot * m.2 < m.1 → t.fldOf (s.pReg 0x202 .pwrEvents) 3 1 = 1))))) ∧
  ((∀ (s : State) (inputW vin : Nat), Early (.powerSkipUpdate inputW vin) s .powerSkip) ∧
  (∀ (s : State) (inputW vin : Nat), s.stewardRuns = true → s.due .powerSkip = true → Completes (.powerSkipUpdate inputW vin) s (fun t =>
    let dev := s.fldOf (s.pReg 0x202 .pwrDev) 0 16
    let floor := ∀ p < 16, (s.part p).job = .running → s.fldOf (s.pReg 0x202 .pwrK p) 0 9 = 8
    let m := s.steward.mP
    Only [.steward, .bow, .reg (s.pReg 0x202 .pwrInput), .reg (s.pReg 0x202 .pwrStatus), .timer .powerSkip] s t ∧
    Turn t .powerSkip (nextTick s.bow.time 1000000) ∧
    t.regN (s.pReg 0x202 .pwrInput) = inputW % 2 ^ 16 + vin % 2 ^ 12 * 2 ^ 16 ∧
    (floor → dev < inputW → t.steward.mP = min 12 (m + 1)) ∧
    (¬ floor → dev < inputW → t.steward.mP = m) ∧
    (inputW ≤ dev → 100 * inputW < 95 * dev → t.steward.mP = m - 1) ∧
    (inputW ≤ dev → 95 * dev ≤ 100 * inputW → t.steward.mP = m) ∧
    SkipWritten s t (max s.steward.mT t.steward.mP) ∧
    t.fldOf (s.pReg 0x202 .pwrStatus) 8 4 = t.steward.mP % 16)) ∧
  (∀ s : State, Early .thermalSkipUpdate s .thermSkip) ∧
  (∀ s : State, s.stewardRuns = true → s.due .thermSkip = true → Completes .thermalSkipUpdate s (fun t =>
    let hot := ∃ r ∈ s.readings, 10 * s.thmLimit 0 r.2.1 ≤ r.1
    let m := s.steward.mT
    Only [.steward, .bow, .reg (s.pReg 0x202 .pwrStatus), .timer .thermSkip] s t ∧
    Turn t .thermSkip (nextTick s.bow.time 100000) ∧
    (hot → t.steward.mT = min 12 (m + 1)) ∧
    (¬ hot → s.calm = true → t.steward.mT = m - 1) ∧
    (¬ hot → s.calm = false → t.steward.mT = m) ∧
    SkipWritten s t (max t.steward.mT s.steward.mP) ∧
    t.fldOf (s.pReg 0x202 .pwrStatus) 4 4 = t.steward.mT % 16)) ∧
  (∀ s : State, s.stewardRuns = true → s.fldOf (s.pReg 0x202 .pwrStatus) 0 1 = 1 → s.emergActive = false → s.calm = true →
    (∀ x, s.steward.lastActive = some x → x + 1000000 ≤ s.bow.time) → Completes .normalDeclared s (fun t =>
      let m := max s.steward.mT s.steward.mP
      t.fldOf (s.pReg 0x202 .pwrStatus) 0 1 = 0 ∧ t.bow = { s.bow with newq := s.bow.newq ++ [.skip true 0 m] } ∧
      t.steward = { s.steward with normalAt := s.bow.time, lastSkip := m } ∧
      (∀ b < 4, t.fldOf (uReg (brimIdx b) 0x204 .cnfStatus) 5 1 = 0) ∧ t.mem = s.mem ∧ ∀ p, t.part p = s.part p)))

/-- An over-current trip raises EMERGENCY, shows and records its rail, and leaves memory and jobs; the comparator's clearing shows it. A rail that has persisted for 100 microseconds after that, and no other, shuts down: its die stops, the loss is recorded, and the job of every partition that uses the die ends. A converter's undervoltage stops the dies it feeds, and resets the device where it feeds the principal; its restart takes it off the converters that are down. The rails' DETAIL codes are log 40 and the dies a partition uses log 41. A thermal trip drives THERMTRIP_N, raises EMERGENCY, shows itself on the die and on every Brim die, and records the trip and the emergency faults in order (log 42). Legal limits written on the principal take effect there and in the limit codes of every living Brim die's entries; any other write of them is refused with a firmware fault. A limit code is the lowest whose temperature is not below the limit, at most 4095. -/
def Obligations.TripsLostRailsAndLimits : Prop :=
  ((∀ (s : State) (r : Rail), NoRelease s → r ∉ s.power.ocActive → r ∉ s.power.railsOff → (s.die (railDie r)).railsOn = true →
    Completes (.overcurrentTrip r) s (fun t =>
      t.power.ocActive = s.power.ocActive ++ [r] ∧ t.fldOf (s.pReg 0x202 .pwrEvents) 0 1 = 1 ∧
      t.fldOf (s.pReg 0x201 .bowEmergSrc) 1 1 = 1 ∧ t.fldOf (s.pReg 0x201 .bowEmergSrc) 9 1 = 1 ∧
      t.bow.emergHeld = true ∧ .emergency ∈ t.bow.newq ∧ t.mem = s.mem ∧ (∀ p, t.part p = s.part p) ∧
      Faults 0x5004 none (railDie r) 0x88 (railCode r) s t)) ∧
  (∀ (s : State) (r : Rail), r ∈ s.power.ocActive → Completes (.overcurrentComparatorClear r) s (fun t =>
    t.power = { s.power with ocActive := s.power.ocActive.filter (· != r), ocAt := Tbl.del s.power.ocAt r } ∧
    ((∀ x ∈ s.power.ocActive, x = r) → t.fldOf (s.pReg 0x201 .bowEmergSrc) 9 1 = 0) ∧ t.bow = s.bow ∧ t.mem = s.mem ∧
    ∀ p, t.part p = s.part p)) ∧
  (∀ (s : State) (r : Rail), s.ocPersists r = false → Completes (.railShutdown r) s (fun t => t = s)) ∧
  (∀ (s : State) (r : Rail) (x : Nat), r ∈ s.power.ocActive → Tbl.find s.power.ocAt r = some x → x + 100000 ≤ s.bow.time →
    railDie r ≠ s.prinDie → ¬ (32 ≤ railDie r ∧ railDie r < 36) →
    (s.die (railDie r)).alive = true →
    Completes (.railShutdown r) s (fun t => r ∈ t.power.railsOff ∧ r ∉ t.power.ocActive ∧ (t.die (railDie r)).alive = false ∧
      t.fldOf (s.pReg 0x202 .pwrEvents) 1 1 = 1 ∧
      (∃ x ∈ (t.die (railDie r)).toCentral, x.code = 0x5001 ∧ x.die = railDie r ∧ x.detail = railCode r) ∧
      ∀ p < 16, s.usesDie p (railDie r) = true → (s.part p).job = .running → (t.part p).job = .ended)) ∧
  (∀ (s : State) (c : Fin 20), c.val ∉ s.power.downBus →
    (converterOf s.prinDie ≠ c.val → s.prinDie < 40 → Completes (.busConverterUvlo c) s (fun t =>
      c.val ∈ t.power.downBus ∧ t.fldOf (s.pReg 0x202 .pwrEvents) 2 1 = 1 ∧
      ∀ d < 40, converterOf d = c.val → (t.die d).alive = false)) ∧
    (converterOf s.prinDie = c.val → s.prinDie < 40 → Completes (.busConverterUvlo c) s (fun t =>
      WasReset s t ∧ t.power.pgood = false ∧ c.val ∈ t.power.downBus ∧ t.power.lostRail = some (firstRail s.prinDie)))) ∧
  (∀ (s : State) (c : Fin 20), Completes (.busConverterRestart c) s (fun t => Only [.power] s t ∧
    t.power = { s.power with downBus := s.power.downBus.filter (· != c.val) }))) ∧
  ((∀ (s : State) (b : BrimDie) (w i : Nat),
    let c := s.limitCode b.val w i
    let chan := w % 32
    let limit := s.thmLimit i (chan == 8)
    let den := entryGain w * (65536 + s.fldOf (uReg (brimIdx b.val) 0x204 .cnfDiode chan) 0 16) * 86173 * Config.lnRatio b.val chan
    let hot (code : Nat) : Prop := (20 * limit + 5463) * (den : Int) ≤ 2 * ((code * s.snsReference b.val * 16000000000 : Nat) : Int)
    c ≤ 4095 ∧
    (chan < 9 → (∀ x < c, ¬ hot x) ∧ (c < 4095 → hot c)) ∧
    (chan = 9 → (∀ x < c, (x : Int) < 16 * (limit + 50)) ∧ (c < 4095 → 16 * (limit + 50) ≤ c))) ∧
  (∀ (s : State) (d : DieIdx), NoRelease s → (s.die d.val).tripped = false → Completes (.thermalTrip d) s (fun t =>
    (t.die d.val).tripped = true ∧ t.power.thermtrip = true ∧ t.bow.emergHeld = true ∧ .emergency ∈ t.bow.newq ∧
    t.fldOf (s.pReg 0x201 .bowEmergSrc) 0 1 = 1 ∧ t.mem = s.mem ∧
    (d.val < 32 → t.fldOf (uReg d.val 0x203 .thmDie) 0 1 = 1) ∧
    (∀ b < 4, t.fldOf (uReg (brimIdx b) 0x203 .thmStatus) 23 1 = 1) ∧
    ∃ x y, (t.die d.val).toCentral = (s.die d.val).toCentral ++ [x, y] ∧ x.code = 0x5002 ∧ y.code = 0x5003 ∧ x.die = d.val ∧ y.die = d.val)) ∧
  (∀ (s : State) (port : Port) (b : BrimDie) (data : W32),
    let k := uReg (brimIdx b.val) 0x203 .thmLimits
    Accepts s port k data.toNat →
    (k.die = s.prinDie → limitsOk data.toNat = true → Completes (.thmLimitsWrite port b data) s (fun t =>
      OnlyIn (fun x => match x with
        | .reg q => q = k ∨ q.reg = .snsLim ∨ q.reg = .snsRel
        | _ => False) s t ∧
      (∀ i < 3, t.fldOf k (8 * i) 8 = data.toNat / 2 ^ (8 * i) % 256) ∧
      ∀ n < 4, (s.die (brimIdx n)).alive = true → ∀ e < 16,
        let w := s.regN (uReg (brimIdx n) 0x20D .snsEnt e)
        w.testBit 7 = true → w % 32 ≤ 9 →
        t.regN (uReg (brimIdx n) 0x20D .snsLim e) = t.limitCode n (w % 32) 0 + t.limitCode n (w % 32) 2 * 2 ^ 16 ∧
        t.regN (uReg (brimIdx n) 0x20D .snsRel e) = t.limitCode n (w % 32) 1)) ∧
    (k.die ≠ s.prinDie ∨ limitsOk data.toNat = false → Completes (.thmLimitsWrite port b data) s (fun t =>
      Only (faultPlaces (addrDie k.addr)) s t ∧ Faults 0x6001 none (addrDie k.addr) 0x87 k.addr s t))))

/-- A tick makes due the entries of the sequences of its table and moves sequences between the fast and the normal table; a sequence of which a pass still waits is not due twice. Only the entry at the head of those due is converted. Its conversion stores the trimmed code, counts it, sets WARN, EMERG, BELOW and SETTLING by the entry's limits, and starts its sequence again where CONT is set and no pass of it is left; a WARN sends its sequence to the fast table where it may, and the first EMERG raises EMERGENCY. The trimmed code is the nearest to (raw - OFFSET)(1 + GAIN/2048), ties to even, within 0 to 4095. While telemetry runs, a diode's reading in 0.1 degrees is the neighbour of its temperature by the section's formula, the internal sensor's likewise, and a thermistor at mid-scale reads 25.0 (how readings round is log 39). What an interval brings does nothing before its next turn, and once it has come the next turn is set (log 61). That a conversion is one event is log 39. -/
def Obligations.SensorPassesAndConversions : Prop :=
  (∀ (s : State) (b : BrimDie), s.fldOf (snsReg b.val .snsCtrl) 0 1 = 1 → (s.die (brimIdx b.val)).alive = true →
    let x := s.sensor b.val
    let fast (u : State) (q : Nat) : Prop := u.fldOf (snsReg b.val .snsStatus) q 1 = 1
    let shown (x : Timer) : Place → Prop := fun p => match p with
      | .sensor n => n = b.val
      | .reg k => k = snsReg b.val .snsStatus ∨ k.reg = .thmBody ∨ k.reg = .thmCrown
      | .timer q => q = x
      | _ => False
    Early (.sensorFastTick b) s (.fastTick b.val) ∧
    ((∀ q ∈ x.toFast, q < 4) → s.due (.fastTick b.val) = true → Completes (.sensorFastTick b) s (fun t =>
      OnlyIn (shown (.fastTick b.val)) s t ∧ Turn t (.fastTick b.val) (nextTick s.bow.time 20000) ∧
      (∀ q < 4, fast t q ↔ fast s q ∨ q ∈ x.toFast) ∧ (t.sensor b.val).toFast = [] ∧ (t.sensor b.val).above = x.above ∧
      let es := ((List.range 4).filter (fun q => t.fldOf (snsReg b.val .snsStatus) q 1 == 1)).flatMap (s.seqEntries b.val)
      (t.sensor b.val).due = es ++ x.due.filter (fun e => !es.contains e))) ∧
    Early (.sensorSlowTick b) s (.slowTick b.val) ∧
    (s.due (.slowTick b.val) = true → Completes (.sensorSlowTick b) s (fun t =>
      OnlyIn (shown (.slowTick b.val)) s t ∧ Turn t (.slowTick b.val) (nextTick s.bow.time 1000000) ∧
      (∀ q < 4, fast t q ↔ fast s q ∧ ∃ e ∈ s.seqEntries b.val q, e ∈ x.above) ∧ (t.sensor b.val).above = [] ∧
      (t.sensor b.val).toFast = x.toFast ∧ x.due <+: (t.sensor b.val).due ∧
      let becomesDue (q : Nat) : Prop := ¬ fast t q ∧ (fast s q ∨ s.fldOf (snsReg b.val .snsSeq q) 0 1 = 0) ∧
        ∀ e ∈ s.seqEntries b.val q, e ∉ x.due
      ∀ e, e ∈ (t.sensor b.val).due ↔ e ∈ x.due ∨ ∃ q < 4, becomesDue q ∧ e ∈ s.seqEntries b.val q)) ∧
    (∀ (e : Fin 16) (raw : Nat), (s.dueNow b.val).head? ≠ some e.val → Completes (.sensorConversion b e raw) s (fun t => t = s)) ∧
    (∀ (e : Fin 16) (raw : Nat),
      let w := s.regN (snsReg b.val .snsEnt e.val)
      let trim := s.regN (snsReg b.val .snsTrim)
      let code := trimmed raw (sext 6 (fld trim 0 6)) (sext 8 (fld trim 8 8))
      let on := s.fldOf (snsReg b.val .snsStatus) 4 1 = 0
      let warn := on ∧ w.testBit 21 = true ∧ s.fldOf (snsReg b.val .snsLim e.val) 0 12 ≤ code
      let em := on ∧ w.testBit 22 = true ∧ s.fldOf (snsReg b.val .snsLim e.val) 16 12 ≤ code
      let below := on ∧ (w.testBit 21 = true ∨ w.testBit 22 = true) ∧ code < s.fldOf (snsReg b.val .snsRel e.val) 0 12
      let q := w / 32 % 4
      let rest := (s.dueNow b.val).drop 1
      let chan := w % 32
      let num := code * s.snsReference b.val * 16000000000
      let den := entryGain w * (65536 + s.fldOf (uReg (brimIdx b.val) 0x204 .cnfDiode chan) 0 16) * 86173 * Config.lnRatio b.val chan
      (s.dueNow b.val).head? = some e.val → Completes (.sensorConversion b e raw) s (fun t =>
        let r := snsReg b.val .snsRes e.val
        t.fldOf r 0 12 = code ∧ (t.fldOf r 12 1 = 1 ↔ warn) ∧ (t.fldOf r 13 1 = 1 ↔ em) ∧ (t.fldOf r 14 1 = 1 ↔ below) ∧
        (t.fldOf r 15 1 = 1 ↔ ¬ on) ∧ t.fldOf r 16 16 = (s.fldOf r 16 16 + 1) % 2 ^ 16 ∧
        rest <+: (t.sensor b.val).due ∧
        ((∀ p < 4, s.fldOf (snsReg b.val .snsSeq p) 0 1 = 0) → (t.sensor b.val).due = rest) ∧
        (∀ p < 4, s.fldOf (snsReg b.val .snsSeq p) 0 1 = 1 → ¬ fast s p → (∀ i ∈ s.seqEntries b.val p, i ∉ rest) →
          ∀ i ∈ s.seqEntries b.val p, i ∈ (t.sensor b.val).due) ∧
        (s.compState 6 = 0 → chan < 9 → 0 < den → ∃ v : Int,
          t.fldOf (if chan = 8 then s.pReg 0x203 .thmCrown (diodeCrown b.val) else s.pReg 0x203 .thmBody (diodeBody b.val chan)) 0 16 =
            toBits 16 v ∧ (2 * den * v - (2 * num - 5463 * den : Int)).natAbs < 2 * den) ∧
        (s.compState 6 = 0 → chan = 9 → (16 * (t.sensor b.val).temp - (10 * code - 8000 : Int)).natAbs < 16) ∧
        (s.compState 6 = 0 → chan = 10 ∨ chan = 11 → code = 2048 →
          t.fldOf (uReg (brimIdx b.val) 0x203 .thmTh) (16 * (chan - 10)) 16 = 250) ∧
        (warn → s.fldOf (snsReg b.val .snsSeq q) 1 1 = 1 → q ∈ (t.sensor b.val).toFast) ∧
        (warn → t.fldOf (snsReg b.val .snsEvents) 0 1 = 1) ∧
        (em → t.fldOf (snsReg b.val .snsEvents) 1 1 = 1 ∧ (t.sensor b.val).line = true) ∧
        (em → x.line = false → t.bow.emergHeld = true ∧ .emergency ∈ t.bow.newq ∧ t.fldOf (s.pReg 0x201 .bowEmergSrc) 0 1 = 1) ∧
        t.mem = s.mem))) ∧
  (∀ (raw : Nat) (offset gain : Int), -32 ≤ offset → offset ≤ 31 → -128 ≤ gain → gain ≤ 127 →
    let v := ((raw : Int) - offset) * (2048 + gain)
    let c : Int := trimmed raw offset gain
    0 ≤ c ∧ c ≤ 4095 ∧
    (0 < c → c < 4095 → 2 * (2048 * c - v) ≤ 2048 ∧ 2 * (v - 2048 * c) ≤ 2048 ∧ (2 * (v - 2048 * c) = 2048 → c % 2 = 0) ∧
      (2 * (2048 * c - v) = 2048 → c % 2 = 0)))

/-- A change of reference is refused while a core rail is on and otherwise starts 50 microseconds of settling; disabling the converter drops what is due. An entry naming a channel the die has takes effect where the guarded budget stays within 800 clocks, and otherwise is refused; an entry naming another channel is refused. A limit register takes its two codes. -/
def Obligations.SensorConverterWrites : Prop :=
  ∀ (s : State) (port : Port) (b : BrimDie) (data : W32),
    let refused (k : RegKey) (t : State) : Prop := Only (faultPlaces (addrDie k.addr)) s t ∧ Faults 0x6001 none (addrDie k.addr) 0x87 k.addr s t
    (Accepts s port (snsReg b.val .snsCtrl) data.toNat →
      let k := snsReg b.val .snsCtrl
      (data.toNat / 2 % 4 ≠ s.fldOf k 1 2 → s.coreRailsOff = false → Completes (.sensorRefSelect port b data) s (refused k)) ∧
      (data.toNat / 2 % 4 ≠ s.fldOf k 1 2 → s.coreRailsOff = true → Completes (.sensorRefSelect port b data) s (fun t =>
        Only [.sensor b.val, .reg k, .reg (snsReg b.val .snsStatus)] s t ∧ t.fldOf k 0 3 = data.toNat % 8 ∧
        t.fldOf (snsReg b.val .snsStatus) 4 1 = 1 ∧ (t.sensor b.val).settleFrom = s.bow.time)) ∧
      (data.toNat / 2 % 4 = s.fldOf k 1 2 → data.getLsbD 0 = false → Completes (.sensorRefSelect port b data) s (fun t =>
        Only [.sensor b.val, .reg k, .reg (snsReg b.val .snsStatus)] s t ∧ t.fldOf k 0 3 = data.toNat % 8 ∧ (t.sensor b.val).due = [] ∧
        t.fldOf (snsReg b.val .snsStatus) 4 1 = s.fldOf (snsReg b.val .snsStatus) 4 1))) ∧
    (s.fldOf (snsReg b.val .snsStatus) 4 1 = 1 → (s.sensor b.val).settleFrom + 50000 ≤ s.bow.time →
      Completes (.sensorRefSettled b) s (fun t => Only [.reg (snsReg b.val .snsStatus)] s t ∧ t.fldOf (snsReg b.val .snsStatus) 4 1 = 0)) ∧
    (∀ e : Fin 16, Accepts s port (snsReg b.val .snsEnt e.val) data.toNat →
      let k := snsReg b.val .snsEnt e.val
      let named := data.toNat % 32 ≤ 16 ∧ (data.toNat % 32 = 10 ∨ data.toNat % 32 = 11 → b.val < 2)
      (¬ named → Completes (.sensorEntryWrite port b (.ent e) data) s (refused k)) ∧
      (named → (s.storeReg k data.toNat).snsBudget b.val ≤ 800 → Completes (.sensorEntryWrite port b (.ent e) data) s (fun t =>
        (∀ i < 23, (t.reg k).getLsbD i = data.getLsbD i) ∧ t.mem = s.mem ∧
        t.fldOf (snsReg b.val .snsStatus) 16 10 = t.snsBudget b.val)) ∧
      (named → 800 < (s.storeReg k data.toNat).snsBudget b.val → Completes (.sensorEntryWrite port b (.ent e) data) s (fun t =>
        t.reg k = s.reg k ∧ t.fldOf (snsReg b.val .snsEvents) 2 1 = 1 ∧ Faults 0x6001 none (addrDie k.addr) 0x87 k.addr s t))) ∧
    (∀ e : Fin 16, Accepts s port (snsReg b.val .snsLim e.val) data.toNat →
      Completes (.sensorLimitWrite port b e data) s (fun t =>
        let k := snsReg b.val .snsLim e.val
        Only [.reg k] s t ∧ t.fldOf k 0 12 = data.toNat % 2 ^ 12 ∧ t.fldOf k 16 12 = data.toNat / 2 ^ 16 % 2 ^ 12))

/-- An inserted module is noted with its time; 200 ms later, and not before, a module whose EEPROM is refused shows REFUSED and stays dark, and an accepted one takes its hours from its newer valid log record and warms up where it is enabled and needed, or stays OFF. At power and lock its lanes begin to train. Removal, and a laser supply out of range, take the module and its lanes down; a supply in range again starts the debounce of its modules. -/
def Obligations.LaserModulesComeAndGo : Prop :=
  (∀ (s : State) (m : ModuleIdx) (eeprom : List Byte), (s.laser m.val).inCage = false → eeprom.length = 8192 →
    Completes (.moduleInserted m eeprom) s (fun t =>
      let ev := uReg (brimIdx (m.val / 2)) 0x20A .lasEvents
      Only [.laser m.val, .reg ev] s t ∧ (t.laser m.val).inCage = true ∧ (t.laser m.val).eeprom = eeprom ∧
      (t.laser m.val).debounced = false ∧ (t.laser m.val).since = s.bow.time ∧ (t.laser m.val).powered = false ∧ t.fldOf ev 0 1 = 1)) ∧
  (∀ (s : State) (m : ModuleIdx),
    let x := s.laser m.val
    let ev := uReg (brimIdx (m.val / 2)) 0x20A .lasEvents
    let st := lasReg m.val .lasState
    (s.bow.time < x.since + 200000000 → Completes (.presenceDebounced m) s (fun t => t = s)) ∧
    (x.inCage = true → x.debounced = false → s.lasSupplied m.val = true → x.since + 200000000 ≤ s.bow.time →
    (laserAccept x.eeprom = false → Completes (.presenceDebounced m) s (fun t => Only [.laser m.val, .reg st, .reg ev] s t ∧
      t.reg st = 10 ∧ t.fldOf ev 2 1 = 1 ∧ (t.laser m.val).powered = x.powered)) ∧
    (laserAccept x.eeprom = true → Completes (.presenceDebounced m) s (fun t =>
      let on := s.fldOf (lasReg m.val .lasCtrl) 0 1 = 1 ∧ s.lasNeeded m.val = true
      let log := (laserRead x.eeprom).1.getD (List.replicate 64 0)
      Only [.laser m.val, .reg st, .reg (lasReg m.val .lasHours), .reg (lasReg m.val .lasEqhours), .reg (lasReg m.val .lasRise)] s t ∧
      t.fldOf st 3 1 = 1 ∧ (on → t.fldOf st 0 3 = 3 ∧ (t.laser m.val).powered = true) ∧
      (¬ on → t.fldOf st 0 3 = 5 ∧ (t.laser m.val).powered = false) ∧
      t.regN (lasReg m.val .lasHours) = leAt log 4 4 % 2 ^ 32 ∧ t.regN (lasReg m.val .lasEqhours) = leAt log 8 4 % 2 ^ 32)))) ∧
  (∀ (s : State) (m : ModuleIdx), s.lasIs m.val = 3 →
    Completes (.laserOutputReached m) s (fun t => Only [.laser m.val] s t ∧ t.laser m.val = { s.laser m.val with atPower := true }) ∧
    ((s.laser m.val).atPower = true → Completes (.laserLocked m) s (fun t => t.lasIs m.val = 4 ∧ t.laser m.val = s.laser m.val ∧ t.mem = s.mem ∧
      ∀ l n, l / 6 = m.val → n < 4 → (s.groupOf l).isSome = true → (s.lane l n).trained = false → s.pllDown (.linkPhy (Fin.ofNat 48 l)) = false →
        (t.lane l n).training = true ∧ (t.lane l n).lockTime = s.bow.time))) ∧
  (∀ (s : State) (m : ModuleIdx), (s.laser m.val).inCage = true → Completes (.moduleRemoved m) s (fun t =>
    t.laser m.val = { Laser.reset with since := s.bow.time } ∧ t.lasIs m.val = 0 ∧ t.fldOf (uReg (brimIdx (m.val / 2)) 0x20A .lasEvents) 1 1 = 1 ∧
    ∀ l n, l / 6 = m.val → n < 4 → (t.lane l n).trained = false ∧ (t.lane l n).training = false)) ∧
  (∀ (s : State) (b : BrimDie), Completes (.vlasOutOfRange b) s (fun t =>
    t.power = { s.power with vlas := s.power.vlas.set b.val false } ∧
    ∀ m, m / 2 = b.val → (s.laser m).inCage = true →
      t.laser m = { Laser.reset with inCage := true, eeprom := (s.laser m).eeprom, since := s.bow.time } ∧ t.lasIs m = 0)) ∧
  (∀ (s : State) (b : BrimDie),
    (s.power.vlas.getD b.val false = true → Completes (.vlasInRange b) s (fun t => t = s)) ∧
    (s.power.vlas.getD b.val false = false → Completes (.vlasInRange b) s (fun t =>
      Only [.power, .laser (2 * b.val), .laser (2 * b.val + 1)] s t ∧ t.power = { s.power with vlas := s.power.vlas.set b.val true } ∧
      ∀ m, m / 2 = b.val → t.laser m = { s.laser m with since := s.bow.time })))

/-- A reading beyond the bias or case limit of a powered module, or the tenth in a row of one wavelength 3.0 dB below its rated output while the module is locked, faults it dark and is recorded; another one counts a second, and the low readings of each wavelength. A powered hour adds to the hours and the equivalent hours, keeps the largest rise, sets WEAR at 20 % and EOL at 30 %, and writes the log record. Switching off writes the record and takes the lanes down; switching on warms up. The port source takes its bits. Rounding of the rise is free and hours accrue as log 38 says. What an interval brings does nothing before its next turn, and once it has come the next turn is set (log 61). -/
def Obligations.LasersAreMonitoredAndSwitched : Prop :=
  (∀ (s : State) (m : ModuleIdx) (r : LaserReading), Early (.laserMonitorPoll m r) s (.laser m.val)) ∧
  (∀ (s : State) (m : ModuleIdx) (r : LaserReading), s.lasIs m.val ≠ 0 → s.lasIs m.val ≠ 2 → s.due (.laser m.val) = true →
    let x := s.laser m.val
    let weak (w : Nat) : Prop := r.power.getD w 0 + 300 ≤ s16At x.eeprom (66 + 8 * w)
    let bad := (∃ w < 4, leAt x.eeprom (70 + 8 * w) 2 ≤ r.bias.getD w 0) ∨ ((10 * leAt x.eeprom 57 1 : Nat) : Int) < r.tcase ∨
      (s.lasIs m.val = 4 ∧ ∃ w < 4, weak w ∧ 9 ≤ x.lowPower.getD w 0)
    Completes (.laserMonitorPoll m r) s (fun t =>
      Turn t (.laser m.val) (nextTick s.bow.time 1000000000) ∧
      t.regN (lasReg m.val .lasTcase) = toBits 16 r.tcase ∧ t.mem = s.mem ∧
      (x.powered = true → bad → t.lasIs m.val = 6 ∧ (t.laser m.val).powered = false ∧
        t.fldOf (uReg (brimIdx (m.val / 2)) 0x20A .lasEvents) 3 1 = 1 ∧
        ∃ f ∈ (t.die (brimIdx (m.val / 2))).toCentral, f.code = 0x4003 ∧ f.detail = m.val) ∧
      (x.powered = true → ¬ bad → t.lasIs m.val = s.lasIs m.val ∧ (t.laser m.val).powered = true ∧ (t.laser m.val).secs = x.secs + 1 ∧
        (s.lasIs m.val ≠ 4 → (t.laser m.val).lowPower = []) ∧
        (s.lasIs m.val = 4 → ∀ w < 4, (weak w → (t.laser m.val).lowPower.getD w 0 = x.lowPower.getD w 0 + 1) ∧
          (¬ weak w → (t.laser m.val).lowPower.getD w 0 = 0))) ∧
      (x.powered = false → t.laser m.val = x ∧ t.lasIs m.val = s.lasIs m.val))) ∧
  (∀ (s : State) (m : ModuleIdx), (s.laser m.val).powered = true → 3600 ≤ (s.laser m.val).secs → Completes (.laserHourTick m) s (fun t =>
    t.regN (lasReg m.val .lasHours) = (s.regN (lasReg m.val .lasHours) + 1) % 2 ^ 32 ∧
    t.regN (lasReg m.val .lasEqhours) = (s.regN (lasReg m.val .lasEqhours) + (s.laser m.val).eqSecs / (3600 * 2 ^ 32)) % 2 ^ 32 ∧
    s.fldOf (lasReg m.val .lasRise) 0 16 ≤ t.fldOf (lasReg m.val .lasRise) 0 16 ∧
    (200 ≤ t.fldOf (lasReg m.val .lasRise) 0 16 → t.fldOf (lasReg m.val .lasState) 4 1 = 1) ∧
    (300 ≤ t.fldOf (lasReg m.val .lasRise) 0 16 → t.fldOf (lasReg m.val .lasState) 5 1 = 1) ∧
    (t.laser m.val).secs = 0 ∧ (t.laser m.val).logSeq = (s.laser m.val).logSeq + 1 ∧ (t.laser m.val).powered = true ∧
    t.lasIs m.val = s.lasIs m.val ∧ t.mem = s.mem)) ∧
  (∀ (s : State) (port : Port) (m : ModuleIdx) (data : W32), Accepts s port (lasReg m.val .lasCtrl) data.toNat →
    (data.getLsbD 0 = false → s.lasIs m.val = 3 ∨ s.lasIs m.val = 4 → Completes (.laserOff port m data) s (fun t =>
      t.lasIs m.val = 5 ∧ (t.laser m.val).powered = false ∧ (t.laser m.val).logSeq = (s.laser m.val).logSeq + 1 ∧
      t.fldOf (lasReg m.val .lasCtrl) 0 1 = 0 ∧ t.mem = s.mem ∧
      ∀ l n, l / 6 = m.val → n < 4 → (t.lane l n).trained = false ∧ (t.lane l n).training = false)) ∧
    (data.getLsbD 0 = true → s.lasIs m.val = 5 ∨ s.lasIs m.val = 6 → s.lasNeeded m.val = true → Completes (.laserOn port m data) s (fun t =>
      Only [.laser m.val, .reg (lasReg m.val .lasCtrl), .reg (lasReg m.val .lasState)] s t ∧ t.lasIs m.val = 3 ∧
      t.laser m.val = { s.laser m.val with powered := true, atPower := false, lowPower := [] } ∧ t.fldOf (lasReg m.val .lasCtrl) 0 1 = 1))) ∧
  (∀ (s : State) (port : Port) (b : BrimDie) (data : W32),
    let k := uReg (brimIdx b.val) 0x20A .lasSpsrc
    Accepts s port k data.toNat → Completes (.lasSpsrcWrite port b data) s (fun t =>
      t.fldOf k 0 2 = data.toNat % 4 ∧ t.mem = s.mem ∧ ∀ m, m / 2 ≠ b.val → t.laser m = s.laser m))

/-- Calibration is refused of a mapped or fenced array, deferred in an emergency, and otherwise writes code +1 to every cell of the array in MAINT and nothing else. It draws 12 tickets as every 134 cycles of its activity begin, waits where they are short, and at its end 64 for the rows written; one that still lacks tickets goes no further. A passing one then leaves the array SPARE with the trims of its converters and DACs computed from what was measured, its failures forgotten and its time recorded; a failing one keeps the trims, counts and shows the failure, and the third fences the array as SUSPECT. The offset trim of an accepted converter brings its zero to within half a step of 0.25 LSB, and its gain trim is the nearest step of 1/800 to the correction. The queue's next SPARE array enters MAINT. What a failed array becomes before that, and which of two equally near steps is taken, is log 43. -/
def Obligations.ArrayCalibration : Prop :=
  (∀ (s : State) (a : ArrayId), (s.die a.tile.die.val).alive = true →
    ((s.arr a).st = .mapped ∨ (s.arr a).st = .fenced → Completes (.arrayCalStart a) s (fun t =>
      let k := (tReg a.tile .arrState a.phys.val).addr
      Only (faultPlaces (addrDie k)) s t ∧ Faults 0x6001 none (addrDie k) 0x87 k s t)) ∧
    ((s.arr a).st = .maint → s.inEmergency = true → Completes (.arrayCalStart a) s (fun t => Deferred s t (guardOf a.tile.die.val))) ∧
    ((s.arr a).st = .maint → s.inEmergency = false → s.tileBusy a.tile = false → Completes (.arrayCalStart a) s (fun t =>
      (∀ i < 0x11000, Memory.read t.mem (winAddr a + i) = 0x55) ∧
      (∀ i, i < winAddr a ∨ winAddr a + 0x11400 ≤ i → Memory.read t.mem i = Memory.read s.mem i) ∧
      (t.die a.tile.die.val).calRun = (s.die a.tile.die.val).calRun ++ [⟨a.tile.region.val, a.phys.val, (s.die a.tile.die.val).cycles, 0⟩] ∧
      t.fldOf (uReg a.tile.die.val 0x206 .cnfDieStatus) 0 10 = ((s.die a.tile.die.val).calRun.length + 1) % 2 ^ 10 ∧
      ∀ b, t.arr b = s.arr b))) ∧
  (∀ (s : State) (a : ArrayId) (m : ArrayCalMeasure) (c : CalRun) (l1 l2 : List CalRun),
    let d := a.tile.die.val
    (s.die d).calRun = l1 ++ c :: l2 → c.region = a.tile.region.val → c.phys = a.phys.val →
    (∀ k ∈ l1 ++ l2, k.region ≠ a.tile.region.val) →
    let n := Tbl.get s.conf.arrFails a 0 + 1
    let fails := uReg (brimIdx (guardOf d)) 0x204 .cnfFails
    let full := (s.tile a.tile).fullTickets
    let q := calRunsTo c.act ((s.die d).cycles - c.last) full
    let paid (t : State) : Prop := (t.die d).calRun = l1 ++ l2 ∧ (t.tile a.tile).fullTickets = full - q.2 - 64 ∧
      t.mem = s.mem ∧ ∀ b, b ≠ a → t.arr b = s.arr b
    let kept (t : State) : Prop := (t.arr a).trim8 = (s.arr a).trim8 ∧ (t.arr a).trim6 = (s.arr a).trim6 ∧ (t.arr a).dacTrim = (s.arr a).dacTrim
    (full - q.2 < 64 → Completes (.arrayCalComplete a m false) s (fun t =>
      (t.die d).calRun = l1 ++ { c with last := (s.die d).cycles, act := q.1 } :: l2 ∧ (t.tile a.tile).fullTickets = full - q.2 ∧
      t.mem = s.mem ∧ ∀ b, t.arr b = s.arr b)) ∧
    (64 ≤ full - q.2 → calOk m = true → Completes (.arrayCalComplete a m false) s (fun t =>
      paid t ∧ (t.arr a).st = .spare ∧ (t.arr a).calTime = s.bow.time ∧ Tbl.get t.conf.arrFails a 0 = 0 ∧
      (t.arr a).trim8 = m.conv8.map (convTrims false) ∧ (t.arr a).trim6 = m.conv6.map (convTrims true) ∧
      (t.arr a).dacTrim = m.dac.map dacTrims)) ∧
    (64 ≤ full - q.2 → calOk m = false → n < 3 → Completes (.arrayCalComplete a m false) s (fun t =>
      paid t ∧ kept t ∧ (t.arr a).st = .spare ∧ Tbl.get t.conf.arrFails a 0 = n ∧
      t.fldOf fails 0 16 = min 65535 (s.fldOf fails 0 16 + 1) ∧
      t.fldOf (uReg (brimIdx (guardOf d)) 0x204 .cnfEvents) 0 1 = 1 ∧ t.fldOf (uReg (brimIdx (guardOf d)) 0x204 .cnfLastfail) 29 2 = n)) ∧
    (64 ≤ full - q.2 → calOk m = false → 3 ≤ n → (s.arr a).st = .maint → Completes (.arrayCalComplete a m false) s (fun t =>
      kept t ∧ (t.arr a).st = .fenced ∧ (t.arr a).suspect = true))) ∧
  (∀ (six : Bool) (c : ConvMeans), convOk six c = true →
    let x := convTrims six c
    (c.zero + 25 * x.1).natAbs ≤ 12 ∧ 2 * (800 * (100 * convSpan six - convRise c) - x.2 * convRise c).natAbs ≤ (convRise c).natAbs) ∧
  (∀ (s : State) (d : BodyDie), (s.die d.val).alive = true →
    (s.inEmergency = true → Completes (.calQueueDispatch d) s (fun t => Deferred s t (guardOf d.val))) ∧
    (s.inEmergency = false → ∀ a, s.calNext d.val = some a → (s.arr a).st = .spare → Completes (.calQueueDispatch d) s (fun t =>
      Only [.arr a] s t ∧ (t.arr a).st = .maint)))

/-- A ring drive within 2 % to 98 %, an eye of at least 30 %, sensor trims within their range and a plausible round trip are accepted, first ones whole and later ones by glide; a failure counts, and the third takes the lane down or marks the sensor suspect. A glide step moves at most its step toward the accepted value. A PLL whose count is off by more than one is down until recalibrated and ends the jobs a fabric or mesh PLL serves; in an emergency its check and its recalibration are deferred. What the spec leaves open here is log 43. What an interval brings does nothing before its next turn, and once it has come the next turn is set (log 61). -/
def Obligations.LaneSensorAndPllCalibration : Prop :=
  ((∀ (s : State) (l : LinkIdx) (n : LaneIdx) (drive : Nat), Early (.ringHeaterCal l n drive) s (.cal (.ring l n))) ∧
  (∀ (s : State) (l : LinkIdx) (n : LaneIdx) (drive : Nat), s.lit l.val = true → s.due (.cal (.ring l n)) = true →
    let u := CalUnit.ring l n
    (20 ≤ drive → drive ≤ 980 → Completes (.ringHeaterCal l n drive) s (fun t => Only [.conf, .timer (.cal u)] s t ∧
      Turn t (.cal u) (nextTick s.bow.time 10000) ∧
      (t.cal u).accepted = [(drive : Int)] ∧ (t.cal u).fails = 0 ∧ ((s.cal u).applied = [] → (t.cal u).applied = [(drive : Int)]) ∧
      ((s.cal u).applied ≠ [] → s.glides u = true → (t.cal u).applied = (s.cal u).applied) ∧ ∀ v, v ≠ u → t.cal v = s.cal v)) ∧
    (drive < 20 ∨ 980 < drive → (s.cal u).fails < 2 → Completes (.ringHeaterCal l n drive) s (fun t =>
      (t.cal u).fails = (s.cal u).fails + 1 ∧ (t.cal u).accepted = (s.cal u).accepted ∧ (t.cal u).applied = (s.cal u).applied ∧
      t.fldOf (uReg (brimIdx (l.val / 12)) 0x204 .cnfEvents) 0 1 = 1 ∧ (∀ i j, t.lane i j = s.lane i j) ∧ t.mem = s.mem)) ∧
    (drive < 20 ∨ 980 < drive → (s.cal u).fails = 2 → Completes (.ringHeaterCal l n drive) s (fun t =>
      (t.cal u).fails = 0 ∧ (t.lane l.val n.val).trained = false ∧ t.fldOf (uReg (brimIdx (l.val / 12)) 0x204 .cnfEvents) 1 1 = 1))) ∧
  (∀ (s : State) (l : LinkIdx) (n : LaneIdx) (eye : Nat) (taps : List Nat), Early (.equaliserCal l n eye taps) s (.cal (.equaliser l n))) ∧
  (∀ (s : State) (l : LinkIdx) (n : LaneIdx) (eye : Nat) (taps : List Nat), (s.lane l.val n.val).trained = true →
    s.due (.cal (.equaliser l n)) = true →
    let u := CalUnit.equaliser l n
    (s.inEmergency = true → Completes (.equaliserCal l n eye taps) s (fun t => Deferred s t (l.val / 12))) ∧
    (s.inEmergency = false → 30 ≤ eye → Completes (.equaliserCal l n eye taps) s (fun t => Only [.conf, .timer (.cal u)] s t ∧
      Turn t (.cal u) (nextTick s.bow.time 1000000) ∧
      (t.cal u).accepted = taps.map (fun (x : Nat) => (x : Int)) ∧ (t.cal u).fails = 0 ∧
      ((s.cal u).applied = [] → (t.cal u).applied = taps.map (fun (x : Nat) => (x : Int))))) ∧
    (s.inEmergency = false → eye < 30 → (s.cal u).fails < 2 → Completes (.equaliserCal l n eye taps) s (fun t =>
      (t.cal u).fails = (s.cal u).fails + 1 ∧ (t.cal u).applied = (s.cal u).applied ∧ (∀ i j, t.lane i j = s.lane i j)))) ∧
  (∀ (s : State) (b : BrimDie) (rawOffset rawGain : Int), Early (.sensorCal b rawOffset rawGain) s (.cal (.sensor b))) ∧
  (∀ (s : State) (b : BrimDie) (rawOffset rawGain : Int), (s.die (brimIdx b.val)).alive = true →
    (∀ q < 4, s.fldOf (snsReg b.val .snsStatus) q 1 = 0) → s.due (.cal (.sensor b)) = true →
    let u := CalUnit.sensor b
    let ok := -16 ≤ rawOffset ∧ rawOffset ≤ 16 ∧ -6144 ≤ 100 * rawGain ∧ 100 * rawGain ≤ 6144
    (ok → Completes (.sensorCal b rawOffset rawGain) s (fun t => Only [.conf, .sensor b.val, .reg (snsReg b.val .snsTrim), .timer (.cal u)] s t ∧
      Turn t (.cal u) (nextTick s.bow.time (s.fldOf (uReg (brimIdx b.val) 0x204 .cnfPeriod) 8 8 * 1000000000)) ∧
      (t.cal u).accepted = [rawOffset, gainTrim rawGain] ∧ (t.cal u).fails = 0 ∧ (t.sensor b.val).suspect = false ∧
      (s.glides u = false → (s.sensor b.val).due = [] →
        t.fldOf (snsReg b.val .snsTrim) 0 6 = toBits 6 rawOffset ∧ t.fldOf (snsReg b.val .snsTrim) 8 8 = toBits 8 (gainTrim rawGain)))) ∧
    (¬ ok → (s.cal u).fails < 2 → Completes (.sensorCal b rawOffset rawGain) s (fun t =>
      (t.cal u).fails = (s.cal u).fails + 1 ∧ (t.sensor b.val) = s.sensor b.val ∧
      t.reg (snsReg b.val .snsTrim) = s.reg (snsReg b.val .snsTrim) ∧ t.mem = s.mem)) ∧
    (¬ ok → (s.cal u).fails = 2 → Completes (.sensorCal b rawOffset rawGain) s (fun t => (t.sensor b.val).suspect = true))) ∧
  (∀ (s : State) (rt : List Nat), Early (.bowtrimCal rt) s .bowtrim) ∧
  (∀ (s : State) (rt : List Nat), s.due .bowtrim = true → Completes (.bowtrimCal rt) s (fun t => t.mem = s.mem ∧ (∀ p, t.part p = s.part p) ∧
    Turn t .bowtrim (nextTick s.bow.time 1000000000) ∧
    ∀ (d : DieIdx) (v : Nat), rt[d.val]? = some v → (s.die d.val).alive = true →
      let u := CalUnit.bowtrim d
      (tripOk (s.cal u).last v = true → (t.cal u).last = some v ∧ (t.cal u).fails = 0) ∧
      (tripOk (s.cal u).last v = false → (t.cal u).last = (s.cal u).last ∧ (t.cal u).fails = (s.cal u).fails + 1))) ∧
  (∀ (s : State) (u : CalUnit), Early (.glideStep u) s (.glide u)) ∧
  (∀ (s : State) (l : LinkIdx) (n : LaneIdx) (c g : Int),
    let u := CalUnit.ring l n
    s.glides u = true → (s.cal u).applied = [c] → (s.cal u).accepted = [g] → c ≠ g → s.due (.glide u) = true →
    Completes (.glideStep u) s (fun t => Only [.conf, .timer (.glide u)] s t ∧ Turn t (.glide u) (nextTick s.bow.time 10000) ∧ (t.cal u).accepted = [g] ∧
      (t.cal u).applied = [if c < g then min g (c + 5) else max g (c - 5)]))) ∧
  ((∀ (s : State) (p : Pll) (count : Nat), Early (.pllCountCheck p count) s (.pll p)) ∧
  (∀ (s : State) (p : Pll) (count : Nat), (s.die (s.pllDie p)).alive = true → s.due (.pll p) = true →
    let b := guardOf (s.pllDie p)
    let ok := pllNominal p ≤ count + 1 ∧ count ≤ pllNominal p + 1
    (s.inEmergency = true → Completes (.pllCountCheck p count) s (fun t => Deferred s t b)) ∧
    (s.inEmergency = false → ok → Completes (.pllCountCheck p count) s (fun t =>
      Only [.conf, .timer (.pll p), .reg (uReg (s.pllDie p) 0x206 .cnfDiePll)] s t ∧ Turn t (.pll p) (nextTick s.bow.time 1000000000) ∧ t.pllDown p = s.pllDown p ∧ Tbl.get t.conf.pllFails p 0 = 0)) ∧
    (s.inEmergency = false → ¬ ok → Completes (.pllCountCheck p count) s (fun t =>
      t.pllDown p = true ∧ t.fldOf (uReg (brimIdx b) 0x204 .cnfEvents) 0 1 = 1 ∧ t.mem = s.mem ∧
      (∀ d : BodyDie, p = .fabric d ∨ p = .mesh d → ∀ q, s.partOfDie d.val = some q → (s.part q).job = .running → (t.part q).job = .ended) ∧
      (∀ d : BodyDie, p = .fabric d → t.fldOf (uReg d.val 0x206 .cnfDiePll) 0 1 = 0) ∧
      (∀ l : LinkIdx, p = .linkPhy l → ∀ n < 4, (t.lane l.val n).trained = false)))) ∧
  (∀ (s : State) (p : Pll), s.pllDown p = true → s.inEmergency = true → Completes (.pllRecalibration p) s (fun t => Deferred s t (guardOf (s.pllDie p)))) ∧
  (∀ (s : State) (p : Pll), s.pllDown p = true → s.inEmergency = false → s.pllIdle p = true → Completes (.pllRecalibration p) s (fun t =>
    t.pllDown p = false ∧ (∀ q, q ≠ p → t.pllDown q = s.pllDown q) ∧ t.mem = s.mem ∧
    (∀ d : BodyDie, p = .fabric d → t.fldOf (uReg d.val 0x206 .cnfDiePll) 0 1 = 1) ∧
    (∀ d : BodyDie, p = .mesh d → t.fldOf (uReg d.val 0x206 .cnfDiePll) 1 1 = 1))))

/-- An access that meets a refresh window waits. Else a stream read answers the layer's slice of the next page set of its stream, positions beyond those the request had at the LAUNCH as zeros, a corrected line counted, and zeros with a count for a stream of no request; an adapter window answers the page of its resident adapter or zeros. An append stores the token's bytes at its position in its page, a draft's as tentative, and of no token at position 0 of the void page. A pool access inside the partition reads and writes; one outside answers poisoned zeros, changes nothing, ends the job and is recorded. A refresh window opens where one is planned in the step or owed, twice as often in a hot die, and else not. The patrol counts a corrected line and records an uncorrectable one by what the line holds: a page slice is poisoned and its page set leaves the index, a weight page's starts a repair of a running partition, index entries are cleared, a cached chunk is dropped, a page vector or record is not poisoned, and any other line is; in each case no byte changes. The refresh rows are read as log 47 says and the append area as logs 29 and 54 say. -/
def Obligations.CrownMemoryAnswers : Prop :=
  ((∀ (s : State) (c : CrownDie) (src : TileId) (offset len : Nat),
    let p := s.partOf src
    let x := s.part p
    let a := x.crownStart c.val + offset
    let n := s.sumL x c.val
    let w := offset / x.fr
    let key := c.val * 2 ^ 40 + w
    let q := Tbl.get x.cursors key (w % x.lanes)
    s.pllDown (.crownIf c) = false →
    -- an access that meets a refresh window waits
    (s.crownBusy c.val p a = true → ∀ ecc, Completes (.crownStreamRead c src offset len ecc) s (fun t => Only [.deferred] s t ∧
      t.deferred = s.deferred ++ [.crownStreamRead c src offset len ecc])) ∧
    (s.crownBusy c.val p a = false → x.fr ≠ 0 → n ≠ 0 → x.lanes ≠ 0 → offset < s.streamLen x c.val → offset % x.fr = 0 → len = x.fr →
      (Tbl.find x.readers key = none ∨ Tbl.find x.readers key = some src) → ∀ e, s.layerAt x c.val (w / x.lanes % n) = some e →
      -- a stream of no request: zeros, and the count of zero page sets
      (x.streamSlot (w / (n * x.lanes)) = none → ∀ ecc, Completes (.crownStreamRead c src offset len ecc) s (fun t =>
        Only [.part p, .tile src, .reg (uReg (crownIdx c.val) 0x200 .kvpCwZero)] s t ∧ Answered t src a (List.replicate len 0) false ∧
        (t.part p).cursors = Tbl.put x.cursors key (q + x.lanes) ∧
        t.fldOf (uReg (crownIdx c.val) 0x200 .kvpCwZero) 0 32 = min (2 ^ 32 - 1) (s.fldOf (uReg (crownIdx c.val) 0x200 .kvpCwZero) 0 32 + 1))) ∧
      -- the layer's slice of the request's next page set: the positions it had at the LAUNCH, then zeros; a corrected line is counted
      (∀ i pos vec page, x.streamSlot (w / (n * x.lanes)) = some i → Tbl.find x.atLaunch i = some (pos, vec) → 64 * q < pos →
        (vec[q]?).join = some page → Tbl.find x.hotSnap page = none → s.poison = [] →
        let live := min 64 (pos - 64 * q) * x.kvt
        ∀ ecc, ecc ≠ .bad → Completes (.crownStreamRead c src offset len ecc) s (fun t =>
          Only [.part p, .tile src, .die (crownIdx c.val)] s t ∧
          t.die (crownIdx c.val) = { s.die (crownIdx c.val) with
            eccFixed := (s.die (crownIdx c.val)).eccFixed + (if ecc = .corrected then 1 else 0) } ∧
          Answered t src a ((s.bytes (s.sliceAddr x e.1 e.2 page) x.fr).take live ++ List.replicate (x.fr - live) 0) false ∧
          (t.part p).cursors = Tbl.put x.cursors key (q + x.lanes))))) ∧
  (∀ (s : State) (c : CrownDie) (src : TileId) (addr : BitVec 35) (len i o : Nat),
    let p := s.partOf src
    let x := s.part p
    let a := mkAddr (crownIdx c.val) 0 addr.toNat
    let k := i - (x.wpages + 1)
    s.pllDown (.crownIf c) = false → s.crownBusy c.val p a = false → s.crownArea x c.val a len = some (.window i o) →
    x.fr ≠ 0 → o % x.fr = 0 → len = x.fr → ∀ e, s.layerAt x c.val (o / x.fr) = some e →
    (x.streamAdapter (k / x.adpPages) = none → Completes (.adapterWindowRead c src addr len) s (fun t => Only [.tile src] s t ∧
      Answered t src a (List.replicate len 0) false)) ∧
    (∀ ad page, x.streamAdapter (k / x.adpPages) = some ad → ad.pages[k % x.adpPages]? = some page →
      s.poisonedIn (s.sliceAddr x e.1 e.2 page) len = false →
      Completes (.adapterWindowRead c src addr len) s (fun t => Only [.tile src] s t ∧
        Answered t src a (s.bytes (s.sliceAddr x e.1 e.2 page) len) false)))) ∧
  ((∀ (s : State) (c : CrownDie) (src : TileId) (offset : Nat) (data : List Byte) (poison : Bool),
    let p := s.partOf src
    let x := s.part p
    let u := offset / x.kvt % 6400
    s.pllDown (.crownIf c) = false → s.crownBusy c.val p (x.crownStart c.val + s.appendOff x c.val + offset) = false →
    x.kvt ≠ 0 → offset % x.kvt = 0 → data.length = x.kvt →
    ∀ e, s.layerAt x c.val (offset / (6400 * x.kvt)) = some e →
    (∀ i pos draft page, x.appendToken u = some (i, pos, draft) → ((s.slot i).vector[pos / 64]?).join = some page →
      Tbl.find x.hotSnap page = none → Completes (.crownAppendWrite c src offset data poison) s (fun t =>
        BytesWritten s t (s.sliceAddr x e.1 e.2 page + pos % 64 * x.kvt) data poison (fun y => draft ≠ 0 ∧ y = .page p page) ∧
        (draft ≠ 0 → (t.page p page).tent = (s.page p page).tent ||| BitVec.ofNat 64 (2 ^ (pos % 64))))) ∧
    (x.appendToken u = none → Tbl.find x.hotSnap 0 = none → Completes (.crownAppendWrite c src offset data poison) s (fun t =>
      BytesWritten s t (s.sliceAddr x e.1 e.2 0) data poison (fun _ => False)))) ∧
  (∀ (s : State) (c : CrownDie) (src : TileId) (addr : BitVec 35),
    let x := s.part (s.partOf src)
    let a := mkAddr (crownIdx c.val) 0 addr.toNat
    s.pllDown (.crownIf c) = false → s.crownBusy c.val (s.partOf src) a = false →
    (∀ (b : List Byte) (poison : Bool) (len : Nat), s.crownArea x c.val a b.length = some .storage →
      s.areasAt c.val (a % 2 ^ 42) b.length = [] →
      Completes (.crownPoolAccess c src addr (some (b, poison)) len .clean) s (fun t => BytesWritten s t a b poison (fun _ => False))) ∧
    (∀ len : Nat, s.crownArea x c.val a len = some .storage →
      (s.poisonedIn a len = false → Completes (.crownPoolAccess c src addr none len .clean) s (fun t => Only [.tile src] s t ∧
        Answered t src a (s.dramBytes c.val a len) false ∧
        (s.areasAt c.val (a % 2 ^ 42) len = [] → Answered t src a (s.bytes a len) false))) ∧
      (s.poisonedIn a len = true → Completes (.crownPoolAccess c src addr none len .clean) s (fun t => t.mem = s.mem ∧
        ∃ b, Answered t src a b true))) ∧
    (∀ len : Nat, x.served c.val = [] ∨ a < x.crownStart c.val ∨ x.crownEnd c.val < a + len →
      Completes (.crownPoolAccess c src addr none len .clean) s (fun t => Answered t src a (List.replicate len 0) true ∧ t.mem = s.mem ∧
        (∀ q, s.partOfDie src.die.val = some q → (s.part q).job = .running → (t.part q).job = .ended) ∧
        Faults 0x1012 (s.partOfDie src.die.val) src.die.val 0x01 a s t))) ∧
  (∀ (s : State) (c : CrownDie) (granule : Fin 32),
    let r := Tbl.get s.refresh (c.val, granule.val) Refresh.reset
    let planned := ∃ p, s.granulePart c.val granule.val = some p ∧ s.plannedWindow (s.part p) c.val = true ∧ r.last + 350 ≤ s.bow.time
    let owed := r.last + (if s.crownHot c.val then 1950 else 3900) ≤ s.bow.time
    (planned ∨ owed → Completes (.crownRefreshWindow c granule) s (fun t => Only [.refresh (c.val, granule.val)] s t ∧
      Tbl.find t.refresh (c.val, granule.val) = some ⟨s.bow.time, s.bow.time + 350⟩)) ∧
    (¬ planned → ¬ owed → Completes (.crownRefreshWindow c granule) s (fun t => t = s)) ∧
    (∀ x : Part, x.inStep = true → (s.plannedWindow x c.val = true ↔
      (∃ j, 1 ≤ j ∧ 3900 * j ≤ x.cyc ∧ x.cyc < 3900 * j + 350) ∨
      (s.crownHot c.val = true ∧ ∃ j, 1 ≤ j ∧ 3900 * j + 1950 ≤ x.cyc ∧ x.cyc < 3900 * j + 2300))) ∧
    (∀ p a, granuleOf a = granule.val → s.bow.time < r.ends → s.crownBusy c.val p a = true)) ∧
  (∀ (s : State) (c : CrownDie) (line : BitVec 29), s.pllDown (.crownIf c) = false →
    let a := mkAddr (crownIdx c.val) 0 (64 * line.toNat)
    let bad (P : State → Prop) : Prop := ∀ corrected, Completes (.crownPatrolScrub c line corrected true) s P
    let same (t : State) : Prop := t.mem = s.mem
    Completes (.crownPatrolScrub c line false false) s (Only [] s) ∧
    Completes (.crownPatrolScrub c line true false) s (fun t => Only [.die (crownIdx c.val)] s t ∧
      t.die (crownIdx c.val) = { s.die (crownIdx c.val) with eccFixed := (s.die (crownIdx c.val)).eccFixed + 1 }) ∧
    (s.lineHolds c.val (64 * line.toNat) = .other → bad (fun t => same t ∧ t.poisonedIn a 64 = true ∧
      (∀ p i, t.page p i = s.page p i) ∧ Faults 0x2002 none (crownIdx c.val) 0x81 a s t)) ∧
    (∀ p i, s.lineHolds c.val (64 * line.toNat) = .pageSlice p i → bad (fun t => same t ∧ t.poisonedIn a 64 = true ∧
      Faults 0x2002 (some p) (crownIdx c.val) 0x81 a s t ∧
      ((s.page p i).state = .indexed ∨ (s.page p i).state = .priv → (s.page p i).ref ≠ 0 → (t.page p i).state = .priv ∧ (t.page p i).out = true))) ∧
    (∀ p i, s.lineHolds c.val (64 * line.toNat) = .weightSlice p i → bad (fun t => same t ∧ Faults 0x2002 (some p) (crownIdx c.val) 0x81 a s t ∧
      ((s.part p).job = .running → (t.part p).repair.isSome = true))) ∧
    (s.lineHolds c.val (64 * line.toNat) = .vectorOrRecord → bad (fun t => same t ∧ t.poisonedIn a 64 = false ∧
      Faults 0x2002 none (crownIdx c.val) 0x81 a s t)) ∧
    (∀ n, s.lineHolds c.val (64 * line.toNat) = .indexEntries n → bad (fun t => same t ∧ Faults 0x2002 none (crownIdx c.val) 0x81 a s t ∧
      ∀ i, i = n ∨ i = n + 1 → t.idx (i / 8, i % 8) = IdxEntry.reset)) ∧
    (∀ l, s.lineHolds c.val (64 * line.toNat) = .cached l → bad (fun t => same t ∧ Faults 0x2002 none (crownIdx c.val) 0x81 a s t ∧
      ∀ e ∈ l, e ∉ t.cache))))

/-- A push naming a SPARE or MAINT array joins the queue of the die; one naming a MAPPED or FENCED array is refused with an event and a firmware fault, one naming a FULLING or STAGED array with the event. A job at the head whose image is legal starts: its array is FULLING and holds the image's weights and scales, and nothing else changes in memory; an illegal image is answered with a result and the event. That the image stands in the cells from the start is log 34. -/
def Obligations.FullingJobsQueueAndStart : Prop :=
  (∀ (s : State) (port : Port) (d : BodyDie) (data : W32),
    let k := fulReg d.val .fulJobPush
    let tgt := s.regN (fulReg d.val .fulJobTgt)
    let a : ArrayId := ⟨⟨d, Fin.ofNat 512 (tgt % 512)⟩, Fin.ofNat 64 (tgt / 512 % 64)⟩
    let j : FulJob := ⟨a.tile.region, a.phys, tgt / 2 ^ 15 % 4, BitVec.ofNat 48 (s.pair (fulReg d.val .fulJobSrcLo) (fulReg d.val .fulJobSrcHi)),
      BitVec.ofNat 16 (data.toNat / 2 ^ 16), .pushed, 0, 0⟩
    Accepts s port k data.toNat → data.getLsbD 0 = true →
    ((s.arr a).st = .spare ∨ (s.arr a).st = .maint → (s.die d.val).queue.length < 64 →
      Completes (.fullingJobPush port d data) s (fun t =>
        Only [.die d.val, .reg (fulReg d.val .fulStatus), .reg (fulReg d.val .fulResult)] s t ∧
        t.die d.val = { s.die d.val with queue := (s.die d.val).queue ++ [j] } ∧
        t.fldOf (fulReg d.val .fulStatus) 16 7 = 63 - (s.die d.val).queue.length)) ∧
    ((s.arr a).st = .mapped ∨ (s.arr a).st = .fenced → Completes (.fullingJobPush port d data) s (fun t =>
      t.fldOf (fulReg d.val .fulEvents) 1 1 = 1 ∧ t.mem = s.mem ∧ (∀ b, t.arr b = s.arr b) ∧
      Faults 0x6001 none (addrDie k.addr) 0x87 k.addr s t)) ∧
    ((s.arr a).st = .fulling ∨ (s.arr a).st = .staged → Completes (.fullingJobPush port d data) s (fun t =>
      Only [.reg (fulReg d.val .fulEvents)] s t ∧ t.fldOf (fulReg d.val .fulEvents) 1 1 = 1))) ∧
  (∀ (s : State) (d : BodyDie) (j : FulJob),
    let a : ArrayId := ⟨⟨d, j.tile⟩, j.phys⟩
    let b := Memory.bulk s.mem j.src.toNat imageLen
    (s.die d.val).alive = true → (s.die d.val).queue = [j] → (s.die d.val).backlog = [] → j.why = .pushed → s.tileBusy a.tile = false →
    ((s.arr a).st = .spare ∨ (s.arr a).st = .maint → imageLegal j.fmt b = true → Completes (.fullingJobStart d) s (fun t =>
      (t.arr a).st = .fulling ∧ (∀ c, c ≠ a → t.arr c = s.arr c) ∧ (t.die d.val).queue = [] ∧
      (t.die d.val).full = (s.die d.val).full ++ [{ j with start := s.bow.time, paid := 0 }] ∧
      t.bytes (winAddr a) 65536 = b.take 65536 ∧ t.bytes (winAddr a + 0x12000) 2048 = sliceB b 65536 2048 ∧
      ∀ i, i < winAddr a ∨ winAddr a + 0x12800 ≤ i → Memory.read t.mem i = Memory.read s.mem i)) ∧
    ((s.arr a).st = .spare ∨ (s.arr a).st = .maint → imageLegal j.fmt b = false → Completes (.fullingJobStart d) s (fun t =>
      t.arr a = s.arr a ∧ t.mem = s.mem ∧ t.fldOf (fulReg d.val .fulEvents) 1 1 = 1 ∧
      (t.die d.val).queue = [] ∧ (t.die d.val).results = (s.die d.val).results ++ [⟨j.tag, 0, 3⟩])))

/-- A fulling draws its tickets phase by phase and goes no further while its tile lacks the next. With all of them drawn, one whose weak rows run out leaves its array STAGED and counts; one that stops leaves it FENCED with the fulling fault, and so does one that has taken 4 ms, complete or not. The results are read oldest first, and a port that does not reach them reads nothing. Rounds run until no row is weak, or more than 64 are, or eight have run, and cost a ticket per eight rows written (rounded as log 53 says) and twelve a probe pass. Probe pass p drives row r by the byte 0x55 v with v = (p + r) mod 4, from pass 16 on (p + 3 r) mod 4, plane a3 read in two's complement, and each value of v in 8 of the 32 passes. -/
def Obligations.FullingEndsStagedOrFenced : Prop :=
  ((∀ (s : State) (a : ArrayId) (j : FulJob),
    let d := a.tile.die.val
    let mine (k : FulJob) : Bool := k.tile == a.tile.region && k.phys == a.phys
    let late (t : State) : Prop := (t.arr a).st = .fenced ∧ (∀ k ∈ (t.die d).full, mine k = false) ∧ t.fldOf (fulReg d .fulEvents) 0 1 = 1 ∧
      (∃ f ∈ (t.die d).toCentral, f.code = 0x2007 ∧ f.unit = 0x40 + a.phys.val) ∧ ∃ n, ⟨j.tag, n, 2⟩ ∈ (t.die d).results
    (s.die d).full.find? mine = some j → j.why = .pushed → (s.arr a).st = .fulling →
    (s.bow.time ≤ j.start + 4000000 → ∀ (rounds : List FullRound),
      let r := fullRounds 8 512 rounds
      let left := (fullDraws 8 512 rounds).drop j.paid
      let q := paidDraws (s.tile a.tile).fullTickets left
      let drawn (t : State) : Prop := (t.tile a.tile).fullTickets = (s.tile a.tile).fullTickets - q.2
      (q.1 < left.length → Completes (.fullingComplete a rounds) s (fun t =>
        t.mem = s.mem ∧ (∀ c, t.arr c = s.arr c) ∧ drawn t ∧ (t.die d).results = (s.die d).results ∧
        (t.die d).full.find? mine = some { j with paid := j.paid + q.1 })) ∧
      (q.1 = left.length → r.2.2 = [] → Completes (.fullingComplete a rounds) s (fun t =>
        t.arr a = { s.arr a with st := .staged } ∧ (∀ c, c ≠ a → t.arr c = s.arr c) ∧ t.mem = s.mem ∧ drawn t ∧
        (t.die d).full = (s.die d).full.filter (fun k => !mine k) ∧ (t.die d).results = (s.die d).results ++ [⟨j.tag, r.1, 1⟩] ∧
        t.fldOf (fulReg d .fulStaged) 0 32 = min (2 ^ 32 - 1) (s.fldOf (fulReg d .fulStaged) 0 32 + 1))) ∧
      (q.1 = left.length → r.2.2 ≠ [] → Completes (.fullingComplete a rounds) s (fun t =>
        (t.arr a).st = .fenced ∧ drawn t ∧ ⟨j.tag, r.1, 2⟩ ∈ (t.die d).results ∧ t.fldOf (fulReg d .fulEvents) 0 1 = 1 ∧
        ∃ f ∈ (t.die d).toCentral, f.code = 0x2007 ∧ f.unit = 0x40 + a.phys.val ∧ f.detail = r.1 + r.2.2.length * 2 ^ 8))) ∧
    (j.start + 4000000 < s.bow.time → ∀ rounds, Completes (.fullingComplete a rounds) s late) ∧
    (j.start + 4000000 ≤ s.bow.time → Completes (.fullingTimeout a) s late)) ∧
  (∀ (s : State) (port : Port) (d : BodyDie), (s.shut port (fulReg d.val .fulResult).addr = true →
    Completes (.fulResultRead port d) s (fun t => t = s)) ∧
    (s.shut port (fulReg d.val .fulResult).addr = false → Completes (.fulResultRead port d) s (fun t =>
      Only [.readOut port, .die d.val, .reg (fulReg d.val .fulStatus), .reg (fulReg d.val .fulResult)] s t ∧
      Tbl.find t.readOut port = some (s.reg (fulReg d.val .fulResult)) ∧
      t.die d.val = { s.die d.val with results := (s.die d.val).results.drop 1 } ∧
      ((s.die d.val).results.length ≤ 1 → t.reg (fulReg d.val .fulResult) = 0))))) ∧
  ((∀ r rs, weakRows r = [] → fullRounds 8 512 (r :: rs) = (1, 448, [])) ∧
  (∀ n w rs, 0 < n → 1 ≤ (fullRounds n w rs).1 ∧ (fullRounds n w rs).1 ≤ n) ∧
  (∀ r rs, 64 < (weakRows r).length → fullRounds 8 512 (r :: rs) = (1, 448, weakRows r)) ∧
  (∀ r rs, weakRows r ≠ [] → (weakRows r).length ≤ 64 →
    (fullRounds 8 512 (r :: rs)).1 = (fullRounds 7 (weakRows r).length rs).1 + 1 ∧
    (fullRounds 8 512 (r :: rs)).2.2 = (fullRounds 7 (weakRows r).length rs).2.2) ∧
  (∀ rounds, (fullDraws 8 512 rounds).foldl (· + ·) 0 = (fullRounds 8 512 rounds).2.1) ∧
  (∀ n l, (paidDraws n l).2 ≤ n ∧ (paidDraws n l).1 ≤ l.length ∧ (paidDraws n l).2 = (l.take (paidDraws n l).1).foldl (· + ·) 0) ∧
  (∀ p r : Nat, let v := if p ≤ 15 then (p + r) % 4 else (p + 3 * r) % 4
    probeV p r = v ∧ (probeByte p r).toNat = 0x55 * v ∧ (∀ a, a < 3 → probeLevel p r a = v) ∧
    probeLevel p r 3 = (if v = 2 then (-2 : Int) else if v = 3 then -1 else v)) ∧
  (∀ r v, v < 4 → ((List.range 32).filter (fun p => probeV p r == v)).length = 8))

/-- A commit is armed for a step at least two ahead, or for step 1 before the first launch, and else refused; it is disarmed where no load of firmware holds it. A STAGED array is released to SPARE, a STAGED or SPARE one enters MAINT, a MAPPED or FENCED one is refused. The sweep counts and records a corrected cell of a mapped array and puts the array at the head of the calibration queue; an uncorrectable row, or scale parity of one of the row's four scales, fences it. What an interval brings does nothing before its next turn, and once it has come the next turn is set (log 61). The remap that a corrected cell starts where a SPARE is free is another rule's (log 34). -/
def Obligations.CommitsMaintenanceAndSweep : Prop :=
  (∀ (s : State) (port : Port) (d : BodyDie) (data : W32),
    let k := fulReg d.val .fulCommitCtrl
    let st := s.regN (fulReg d.val .fulCommitStep)
    Accepts s port k data.toNat →
    (data.getLsbD 0 = true → data.getLsbD 1 = false → ∀ p, s.partOfDie d.val = some p →
      let n := (st + 2 ^ 32 - (s.part p).stepNo.toNat) % 2 ^ 32
      ((2 ≤ n ∧ n < 2 ^ 31) ∨ ((s.part p).launched = false ∧ st = 1) → Completes (.fulCommitArm port d data) s (fun t => Only [.reg k] s t ∧
        t.fldOf k 0 1 = 1)) ∧
      (¬ ((2 ≤ n ∧ n < 2 ^ 31) ∨ ((s.part p).launched = false ∧ st = 1)) → Completes (.fulCommitArm port d data) s (fun t =>
        t.reg k = s.reg k ∧ t.fldOf (fulReg d.val .fulEvents) 2 1 = 1 ∧ Faults 0x6001 none (addrDie k.addr) 0x87 k.addr s t))) ∧
    (data.getLsbD 0 = false → data.getLsbD 1 = true → (∀ p, s.partOfDie d.val = some p → (s.part p).load = none) → Completes (.fulCommitDisarm port d data) s (fun t => Only [.reg k] s t ∧
      t.fldOf k 0 1 = 0))) ∧
  (∀ (s : State) (a : ArrayId),
    let refused (t : State) : Prop :=
      let k := (tReg a.tile .arrState a.phys.val).addr
      Only (faultPlaces (addrDie k)) s t ∧ Faults 0x6001 none (addrDie k) 0x87 k s t
    ((s.arr a).st = .staged → Completes (.arrayRelease a) s (fun t => Only [.arr a] s t ∧
      t.arr a = { s.arr a with st := .spare, remapOf := none })) ∧
    ((s.arr a).st = .staged ∨ (s.arr a).st = .spare → Completes (.maintenanceStart a) s (fun t => Only [.arr a] s t ∧
      t.arr a = { s.arr a with st := .maint, remapOf := none })) ∧
    ((s.arr a).st = .mapped ∨ (s.arr a).st = .fenced → Completes (.maintenanceStart a) s refused) ∧
    (∀ l, Early (.pounceVisit l) s .pounce) ∧
    (s.due .pounce = true →
     let k := uReg a.tile.die.val 0x205 .fltPounce
     let row := s.bow.time / 64000 % 512
     let next (t : State) : Prop := Turn t .pounce (nextTick s.bow.time 64000)
     ((s.arr a).st ≠ .mapped → (s.arr a).st ≠ .staged → ∀ f, Completes (.pounceVisit [(a, f)]) s (fun t => Only [.timer .pounce] s t ∧ next t)) ∧
     (∀ b, (s.arr a).st = .mapped → s.sparesOf a.tile = [] → Completes (.pounceVisit [(a, .single b)]) s (fun t =>
        Only (.timer .pounce :: .reg k :: faultPlaces a.tile.die.val) s t ∧ next t ∧ t.fldOf k 0 16 = min 65535 (s.fldOf k 0 16 + 1) ∧
        (t.die a.tile.die.val).calQueue.head? = some (a.tile.region.val, a.phys.val) ∧
        Faults 0x2003 (s.partOfDie a.tile.die.val) a.tile.die.val (0x40 + a.phys.val) (a.phys.val + row * 2 ^ 8) s t)) ∧
     ((s.arr a).st = .mapped ∨ (s.arr a).st = .staged →
        Completes (.pounceVisit [(a, .uncorrectable)]) s (fun t =>
          (t.arr a).st = .fenced ∧ t.fldOf k 16 8 = min 255 (s.fldOf k 16 8 + 1) ∧
          ∃ f ∈ (t.die a.tile.die.val).toCentral, f.code = 0x2004 ∧ f.detail = a.phys.val + row * 2 ^ 8) ∧
        ∀ i : Fin 4, Completes (.pounceVisit [(a, .scaleParity i)]) s (fun t =>
          (t.arr a).st = .fenced ∧ t.fldOf k 24 8 = min 255 (s.fldOf k 24 8 + 1) ∧
          ∃ f ∈ (t.die a.tile.die.val).toCentral, f.code = 0x2005 ∧ f.detail = 4 * row + i.val))))

/-- A poison report of the running step for a slot it carries marks the request and nothing else. No repair begins while another goes on, without the serving assist, of a slice that holds no uncorrectable line, or as the move of a tile that need not move. A repair of a fenced array queues the fulling of its chunk into a SPARE; a repair beyond its limit ends the job. The next record of a die enters the central log after the last, the oldest is replaced when 4,096 stand, and the loss is counted. A fence during a flip puts the chunk on another SPARE, and a fenced array that the new generation keeps unchanged is repaired into a SPARE. -/
def Obligations.PoisonRepairAndLog : Prop :=
  (∀ (s : State) (p : PartIdx) (slot : SlotIdx), (s.part p.val).job = .running → slot.val ≠ (s.part p.val).voidSlot →
    (s.part p.val).carriesSlot slot.val = true → Completes (.poisonReportArrive p slot (s.part p.val).stepNo) s (fun t =>
      (t.slot slot.val).poisoned = true ∧ t.mem = s.mem ∧ (∀ i, i ≠ slot.val → t.slot i = s.slot i) ∧ ∀ k, t.reg k = s.reg k)) ∧
  (∀ (s : State) (p : PartIdx), let idle (k : RepairKind) : Prop := Completes (.repairBegin p k) s (fun t => t = s)
    ((s.part p.val).repair = none ∨ s.servingUp = false → ∀ k, idle k) ∧
    (∀ page d j, s.poisonedIn (s.sliceAddr (s.part p.val) d.val j.val (page + 1)) (s.part p.val).fr = false → idle (.slice page d j)) ∧
    (∀ lt, (s.tile (tileAt ((s.part p.val).placedAt lt))).fenced = false → s.sparesOf (tileAt ((s.part p.val).placedAt lt)) ≠ [] → idle (.tileMove lt))) ∧
  (∀ (s : State) (p : PartIdx) (t0 : Nat), (s.part p.val).repair = some t0 →
    (∀ (old : ArrayId) (spare : Fin 64) (b : List Byte) (img : W64 × Nat × Chunk), (s.arr old).st = .fenced →
      s.partOfDie old.tile.die.val = some p.val → spare.val ∈ s.sparesOf old.tile → s.imageFor old = some img →
      s.object img.1 img.2.1 = some b → s.tileBusy old.tile = true → s.servingUp = true →
      (s.die old.tile.die.val).queue.length < 64 → (s.die old.tile.die.val).backlog = [] →
      Completes (.repairBegin p (.array old spare)) s (fun t =>
        Only [.die old.tile.die.val, .fresh, .reg (fulReg old.tile.die.val .fulStatus), .reg (fulReg old.tile.die.val .fulResult)] s t ∧
        ∃ tag, (t.die old.tile.die.val).queue = (s.die old.tile.die.val).queue ++
          [⟨old.tile.region, spare, img.2.2.fmt, 0, tag, .repair p.val old.phys.val, 0, 0⟩])) ∧
    ((s.part p.val).job = .running → t0 + 1000000 * s.fldOf (s.pReg 0x20F .fltRepairlim) 0 16 ≤ s.bow.time →
      Completes (.repairTimeout p) s (fun t => (t.part p.val).job = .ended ∧ (t.part p.val).repair = none ∧
        Faults 0x101C (some p.val) s.prinDie 0x87 (s.part p.val).repairCause.toNat s t))) ∧
  (∀ (s : State) (d : DieIdx) (r : FaultRec) (l : List FaultRec), (s.die d.val).toCentral = r :: l → Completes (.faultLogAppend d) s (fun t =>
    let j := s.centralN % 4096
    Only [.die d.val, .central, .reg (s.pReg 0x20F .fltHead), .reg (s.pReg 0x20F .fltLost)] s t ∧
    Tbl.find t.central j = some r ∧ (∀ i, i ≠ j → Tbl.find t.central i = Tbl.find s.central i) ∧ t.centralN = s.centralN + 1 ∧
    t.die d.val = { s.die d.val with toCentral := l } ∧ t.fldOf (s.pReg 0x20F .fltHead) 0 12 = (j + 1) % 4096 ∧
    (s.centralN < 4096 → t.reg (s.pReg 0x20F .fltLost) = s.reg (s.pReg 0x20F .fltLost)) ∧
    (4096 ≤ s.centralN → t.fldOf (s.pReg 0x20F .fltLost) 0 32 = min (2 ^ 32 - 1) (s.fldOf (s.pReg 0x20F .fltLost) 0 32 + 1)))) ∧
  (∀ (s : State) (p : PartIdx) (a : ArrayId) (l : BoltLoad) (spare : Nat) (rest : List Nat),
    s.servingUp = true → (s.part p.val).flipStep.isSome = true → (s.part p.val).load = some l → (s.part p.val).launched = false → (s.arr a).st = .fenced →
    s.sparesOf a.tile = spare :: rest →
    (∀ (b : Bolt) (c : Chunk) (i : Nat), l.arrays.find? (fun e => e.2 == a) = some (i, a) → l.bolt = some b → b.chunks[i]? = some c →
      Completes (.flipFenceResponse p a) s (fun t => (t.part p.val).flipStep = none ∧ t.arr a = s.arr a ∧
        ∃ l', (t.part p.val).load = some l' ∧ Tbl.find l'.arrays i = some (arrOf a.tile spare) ∧ l'.done = l.done.filter (· != i))) ∧
    (∀ img, l.arrays.find? (fun e => e.2 == a) = none → s.bankRefs a.tile (s.part p.val).curBank a.phys.val = true →
      s.partOfDie a.tile.die.val = some p.val → s.imageFor a = some img → s.tileBusy a.tile = true →
      (s.die a.tile.die.val).queue.length < 64 → (s.die a.tile.die.val).backlog = [] →
      (∀ j ∈ (s.die a.tile.die.val).queue ++ (s.die a.tile.die.val).full, j.tile ≠ a.tile.region ∨ j.why ≠ .repair p.val a.phys.val) →
      Completes (.flipFenceResponse p a) s (fun t => (t.part p.val).flipStep = none ∧ (t.part p.val).load = some l ∧ t.arr a = s.arr a ∧
        ∃ tag, (t.die a.tile.die.val).queue = (s.die a.tile.die.val).queue ++
          [⟨a.tile.region, Fin.ofNat 64 spare, img.2.2.fmt, 0, tag, .repair p.val a.phys.val, 0, 0⟩])))

/-- A form load that is not accepted is refused with a firmware fault (log 33). An accepted one gives up the form it replaces; an image that fails a check leaves no form and a fault of the failing check; one that passes is installed with its pages, tables and void page, and its partition LOADED. A loaded partition whose bolt is ready starts its job. An operator's end stops the job, its tiles and its requests, each FAILED with reason 0x38, and changes no memory. -/
def Obligations.FormsLoadAndJobsRun : Prop :=
  (∀ (s : State) (p : PartIdx) (image : List Byte),
    (s.loadAccepted p.val image = false → Completes (.formLoad p image) s (fun t =>
      let a := mkAddr s.prinDie 0 0
      Only (faultPlaces (addrDie a)) s t ∧ Faults 0x6001 none (addrDie a) 0x87 a s t)) ∧
    (s.loadAccepted p.val image = true →
      let u := (s.healPlls p.val).dropForm p.val
      Completes (.formLoad p image) s (fun t => (∀ q, q ≠ p.val → t.part q = s.part q) ∧
        match u.formChecks p.val image with
        | .inl e => (t.part p.val).form = none ∧ (t.part p.val).job = .noForm ∧ (t.part p.val).placed = [] ∧
          ∃ r ∈ (t.die s.prinDie).toCentral, r.code = BitVec.ofNat 16 e.code ∧ r.part = some p.val
        | .inr v => (t.part p.val).job = .loaded ∧ (t.part p.val).form.isSome = true ∧ (t.part p.val).placed = v.2 ∧
          (t.part p.val).pageCount = u.pagesFor ((u.part p.val).withForm v.1 v.2) v.1 ∧
          (t.part p.val).launched = false ∧ (t.part p.val).chain = [] ∧ (t.page p.val 0).state = .void ∧ t.boot.anyForm = true))) ∧
  (∀ (s : State) (p : PartIdx) (l : BoltLoad), (s.part p.val).load = some l → (s.part p.val).job = .loaded →
    (s.part p.val).flipStep = some 1 → s.loadReady l = true → Completes (.jobStart p) s (fun t =>
      (t.part p.val).job = .running ∧ (t.part p.val).readyDies = (s.part p.val).dies ∧ (t.part p.val).launched = (s.part p.val).launched ∧
      t.mem = s.mem ∧ ∀ q, q ≠ p.val → t.part q = s.part q)) ∧
  (∀ (s : State) (p : PartIdx), (s.part p.val).job = .running → (∀ i, (s.slot i).twin = none ∧ (s.slot i).twinOf = none) →
    Completes (.operatorEndsJob p) s (fun t => (t.part p.val).job = .ended ∧ (t.part p.val).running = none ∧ (t.part p.val).next = none ∧
      t.mem = s.mem ∧ (∀ i ∈ s.heldSlots p.val, (s.slot i).part = p.val → (s.slot i).state.live = true →
        (t.slot i).state = .failed ∧ (t.slot i).reason = 0x38) ∧
      ∀ u ∈ (s.part p.val).tiles, s.fldOf (tReg u .tilStatus) 0 3 ≠ 5 → t.fldOf (tReg u .tilStatus) 0 3 = 4))

/-- A bolt load without the serving assist does nothing. Else one of a partition with a source fetches the manifest, unless that is on its way. A piece of an outstanding chunk is kept with the others, and one of no outstanding chunk is dropped. A chunk whose next piece stays away 200 microseconds has its missing ranges asked for again. An unloaded adapter is neither resident nor pending. The length asked of a manifest is free and the rest of fetching is log 32. -/
def Obligations.BoltsAreFetched : Prop :=
  (∀ (s : State) (p : PartIdx) (boltId : W64), s.servingUp = false → Completes (.boltLoadRequest p boltId) s (fun t => t = s)) ∧
  (∀ (s : State) (p : PartIdx) (boltId : W64) (src : Nat), s.servingUp = true → (s.part p.val).weightSrc = some src →
    (∀ f ∈ s.fetches, ¬ (f.part = p.val ∧ f.boltId = boltId ∧ f.chunk = manifestChunk)) →
    Completes (.boltLoadRequest p boltId) s (fun t =>
      Only [.fetches, .outputs, .host, .fresh] s t ∧
      ∃ n, t.fetches = s.fetches ++ [⟨src, p.val, boltId, manifestChunk, n, true, [], s.bow.time, 0⟩])) ∧
  (∀ (s : State) (port : BrimDie) (boltId : W64) (chunk : W32) (offset total : Nat) (data : List Byte), s.portOn port.val = true →
    let found := s.fetchFor (fun x => x.kind == 1 && x.via == port.val) boltId chunk.toNat
    (found = none → Completes (.boltData port boltId chunk offset total data) s (Only [] s)) ∧
    (∀ f, found = some f → pieceGaps total 0 (insPiece (offset, data) f.pieces) ≠ [] →
      Completes (.boltData port boltId chunk offset total data) s (fun t => Only [.fetches] s t ∧
        { f with pieces := insPiece (offset, data) f.pieces, len := total, lastAt := s.bow.time } ∈ t.fetches ∧
        t.fetches.length = s.fetches.length))) ∧
  (∀ (s : State) (p : PartIdx) (chunk : W32) (f : Fetch),
    s.fetches.find? (fun f => f.part == p.val && f.chunk == chunk.toNat && !f.pieces.isEmpty) = some f → f.lastAt + 200000 ≤ s.bow.time →
    Completes (.boltPieceTimeout p chunk) s (fun t => Only [.fetches, .outputs, .host] s t ∧
      t.fetches = s.fetches.map (fun x => if x = f then { f with lastAt := s.bow.time } else x) ∧
      (∀ src, Tbl.find s.start.sources f.src = some src → src.kind ≠ 2 →
        t.outputs = s.outputs ++ (pieceGaps f.len 0 f.pieces).map (fun g => .boltFetch src.via f.src (.boltReq f.boltId f.chunk g.1 g.2))))) ∧
  (∀ (s : State) (p : PartIdx) (adapter : Fin 1024), Completes (.adapterUnload p adapter) s (fun t => Only [.part p.val] s t ∧
    (t.part p.val).adapters.length = (s.part p.val).adapters.length ∧
    ∀ a ∈ (t.part p.val).adapters, a.id = adapter.val → a.state ≠ .resident ∧ a.state ≠ .pending))

/-- A SUBMIT of one fragment that fits its channel is answered with DONE and counted where a check refuses it, and no slot, page or byte changes; else it takes the first free slot of its partition as QUEUED with every field of its body, its generation stamp, its admission number and its earmarked pages, and changes no other slot. The order of several failing checks and requests with a twin are log 18. -/
def Obligations.SubmitsAreRefusedOrAdmitted : Prop :=
  ∀ (s : State) (port : BrimDie) (src : PeerAddr) (hdr : OspHdr) (b : SubmitBody) (toks : List W32),
    let c := hdr.channel.toNat
    let p := b.partition.toNat % 16
    OspFits s port src hdr → (s.chan port.val c).pend = none → promptTokens b ≤ 2048 → toks.length = promptTokens b →
    (∀ code, s.refusal b toks b.tenant.toNat = some code → code < 256 → Completes (.submit port src hdr ⟨0, some b, toks⟩) s (fun t =>
      t.fldOf (s.pReg 0x205 .reqRefuse p) 0 8 = code ∧
      t.fldOf (s.pReg 0x205 .reqRefuse p) 16 16 = min 65535 (s.fldOf (s.pReg 0x205 .reqRefuse p) 16 16 + 1) ∧
      (∀ i, t.slot i = s.slot i) ∧ (∀ q i, t.page q i = s.page q i) ∧ t.mem = s.mem ∧
      ∃ q, t.outputs = s.outputs ++ [.osp port.val c q src (.done hdr.seq (BitVec.ofNat 8 code) false 0 0)])) ∧
    (∀ i rest, s.refusal b toks b.tenant.toNat = none → s.freeSlots p = i :: rest → b.ctrl.toNat / 16 % 4 ≠ 2 →
      Completes (.submit port src hdr ⟨0, some b, toks⟩) s (fun t =>
        let x := t.slot i
        (∀ k, k ≠ i → t.slot k = s.slot k) ∧ t.mem = s.mem ∧ t.outputs = s.outputs ∧
        x.state = .queued ∧ x.part = p ∧ x.port = port.val ∧ x.channel = c ∧ x.subSeq = hdr.seq ∧ x.host = false ∧
        x.priority = b.ctrl.toNat % 8 ∧ x.promptLen = promptTokens b ∧ x.maxNew = newTokens b ∧ x.seed = b.seed ∧ x.temp = b.temp ∧
        x.ctx = toks.map (·.toNat) ∧ x.genLen = 0 ∧ x.pos = 0 ∧ x.eligible = false ∧ x.wgen = (s.part p).stampGen ∧
        x.admitTime = s.bow.time ∧ x.admitSeq = (s.admitSeq + 1) % 2 ^ 64 % 2 ^ 32 ∧ t.admitSeq = (s.admitSeq + 1) % 2 ^ 64 ∧
        ∀ l, s.earmarkPick p (pagesWanted b) = some l → ∀ k ∈ l, (t.page p k).earmark = some i))

/-- A lookup that needs no fetch, with the key of the epoch at that time, makes the request eligible with the pages matched and counts the hit tokens. A cold block that lands is indexed in its page and leaves its cold place. The page promoted next, and no other, gets its hot copy; it is full, has a hot referrer and no copy yet. The page copied cold next, and none while free pages suffice, keeps its record and bytes there, its index entry names the cold place, and the page is free. Which free page is taken is log 12, that promotions land in their order log 59, and the bytes on their way to a cold store log 16. -/
def Obligations.PagesOfRequests : Prop :=
  (∀ (s : State) (slot : SlotIdx),
    let i := slot.val
    let x := s.slot i
    (x.state = .queued ∨ (x.state = .parked ∧ x.prev = .queued)) → x.eligible = false → x.vector = [] →
    let key := prefixKey (s.fldOf (s.pReg 0x208 .pfxEpoch x.part) 0 16) x.adapter x.tenant x.part
    let r := State.probe i ((x.promptLen - 1) / 64) 0 (s.setSlot i { x with key := key })
    (r.2.slot i).fetching = [] → Completes (.prefixLookupComplete slot) s (fun t =>
      (t.slot i).eligible = true ∧ (t.slot i).vector = (r.2.slot i).vector ∧ (t.slot i).pos = 64 * (r.2.slot i).vector.length ∧
      (t.slot i).matched = 64 * (r.2.slot i).vector.length ∧
      t.pair (s.pReg 0x208 .pfxHitLo) (s.pReg 0x208 .pfxHitHi) =
        (r.2.pair (s.pReg 0x208 .pfxHitLo) (s.pReg 0x208 .pfxHitHi) + r.1) % 2 ^ 64)) ∧
  (∀ (s : State) (slot : SlotIdx) (block page : Nat) (e : (Nat × Nat) × IdxEntry),
    let i := slot.val
    let x := s.slot i
    block ∈ x.fetching → x.fetching ≠ [block] → (x.vector[block]?).join = some page →
    s.entryOfHash (blockHash x.key x.ctx block) x.part x.tenant = some e → e.2.cold = true → Completes (.coldFetchComplete slot block) s (fun t =>
      Only [.slot i, .coldUsed, .idx e.1, .page x.part page] s t ∧ (t.slot i).fetching = x.fetching.erase block ∧
      (t.idx e.1).cold = false ∧ (t.idx e.1).page = page ∧ (t.page x.part page).state = .indexed ∧
      Tbl.find t.coldUsed (x.part, e.2.coldSlot) = none)) ∧
  (∀ (s : State) (p : PartIdx) (page hot : Nat),
    (∀ q, s.promoteNext p.val = some q → 0 < s.hotRef p.val q ∧ ∃ y, ((p.val, q), y) ∈ s.pages ∧ y.fill = 64 ∧ y.hotIdx = none) ∧
    (s.promoteNext p.val = some page → hot < (s.part p.val).hotCap → hot ∉ s.hotUsed p.val → hot ∉ (s.part p.val).hotFreed →
      s.pagePoisoned p.val page = false → Completes (.hotPromotionComplete p page hot) s (fun t =>
        t.page p.val page = { s.page p.val page with hotIdx := some hot } ∧ (∀ i, t.slot i = s.slot i) ∧ ∀ k, t.reg k = s.reg k)) ∧
    (s.promoteNext p.val ≠ some page → Completes (.hotPromotionComplete p page hot) s (fun t => t = s))) ∧
  (∀ (s : State) (p : PartIdx) (page coldSlot : Nat) (e : (Nat × Nat) × IdxEntry) (c : Nat × Nat),
    s.entryOfPage p.val page = some e → Tbl.find s.start.cold p.val = some c → coldSlot < c.2 → Tbl.find s.coldUsed (p.val, coldSlot) = none →
    (s.coldNext p.val = some page → s.pagePoisoned p.val page = false → Completes (.coldCopyComplete p page coldSlot) s (fun t =>
      Tbl.find t.coldUsed (p.val, coldSlot) = some ⟨s.page p.val page, s.readPage p.val page⟩ ∧ (t.page p.val page).state = .free ∧
      t.idx e.1 = { e.2 with cold := true, coldSlot := coldSlot, page := 0 } ∧ t.mem = s.mem ∧ (∀ i, t.slot i = s.slot i) ∧
      ∀ q i, (q, i) ≠ (p.val, page) → t.page q i = s.page q i)) ∧
    (s.fldOf (s.pReg 0x207 .kvpLowater) 0 24 ≤ (s.freePages p.val).length → Completes (.coldCopyComplete p page coldSlot) s (fun t => t = s)))

/-- A protocol header takes 16 bytes, an index entry 32, a page-set record 320 and an entry of a page vector 4, each field least significant byte first at the offset its table gives; a header, an entry and a record whose fields are in range are read back from their bytes. The 32 bytes of way w of set s of the prefix index stand on CW0 at PFX_BASE + 256 s + 32 w. A flit takes 256 bytes with the CRC of the others last, a transaction header 16 and an identity record 32, each read back from its bytes; a packet is its header and data in flits of 240 bytes, the first marked so. That a record stands in memory through its fields is log 8. -/
def Obligations.RecordsStandInTheirBytes : Prop :=
  (∀ h : OspHdr,
    let b := ospHdrBytes h
    b.length = 16 ∧ ospHdrOf b = h ∧ leAt b 0 2 = h.magic.toNat ∧ leAt b 2 1 = h.version.toNat ∧ leAt b 3 1 = h.type.toNat ∧
    leAt b 4 2 = h.channel.toNat ∧ leAt b 8 4 = h.seq.toNat ∧ leAt b 12 4 = h.ack.toNat) ∧
  (∀ e : IdxEntry, e.page < 2 ^ 28 → e.coldSlot < 2 ^ 32 → e.lastUse < 2 ^ 64 → e.hits < 2 ^ 16 → e.part < 16 → e.tenant < 2 ^ 16 →
    e.bytes.length = 32 ∧ IdxEntry.ofBytes e.bytes = e ∧ leAt e.bytes 0 8 = e.hash.toNat ∧ leAt e.bytes 16 8 = e.lastUse ∧
    leAt e.bytes 8 4 = e.page + (if e.cold then 2 ^ 29 else 0) + (if e.valid then 2 ^ 31 else 0)) ∧
  (∀ (x : PageSet) (hotRef : Nat), x.ref < 2 ^ 24 → x.fill < 256 → x.owner < 2 ^ 12 → (∀ i, x.hotIdx = some i → i < 0xFFFF) →
    (∀ i, x.earmark = some i → i < 2 ^ 12) → x.tokens.length ≤ 64 → (∀ t ∈ x.tokens, t < 2 ^ 17) →
    let b := x.bytes hotRef
    b.length = 320 ∧ PageSet.ofBytes b = x ∧ leAt b 0 4 = x.ref ∧ leAt b 5 1 = x.fill ∧ leAt b 6 2 = min hotRef 65535 ∧
    leAt b 8 8 = x.tent.toNat ∧ leAt b 16 8 = x.hash.toNat ∧ leAt b 24 2 = x.owner ∧
    ∀ r t, x.tokens[r]? = some t → leAt b (64 + 4 * r) 4 = t + 2 ^ 31) ∧
  (∀ i < 2 ^ 28, leNat (vecBytes (some i)) = i + 2 ^ 31 ∧ (vecBytes (some i)).length = 4) ∧
  (∀ (s : State) (set way : Nat), s.start.pfxBase < 2 ^ 15 → set < 2 ^ 17 → way < 8 →
    s.dramBytes 0 (mkAddr (crownIdx 0) 0 (s.start.pfxBase * 2 ^ 20 + set * 256 + way * 32)) 32 = (s.idx (set, way)).bytes) ∧
  (∀ (f : Flit) (p : List Byte), f.bad = false → f.fecBad = false → f.uncorr = 0 → f.fixed = 0 → p.length = f.valid.toNat → p.length ≤ 240 →
    let b := flitBytes f p
    b.length = 256 ∧ flitOf b = (f, p) ∧ leAt b 0 2 = f.seq.toNat ∧ leAt b 2 2 = f.ack.toNat ∧ leAt b 8 1 = f.symbol.toNat ∧
    leAt b 9 3 = f.arg.toNat ∧ leAt b 252 4 = crc32 (b.take 252)) ∧
  (∀ h : LinkHdr, h.channel < 64 → h.kind < 256 → h.offset < 2 ^ 32 → h.len < 2 ^ 32 → h.packets < 2 ^ 16 → h.object = none →
    (hdrBytes h).length = 16 ∧ linkHdrOf (hdrBytes h) = h ∧ leAt (hdrBytes h) 4 4 = h.offset ∧ leAt (hdrBytes h) 12 2 = h.xfer.toNat) ∧
  (∀ i : Identity, i.link < 256 → i.rackPos < 256 →
    (identityBytes i).length = 32 ∧ identityOf (identityBytes i) = i ∧ leAt (identityBytes i) 10 4 = i.rackId.toNat) ∧
  (∀ (vc : Nat) (h : LinkHdr) (data : List Byte) (bad : List Nat), data.length ≤ 4064 →
    (txFlits vc h data bad).flatMap (·.payload) = hdrBytes h ++ data ∧ (txFlits vc h data bad).length = (data.length + 16 + 239) / 240 ∧
    ∀ i f, (txFlits vc h data bad)[i]? = some f → f.payload.length ≤ 240 ∧ f.first = (i == 0) ∧ f.poison = bad.contains i)

/-- One microsecond after the launch, or when no job runs, the outgoing messages are sent and ended slots reset. A CANCEL of an unknown request answers DONE 0x41, of a done one DONE 0x40, and of a live one in a busy partition is noted for the next boundary; the first one of a request stands in CANCEL_TIME. REQ_KILL likewise, and of a parked one frees it at once. Cancellation of an idle partition's requests is log 17. -/
def Obligations.MessagesAndCancellation : Prop :=
  (∀ (s : State) (p : PartIdx), (s.part p.val).job ≠ .running ∨ (s.part p.val).launchTime + 1000 ≤ s.bow.time →
    Completes (.messageRelease p) s (fun t => (t.part p.val).outgoing = [] ∧ t.mem = s.mem ∧
      (∀ o ∈ (s.part p.val).outgoing, o.ended = true → t.slot o.slot = Slot.reset) ∧
      (∀ i, (∀ o ∈ (s.part p.val).outgoing, o.ended = true → o.slot ≠ i) → t.slot i = s.slot i) ∧
      (∀ o, (s.part p.val).outgoing = [o] → o.ended = true → o.tokens = [] → (s.slot o.slot).host = false →
        let x := s.slot o.slot
        (s.chan x.port x.channel).isOpen = true →
        t.outputs = s.outputs ++ [.osp x.port x.channel (((s.chan x.port x.channel).lastEmit + 1) % 2 ^ 32) (s.chan x.port x.channel).addr
          (.done x.subSeq x.reason false x.genLen x.matched)]))) ∧
  (∀ (s : State) (port : BrimDie) (src : PeerAddr) (hdr : OspHdr) (subSeq : W32),
    let c := hdr.channel.toNat
    OspFits s port src hdr → (s.chan port.val c).pend = none →
    (s.slotOfChan port.val c subSeq = none → Completes (.cancel port src hdr subSeq) s (fun t => (∀ i, t.slot i = s.slot i) ∧
      ∃ q, t.outputs = s.outputs ++ [.osp port.val c q src (.done subSeq 0x41 true 0 0)])) ∧
    (∀ i, s.slotOfChan port.val c subSeq = some i → (s.slot i).state.live = true → (s.slot i).state ≠ .parked → (s.slot i).cancelReq = none →
      (s.part (s.slot i).part).idle = false → Completes (.cancel port src hdr subSeq) s (fun t =>
        (t.slot i).cancelReq = some (s.bow.time, 0x30) ∧ (t.slot i).state = (s.slot i).state ∧
        (t.slot i).cancelTime = (if (s.slot i).cancelTime = 0 then s.bow.time else (s.slot i).cancelTime) ∧
        (∀ k, k ≠ i → t.slot k = s.slot k) ∧ t.outputs = s.outputs)) ∧
    (∀ i, s.slotOfChan port.val c subSeq = some i → (s.slot i).state = .done → Completes (.cancel port src hdr subSeq) s (fun t =>
      t.slot i = { s.slot i with cancelTime := if (s.slot i).cancelTime = 0 then s.bow.time else (s.slot i).cancelTime } ∧
      (∀ k, k ≠ i → t.slot k = s.slot k) ∧
      ∃ q, t.outputs = s.outputs ++ [.osp port.val c q src (.done subSeq 0x40 true (s.slot i).genLen (s.slot i).matched)]))) ∧
  (∀ (s : State) (port : Port) (data : W32), Accepts s port (s.pReg 0x205 .reqKill) data.toNat →
    let i := data.toNat % 2 ^ 12
    ((s.slot i).state.live = false → Completes (.reqKill port data) s (Only [] s)) ∧
    ((s.slot i).state.live = true → (s.slot i).cancelReq = none → (s.slot i).state ≠ .parked → (s.part (s.slot i).part).idle = false →
      Completes (.reqKill port data) s (fun t => Only [.slot i] s t ∧ t.slot i = { s.slot i with cancelReq := some (s.bow.time, 0x32) })) ∧
    ((s.slot i).state = .parked → (s.slot i).cancelReq = none → (s.slot i).twinOf = none → Completes (.reqKill port data) s (fun t =>
      (t.slot i).state = .free ∧ t.mem = s.mem)))

/-- At a cut with nothing to do a partition idles (log 16); with decode candidates it picks the shape and takes them in order. A partial list of a void slot, or of no group, is dropped, the second with the stray event; the last list of a group draws the token by the request's sampling (of a NaN entry a function of the same inputs, log 5) and counts it; an earlier one is merged. Staging fills the step and counts its drafts; the staged step makes the principal ready when the running step is sampled. Log 19 holds the sampling choices. -/
def Obligations.StepsAreComposedAndSampled : Prop :=
  (∀ (s : State) (p : PartIdx) (f : Form),
    let x := s.part p.val
    x.job = .running → x.next = none → x.running.isSome = true → x.cutDone = false → x.form = some f →
    let open' := (s.prefillCands p.val).foldl (fun a i => a + ((s.slot i).promptLen - (s.slot i).assigned)) 0
    (x.allVoid = false → s.decodeCands p.val = [] → open' = 0 → s.peers p.val = 0 → x.repair = none → Completes (.stepCut p) s (fun t =>
      Only [.part p.val, .reg (s.pReg 0x205 .reqLast p.val)] s t ∧ (t.part p.val).cutDone = true ∧ (t.part p.val).idle = true ∧
      (t.part p.val).next = none ∧ t.fldOf (s.pReg 0x205 .reqLast p.val) 26 1 = 1)) ∧
    (∀ e, x.allVoid = false →
      f.pickShape (min (s.decodeCands p.val).length (f.shapes.foldl (fun a e => Nat.max a e.d) 0))
        (min open' (s.fldOf (s.pReg 0x205 .reqPtgt p.val) 0 13)) = some e → (s.decodeCands p.val ≠ [] ∧ ∃ sh ∈ f.shapes, 0 < sh.d) →
      Completes (.stepCut p) s (fun t => (t.part p.val).cutDone = true ∧ (t.part p.val).idle = false ∧
        ∃ st, (t.part p.val).next = some st ∧ st.shape = e.1 ∧ st.filled = false ∧
          (st.dec.filterMap (·.slot)) = (s.decodeCands p.val).take e.2.d))) ∧
  (∀ (s : State) (p : PartIdx) (l : PartialList),
    let x := s.part p.val
    let i := l.slot.val
    (i = x.voidSlot → Completes (.partialListArrive p l) s (Only [] s)) ∧
    (i ≠ x.voidSlot → (∀ g ∈ x.groups, ¬ (g.slot = i ∧ g.pos = l.pos ∧ g.lists < s.listsPer p.val)) → Completes (.partialListArrive p l) s (fun t =>
      Only [.reg (s.pReg 0x206 .smpEvents)] s t ∧ t.fldOf (s.pReg 0x206 .smpEvents) 2 1 = 1)) ∧
    (∀ g st, i ≠ x.voidSlot → x.groups = [g] → g.slot = i → g.pos = l.pos → g.lists + 1 = s.listsPer p.val → g.poison = false → g.draw = true →
      l.poison = false → l.entries ≠ [] → x.running = some st → st.dec.find? (fun d => d.slot == some i) = none →
      st.hasLast i (s.slot i).promptLen = true → (x.choice i).final = false → (x.choice i).tokens = [] → l.pos + 1 = (s.slot i).promptLen →
      let all := g.entries ++ listEntries l
      let tok := ((s.slot i).select (s.slot i).promptLen (s.slot i).ctx all).getD ((s.slot i).odd (s.slot i).promptLen (s.slot i).ctx all)
      Completes (.partialListArrive p l) s (fun t => (t.part p.val).groups = [] ∧ ((t.part p.val).choice i) = ⟨i, [tok], true⟩ ∧
        t.pair (s.pReg 0x206 .smpDrawnLo) (s.pReg 0x206 .smpDrawnHi) = (s.pair (s.pReg 0x206 .smpDrawnLo) (s.pReg 0x206 .smpDrawnHi) + 1) % 2 ^ 64 ∧
        t.unmerged = s.unmerged + l.entries.length ∧ t.mem = s.mem ∧ ∀ k, t.slot k = s.slot k)) ∧
    (∀ g, i ≠ x.voidSlot → x.groups = [g] → g.slot = i → g.pos = l.pos → g.lists + 1 < s.listsPer p.val →
      l.poison = false → l.entries ≠ [] → Completes (.partialListArrive p l) s (fun t =>
        (t.part p.val).groups = [{ g with lists := g.lists + 1, entries := g.entries ++ listEntries l }] ∧
        (t.part p.val).chosen = x.chosen ∧ t.unmerged = s.unmerged + l.entries.length ∧ ∀ k, t.slot k = s.slot k))) ∧
  (∀ (s : State) (p : PartIdx) (n : Step),
    let x := s.part p.val
    x.next = some n → n.filled = false → x.job = .running → (x.running = none ∨ x.sampled = true) → x.flipStep = none →
    Completes (.stepStaging p) s (fun t =>
      let st := s.fillStep p.val (x.maxDraft n) n
      (t.part p.val).next = some st ∧ st.filled = true ∧ t.mem = s.mem ∧
      t.pair (s.pReg 0x206 .smpProposedLo) (s.pReg 0x206 .smpProposedHi) =
        (s.pair (s.pReg 0x206 .smpProposedLo) (s.pReg 0x206 .smpProposedHi) + st.dec.foldl (fun a d => a + d.drafts.length) 0) % 2 ^ 64)) ∧
  (∀ (s : State) (p : PartIdx) (n : Step),
    let x := s.part p.val
    x.next = some n → n.filled = true → x.staged = false → s.fldOf (s.pReg 0x201 .bowJob p.val) 0 8 = 0 →
    Completes (.stagingComplete p) s (fun t => Only [.part p.val] s t ∧ (t.part p.val).staged = true ∧ (t.part p.val).next = some n ∧
      (x.sampled = true → (t.part p.val).prinReady = true)))

/-- A flit that fails its CRC or its correction is counted and has a NAK for the next sequence number queued; corrected codewords are counted on the lane. One in order advances the sequence, owes its channel a credit, takes the credits it returns and acknowledges; one out of order has a NAK queued. A NAK puts every flit from its number on before any new one, and is counted; a timeout does so with everything held. A lane that loses its signal is down, is recorded, and holds nothing; an untrained one is unchanged. What a down lane keeps is log 56. -/
def Obligations.LanesReceiveRetryAndFail : Prop :=
  (∀ (s : State) (l : LinkIdx) (n : LaneIdx) (f : Flit), (s.lane l.val n.val).trained = true →
    let x := s.lane l.val n.val
    let nak : Byte × BitVec 24 := (0x01, BitVec.ofNat 24 x.rxNext)
    (∀ k, x.nakFor = some k → k.1 = x.rxNext → k.2 + 2000 ≤ s.bow.time) →
    (f.bad = true ∨ f.fecBad = true → Completes (.flitReceive l n f) s (fun t =>
      t.lane l.val n.val = { x with nakFor := some (x.rxNext, s.bow.time), symq := x.symq ++ [nak], fecFixed := x.fecFixed + f.fixed } ∧
      t.outputs = s.outputs ∧ t.mem = s.mem ∧
      t.fldOf (linkReg l.val .lnkErr) 0 16 = min 65535 (s.fldOf (linkReg l.val .lnkErr) 0 16 + 1) ∧
      t.fldOf (linkReg l.val .lnkErr) 16 16 = min 65535 (s.fldOf (linkReg l.val .lnkErr) 16 16 + f.uncorr))) ∧
    (f.bad = false → f.fecBad = false → f.type = 1 ∨ f.type = 2 → f.seq.toNat = x.rxNext →
      Completes (.flitReceive l n f) s (fun t =>
        (t.lane l.val n.val).rxNext = (x.rxNext + 1) % 2 ^ 16 ∧ (t.lane l.val n.val).nakFor = none ∧ t.outputs = s.outputs ∧
        (t.lane l.val n.val).symq = x.symq ∧ (t.lane l.val n.val).fecFixed = x.fecFixed + f.fixed ∧
        (t.lane l.val n.val).credit0 = x.credit0 + (if f.cvc then 0 else f.credits.toNat) ∧
        (t.lane l.val n.val).credit1 = x.credit1 + (if f.cvc then f.credits.toNat else 0) ∧
        (t.lane l.val n.val).due0 = x.due0 + (if f.vc then 0 else 1) ∧ (t.lane l.val n.val).due1 = x.due1 + (if f.vc then 1 else 0) ∧
        (∀ h, h ∈ (t.lane l.val n.val).held → h ∈ x.held))) ∧
    (f.bad = false → f.fecBad = false → f.type = 1 ∨ f.type = 2 → f.seq.toNat ≠ x.rxNext →
      Completes (.flitReceive l n f) s (fun t =>
        (t.lane l.val n.val).rxNext = x.rxNext ∧ (t.lane l.val n.val).symq = x.symq ++ [nak] ∧ t.outputs = s.outputs))) ∧
  (∀ (s : State) (l : LinkIdx) (n : LaneIdx) (seq : BitVec 16) (pre : List (Nat × Nat × TxFlit)) (h : Nat × Nat × TxFlit) (old : List (Nat × Nat × TxFlit)),
    (s.lane l.val n.val).trained = true → (s.lane l.val n.val).held = pre ++ h :: old → h.1 = seq.toNat →
    (∀ e ∈ pre, e.1 ≠ seq.toNat) → (∀ e ∈ h :: old, e.2.1 < 8) → Completes (.linkNak l n seq) s (fun t =>
      t.lane l.val n.val = { s.lane l.val n.val with again := old.length + 1, ackTime := s.bow.time } ∧ t.outputs = s.outputs ∧ t.mem = s.mem ∧
      t.fldOf (linkReg l.val .lnkRetry) 0 16 = min 65535 (s.fldOf (linkReg l.val .lnkRetry) 0 16 + 1))) ∧
  (∀ (s : State) (l : LinkIdx) (n : LaneIdx), (s.lane l.val n.val).trained = true → (s.lane l.val n.val).held ≠ [] →
    (s.lane l.val n.val).ackTime + 4000 ≤ s.bow.time → (∀ e ∈ (s.lane l.val n.val).held, e.2.1 < 8) →
    Completes (.retryTimeout l n) s (fun t =>
      t.lane l.val n.val = { s.lane l.val n.val with again := (s.lane l.val n.val).held.length, ackTime := s.bow.time } ∧
      t.outputs = s.outputs ∧ t.mem = s.mem ∧
      t.fldOf (linkReg l.val .lnkRetry) 0 16 = min 65535 (s.fldOf (linkReg l.val .lnkRetry) 0 16 + 1))) ∧
  (∀ (s : State) (l : LinkIdx) (n : LaneIdx), (s.lane l.val n.val).trained = true → Completes (.laneSignalLoss l n) s (fun t =>
      let b := brimIdx (l.val / 12)
      (t.lane l.val n.val).trained = false ∧ (t.lane l.val n.val).held = [] ∧ (t.lane l.val n.val).identity = none ∧
      t.fldOf (uReg b 0x209 .lnkEvents) 0 1 = 1 ∧ t.mem = s.mem ∧
      t.fldOf (linkReg l.val .lnkRetry) 16 8 = min 255 (s.fldOf (linkReg l.val .lnkRetry) 16 8 + 1) ∧
      Faults 0x4001 none b 0x82 (l.val + n.val * 2 ^ 8) s t)) ∧
  (∀ (s : State) (l : LinkIdx) (n : LaneIdx), (s.lane l.val n.val).trained = false → Completes (.laneSignalLoss l n) s (Only [] s))

/-- A lane tries to train again when its time comes and then sends the device's identity record; training that completes within 12 ms of laser lock starts with empty buffers, full credits and sequence 0, later it has no effect, and the lane gives up. An identity that is not the expected one shows CABLE and a fault; the last of four equal expected ones shows UP. A ping has its echo queued. A measurement, once a second, makes 64 pings due and keeps the largest half round trip, shows the link's latency and whether it is too long (half-nanosecond rounding is free, log 36). A lane's next flit acknowledges what was received, carries the first of the lane's symbols, returns at most 255 of a channel's owed credits, and holds the oldest flit to be sent again, or else the next of the channel whose turn it is with the next sequence number, or else no data; the flit as it is sent leaves the device as its bytes. Where the flits of a slot begin, and that a flit with nothing new is not listed, is log 56. -/
def Obligations.LanesTrainAndMeasure : Prop :=
  (∀ (s : State) (l : LinkIdx) (n : LaneIdx),
    let x := s.lane l.val n.val
    (x.training = false → x.trained = false → x.retryAt ≤ s.bow.time → (s.groupOf l.val).isSome = true → s.lit l.val = true →
      s.pllDown (.linkPhy l) = false → Completes (.laneRetrainTimer l n) s (fun t =>
        Only [.lane l.val n.val, .reg (linkReg l.val .lnkState), .outputs] s t ∧
        t.lane l.val n.val = { x with training := true, lockTime := s.bow.time } ∧
        t.outputs = s.outputs ++ [.identity l.val n.val (identityBytes ⟨s.fuses.serial, l.val, s.start.rackPos, s.start.rackId⟩)])) ∧
    (x.training = true → x.lockTime + 12000000 ≤ s.bow.time → Completes (.laneTrainingTimeout l n) s (fun t =>
      Only [.lane l.val n.val, .reg (linkReg l.val .lnkState)] s t ∧
      t.lane l.val n.val = { x with training := false, identity := none, retryAt := s.bow.time + 1000000000 })) ∧
    (x.training = true → s.lit l.val = true → x.lockTime + 12000000 < s.bow.time → Completes (.linkTrainingComplete l n) s (Only [] s)) ∧
    (x.training = true → s.lit l.val = true → s.bow.time ≤ x.lockTime + 12000000 → Completes (.linkTrainingComplete l n) s (fun t =>
      let y := t.lane l.val n.val
      y.trained = true ∧ y.training = false ∧ y.txSeq = 0 ∧ y.rxNext = 0 ∧ y.held = [] ∧ y.credit0 = 96 ∧ y.credit1 = 96 ∧
      t.outputs = s.outputs ∧ t.mem = s.mem)) ∧
    (∀ id : Identity, x.training = true ∨ x.trained = true →
      (s.expects l.val id = false → Completes (.identityRecord l n id) s (fun t =>
        (t.lane l.val n.val).identity = some id ∧ t.fldOf (linkReg l.val .lnkState) 0 3 = 4 ∧
        t.pair (linkReg l.val .lnkPartnerLo) (linkReg l.val .lnkPartnerHi) = id.serial.toNat ∧
        t.fldOf (uReg (brimIdx (l.val / 12)) 0x209 .lnkEvents) 1 1 = 1 ∧
        Faults 0x4002 none (brimIdx (l.val / 12)) 0x82 id.serial.toNat s t)) ∧
      (s.expects l.val id = true → (∀ m : LaneIdx, (s.lane l.val m.val).trained = true) →
        (∀ m : LaneIdx, m ≠ n → (s.lane l.val m.val).identity = some id) → Completes (.identityRecord l n id) s (fun t =>
          (t.lane l.val n.val).identity = some id ∧ t.fldOf (linkReg l.val .lnkState) 0 3 = 2 ∧
          t.pair (linkReg l.val .lnkPartnerLo) (linkReg l.val .lnkPartnerHi) = id.serial.toNat))) ∧
    (∀ v : BitVec 24, x.training = true ∨ x.trained = true → Completes (.timePing l n v) s (fun t => Only [.lane l.val n.val] s t ∧
      t.lane l.val n.val = { x with symq := x.symq ++ [(0x03, v)] })) ∧
    (x.trained = true → s.due (.latency l.val n.val) = false → Completes (.latencyMeasureTimer l n) s (Only [] s)) ∧
    (x.trained = true → s.due (.latency l.val n.val) = true → Completes (.latencyMeasureTimer l n) s (fun t =>
      Only [.lane l.val n.val, .timer (.latency l.val n.val)] s t ∧
      Tbl.find t.timers (.latency l.val n.val) = some (s.bow.time + 1000000000) ∧
      t.lane l.val n.val = { x with pings := 64, pingsDue := 64, latest := 0 })) ∧
    (∀ (v a : BitVec 24) (k d : Nat), k < 2 ^ 24 → d < 2 ^ 24 → (v.toNat + k + d) % 2 ^ 24 = a.toNat →
      (2 ≤ x.pings → Completes (.timeEcho l n v a k) s (fun t => Only [.lane l.val n.val, .fresh] s t ∧
        ∃ lat, (2 * lat = d ∨ (d % 2 = 1 ∧ (2 * lat = d - 1 ∨ 2 * lat = d + 1))) ∧
          t.lane l.val n.val = { x with pings := x.pings - 1, latest := Nat.max x.latest lat })) ∧
      (x.pings = 1 → (∀ m : LaneIdx, m ≠ n → (s.lane l.val m.val).lat = 0) → Completes (.timeEcho l n v a k) s (fun t =>
        (t.lane l.val n.val).pings = 0 ∧ t.regN (linkReg l.val .lnkLat) = (t.lane l.val n.val).lat % 2 ^ 16 ∧
        t.fldOf (linkReg l.val .lnkState) 3 1 = (if 131072 < 100 * (2 * (t.lane l.val n.val).lat + 20) then 1 else 0) ∧
        ∃ lat, (2 * lat = d ∨ (d % 2 = 1 ∧ (2 * lat = d - 1 ∨ 2 * lat = d + 1))) ∧ (t.lane l.val n.val).lat = Nat.max x.latest lat)))) ∧
  (∀ (x y : Lane) (now : Nat) (e : Byte × BitVec 24), x.symbol now = some (e, y) →
    (∀ q ∈ x.symq, symbolRank e.1 ≤ symbolRank q.1) ∧
    ((e ∈ x.symq ∧ y = { x with symq := x.symq.erase e }) ∨
     (x.symq = [] ∧ e = (0x02, BitVec.ofNat 24 now) ∧ 0 < x.pingsDue ∧ y = { x with pingsDue := x.pingsDue - 1 }))) ∧
  (∀ t m : Nat, m ∈ flitTimes t ↔ ∃ j, m = 512 * j / 100 ∧ 100 * t ≤ 512 * j ∧ 512 * j < 100 * (t + 16)) ∧
  (∀ (x : Lane) (now : Nat) (data : Bool),
    let r := x.flit now data
    r.1.ack = BitVec.ofNat 16 x.rxNext ∧ r.2.2.2.ackTold = x.rxNext ∧
    (∀ e y, x.symbol now = some (e, y) → r.1.symbol = e.1 ∧ r.1.arg = e.2) ∧
    (x.symbol now = none → r.1.symbol = 0 ∧ r.1.arg = 0) ∧
    (r.1.cvc = true → r.1.credits.toNat = min 255 x.due1 ∧ r.2.2.2.due1 + r.1.credits.toNat = x.due1 ∧ r.2.2.2.due0 = x.due0) ∧
    (r.1.cvc = false → r.1.credits.toNat = min 255 x.due0 ∧ r.2.2.2.due0 + r.1.credits.toNat = x.due0 ∧ r.2.2.2.due1 = x.due1) ∧
    (r.2.2.1 = false → r.1.type = 0 ∧ r.1.seq = BitVec.ofNat 16 x.txSeq ∧ r.2.1 = [] ∧ r.2.2.2.held = x.held) ∧
    (data = true → x.again = 0 → x.pick = some 0 → ∃ f rest, x.txq0 = f :: rest ∧ r.2.1 = f.payload ∧ r.1.seq = BitVec.ofNat 16 x.txSeq ∧
      r.1.type = (if f.first then 1 else 2) ∧ r.1.poison = f.poison ∧ r.2.2.2.held = x.held ++ [(x.txSeq, 1, f)] ∧ r.2.2.2.txq0 = rest ∧
      r.2.2.2.txSeq = (x.txSeq + 1) % 2 ^ 16 ∧ r.2.2.2.credit0 = x.credit0 - 1) ∧
    (∀ pre h old, data = true → x.held = pre ++ h :: old → x.again = old.length + 1 →
      r.2.1 = h.2.2.payload ∧ r.1.seq = BitVec.ofNat 16 h.1 ∧ r.2.2.2.again = old.length ∧
      r.2.2.2.held = pre ++ (h.1, h.2.1 + 1, h.2.2) :: old ∧ r.2.2.2.txSeq = x.txSeq)) ∧
  (∀ (s : State) (l n now : Nat),
    let x := s.lane l n
    let r := x.flit now (s.sendsData l n)
    (x.hasNews (s.sendsData l n) = true → (s.sendFlit l n now).lane l n = r.2.2.2 ∧
      (s.sendFlit l n now).outputs = s.outputs ++ [.flit l n (flitBytes r.1 r.2.1)] ∧
      (r.2.2.1 = false → Only [.lane l n, .outputs] s (s.sendFlit l n now))) ∧
    (x.hasNews (s.sendsData l n) = false → s.sendFlit l n now = s))

/-- The first copy of a peer's BARRIER is kept unless its step is past, a HOLD counted, a JOB_END ends the partition's job with its fault, and a repeat within 1 microsecond ignored. A transfer with a working lane is cut into packets of at most 4,064 bytes over the group's lanes with their bytes. A job write inside its channel's window stores its bytes; the last packet increments the landing counter and is acknowledged; one outside ends the job. An acknowledgement retires its transfer. Log 36 holds the link choices. -/
def Obligations.PeerSymbolsAndJobTransfers : Prop :=
  (∀ (s : State) (l : LinkIdx) (arg : BitVec 24) (g : Nat × LGroup) (k : Nat),
    let x := s.part g.2.part
    (FirstCopy s l 0x10 arg.toNat g k → x.barriersRx = [] → Completes (.linkBarrier l arg) s (fun t =>
      Only [.lane k 0, .part g.2.part] s t ∧ Tbl.find (t.lane k 0).lastSym 0x10 = some (arg.toNat, s.bow.time) ∧
      ((arg.toNat % 2 ^ 16 + 2 ^ 16 - x.stepArg) % 2 ^ 16 < 2 ^ 15 →
        t.part g.2.part = { x with barriersRx := [(g.1, arg.toNat % 2 ^ 16, s.bow.time)] }) ∧
      (2 ^ 15 ≤ (arg.toNat % 2 ^ 16 + 2 ^ 16 - x.stepArg) % 2 ^ 16 → t.part g.2.part = x))) ∧
    (FirstCopy s l 0x11 arg.toNat g k → Completes (.linkHold l arg) s (fun t => Only [.lane k 0, .lane l.val 0] s t ∧
      (t.lane l.val 0).holds = (s.lane l.val 0).holds + 1)) ∧
    (FirstCopy s l 0x12 arg.toNat g k → x.job = .running → Completes (.linkJobEnd l arg) s (fun t =>
      (t.part g.2.part).job = .ended ∧ Faults 0x1019 (some g.2.part) (brimIdx (l.val / 12)) 0x82
        (s.pair (linkReg l.val .lnkPartnerLo) (linkReg l.val .lnkPartnerHi)) s t)) ∧
    (∀ e, s.groupOf l.val = some g → g.2.links.head? = some k → Tbl.find (s.lane k 0).lastSym 0x12 = some e → e.1 = arg.toNat →
      s.bow.time < e.2 + 1000 → Completes (.linkJobEnd l arg) s (Only [] s))) ∧
  (∀ (s : State) (p : PartIdx) (y : LinkXfer) (g : LGroup), let x := s.part p.val
    x.xfers = [y] → y.started = false → Tbl.find s.start.groups y.group = some g →
    (s.workingLanes g = [] → Completes (.linkTransferStart p y.xfer) s (Only [] s)) ∧
    (s.workingLanes g ≠ [] → Completes (.linkTransferStart p y.xfer) s (fun t =>
      t.part p.val = { x with xfers := [{ y with started := true }] } ∧ t.mem = s.mem ∧
      t.outputs = s.outputs ++ (List.range ((y.len + 4063) / 4064)).map (fun i =>
        let n := min 4064 (y.len - 4064 * i)
        let a := y.dst.toNat + 4064 * i
        .packet y.group (i % (4 * g.links.length))
          ⟨s.fldOf (s.pReg 0x209 .lnkChan y.channel) 11 6, 0, y.land, y.dst.toNat - (s.chanWindow y.channel).1 + 4064 * i, n, BitVec.ofNat 16 y.xfer,
            (y.len + 4063) / 4064, none⟩
          (s.bytes a n) (s.badFlits a n))))) ∧
  (∀ (s : State) (l : LinkIdx) (h : LinkHdr) (data : List Byte) (g : Nat × LGroup),
    let w := s.regN (s.pReg 0x209 .lnkChan h.channel)
    let win := s.chanWindow h.channel
    let p := fld w 2 4
    let ours := h.channel < 64 ∧ bit w 0 = true ∧ bit w 1 = true ∧ fld w 6 5 = g.1
    s.groupOf l.val = some g → g.2.store = false →
    (ours → h.offset + h.len ≤ win.2 → data.length = h.len → (s.part p).inXfers = [] →
      (1 < h.packets → Completes (.linkJobWrite l h data []) s (fun t =>
        t.bytes (win.1 + h.offset) h.len = data ∧ t.outputs = s.outputs ∧
        (∀ a, a < win.1 + h.offset ∨ win.1 + h.offset + h.len ≤ a → Memory.read t.mem a = Memory.read s.mem a) ∧
        t.part p = { s.part p with inXfers := [⟨h.channel, h.xfer.toNat, 1, h.packets⟩] })) ∧
      (h.packets = 1 → bit h.land.toNat 15 = true → (s.part p).barriersRx = [] → (s.tile (s.notifyTile h.channel)).fenced = false →
        Tbl.find s.start.groups g.1 = some g.2 → g.2.links ≠ [] → Completes (.linkJobWrite l h data []) s (fun t =>
          let k := tReg (s.notifyTile h.channel) .tilLand (fld h.land.toNat 0 5)
          t.bytes (win.1 + h.offset) h.len = data ∧ t.part p = s.part p ∧ t.fldOf k 0 16 = (s.fldOf k 0 16 + 1) % 2 ^ 16 ∧
          t.outputs = s.outputs ++ [.packet g.1 0 ⟨h.channel, 5, 0, 0, 0, h.xfer, 0, none⟩ [] []]))) ∧
    (¬ ours ∨ win.2 < h.offset + h.len → (s.part g.2.part).job = .running → Completes (.linkJobWrite l h data []) s (fun t =>
      t.mem = s.mem ∧ (t.part g.2.part).job = .ended ∧
      Faults 0x1012 (some g.2.part) s.prinDie 0x82 (win.1 + h.offset) s t)) ∧
    (∀ y, (s.part g.2.part).xfers = [y] → y.started = true → y.group = g.1 → y.xfer % 2 ^ 16 = h.xfer.toNat →
      s.fldOf (s.pReg 0x209 .lnkChan y.channel) 11 6 = h.channel → Completes (.linkJobAck l h) s (fun t =>
        (t.part g.2.part).xfers = [] ∧ t.mem = s.mem ∧ ∀ q, q ≠ g.2.part → t.part q = s.part q)))

/-- A store write or read inside the store range of its group stores or answers its bytes; one beyond it is refused with KIND 4 and counted; a refusal received is counted. A child's request for a chunk is answered from what the device holds, and else waits while the device fetches it. A response to an outstanding fetch is kept as a piece. A control core's write of a channel register takes effect while the channel's partition runs no job and is refused with a firmware fault while it does (logs 36, 56). -/
def Obligations.StoreRequestsAndChannels : Prop :=
  (∀ (s : State) (l : LinkIdx) (h : LinkHdr) (g : Nat × LGroup),
    let a := mkAddr (crownIdx g.2.storeCw) 0 (g.2.storeBase * 2 ^ 30) + h.offset
    let k := uReg (brimIdx (l.val / 12)) 0x209 .lnkEvents
    s.groupOf l.val = some g → g.2.store = true → g.2.links ≠ [] →
    (h.offset + h.len ≤ g.2.storeLen * 2 ^ 30 →
      (∀ data : List Byte, data.length = h.len → Completes (.linkStoreWrite l h data) s (fun t =>
        t.bytes a h.len = data ∧ t.outputs = s.outputs ∧ (∀ r, t.reg r = s.reg r) ∧
        ∀ i, i < a ∨ a + h.len ≤ i → Memory.read t.mem i = Memory.read s.mem i)) ∧
      (h.object = none ∨ g.1 ∉ s.start.children → Completes (.linkStoreReadReq l h) s (fun t => t.mem = s.mem ∧
        t.outputs = s.outputs ++ [.packet g.1 0 { h with kind := 3, packets := 1 } (s.bytes a h.len) (s.badFlits a h.len)]))) ∧
    (∀ (id : W64) (chunk : W32), h.object = some (id, chunk) → g.1 ∈ s.start.children →
      (∀ data, s.object id chunk.toNat = some data → Completes (.linkStoreReadReq l h) s (fun t =>
        Only [.cache, .outputs] s t ∧ t.outputs = s.outputs ++ [.forward g.1 id chunk.toNat data])) ∧
      (s.object id chunk.toNat = none → Completes (.linkStoreReadReq l h) s (fun t =>
        (g.1, id, chunk.toNat) ∈ t.childAsks ∧ t.mem = s.mem ∧ t.cache = s.cache))) ∧
    (g.2.storeLen * 2 ^ 30 < h.offset + h.len → h.object = none ∨ g.1 ∉ s.start.children → ∀ c ∈ [Instr.linkStoreReadReq l h, Instr.linkStoreWrite l h []], Completes c s (fun t =>
      t.mem = s.mem ∧ t.fldOf k 4 1 = 1 ∧
      t.outputs = s.outputs ++ [.packet g.1 0 { h with kind := 4, land := 0, len := 0, packets := 0 } [] []])) ∧
    Completes (.linkStoreRefusal l h) s (fun t => Only [.reg k] s t ∧ t.fldOf k 4 1 = 1) ∧
    (∀ (id : W64) (chunk : W32) (data : List Byte) (f : Fetch), s.fetches = [f] → f.boltId = id → f.chunk = chunk.toNat → f.pieces = [] →
      1 < h.packets → (∃ x, Tbl.find s.start.sources f.src = some x ∧ x.kind = 0 ∧ x.via = g.1) →
      Completes (.linkStoreReadResp l h id chunk data) s (fun t => Only [.fetches] s t ∧
        t.fetches = [{ f with pieces := [(h.offset, data)], lastAt := s.bow.time }]))) ∧
  (∀ (s : State) (port : Port) (c : Fin 64) (word : Fin 3) (data : W32),
    let k := s.pReg 0x209 (if word = 0 then .lnkChan else if word = 1 then .lnkCwin else .lnkCnote) c.val
    let chan := s.regN (s.pReg 0x209 .lnkChan c.val)
    let p := if word = 0 ∧ fld chan 0 1 = 0 then fld data.toNat 2 4 else fld chan 2 4
    Accepts s port k data.toNat → port.isCore = true →
    ((s.part p).job ≠ .running → Completes (.linkChannelWrite port c word data) s (fun t => Only [.reg k] s t ∧
      ∀ i < 32, (t.reg k).getLsbD i = bitAfter k.reg.row.fields (s.regN k) data.toNat i)) ∧
    ((s.part p).job = .running → Completes (.linkChannelWrite port c word data) s (fun t =>
      t.reg k = s.reg k ∧ Faults 0x6001 none (addrDie k.addr) 0x87 k.addr s t)))

/-- A port that is not enabled, whose source is not locked, or whose PLL is down takes no frame and no request. A frame that a check drops (short ones and long ones, bad FCS, stacked or foreign VLAN, fragments and the rest) is counted under its reason, a PAUSE noted, and one that passes counts nothing. A port answers an ARP or neighbour request for its own address alone. A STATUS request is answered with the request's or the device's state. A RESYNC opens or resumes its channel, answers its last numbers, and replays what it keeps from the asked number on, with the gap shown; one out of range is dropped and counted. Log 37 holds the reply's choices. -/
def Obligations.ServicePortTraffic : Prop :=
  (∀ (s : State) (port : BrimDie),
    s.portEnabled port.val = false ∨ s.lasIs (2 * port.val + s.spSource port.val) ≠ 4 ∨ s.pllDown (.ethernet port) = true →
    let dark (c : Instr) : Prop := Completes c s (fun t => t = s)
    (∀ f, dark (.ethFrameReceive port f)) ∧ (∀ a src, dark (.arpRequest port a src)) ∧
    (∀ a src, dark (.neighbourSolicitation port a src)) ∧ (∀ src h q, dark (.statusRequest port src h q)) ∧
    ∀ src h r f, dark (.resync port src h r f)) ∧
  (∀ (s : State) (port : BrimDie) (f : EthFrame),
    let k := ethReg port.val .ethDropHdr
    s.portOn port.val = true →
    (f.pause = true ∨ f.badFcs = true ∨ f.tooShort = true ∨ f.tooLong = true ∨ f.stackedTag = true ∨ s.vlanOk port.val f.vid = false ∨ f.fragment = true ∨
      f.ipOptions = true ∨ f.notUdp = true ∨ f.udpPort.toNat ≠ s.fldOf (ethReg port.val .ethUdp) 0 16 →
      Completes (.ethFrameReceive port f) s (fun t => t.outputs = s.outputs ∧ t.mem = s.mem ∧
        t.fldOf k 0 16 = min 65535 (s.fldOf k 0 16 + 1) ∧ (f.pause = true → t.fldOf (ethReg port.val .ethEvents) 0 1 = 1))) ∧
    (f.pause = false → f.badFcs = false → f.tooShort = false → f.tooLong = false → f.stackedTag = false → s.vlanOk port.val f.vid = true → f.fragment = false →
      f.ipOptions = false → f.notUdp = false → f.udpPort.toNat = s.fldOf (ethReg port.val .ethUdp) 0 16 →
      (f.badChecksum = true → Completes (.ethFrameReceive port f) s (fun t => t.fldOf k 16 16 = min 65535 (s.fldOf k 16 16 + 1) ∧
        t.fldOf k 0 16 = s.fldOf k 0 16)) ∧
      (f.badChecksum = false → f.hdr.magic ≠ 0x534F ∨ f.hdr.version ≠ 1 ∨ f.hdr.type.toNat ∉ [0x01, 0x02, 0x03, 0x04, 0x11] →
        Completes (.ethFrameReceive port f) s (fun t => t.reg k = s.reg k ∧
          t.fldOf (ethReg port.val .ethDropOsp) 16 16 = min 65535 (s.fldOf (ethReg port.val .ethDropOsp) 16 16 + 1))) ∧
      (f.badChecksum = false → f.hdr.magic = 0x534F → f.hdr.version = 1 → f.hdr.type.toNat ∈ [0x01, 0x02, 0x03, 0x04, 0x11] →
        Completes (.ethFrameReceive port f) s (fun t => t.reg k = s.reg k ∧
          t.reg (ethReg port.val .ethDropOsp) = s.reg (ethReg port.val .ethDropOsp))))) ∧
  (∀ (s : State) (port : BrimDie) (src : PeerAddr), s.portOn port.val = true →
    (∀ a : BitVec 32, a ≠ 0 → beNat (leBytes 4 (s.regN (ethReg port.val .ethIpv4))) = a.toNat → Completes (.arpRequest port a src) s (fun t =>
      Only [.outputs] s t ∧ t.outputs = s.outputs ++ [.arpReply port.val src])) ∧
    (∀ a : BitVec 32, beNat (leBytes 4 (s.regN (ethReg port.val .ethIpv4))) ≠ a.toNat → Completes (.arpRequest port a src) s (Only [] s)) ∧
    (let own := beNat ((List.range 4).flatMap (fun i => leBytes 4 (s.regN (uReg (brimIdx port.val) 0x20B .ethIpv6 i))))
     ∀ a : BitVec 128, (a ≠ 0 → own = a.toNat → Completes (.neighbourSolicitation port a src) s (fun t => Only [.outputs] s t ∧
        t.outputs = s.outputs ++ [.ndAdvert port.val src])) ∧
      (own ≠ a.toNat → Completes (.neighbourSolicitation port a src) s (Only [] s)))) ∧
  (∀ (s : State) (port : BrimDie) (src : PeerAddr) (hdr : OspHdr),
    let c := hdr.channel.toNat
    let x := s.chan port.val c
    (∀ subSeq : W32, OspFits s port src hdr → x.pend = none → hdr.ack = 0 → Completes (.statusRequest port src hdr subSeq) s (fun t =>
      t.mem = s.mem ∧ (∀ i, t.slot i = s.slot i) ∧
      (t.chan port.val c).lastAcc = hdr.seq.toNat ∧ (t.chan port.val c).lastEmit = (x.lastEmit + 1) % 2 ^ 32 ∧
      t.outputs = s.outputs ++ [.osp port.val c ((x.lastEmit + 1) % 2 ^ 32) src
        (if subSeq.toNat = 0xFFFFFFFF then s.deviceStatus else s.requestStatus subSeq (s.slotOfChan port.val c subSeq))])) ∧
    (∀ (replayFrom flags : W32), s.portOn port.val = true → hdr.magic = 0x534F → hdr.version = 1 → x.pend = none → hdr.ack = 0 →
      let kept := s.replay.filter (fun e => e.1 == port.val && e.2.1 == c)
      let oldest := (kept.head?.map (fun e => e.2.2.1)).getD 0
      let q := (x.lastEmit + 1) % 2 ^ 32
      (c < 1024 → flags.getLsbD 0 = true → Completes (.resync port src hdr replayFrom flags) s (fun t =>
        (t.chan port.val c).isOpen = true ∧ (t.chan port.val c).addr = src ∧ (t.chan port.val c).lastAcc = hdr.seq.toNat ∧
        t.outputs = s.outputs ++ [.osp port.val c q src (.resyncReply x.lastAcc x.lastEmit oldest false)])) ∧
      (c < 1024 → flags.getLsbD 0 = false → x.isOpen = true → samePeer x.addr src = true →
        let gap := replayFrom.toNat != 0 && decide (replayFrom.toNat ≤ x.lost)
        Completes (.resync port src hdr replayFrom flags) s (fun t =>
          (t.chan port.val c).lastAcc = x.lastAcc ∧ (gap = true → t.fldOf (ethReg port.val .ethEvents) 1 1 = 1) ∧
          t.outputs = s.outputs ++ [.osp port.val c q src (.resyncReply x.lastAcc x.lastEmit oldest gap)] ++
            (if replayFrom = 0 then [] else (kept.filter (fun e => decide (replayFrom.toNat ≤ e.2.2.1))).map (fun e =>
              .osp port.val c e.2.2.1 src e.2.2.2)))) ∧
      (1024 ≤ c ∨ (flags.getLsbD 0 = false ∧ x.isOpen = false) → Completes (.resync port src hdr replayFrom flags) s (fun t =>
        Only [.reg (ethReg port.val .ethDropOsp)] s t ∧
        t.fldOf (ethReg port.val .ethDropOsp) 16 16 = min 65535 (s.fldOf (ethReg port.val .ethDropOsp) 16 16 + 1)))))

/-- A selection of an event its set has takes effect, and of another is refused with a firmware fault. A counter adds its cycle's events modulo 2^48 and sets OVF on a wrap. The reader is armed unless it is ARMED or READING, and when done writes the snapshot to its buffer and nothing else, numbers it, and lets a waiting THAW go. Log 48 holds the counter choices. -/
def Obligations.CountersAndReader : Prop :=
  (∀ (s : State) (port : Port) (addr : DevAddr) (data : W32) (k : RegKey), regAt addr.toNat = some k → k.reg = .ctrSel →
    (Accepts s port k data.toNat → Completes (.counterSelectWrite port addr data) s (fun t => Only [.reg k] s t ∧
      ∀ i < 32, (t.reg k).getLsbD i = bitAfter k.reg.row.fields (s.regN k) data.toNat i)) ∧
    (s.absent k = false → s.barred port k = false → eventOk k.die k.region (data.toNat % 256) = false →
      Completes (.counterSelectWrite port addr data) s (fun t => t.reg k = s.reg k ∧
        Faults 0x6001 none (addrDie k.addr) 0x87 k.addr s t))) ∧
  (∀ (s : State) (addr : DevAddr) (n : Fin 8) (e : Fin 11),
    let d := addrDie addr.toNat
    let r := addrRegion addr.toNat
    let lo := uReg d r .ctrValLo n.val
    let hi := uReg d r .ctrValHi n.val
    (RUnit.ctr.base d r).isSome = true → bit (s.regN (uReg d r .ctrSel n.val)) 8 = true →
    Completes (.counterWrap addr n e) s (fun t => Only [.reg lo, .reg hi, .reg (uReg d r .ctrStatus)] s t ∧
      t.pair lo hi = (s.pair lo hi + e.val) % 2 ^ 48 ∧
      (2 ^ 48 ≤ s.pair lo hi + e.val → t.fldOf (uReg d r .ctrStatus) n.val 1 = 1) ∧
      (s.pair lo hi + e.val < 2 ^ 48 → t.reg (uReg d r .ctrStatus) = s.reg (uReg d r .ctrStatus)))) ∧
  (∀ (s : State) (port : Port) (data : W32),
    let k := s.pReg 0x20E .ctrRdCtrl
    let st := s.pReg 0x20E .ctrRdStatus
    (Accepts s port k data.toNat → data.getLsbD 0 = true → Completes (.readerArm port data) s (fun t => Only [.reg k, .reg st] s t ∧
      t.fldOf st 0 2 = 1 ∧ t.fldOf k 0 1 = 1)) ∧
    (s.absent k = false → s.barred port k = false → s.fldOf st 0 2 = 1 ∨ s.fldOf st 0 2 = 2 → Completes (.readerArm port data) s (fun t =>
      t.reg k = s.reg k ∧ t.reg st = s.reg st ∧ Faults 0x6001 none (addrDie k.addr) 0x87 k.addr s t))) ∧
  (∀ s : State,
    let st := s.pReg 0x20E .ctrRdStatus
    let a := mkAddr s.prinDie 0 (s.fldOf (s.pReg 0x20E .ctrRdBuf) 6 19 * 64)
    (s.fldOf st 0 2 = 2 → Completes .readerDone s (fun t =>
      t.fldOf st 0 2 = 3 ∧ t.fldOf st 16 16 = (s.bow.readSeq + 1) % 2 ^ 16 ∧ t.bow.readSeq = s.bow.readSeq + 1 ∧
      t.bytes a s.snapshot.length = s.snapshot ∧ s.snapshot.length = 32 + 48 * s.fldOf (s.pReg 0x20E .ctrRdCount) 0 9 ∧
      (∀ i, i < a ∨ a + s.snapshot.length ≤ i → Memory.read t.mem i = Memory.read s.mem i) ∧
      t.bow.newq = s.bow.newq ++ (if s.bow.thawWaits then [.thaw] else []))) ∧
    (s.fldOf st 0 2 ≠ 2 → Completes .readerDone s (Only [] s)))

/-- OPEN with matching version and rings opens the session with empty rings and what waits for the host; otherwise its refusal is shown and recorded. CLOSE closes it and parks the host's requests of every partition at their next boundary. A heartbeat keeps it open and a missing one makes it STALE. An endpoint reset closes it, an access error ends it with its fault, and a BAR2 access out of range reads 0, is counted, and is recorded the first time. What waits at OPEN is log 45. -/
def Obligations.HostSessions : Prop :=
  ∀ s : State,
    let st := s.hif .hifStatus
    (∀ (port : Port) (data : W32), Accepts s port (s.hif .hifSessionCmd) data.toNat →
      (data.getLsbD 0 = true → data.getLsbD 1 = false → s.openRefusal = 0 → Completes (.sessionOpen port data) s (fun t =>
        t.session = 1 ∧ t.fldOf st 8 2 = 0 ∧ t.reg (s.hif .hifSqHead) = 0 ∧ t.reg (s.hif .hifSq0Tail) = 0 ∧ t.reg (s.hif .hifSq1Tail) = 0 ∧
        t.reg (s.hif .hifCqHead) = 0 ∧ t.fldOf (s.hif .hifCqTail) 0 12 = 0 ∧ t.fldOf (s.hif .hifCqTail) 12 1 = 1 ∧
        t.reg (s.hif .hifLastAcc) = s.reg (s.hif .hifLastAcc) ∧ t.reg (s.hif .hifLastEmit) = s.reg (s.hif .hifLastEmit) ∧
        t.host.hbSeen = s.bow.time ∧ t.host.waiting = s.openMsgs ∧ t.mem = s.mem ∧ ∀ i, t.slot i = s.slot i)) ∧
      (data.getLsbD 0 = true → data.getLsbD 1 = false → s.openRefusal ≠ 0 → Completes (.sessionOpen port data) s (fun t =>
        t.session = s.session ∧ t.fldOf st 8 2 = s.openRefusal ∧ t.fldOf (s.hif .hifEvents) 1 1 = 1 ∧
        Faults 0x7002 none s.prinDie 0x8B (s.regN (s.hif .hifSessionVer) + s.regN (s.hif .hifRingcfg) * 2 ^ 32) s t)) ∧
      (data.getLsbD 0 = false → data.getLsbD 1 = true → Completes (.sessionClose port data) s (fun t =>
        t.session = 0 ∧ (∀ i, t.slot i = s.slot i) ∧ t.mem = s.mem ∧
        (s.session = 1 → ∀ e ∈ s.parts, (t.part e.1).hostGated = true) ∧
        (s.session ≠ 1 → t.parts = s.parts) ∧ t.reg (s.hif .hifLastAcc) = s.reg (s.hif .hifLastAcc)))) ∧
    (∀ data : W32, Accepts s .pcie (s.hif .hifHeartbeat) data.toNat → Completes (.heartbeat .pcie data) s (fun t =>
      Only [.host, .reg st] s t ∧ t.host = { s.host with linkUp := true, hbSeen := s.bow.time } ∧
      t.session = (if s.session = 2 then 1 else s.session))) ∧
    (s.session = 1 → s.host.hbSeen + 1000000 * s.regN (s.hif .hifHbMs) ≤ s.bow.time → Completes .heartbeatStale s (fun t =>
      t.session = 2 ∧ t.fldOf (s.hif .hifEvents) 6 1 = 1 ∧ Faults 0x7007 none s.prinDie 0x8B s.host.hbSeen s t)) ∧
    (∀ c : EndpointCause, Completes (.endpointReset c) s (fun t =>
      t.session = 0 ∧ t.mem = s.mem ∧ (∀ i, t.slot i = s.slot i) ∧ (∀ p i, t.page p i = s.page p i) ∧ t.host.bodyFor = none ∧
      t.reg (s.hif .hifLastAcc) = s.reg (s.hif .hifLastAcc) ∧ t.reg (s.hif .hifLastEmit) = s.reg (s.hif .hifLastEmit) ∧
      (s.session = 1 → t.fldOf (s.hif .hifEvents) 0 1 = 1 ∧ Faults 0x7001 none s.prinDie 0x8B (causeCode c) s t) ∧
      (s.session ≠ 1 → ∀ d, t.die d = s.die d))) ∧
    (∀ (a : W64) (status : Byte), Completes (.hostAccessError a status) s (fun t =>
      t.session = 3 ∧ t.fldOf (s.hif .hifEvents) 4 1 = 1 ∧ (∀ i, t.slot i = s.slot i) ∧ t.mem = s.mem ∧
      Faults 0x7005 none s.prinDie 0x8B (a.toNat % 2 ^ 56 + status.toNat * 2 ^ 56) s t)) ∧
    (∀ (off : BitVec 30) (write : Bool), s.pcieUp = true → 0x80000 ≤ off.toNat ∨ s.boot.running = false → Completes (.bar2OutOfRange off write) s (fun t =>
      t.mem = s.mem ∧ t.fldOf (s.hif .hifErrcnt) 0 16 = min 65535 (s.fldOf (s.hif .hifErrcnt) 0 16 + 1) ∧
      (write = false → Tbl.find t.readOut .pcie = some 0) ∧ (write = true → t.readOut = s.readOut) ∧
      (s.host.bar2Seen = true → ∀ d, t.die d = s.die d) ∧
      (s.host.bar2Seen = false → t.fldOf (s.hif .hifEvents) 5 1 = 1 ∧ Faults 0x7006 none s.prinDie 0x8B (off.toNat + 2 * 2 ^ 32) s t)))

/-- A tail within the ring takes effect and one beyond it is dropped with a fault. The next entry by its number is taken: a malformed one only records (a SUBMIT is also answered with 0x08), one out of sequence only consumes its place; a SUBMIT asks for its body and is admitted with it; CANCEL, STATUS and RESUME answer as their service messages do, RESUME letting a parked request go on from the asked position; a BOLT_DATA entry of its chunk's length delivers its chunk. Which row reads an entry is log 45. -/
def Obligations.SubmissionRings : Prop :=
  ∀ s : State,
    (∀ (port : Port) (data : W32) (ring : Nat) (k : RegKey) (c : Instr),
      (ring = 0 ∧ k = s.hif .hifSq0Tail ∧ c = .sq0TailWrite port data) ∨ (ring = 1 ∧ k = s.hif .hifSq1Tail ∧ c = .sq1TailWrite port data) →
      Accepts s port k data.toNat →
      (data.toNat % 2 ^ 12 < s.ringSize ring → Completes c s (fun t => Only [.host, .reg k] s t ∧ t.fldOf k 0 12 = data.toNat % 2 ^ 12)) ∧
      (s.ringSize ring ≤ data.toNat % 2 ^ 12 → Completes c s (fun t => t.reg k = s.reg k ∧
        t.fldOf (s.hif .hifErrcnt) 0 16 = min 65535 (s.fldOf (s.hif .hifErrcnt) 0 16 + 1) ∧
        Faults 0x7004 none s.prinDie 0x8B (addrOff k.addr) s t))) ∧
    (∀ e : SqEntry,
      (∀ c ∈ [Instr.hostSubmit e, .hostCancel e, .hostStatus e, .hostResume e],
        (s.sqReads 0 = false → Completes c s (Only [] s)) ∧
        (s.sqReads 0 = true → e.seq.toNat ≠ hostNext (s.regN (s.hif .hifLastAcc)) → Completes c s (fun t =>
          Sq0Taken s t (s.regN (s.hif .hifLastAcc)) ∧ t.outputs = s.outputs ∧ (∀ i, t.slot i = s.slot i) ∧ t.host = s.host ∧
          Faults 0x7003 none s.prinDie 0x8B (hostNext (s.regN (s.hif .hifLastAcc)) + e.seq.toNat * 2 ^ 32) s t)) ∧
        (Sq0Fits s e → e.reserved ≠ 0 → Completes c s (fun t => Sq0Taken s t e.seq.toNat ∧ (∀ i, t.slot i = s.slot i) ∧
          t.host.waiting = s.host.waiting ++ (if e.type = 0x01 then [.done e.seq 0x08 false 0 0] else []) ∧
          Faults 0x7004 none s.prinDie 0x8B (s.sqHead 0) s t))) ∧
      (Sq0Fits s e → entryOk e = true → e.type = 0x01 → Completes (.hostSubmit e) s (fun t => Sq0Taken s t e.seq.toNat ∧
        t.outputs = s.outputs ++ [.hostRead e.addr e.len.toNat] ∧ t.host = { s.host with bodyFor := some e.seq } ∧ ∀ i, t.slot i = s.slot i)) ∧
      (Sq0Fits s e → entryOk e = true → e.type = 0x02 → s.slotOfHost e.subSeq = none → Completes (.hostCancel e) s (fun t =>
        Sq0Taken s t e.seq.toNat ∧ (∀ i, t.slot i = s.slot i) ∧ t.host = { s.host with waiting := s.host.waiting ++ [.done e.subSeq 0x41 true 0 0] })) ∧
      (Sq0Fits s e → entryOk e = true → e.type = 0x02 → ∀ i, s.slotOfHost e.subSeq = some i → (s.slot i).state.live = true →
        (s.slot i).state ≠ .parked → (s.slot i).cancelReq = none → (s.part (s.slot i).part).idle = false → Completes (.hostCancel e) s (fun t =>
          Sq0Taken s t e.seq.toNat ∧ (t.slot i).cancelReq = some (s.bow.time, 0x30) ∧ (t.slot i).state = (s.slot i).state ∧
          (∀ j, j ≠ i → t.slot j = s.slot j) ∧ t.host = s.host)) ∧
      (Sq0Fits s e → entryOk e = true → e.type = 0x03 → Completes (.hostStatus e) s (fun t => Sq0Taken s t e.seq.toNat ∧
        (∀ i, t.slot i = s.slot i) ∧ t.host = { s.host with waiting := s.host.waiting ++
          [if e.subSeq.toNat = 0xFFFFFFFF then s.deviceStatus else s.requestStatus e.subSeq (s.slotOfHost e.subSeq)] })) ∧
      (Sq0Fits s e → entryOk e = true → e.type = 0x05 → e.subSeq.toNat ≠ 0xFFFFFFFF →
        (s.slotOfHost e.subSeq = none → Completes (.hostResume e) s (fun t => Sq0Taken s t e.seq.toNat ∧
          t.host = { s.host with waiting := s.host.waiting ++ [.done e.subSeq 0x41 true 0 0] })) ∧
        (∀ i, s.slotOfHost e.subSeq = some i → (s.slot i).state = .parked → (s.slot i).twin = none → (s.part (s.slot i).part).idle = false → Completes (.hostResume e) s (fun t =>
          Sq0Taken s t e.seq.toNat ∧ (∀ j, j ≠ i → t.slot j = s.slot j) ∧ (t.slot i).state = (s.slot i).prev ∧
          (t.slot i).ackPos = (if e.fromPos.toNat = 0xFFFFFFFF then (s.slot i).ackPos else max e.fromPos.toNat (s.slot i).promptLen) ∧
          t.host.waiting = s.host.waiting ++ (t.slot i).undeliveredMsgs)))) ∧
    (∀ (q : W32) (b : SubmitBody) (toks : List W32),
      (s.host.bodyFor ≠ some q → Completes (.hostSubmitBody q b toks) s (Only [] s)) ∧
      (s.host.bodyFor = some q → toks.length = promptTokens b → b.ctrl.toNat / 16 % 4 ≠ 2 → ∀ i rest,
        s.refusal b toks 0 = none → s.freeSlots (b.partition.toNat % 16) = i :: rest → Completes (.hostSubmitBody q b toks) s (fun t =>
          (t.slot i).state = .queued ∧ (t.slot i).host = true ∧ (t.slot i).subSeq = q ∧ (t.slot i).promptLen = promptTokens b ∧
          (∀ j, j ≠ i → t.slot j = s.slot j) ∧ t.host = { s.host with bodyFor := none }))) ∧
    (∀ (e : SqEntry) (data : List Byte), s.sqReads 1 = true →
      (∀ (f : Fetch) (c : Chunk), e.type = 0x11 → entryOk e = true → e.len.toNat = data.length → s.fetchFor (fun x => x.kind == 2) e.boltId e.chunk.toNat = some f →
        s.fetches = [f] → f.isLoad = false → f.chunk ≠ manifestChunk → (s.part f.part).chunkOf f.boltId f.chunk = some c → c.digestOk data = true →
        (c.type = 1 → imageLegal c.fmt data = true) → s.childAsks = [] →
        c.type ≠ 2 → s.object f.boltId f.chunk = none → (∀ p : PartIdx, (s.part p.val).load = none) → Completes (.hostBoltData e data) s (fun t =>
          t.sqHead 1 = (s.sqHead 1 + 1) % s.ringSize 1 % 4096 ∧ t.fetches = [] ∧ t.object f.boltId f.chunk = some data ∧
          t.outputs = s.outputs ++ [.hostRead e.addr e.len.toNat] ++ s.start.children.map (fun g => .forward g f.boltId f.chunk data))) ∧
      (e.type ≠ 0x11 ∨ entryOk e = false ∨ s.fetchFor (fun x => x.kind == 2) e.boltId e.chunk.toNat = none →
        Completes (.hostBoltData e data) s (fun t => t.sqHead 1 = (s.sqHead 1 + 1) % s.ringSize 1 % 4096 ∧ t.fetches = s.fetches ∧
          t.outputs = s.outputs ∧ Faults 0x7004 none s.prinDie 0x8B (s.sqHead 1 + 2 ^ 32) s t)))

/-- The next waiting message is written to the completion ring, with number and phase, unless the ring is full; a head within the ring frees its entries and acknowledges the tokens in them, and one beyond is dropped with a fault. The status block is written when due. A parked host request is freed with reason 0x31 when its orphan hold is over, and not before. Their order is log 45. -/
def Obligations.CompletionRing : Prop :=
  ∀ s : State,
    (∀ (m : Msg) (l : List Msg), s.host.waiting = m :: l → s.pcieUp = true → s.session = 1 →
      let i := s.fldOf (s.hif .hifCqTail) 0 12
      let ph := s.fldOf (s.hif .hifCqTail) 12 1
      let i' := (i + 1) % s.ringSize 2
      let q := hostNext (s.regN (s.hif .hifLastEmit))
      (i' = s.fldOf (s.hif .hifCqHead) 0 12 → Completes .cqEntryWrite s (Only [] s)) ∧
      (i' ≠ s.fldOf (s.hif .hifCqHead) 0 12 → s.ringSize 2 ≤ 4096 → Completes .cqEntryWrite s (fun t =>
        Only [.host, .outputs, .reg (s.hif .hifCqTail), .reg (s.hif .hifLastEmit)] s t ∧
        t.fldOf (s.hif .hifCqTail) 0 12 = i' ∧ t.fldOf (s.hif .hifCqTail) 12 1 = (if i' = 0 then 1 - ph else ph) ∧
        t.regN (s.hif .hifLastEmit) = q ∧ t.host = { s.host with waiting := l, inCq := s.host.inCq ++ [(i, m)] } ∧
        t.outputs = s.outputs ++ [.cq i q (ph == 1) m]))) ∧
    (∀ (port : Port) (data : W32) (i q first : Nat) (sub : W32) (toks : List Nat) (text : List Byte),
      let k := s.hif .hifCqHead
      Accepts s port k data.toNat →
      (s.ringSize 2 ≤ data.toNat % 2 ^ 12 → Completes (.cqHeadWrite port data) s (fun t => t.reg k = s.reg k ∧
        Faults 0x7004 none s.prinDie 0x8B (addrOff k.addr) s t)) ∧
      (data.toNat % 2 ^ 12 < s.ringSize 2 → (∀ p : PartIdx, (s.part p.val).idle = false) → s.fldOf k 0 12 = i → i < s.ringSize 2 →
        data.toNat % 2 ^ 12 = (i + 1) % s.ringSize 2 → 1 < s.ringSize 2 → s.host.inCq = [(i, .tokens sub first toks text)] → s.slotOfHost sub = some q →
        Completes (.cqHeadWrite port data) s (fun t => Only [.host, .reg k, .slot q] s t ∧ t.fldOf k 0 12 = data.toNat % 2 ^ 12 ∧
          t.host.inCq = [] ∧ t.slot q = { s.slot q with ackPos := first + toks.length }))) ∧
    (s.pcieUp = true → s.session = 1 ∨ s.session = 2 → s.host.sbDue ≤ s.bow.time → Completes .statusBlockWrite s (fun t =>
      Only [.host, .outputs] s t ∧ t.outputs = s.outputs ++ [s.statusBlock] ∧
      t.host = { s.host with sbDue := s.bow.time + 1000 * s.fldOf (s.hif .hifRingcfg) 16 10 })) ∧
    (∀ i : SlotIdx, (s.slot i.val).host = true → (s.slot i.val).state = .parked →
      (s.bow.time < (s.slot i.val).parkTime + 1000000000 * s.regN (s.hif .hifOrphanS) → Completes (.orphanHoldExpiry i) s (Only [] s)) ∧
      ((s.slot i.val).parkTime + 1000000000 * s.regN (s.hif .hifOrphanS) ≤ s.bow.time → (s.slot i.val).twinOf = none → (s.slot i.val).twin = none →
        (s.part (s.slot i.val).part).outgoing = [] → Completes (.orphanHoldExpiry i) s (fun t => (t.slot i.val).state = .free ∧
          t.host.waiting = s.host.waiting ++ [.done (s.slot i.val).subSeq 0x31 false (s.slot i.val).genLen (s.slot i.val).matched])))
end

