-- ==== Sys2Proof/Laws/Memory.lean ====
section
/-!
SUPPORT. The laws of the one memory and of the sparse tables: every memory operation keeps the canonical form, a byte
written reads back, every other byte is as before, and two canonical memories that read alike are equal.
-/

namespace Sys2Proof.Machine

/-! ## Sparse tables -/

@[simp] theorem Tbl.find_put_same {κ α : Type} [DecidableEq κ] (t : Tbl κ α) (k : κ) (v : α) :
    Tbl.find (Tbl.put t k v) k = some v := by
  induction t with
  | nil => simp [Tbl.put, Tbl.find]
  | cons e r ih =>
    obtain ⟨k', v'⟩ := e
    by_cases h : k' = k <;> simp [Tbl.put, Tbl.find, h, ih]

theorem Tbl.find_put_other {κ α : Type} [DecidableEq κ] (t : Tbl κ α) {k j : κ} (v : α) (h : j ≠ k) :
    Tbl.find (Tbl.put t k v) j = Tbl.find t j := by
  induction t with
  | nil => simp [Tbl.put, Tbl.find, Ne.symm h]
  | cons e r ih =>
    obtain ⟨k', v'⟩ := e
    by_cases hk : k' = k
    · subst hk; simp [Tbl.put, Tbl.find, Ne.symm h]
    · simp only [Tbl.put, if_neg hk, Tbl.find, ih]

@[simp] theorem Tbl.get_put_same {κ α : Type} [DecidableEq κ] (t : Tbl κ α) (k : κ) (v d : α) :
    Tbl.get (Tbl.put t k v) k d = v := by simp [Tbl.get]

theorem Tbl.get_put_other {κ α : Type} [DecidableEq κ] (t : Tbl κ α) {k j : κ} (v d : α) (h : j ≠ k) :
    Tbl.get (Tbl.put t k v) j d = Tbl.get t j d := by simp [Tbl.get, Tbl.find_put_other t v h]

theorem Tbl.get_put {κ α : Type} [DecidableEq κ] (t : Tbl κ α) (k j : κ) (v d : α) :
    Tbl.get (Tbl.put t k v) j d = if j = k then v else Tbl.get t j d := by
  by_cases h : j = k
  · subst h; simp
  · simp [h, Tbl.get_put_other t v d h]

@[simp] theorem Tbl.find_del_same {κ α : Type} [DecidableEq κ] (t : Tbl κ α) (k : κ) : Tbl.find (Tbl.del t k) k = none := by
  induction t with
  | nil => rfl
  | cons e r ih =>
    obtain ⟨k', v'⟩ := e
    by_cases h : k' = k <;> simp [Tbl.del, Tbl.find, h, ih]

/-! ## The memory -/

/-- The canonical form as a pairwise order and a bound on every entry. -/
theorem Memory.above_iff (lo : Nat) (m : List Host.Cell) :
    Memory.above lo m = true ↔
      m.Pairwise (fun a b => a.1 < b.1) ∧ (∀ c ∈ m, c.2 ≠ Memory.blank) ∧ ∀ c ∈ m, lo < c.1 := by
  induction m generalizing lo with
  | nil => simp [Memory.above]
  | cons e r ih =>
    obtain ⟨c, d⟩ := e
    simp only [Memory.above, Bool.and_eq_true, decide_eq_true_eq, ih, List.pairwise_cons, List.mem_cons, forall_eq_or_imp]
    constructor
    · rintro ⟨⟨h1, h2⟩, h3, h4, h5⟩
      exact ⟨⟨h5, h3⟩, ⟨h2, h4⟩, h1, fun x hx => lt_trans h1 (h5 x hx)⟩
    · rintro ⟨⟨h5, h3⟩, ⟨h2, h4⟩, h1, _⟩
      exact ⟨⟨h1, h2⟩, h3, h4, h5⟩

theorem Memory.wf_iff (m : List Host.Cell) :
    Memory.wf m = true ↔ m.Pairwise (fun a b => a.1 < b.1) ∧ ∀ c ∈ m, c.2 ≠ Memory.blank := by
  cases m with
  | nil => simp [Memory.wf]
  | cons e r =>
    obtain ⟨c, d⟩ := e
    simp only [Memory.wf, Bool.and_eq_true, decide_eq_true_eq, Memory.above_iff, List.pairwise_cons, List.mem_cons,
      forall_eq_or_imp]
    constructor
    · rintro ⟨h2, h3, h4, h5⟩; exact ⟨⟨h5, h3⟩, h2, h4⟩
    · rintro ⟨⟨h5, h3⟩, h2, h4⟩; exact ⟨h2, h3, h4, h5⟩

/-- What the cells of consecutive bytes are. -/
theorem Memory.cells_spec (a : Nat) (l : List Byte) :
    (Memory.cells a l).Pairwise (fun x y => x.1 < y.1) ∧
      ∀ c ∈ Memory.cells a l, a ≤ c.1 ∧ c.1 < a + l.length ∧ c.2 ≠ Memory.blank := by
  induction l generalizing a with
  | nil => simp [Memory.cells]
  | cons b r ih =>
    obtain ⟨h1, h2⟩ := ih (a + 1)
    have up : ∀ c ∈ Memory.cells (a + 1) r, a ≤ c.1 ∧ c.1 < a + (b :: r).length ∧ c.2 ≠ Memory.blank := by
      intro c hc
      obtain ⟨x, y, z⟩ := h2 c hc
      exact ⟨by omega, by simp; omega, z⟩
    by_cases hb : b = Memory.blank
    · simp only [Memory.cells, hb, if_true]; exact ⟨h1, by simpa [hb] using up⟩
    · simp only [Memory.cells, hb, if_false, List.pairwise_cons, List.mem_cons]
      refine ⟨⟨fun c hc => ?_, h1⟩, ?_⟩
      · have := (h2 c hc).1; show a < c.1; omega
      · rintro c (rfl | hc)
        · exact ⟨le_refl _, by simp, hb⟩
        · exact up c hc

/-- Every write keeps the canonical form. -/
theorem Memory.wf_writeN {m : List Host.Cell} (h : Memory.wf m = true) (a : Nat) (l : List Byte) :
    Memory.wf (Memory.writeN m a l) = true := by
  rw [Memory.wf_iff] at h ⊢
  obtain ⟨hp, hb⟩ := h
  obtain ⟨c1, c2⟩ := Memory.cells_spec a l
  refine ⟨?_, ?_⟩
  · simp only [Memory.writeN, List.append_assoc]
    rw [List.pairwise_append, List.pairwise_append]
    refine ⟨hp.filter _, ⟨c1, hp.filter _, ?_⟩, ?_⟩
    · intro x hx y hy
      have := (c2 x hx).2.1
      simp at hy; omega
    · intro x hx y hy
      simp only [List.mem_filter, decide_eq_true_eq, List.mem_append] at hx hy
      rcases hy with hy | ⟨_, hy⟩
      · have := (c2 y hy).1; omega
      · omega
  · intro c hc
    simp only [Memory.writeN, List.mem_append, List.mem_filter] at hc
    rcases hc with (⟨hc, _⟩ | hc) | ⟨hc, _⟩
    · exact hb c hc
    · exact (c2 c hc).2.2
    · exact hb c hc

theorem Memory.read_append (m n : List Host.Cell) (x : Nat) (h : ∀ c ∈ m, c.1 ≠ x) :
    Memory.read (m ++ n) x = Memory.read n x := by
  induction m with
  | nil => rfl
  | cons e r ih =>
    obtain ⟨c, d⟩ := e
    have hc : c ≠ x := h (c, d) (by simp)
    simp only [List.cons_append, Memory.read, hc, if_false]
    exact ih (fun c hc => h c (by simp [hc]))

theorem Memory.read_append_none (m n : List Host.Cell) (x : Nat) (h : ∀ c ∈ n, c.1 ≠ x) :
    Memory.read (m ++ n) x = Memory.read m x := by
  induction m with
  | nil =>
    have := Memory.read_append n [] x h
    simpa [Memory.read] using this
  | cons e r ih =>
    obtain ⟨c, d⟩ := e
    simp only [List.cons_append, Memory.read, ih]

theorem Memory.read_filter (m : List Host.Cell) (p : Nat → Bool) (x : Nat) (hx : p x = true) :
    Memory.read (m.filter (fun c => p c.1)) x = Memory.read m x := by
  induction m with
  | nil => rfl
  | cons e r ih =>
    obtain ⟨c, d⟩ := e
    by_cases hc : c = x
    · subst hc; simp [hx, Memory.read]
    · by_cases hp : p c = true <;> simp [hp, Memory.read, hc, ih]

/-- A write leaves every byte outside it as it was. -/
theorem Memory.read_writeN_other (m : List Host.Cell) (a : Nat) (l : List Byte) (x : Nat) (h : x < a ∨ a + l.length ≤ x) :
    Memory.read (Memory.writeN m a l) x = Memory.read m x := by
  have hc := (Memory.cells_spec a l).2
  unfold Memory.writeN
  rcases h with h | h
  · rw [List.append_assoc, Memory.read_append_none]
    · exact Memory.read_filter m (fun y => decide (y < a)) x (by simpa using h)
    · intro c hm
      rcases List.mem_append.mp hm with hm | hm
      · have := (hc c hm).1; omega
      · simp at hm; omega
  · rw [Memory.read_append]
    · exact Memory.read_filter m (fun y => decide (a + l.length ≤ y)) x (by simpa using h)
    · intro c hm
      rcases List.mem_append.mp hm with hm | hm
      · simp at hm; omega
      · have := (hc c hm).2.1; omega

theorem Memory.read_cells (a : Nat) (l : List Byte) (i : Nat) (h : i < l.length) :
    Memory.read (Memory.cells a l) (a + i) = l[i] := by
  induction l generalizing a i with
  | nil => simp at h
  | cons b r ih =>
    cases i with
    | zero =>
      by_cases hb : b = Memory.blank
      · have := Memory.read_append_none [] (Memory.cells (a + 1) r) a (by
          intro c hc; have := ((Memory.cells_spec (a + 1) r).2 c hc).1; omega)
        simpa [Memory.cells, hb, Memory.read] using this
      · simp [Memory.cells, hb, Memory.read]
    | succ j =>
      have hj : j < r.length := by simpa using h
      have e : a + (j + 1) = (a + 1) + j := by omega
      by_cases hb : b = Memory.blank
      · simp only [Memory.cells, hb, if_true, List.getElem_cons_succ]; rw [e]; exact ih (a + 1) j hj
      · have ne : a ≠ a + (j + 1) := by omega
        simp only [Memory.cells, hb, if_false, List.getElem_cons_succ, Memory.read, ne]; rw [e]; exact ih (a + 1) j hj

/-- Every byte written reads back. -/
theorem Memory.read_writeN_in (m : List Host.Cell) (a : Nat) (l : List Byte) (i : Nat) (h : i < l.length) :
    Memory.read (Memory.writeN m a l) (a + i) = l[i] := by
  unfold Memory.writeN
  rw [List.append_assoc, Memory.read_append, Memory.read_append_none, Memory.read_cells a l i h]
  · intro c hm; simp at hm; omega
  · intro c hm; simp at hm; omega

theorem Memory.readN_eq (m : List Host.Cell) (a n : Nat) :
    Memory.readN m a n = (List.range n).map (fun i => Memory.read m (a + i)) := by
  induction n generalizing a with
  | zero => rfl
  | succ n ih =>
    rw [Memory.readN, ih, List.range_succ_eq_map]
    simp only [List.map_cons, Nat.add_zero, List.map_map, List.cons.injEq, true_and]
    apply List.map_congr_left
    intro i _
    show Memory.read m (a + 1 + i) = Memory.read m (a + (i + 1))
    congr 1; omega

@[simp] theorem Memory.readN_length (m : List Host.Cell) (a n : Nat) : (Memory.readN m a n).length = n := by
  simp [Memory.readN_eq]

/-- What a write stored is what a read of the same bytes gives. -/
theorem Memory.readN_writeN (m : List Host.Cell) (a : Nat) (l : List Byte) :
    Memory.readN (Memory.writeN m a l) a l.length = l := by
  rw [Memory.readN_eq]
  apply List.ext_getElem (by simp)
  intro i h1 h2
  simp [Memory.read_writeN_in m a l i h2]

/-- A read that meets no written byte is as before. -/
theorem Memory.readN_writeN_other (m : List Host.Cell) (a : Nat) (l : List Byte) (x n : Nat)
    (h : x + n ≤ a ∨ a + l.length ≤ x) : Memory.readN (Memory.writeN m a l) x n = Memory.readN m x n := by
  rw [Memory.readN_eq, Memory.readN_eq]
  apply List.map_congr_left
  intro i hi
  have := List.mem_range.mp hi
  exact Memory.read_writeN_other m a l (x + i) (by omega)

theorem Memory.mem_of_read {m : List Host.Cell} {x : Nat} (h : Memory.read m x ≠ Memory.blank) :
    (x, Memory.read m x) ∈ m := by
  induction m with
  | nil => simp [Memory.read] at h
  | cons e r ih =>
    obtain ⟨c, d⟩ := e
    by_cases hc : c = x
    · subst hc; simp [Memory.read]
    · simp only [Memory.read, hc, if_false] at h ⊢
      exact List.mem_cons_of_mem _ (ih h)

theorem Memory.read_of_mem {m : List Host.Cell} (h : m.Pairwise (fun a b => a.1 < b.1)) {c : Host.Cell} (hc : c ∈ m) :
    Memory.read m c.1 = c.2 := by
  induction m with
  | nil => simp at hc
  | cons e r ih =>
    obtain ⟨k, d⟩ := e
    rw [List.pairwise_cons] at h
    rcases List.mem_cons.mp hc with rfl | hc
    · simp [Memory.read]
    · have hk : k < c.1 := h.1 c hc
      simp [Memory.read, hk.ne, ih h.2 hc]

/-- Two canonical memories that read alike are equal. -/
theorem Memory.ext {m n : List Host.Cell} (hm : Memory.wf m = true) (hn : Memory.wf n = true)
    (h : ∀ x, Memory.read m x = Memory.read n x) : m = n := by
  rw [Memory.wf_iff] at hm hn
  have key : ∀ {u v : List Host.Cell}, u.Pairwise (fun a b => a.1 < b.1) → (∀ c ∈ u, c.2 ≠ Memory.blank) →
      (∀ x, Memory.read u x = Memory.read v x) → ∀ c ∈ u, c ∈ v := by
    intro u v hu hb hr c hc
    have e := Memory.read_of_mem hu hc
    have e2 : Memory.read v c.1 = c.2 := by rw [← hr]; exact e
    have := Memory.mem_of_read (m := v) (x := c.1) (by rw [e2]; exact hb c hc)
    rw [e2] at this; exact this
  have p : m.Perm n := by
    rw [List.perm_ext_iff_of_nodup]
    · exact fun c => ⟨key hm.1 hm.2 h c, key hn.1 hn.2 (fun x => (h x).symm) c⟩
    · exact hm.1.imp (fun h e => by rw [e] at h; exact lt_irrefl _ h)
    · exact hn.1.imp (fun h e => by rw [e] at h; exact lt_irrefl _ h)
  exact p.eq_of_pairwise (le := fun a b => a.1 < b.1) (fun a b _ _ h1 h2 => absurd h1 (lt_asymm h2)) hm.1 hn.1

/-! ## Bytes of a state -/

@[simp] theorem State.poisonOn_mem (s : State) (a n : Nat) : (s.poisonOn a n).mem = s.mem := rfl
@[simp] theorem State.poisonOff_mem (s : State) (a n : Nat) : (s.poisonOff a n).mem = s.mem := rfl

/-- What writing bytes does to the memory, poisoned or good. -/
@[simp] theorem State.setBytesP_mem (s : State) (a : Nat) (b : List Byte) (p : Bool) :
    (s.setBytesP a b p).mem = Memory.writeN s.mem a b := by
  cases p <;> rfl

@[simp] theorem State.setBytes_mem (s : State) (a : Nat) (b : List Byte) :
    (s.setBytes a b).mem = Memory.writeN s.mem a b := rfl

theorem State.bytes_setBytes (s : State) (a : Nat) (b : List Byte) : (s.setBytes a b).bytes a b.length = b := by
  simp [State.bytes, Memory.readN_writeN]

theorem State.setBytes_wf {s : State} (h : Memory.wf s.mem = true) (a : Nat) (b : List Byte) :
    Memory.wf (s.setBytes a b).mem = true := Memory.wf_writeN h a b

end Sys2Proof.Machine
end

