-- ==== Sys2Proof/Laws/State.lean ====
section
/-!
SUPPORT. What each update of the state changes: one lemma per field, true by definition, and what each accessor reads after it.
-/

namespace Sys2Proof.Machine

/-! ## setReg -/

@[simp] theorem State.setReg_pending (s : State) (k : RegKey) (v : W32) : (s.setReg k v).pending = s.pending := rfl
@[simp] theorem State.setReg_snaps (s : State) (k : RegKey) (v : W32) : (s.setReg k v).snaps = s.snaps := rfl
@[simp] theorem State.setReg_loHeld (s : State) (k : RegKey) (v : W32) : (s.setReg k v).loHeld = s.loHeld := rfl
@[simp] theorem State.setReg_readOut (s : State) (k : RegKey) (v : W32) : (s.setReg k v).readOut = s.readOut := rfl
@[simp] theorem State.setReg_mem (s : State) (k : RegKey) (v : W32) : (s.setReg k v).mem = s.mem := rfl
@[simp] theorem State.setReg_poison (s : State) (k : RegKey) (v : W32) : (s.setReg k v).poison = s.poison := rfl
@[simp] theorem State.setReg_badScale (s : State) (k : RegKey) (v : W32) : (s.setReg k v).badScale = s.badScale := rfl
@[simp] theorem State.setReg_tiles (s : State) (k : RegKey) (v : W32) : (s.setReg k v).tiles = s.tiles := rfl
@[simp] theorem State.setReg_arrays (s : State) (k : RegKey) (v : W32) : (s.setReg k v).arrays = s.arrays := rfl
@[simp] theorem State.setReg_dies (s : State) (k : RegKey) (v : W32) : (s.setReg k v).dies = s.dies := rfl
@[simp] theorem State.setReg_parts (s : State) (k : RegKey) (v : W32) : (s.setReg k v).parts = s.parts := rfl
@[simp] theorem State.setReg_slots (s : State) (k : RegKey) (v : W32) : (s.setReg k v).slots = s.slots := rfl
@[simp] theorem State.setReg_slotRec (s : State) (k : RegKey) (v : W32) : (s.setReg k v).slotRec = s.slotRec := rfl
@[simp] theorem State.setReg_admitSeq (s : State) (k : RegKey) (v : W32) : (s.setReg k v).admitSeq = s.admitSeq := rfl
@[simp] theorem State.setReg_pages (s : State) (k : RegKey) (v : W32) : (s.setReg k v).pages = s.pages := rfl
@[simp] theorem State.setReg_index (s : State) (k : RegKey) (v : W32) : (s.setReg k v).index = s.index := rfl
@[simp] theorem State.setReg_coldUsed (s : State) (k : RegKey) (v : W32) : (s.setReg k v).coldUsed = s.coldUsed := rfl
@[simp] theorem State.setReg_pfxCache (s : State) (k : RegKey) (v : W32) : (s.setReg k v).pfxCache = s.pfxCache := rfl
@[simp] theorem State.setReg_cache (s : State) (k : RegKey) (v : W32) : (s.setReg k v).cache = s.cache := rfl
@[simp] theorem State.setReg_cacheMiss (s : State) (k : RegKey) (v : W32) : (s.setReg k v).cacheMiss = s.cacheMiss := rfl
@[simp] theorem State.setReg_unmerged (s : State) (k : RegKey) (v : W32) : (s.setReg k v).unmerged = s.unmerged := rfl
@[simp] theorem State.setReg_staging (s : State) (k : RegKey) (v : W32) : (s.setReg k v).staging = s.staging := rfl
@[simp] theorem State.setReg_fetches (s : State) (k : RegKey) (v : W32) : (s.setReg k v).fetches = s.fetches := rfl
@[simp] theorem State.setReg_childAsks (s : State) (k : RegKey) (v : W32) : (s.setReg k v).childAsks = s.childAsks := rfl
@[simp] theorem State.setReg_start (s : State) (k : RegKey) (v : W32) : (s.setReg k v).start = s.start := rfl
@[simp] theorem State.setReg_lanes (s : State) (k : RegKey) (v : W32) : (s.setReg k v).lanes = s.lanes := rfl
@[simp] theorem State.setReg_chans (s : State) (k : RegKey) (v : W32) : (s.setReg k v).chans = s.chans := rfl
@[simp] theorem State.setReg_replay (s : State) (k : RegKey) (v : W32) : (s.setReg k v).replay = s.replay := rfl
@[simp] theorem State.setReg_lasers (s : State) (k : RegKey) (v : W32) : (s.setReg k v).lasers = s.lasers := rfl
@[simp] theorem State.setReg_bow (s : State) (k : RegKey) (v : W32) : (s.setReg k v).bow = s.bow := rfl
@[simp] theorem State.setReg_power (s : State) (k : RegKey) (v : W32) : (s.setReg k v).power = s.power := rfl
@[simp] theorem State.setReg_steward (s : State) (k : RegKey) (v : W32) : (s.setReg k v).steward = s.steward := rfl
@[simp] theorem State.setReg_sensors (s : State) (k : RegKey) (v : W32) : (s.setReg k v).sensors = s.sensors := rfl
@[simp] theorem State.setReg_conf (s : State) (k : RegKey) (v : W32) : (s.setReg k v).conf = s.conf := rfl
@[simp] theorem State.setReg_boot (s : State) (k : RegKey) (v : W32) : (s.setReg k v).boot = s.boot := rfl
@[simp] theorem State.setReg_fuses (s : State) (k : RegKey) (v : W32) : (s.setReg k v).fuses = s.fuses := rfl
@[simp] theorem State.setReg_flash (s : State) (k : RegKey) (v : W32) : (s.setReg k v).flash = s.flash := rfl
@[simp] theorem State.setReg_recovery (s : State) (k : RegKey) (v : W32) : (s.setReg k v).recovery = s.recovery := rfl
@[simp] theorem State.setReg_host (s : State) (k : RegKey) (v : W32) : (s.setReg k v).host = s.host := rfl
@[simp] theorem State.setReg_central (s : State) (k : RegKey) (v : W32) : (s.setReg k v).central = s.central := rfl
@[simp] theorem State.setReg_centralN (s : State) (k : RegKey) (v : W32) : (s.setReg k v).centralN = s.centralN := rfl
@[simp] theorem State.setReg_shadow (s : State) (k : RegKey) (v : W32) : (s.setReg k v).shadow = s.shadow := rfl
@[simp] theorem State.setReg_mesh (s : State) (k : RegKey) (v : W32) : (s.setReg k v).mesh = s.mesh := rfl
@[simp] theorem State.setReg_meshTurn (s : State) (k : RegKey) (v : W32) : (s.setReg k v).meshTurn = s.meshTurn := rfl
@[simp] theorem State.setReg_refresh (s : State) (k : RegKey) (v : W32) : (s.setReg k v).refresh = s.refresh := rfl
@[simp] theorem State.setReg_deferred (s : State) (k : RegKey) (v : W32) : (s.setReg k v).deferred = s.deferred := rfl
@[simp] theorem State.setReg_timers (s : State) (k : RegKey) (v : W32) : (s.setReg k v).timers = s.timers := rfl
@[simp] theorem State.setReg_outputs (s : State) (k : RegKey) (v : W32) : (s.setReg k v).outputs = s.outputs := rfl
@[simp] theorem State.setReg_fresh (s : State) (k : RegKey) (v : W32) : (s.setReg k v).fresh = s.fresh := rfl

/-- Reading after `setReg`. -/
theorem State.reg_setReg (s : State) (k : RegKey) (v : W32) (k2 : RegKey) :
    (s.setReg k v).reg k2 = if k2 = k then v else s.reg k2 := by
  simp only [State.setReg, State.reg, Tbl.get_put]

@[simp] theorem State.reg_setReg_same (s : State) (k : RegKey) (v : W32) : (s.setReg k v).reg k = v := by
  simp only [State.setReg, State.reg, Tbl.get_put_same]
@[simp] theorem State.tile_setReg (s : State) (k : RegKey) (v : W32) (t2 : TileId) : (s.setReg k v).tile t2 = s.tile t2 := rfl
@[simp] theorem State.arr_setReg (s : State) (k : RegKey) (v : W32) (a2 : ArrayId) : (s.setReg k v).arr a2 = s.arr a2 := rfl
@[simp] theorem State.die_setReg (s : State) (k : RegKey) (v : W32) (d2 : Nat) : (s.setReg k v).die d2 = s.die d2 := rfl
@[simp] theorem State.part_setReg (s : State) (k : RegKey) (v : W32) (p2 : Nat) : (s.setReg k v).part p2 = s.part p2 := rfl
@[simp] theorem State.slot_setReg (s : State) (k : RegKey) (v : W32) (i2 : Nat) : (s.setReg k v).slot i2 = s.slot i2 := rfl
@[simp] theorem State.page_setReg (s : State) (k : RegKey) (v : W32) (p2 i2 : Nat) : (s.setReg k v).page p2 i2 = s.page p2 i2 := rfl
@[simp] theorem State.idx_setReg (s : State) (k : RegKey) (v : W32) (e2 : Nat × Nat) : (s.setReg k v).idx e2 = s.idx e2 := rfl
@[simp] theorem State.lane_setReg (s : State) (k : RegKey) (v : W32) (l2 n2 : Nat) : (s.setReg k v).lane l2 n2 = s.lane l2 n2 := rfl
@[simp] theorem State.chan_setReg (s : State) (k : RegKey) (v : W32) (q2 c2 : Nat) : (s.setReg k v).chan q2 c2 = s.chan q2 c2 := rfl
@[simp] theorem State.laser_setReg (s : State) (k : RegKey) (v : W32) (m2 : Nat) : (s.setReg k v).laser m2 = s.laser m2 := rfl
@[simp] theorem State.sensor_setReg (s : State) (k : RegKey) (v : W32) (b2 : Nat) : (s.setReg k v).sensor b2 = s.sensor b2 := rfl

/-! ## setTile -/

@[simp] theorem State.setTile_pending (s : State) (t : TileId) (x : Tile) : (s.setTile t x).pending = s.pending := rfl
@[simp] theorem State.setTile_regs (s : State) (t : TileId) (x : Tile) : (s.setTile t x).regs = s.regs := rfl
@[simp] theorem State.setTile_snaps (s : State) (t : TileId) (x : Tile) : (s.setTile t x).snaps = s.snaps := rfl
@[simp] theorem State.setTile_loHeld (s : State) (t : TileId) (x : Tile) : (s.setTile t x).loHeld = s.loHeld := rfl
@[simp] theorem State.setTile_readOut (s : State) (t : TileId) (x : Tile) : (s.setTile t x).readOut = s.readOut := rfl
@[simp] theorem State.setTile_mem (s : State) (t : TileId) (x : Tile) : (s.setTile t x).mem = s.mem := rfl
@[simp] theorem State.setTile_poison (s : State) (t : TileId) (x : Tile) : (s.setTile t x).poison = s.poison := rfl
@[simp] theorem State.setTile_badScale (s : State) (t : TileId) (x : Tile) : (s.setTile t x).badScale = s.badScale := rfl
@[simp] theorem State.setTile_arrays (s : State) (t : TileId) (x : Tile) : (s.setTile t x).arrays = s.arrays := rfl
@[simp] theorem State.setTile_dies (s : State) (t : TileId) (x : Tile) : (s.setTile t x).dies = s.dies := rfl
@[simp] theorem State.setTile_parts (s : State) (t : TileId) (x : Tile) : (s.setTile t x).parts = s.parts := rfl
@[simp] theorem State.setTile_slots (s : State) (t : TileId) (x : Tile) : (s.setTile t x).slots = s.slots := rfl
@[simp] theorem State.setTile_slotRec (s : State) (t : TileId) (x : Tile) : (s.setTile t x).slotRec = s.slotRec := rfl
@[simp] theorem State.setTile_admitSeq (s : State) (t : TileId) (x : Tile) : (s.setTile t x).admitSeq = s.admitSeq := rfl
@[simp] theorem State.setTile_pages (s : State) (t : TileId) (x : Tile) : (s.setTile t x).pages = s.pages := rfl
@[simp] theorem State.setTile_index (s : State) (t : TileId) (x : Tile) : (s.setTile t x).index = s.index := rfl
@[simp] theorem State.setTile_coldUsed (s : State) (t : TileId) (x : Tile) : (s.setTile t x).coldUsed = s.coldUsed := rfl
@[simp] theorem State.setTile_pfxCache (s : State) (t : TileId) (x : Tile) : (s.setTile t x).pfxCache = s.pfxCache := rfl
@[simp] theorem State.setTile_cache (s : State) (t : TileId) (x : Tile) : (s.setTile t x).cache = s.cache := rfl
@[simp] theorem State.setTile_cacheMiss (s : State) (t : TileId) (x : Tile) : (s.setTile t x).cacheMiss = s.cacheMiss := rfl
@[simp] theorem State.setTile_unmerged (s : State) (t : TileId) (x : Tile) : (s.setTile t x).unmerged = s.unmerged := rfl
@[simp] theorem State.setTile_staging (s : State) (t : TileId) (x : Tile) : (s.setTile t x).staging = s.staging := rfl
@[simp] theorem State.setTile_fetches (s : State) (t : TileId) (x : Tile) : (s.setTile t x).fetches = s.fetches := rfl
@[simp] theorem State.setTile_childAsks (s : State) (t : TileId) (x : Tile) : (s.setTile t x).childAsks = s.childAsks := rfl
@[simp] theorem State.setTile_start (s : State) (t : TileId) (x : Tile) : (s.setTile t x).start = s.start := rfl
@[simp] theorem State.setTile_lanes (s : State) (t : TileId) (x : Tile) : (s.setTile t x).lanes = s.lanes := rfl
@[simp] theorem State.setTile_chans (s : State) (t : TileId) (x : Tile) : (s.setTile t x).chans = s.chans := rfl
@[simp] theorem State.setTile_replay (s : State) (t : TileId) (x : Tile) : (s.setTile t x).replay = s.replay := rfl
@[simp] theorem State.setTile_lasers (s : State) (t : TileId) (x : Tile) : (s.setTile t x).lasers = s.lasers := rfl
@[simp] theorem State.setTile_bow (s : State) (t : TileId) (x : Tile) : (s.setTile t x).bow = s.bow := rfl
@[simp] theorem State.setTile_power (s : State) (t : TileId) (x : Tile) : (s.setTile t x).power = s.power := rfl
@[simp] theorem State.setTile_steward (s : State) (t : TileId) (x : Tile) : (s.setTile t x).steward = s.steward := rfl
@[simp] theorem State.setTile_sensors (s : State) (t : TileId) (x : Tile) : (s.setTile t x).sensors = s.sensors := rfl
@[simp] theorem State.setTile_conf (s : State) (t : TileId) (x : Tile) : (s.setTile t x).conf = s.conf := rfl
@[simp] theorem State.setTile_boot (s : State) (t : TileId) (x : Tile) : (s.setTile t x).boot = s.boot := rfl
@[simp] theorem State.setTile_fuses (s : State) (t : TileId) (x : Tile) : (s.setTile t x).fuses = s.fuses := rfl
@[simp] theorem State.setTile_flash (s : State) (t : TileId) (x : Tile) : (s.setTile t x).flash = s.flash := rfl
@[simp] theorem State.setTile_recovery (s : State) (t : TileId) (x : Tile) : (s.setTile t x).recovery = s.recovery := rfl
@[simp] theorem State.setTile_host (s : State) (t : TileId) (x : Tile) : (s.setTile t x).host = s.host := rfl
@[simp] theorem State.setTile_central (s : State) (t : TileId) (x : Tile) : (s.setTile t x).central = s.central := rfl
@[simp] theorem State.setTile_centralN (s : State) (t : TileId) (x : Tile) : (s.setTile t x).centralN = s.centralN := rfl
@[simp] theorem State.setTile_shadow (s : State) (t : TileId) (x : Tile) : (s.setTile t x).shadow = s.shadow := rfl
@[simp] theorem State.setTile_mesh (s : State) (t : TileId) (x : Tile) : (s.setTile t x).mesh = s.mesh := rfl
@[simp] theorem State.setTile_meshTurn (s : State) (t : TileId) (x : Tile) : (s.setTile t x).meshTurn = s.meshTurn := rfl
@[simp] theorem State.setTile_refresh (s : State) (t : TileId) (x : Tile) : (s.setTile t x).refresh = s.refresh := rfl
@[simp] theorem State.setTile_deferred (s : State) (t : TileId) (x : Tile) : (s.setTile t x).deferred = s.deferred := rfl
@[simp] theorem State.setTile_timers (s : State) (t : TileId) (x : Tile) : (s.setTile t x).timers = s.timers := rfl
@[simp] theorem State.setTile_outputs (s : State) (t : TileId) (x : Tile) : (s.setTile t x).outputs = s.outputs := rfl
@[simp] theorem State.setTile_fresh (s : State) (t : TileId) (x : Tile) : (s.setTile t x).fresh = s.fresh := rfl

@[simp] theorem State.reg_setTile (s : State) (t : TileId) (x : Tile) (k2 : RegKey) : (s.setTile t x).reg k2 = s.reg k2 := rfl
/-- Reading after `setTile`. -/
theorem State.tile_setTile (s : State) (t : TileId) (x : Tile) (t2 : TileId) :
    (s.setTile t x).tile t2 = if t2 = t then x else s.tile t2 := by
  simp only [State.setTile, State.tile, Tbl.get_put]

@[simp] theorem State.tile_setTile_same (s : State) (t : TileId) (x : Tile) : (s.setTile t x).tile t = x := by
  simp only [State.setTile, State.tile, Tbl.get_put_same]
@[simp] theorem State.arr_setTile (s : State) (t : TileId) (x : Tile) (a2 : ArrayId) : (s.setTile t x).arr a2 = s.arr a2 := rfl
@[simp] theorem State.die_setTile (s : State) (t : TileId) (x : Tile) (d2 : Nat) : (s.setTile t x).die d2 = s.die d2 := rfl
@[simp] theorem State.part_setTile (s : State) (t : TileId) (x : Tile) (p2 : Nat) : (s.setTile t x).part p2 = s.part p2 := rfl
@[simp] theorem State.slot_setTile (s : State) (t : TileId) (x : Tile) (i2 : Nat) : (s.setTile t x).slot i2 = s.slot i2 := rfl
@[simp] theorem State.page_setTile (s : State) (t : TileId) (x : Tile) (p2 i2 : Nat) : (s.setTile t x).page p2 i2 = s.page p2 i2 := rfl
@[simp] theorem State.idx_setTile (s : State) (t : TileId) (x : Tile) (e2 : Nat × Nat) : (s.setTile t x).idx e2 = s.idx e2 := rfl
@[simp] theorem State.lane_setTile (s : State) (t : TileId) (x : Tile) (l2 n2 : Nat) : (s.setTile t x).lane l2 n2 = s.lane l2 n2 := rfl
@[simp] theorem State.chan_setTile (s : State) (t : TileId) (x : Tile) (q2 c2 : Nat) : (s.setTile t x).chan q2 c2 = s.chan q2 c2 := rfl
@[simp] theorem State.laser_setTile (s : State) (t : TileId) (x : Tile) (m2 : Nat) : (s.setTile t x).laser m2 = s.laser m2 := rfl
@[simp] theorem State.sensor_setTile (s : State) (t : TileId) (x : Tile) (b2 : Nat) : (s.setTile t x).sensor b2 = s.sensor b2 := rfl

/-! ## setArr -/

@[simp] theorem State.setArr_pending (s : State) (a : ArrayId) (x : Arr) : (s.setArr a x).pending = s.pending := rfl
@[simp] theorem State.setArr_regs (s : State) (a : ArrayId) (x : Arr) : (s.setArr a x).regs = s.regs := rfl
@[simp] theorem State.setArr_snaps (s : State) (a : ArrayId) (x : Arr) : (s.setArr a x).snaps = s.snaps := rfl
@[simp] theorem State.setArr_loHeld (s : State) (a : ArrayId) (x : Arr) : (s.setArr a x).loHeld = s.loHeld := rfl
@[simp] theorem State.setArr_readOut (s : State) (a : ArrayId) (x : Arr) : (s.setArr a x).readOut = s.readOut := rfl
@[simp] theorem State.setArr_mem (s : State) (a : ArrayId) (x : Arr) : (s.setArr a x).mem = s.mem := rfl
@[simp] theorem State.setArr_poison (s : State) (a : ArrayId) (x : Arr) : (s.setArr a x).poison = s.poison := rfl
@[simp] theorem State.setArr_badScale (s : State) (a : ArrayId) (x : Arr) : (s.setArr a x).badScale = s.badScale := rfl
@[simp] theorem State.setArr_tiles (s : State) (a : ArrayId) (x : Arr) : (s.setArr a x).tiles = s.tiles := rfl
@[simp] theorem State.setArr_dies (s : State) (a : ArrayId) (x : Arr) : (s.setArr a x).dies = s.dies := rfl
@[simp] theorem State.setArr_parts (s : State) (a : ArrayId) (x : Arr) : (s.setArr a x).parts = s.parts := rfl
@[simp] theorem State.setArr_slots (s : State) (a : ArrayId) (x : Arr) : (s.setArr a x).slots = s.slots := rfl
@[simp] theorem State.setArr_slotRec (s : State) (a : ArrayId) (x : Arr) : (s.setArr a x).slotRec = s.slotRec := rfl
@[simp] theorem State.setArr_admitSeq (s : State) (a : ArrayId) (x : Arr) : (s.setArr a x).admitSeq = s.admitSeq := rfl
@[simp] theorem State.setArr_pages (s : State) (a : ArrayId) (x : Arr) : (s.setArr a x).pages = s.pages := rfl
@[simp] theorem State.setArr_index (s : State) (a : ArrayId) (x : Arr) : (s.setArr a x).index = s.index := rfl
@[simp] theorem State.setArr_coldUsed (s : State) (a : ArrayId) (x : Arr) : (s.setArr a x).coldUsed = s.coldUsed := rfl
@[simp] theorem State.setArr_pfxCache (s : State) (a : ArrayId) (x : Arr) : (s.setArr a x).pfxCache = s.pfxCache := rfl
@[simp] theorem State.setArr_cache (s : State) (a : ArrayId) (x : Arr) : (s.setArr a x).cache = s.cache := rfl
@[simp] theorem State.setArr_cacheMiss (s : State) (a : ArrayId) (x : Arr) : (s.setArr a x).cacheMiss = s.cacheMiss := rfl
@[simp] theorem State.setArr_unmerged (s : State) (a : ArrayId) (x : Arr) : (s.setArr a x).unmerged = s.unmerged := rfl
@[simp] theorem State.setArr_staging (s : State) (a : ArrayId) (x : Arr) : (s.setArr a x).staging = s.staging := rfl
@[simp] theorem State.setArr_fetches (s : State) (a : ArrayId) (x : Arr) : (s.setArr a x).fetches = s.fetches := rfl
@[simp] theorem State.setArr_childAsks (s : State) (a : ArrayId) (x : Arr) : (s.setArr a x).childAsks = s.childAsks := rfl
@[simp] theorem State.setArr_start (s : State) (a : ArrayId) (x : Arr) : (s.setArr a x).start = s.start := rfl
@[simp] theorem State.setArr_lanes (s : State) (a : ArrayId) (x : Arr) : (s.setArr a x).lanes = s.lanes := rfl
@[simp] theorem State.setArr_chans (s : State) (a : ArrayId) (x : Arr) : (s.setArr a x).chans = s.chans := rfl
@[simp] theorem State.setArr_replay (s : State) (a : ArrayId) (x : Arr) : (s.setArr a x).replay = s.replay := rfl
@[simp] theorem State.setArr_lasers (s : State) (a : ArrayId) (x : Arr) : (s.setArr a x).lasers = s.lasers := rfl
@[simp] theorem State.setArr_bow (s : State) (a : ArrayId) (x : Arr) : (s.setArr a x).bow = s.bow := rfl
@[simp] theorem State.setArr_power (s : State) (a : ArrayId) (x : Arr) : (s.setArr a x).power = s.power := rfl
@[simp] theorem State.setArr_steward (s : State) (a : ArrayId) (x : Arr) : (s.setArr a x).steward = s.steward := rfl
@[simp] theorem State.setArr_sensors (s : State) (a : ArrayId) (x : Arr) : (s.setArr a x).sensors = s.sensors := rfl
@[simp] theorem State.setArr_conf (s : State) (a : ArrayId) (x : Arr) : (s.setArr a x).conf = s.conf := rfl
@[simp] theorem State.setArr_boot (s : State) (a : ArrayId) (x : Arr) : (s.setArr a x).boot = s.boot := rfl
@[simp] theorem State.setArr_fuses (s : State) (a : ArrayId) (x : Arr) : (s.setArr a x).fuses = s.fuses := rfl
@[simp] theorem State.setArr_flash (s : State) (a : ArrayId) (x : Arr) : (s.setArr a x).flash = s.flash := rfl
@[simp] theorem State.setArr_recovery (s : State) (a : ArrayId) (x : Arr) : (s.setArr a x).recovery = s.recovery := rfl
@[simp] theorem State.setArr_host (s : State) (a : ArrayId) (x : Arr) : (s.setArr a x).host = s.host := rfl
@[simp] theorem State.setArr_central (s : State) (a : ArrayId) (x : Arr) : (s.setArr a x).central = s.central := rfl
@[simp] theorem State.setArr_centralN (s : State) (a : ArrayId) (x : Arr) : (s.setArr a x).centralN = s.centralN := rfl
@[simp] theorem State.setArr_shadow (s : State) (a : ArrayId) (x : Arr) : (s.setArr a x).shadow = s.shadow := rfl
@[simp] theorem State.setArr_mesh (s : State) (a : ArrayId) (x : Arr) : (s.setArr a x).mesh = s.mesh := rfl
@[simp] theorem State.setArr_meshTurn (s : State) (a : ArrayId) (x : Arr) : (s.setArr a x).meshTurn = s.meshTurn := rfl
@[simp] theorem State.setArr_refresh (s : State) (a : ArrayId) (x : Arr) : (s.setArr a x).refresh = s.refresh := rfl
@[simp] theorem State.setArr_deferred (s : State) (a : ArrayId) (x : Arr) : (s.setArr a x).deferred = s.deferred := rfl
@[simp] theorem State.setArr_timers (s : State) (a : ArrayId) (x : Arr) : (s.setArr a x).timers = s.timers := rfl
@[simp] theorem State.setArr_outputs (s : State) (a : ArrayId) (x : Arr) : (s.setArr a x).outputs = s.outputs := rfl
@[simp] theorem State.setArr_fresh (s : State) (a : ArrayId) (x : Arr) : (s.setArr a x).fresh = s.fresh := rfl

@[simp] theorem State.reg_setArr (s : State) (a : ArrayId) (x : Arr) (k2 : RegKey) : (s.setArr a x).reg k2 = s.reg k2 := rfl
@[simp] theorem State.tile_setArr (s : State) (a : ArrayId) (x : Arr) (t2 : TileId) : (s.setArr a x).tile t2 = s.tile t2 := rfl
/-- Reading after `setArr`. -/
theorem State.arr_setArr (s : State) (a : ArrayId) (x : Arr) (a2 : ArrayId) :
    (s.setArr a x).arr a2 = if a2 = a then x else s.arr a2 := by
  simp only [State.setArr, State.arr, Tbl.get_put]

@[simp] theorem State.arr_setArr_same (s : State) (a : ArrayId) (x : Arr) : (s.setArr a x).arr a = x := by
  simp only [State.setArr, State.arr, Tbl.get_put_same]
@[simp] theorem State.die_setArr (s : State) (a : ArrayId) (x : Arr) (d2 : Nat) : (s.setArr a x).die d2 = s.die d2 := rfl
@[simp] theorem State.part_setArr (s : State) (a : ArrayId) (x : Arr) (p2 : Nat) : (s.setArr a x).part p2 = s.part p2 := rfl
@[simp] theorem State.slot_setArr (s : State) (a : ArrayId) (x : Arr) (i2 : Nat) : (s.setArr a x).slot i2 = s.slot i2 := rfl
@[simp] theorem State.page_setArr (s : State) (a : ArrayId) (x : Arr) (p2 i2 : Nat) : (s.setArr a x).page p2 i2 = s.page p2 i2 := rfl
@[simp] theorem State.idx_setArr (s : State) (a : ArrayId) (x : Arr) (e2 : Nat × Nat) : (s.setArr a x).idx e2 = s.idx e2 := rfl
@[simp] theorem State.lane_setArr (s : State) (a : ArrayId) (x : Arr) (l2 n2 : Nat) : (s.setArr a x).lane l2 n2 = s.lane l2 n2 := rfl
@[simp] theorem State.chan_setArr (s : State) (a : ArrayId) (x : Arr) (q2 c2 : Nat) : (s.setArr a x).chan q2 c2 = s.chan q2 c2 := rfl
@[simp] theorem State.laser_setArr (s : State) (a : ArrayId) (x : Arr) (m2 : Nat) : (s.setArr a x).laser m2 = s.laser m2 := rfl
@[simp] theorem State.sensor_setArr (s : State) (a : ArrayId) (x : Arr) (b2 : Nat) : (s.setArr a x).sensor b2 = s.sensor b2 := rfl

/-! ## setDie -/

@[simp] theorem State.setDie_pending (s : State) (d : Nat) (x : Die) : (s.setDie d x).pending = s.pending := rfl
@[simp] theorem State.setDie_regs (s : State) (d : Nat) (x : Die) : (s.setDie d x).regs = s.regs := rfl
@[simp] theorem State.setDie_snaps (s : State) (d : Nat) (x : Die) : (s.setDie d x).snaps = s.snaps := rfl
@[simp] theorem State.setDie_loHeld (s : State) (d : Nat) (x : Die) : (s.setDie d x).loHeld = s.loHeld := rfl
@[simp] theorem State.setDie_readOut (s : State) (d : Nat) (x : Die) : (s.setDie d x).readOut = s.readOut := rfl
@[simp] theorem State.setDie_mem (s : State) (d : Nat) (x : Die) : (s.setDie d x).mem = s.mem := rfl
@[simp] theorem State.setDie_poison (s : State) (d : Nat) (x : Die) : (s.setDie d x).poison = s.poison := rfl
@[simp] theorem State.setDie_badScale (s : State) (d : Nat) (x : Die) : (s.setDie d x).badScale = s.badScale := rfl
@[simp] theorem State.setDie_tiles (s : State) (d : Nat) (x : Die) : (s.setDie d x).tiles = s.tiles := rfl
@[simp] theorem State.setDie_arrays (s : State) (d : Nat) (x : Die) : (s.setDie d x).arrays = s.arrays := rfl
@[simp] theorem State.setDie_parts (s : State) (d : Nat) (x : Die) : (s.setDie d x).parts = s.parts := rfl
@[simp] theorem State.setDie_slots (s : State) (d : Nat) (x : Die) : (s.setDie d x).slots = s.slots := rfl
@[simp] theorem State.setDie_slotRec (s : State) (d : Nat) (x : Die) : (s.setDie d x).slotRec = s.slotRec := rfl
@[simp] theorem State.setDie_admitSeq (s : State) (d : Nat) (x : Die) : (s.setDie d x).admitSeq = s.admitSeq := rfl
@[simp] theorem State.setDie_pages (s : State) (d : Nat) (x : Die) : (s.setDie d x).pages = s.pages := rfl
@[simp] theorem State.setDie_index (s : State) (d : Nat) (x : Die) : (s.setDie d x).index = s.index := rfl
@[simp] theorem State.setDie_coldUsed (s : State) (d : Nat) (x : Die) : (s.setDie d x).coldUsed = s.coldUsed := rfl
@[simp] theorem State.setDie_pfxCache (s : State) (d : Nat) (x : Die) : (s.setDie d x).pfxCache = s.pfxCache := rfl
@[simp] theorem State.setDie_cache (s : State) (d : Nat) (x : Die) : (s.setDie d x).cache = s.cache := rfl
@[simp] theorem State.setDie_cacheMiss (s : State) (d : Nat) (x : Die) : (s.setDie d x).cacheMiss = s.cacheMiss := rfl
@[simp] theorem State.setDie_unmerged (s : State) (d : Nat) (x : Die) : (s.setDie d x).unmerged = s.unmerged := rfl
@[simp] theorem State.setDie_staging (s : State) (d : Nat) (x : Die) : (s.setDie d x).staging = s.staging := rfl
@[simp] theorem State.setDie_fetches (s : State) (d : Nat) (x : Die) : (s.setDie d x).fetches = s.fetches := rfl
@[simp] theorem State.setDie_childAsks (s : State) (d : Nat) (x : Die) : (s.setDie d x).childAsks = s.childAsks := rfl
@[simp] theorem State.setDie_start (s : State) (d : Nat) (x : Die) : (s.setDie d x).start = s.start := rfl
@[simp] theorem State.setDie_lanes (s : State) (d : Nat) (x : Die) : (s.setDie d x).lanes = s.lanes := rfl
@[simp] theorem State.setDie_chans (s : State) (d : Nat) (x : Die) : (s.setDie d x).chans = s.chans := rfl
@[simp] theorem State.setDie_replay (s : State) (d : Nat) (x : Die) : (s.setDie d x).replay = s.replay := rfl
@[simp] theorem State.setDie_lasers (s : State) (d : Nat) (x : Die) : (s.setDie d x).lasers = s.lasers := rfl
@[simp] theorem State.setDie_bow (s : State) (d : Nat) (x : Die) : (s.setDie d x).bow = s.bow := rfl
@[simp] theorem State.setDie_power (s : State) (d : Nat) (x : Die) : (s.setDie d x).power = s.power := rfl
@[simp] theorem State.setDie_steward (s : State) (d : Nat) (x : Die) : (s.setDie d x).steward = s.steward := rfl
@[simp] theorem State.setDie_sensors (s : State) (d : Nat) (x : Die) : (s.setDie d x).sensors = s.sensors := rfl
@[simp] theorem State.setDie_conf (s : State) (d : Nat) (x : Die) : (s.setDie d x).conf = s.conf := rfl
@[simp] theorem State.setDie_boot (s : State) (d : Nat) (x : Die) : (s.setDie d x).boot = s.boot := rfl
@[simp] theorem State.setDie_fuses (s : State) (d : Nat) (x : Die) : (s.setDie d x).fuses = s.fuses := rfl
@[simp] theorem State.setDie_flash (s : State) (d : Nat) (x : Die) : (s.setDie d x).flash = s.flash := rfl
@[simp] theorem State.setDie_recovery (s : State) (d : Nat) (x : Die) : (s.setDie d x).recovery = s.recovery := rfl
@[simp] theorem State.setDie_host (s : State) (d : Nat) (x : Die) : (s.setDie d x).host = s.host := rfl
@[simp] theorem State.setDie_central (s : State) (d : Nat) (x : Die) : (s.setDie d x).central = s.central := rfl
@[simp] theorem State.setDie_centralN (s : State) (d : Nat) (x : Die) : (s.setDie d x).centralN = s.centralN := rfl
@[simp] theorem State.setDie_shadow (s : State) (d : Nat) (x : Die) : (s.setDie d x).shadow = s.shadow := rfl
@[simp] theorem State.setDie_mesh (s : State) (d : Nat) (x : Die) : (s.setDie d x).mesh = s.mesh := rfl
@[simp] theorem State.setDie_meshTurn (s : State) (d : Nat) (x : Die) : (s.setDie d x).meshTurn = s.meshTurn := rfl
@[simp] theorem State.setDie_refresh (s : State) (d : Nat) (x : Die) : (s.setDie d x).refresh = s.refresh := rfl
@[simp] theorem State.setDie_deferred (s : State) (d : Nat) (x : Die) : (s.setDie d x).deferred = s.deferred := rfl
@[simp] theorem State.setDie_timers (s : State) (d : Nat) (x : Die) : (s.setDie d x).timers = s.timers := rfl
@[simp] theorem State.setDie_outputs (s : State) (d : Nat) (x : Die) : (s.setDie d x).outputs = s.outputs := rfl
@[simp] theorem State.setDie_fresh (s : State) (d : Nat) (x : Die) : (s.setDie d x).fresh = s.fresh := rfl

@[simp] theorem State.reg_setDie (s : State) (d : Nat) (x : Die) (k2 : RegKey) : (s.setDie d x).reg k2 = s.reg k2 := rfl
@[simp] theorem State.tile_setDie (s : State) (d : Nat) (x : Die) (t2 : TileId) : (s.setDie d x).tile t2 = s.tile t2 := rfl
@[simp] theorem State.arr_setDie (s : State) (d : Nat) (x : Die) (a2 : ArrayId) : (s.setDie d x).arr a2 = s.arr a2 := rfl
/-- Reading after `setDie`. -/
theorem State.die_setDie (s : State) (d : Nat) (x : Die) (d2 : Nat) :
    (s.setDie d x).die d2 = if d2 = d then x else s.die d2 := by
  simp only [State.setDie, State.die, Tbl.get_put]

@[simp] theorem State.die_setDie_same (s : State) (d : Nat) (x : Die) : (s.setDie d x).die d = x := by
  simp only [State.setDie, State.die, Tbl.get_put_same]
@[simp] theorem State.part_setDie (s : State) (d : Nat) (x : Die) (p2 : Nat) : (s.setDie d x).part p2 = s.part p2 := rfl
@[simp] theorem State.slot_setDie (s : State) (d : Nat) (x : Die) (i2 : Nat) : (s.setDie d x).slot i2 = s.slot i2 := rfl
@[simp] theorem State.page_setDie (s : State) (d : Nat) (x : Die) (p2 i2 : Nat) : (s.setDie d x).page p2 i2 = s.page p2 i2 := rfl
@[simp] theorem State.idx_setDie (s : State) (d : Nat) (x : Die) (e2 : Nat × Nat) : (s.setDie d x).idx e2 = s.idx e2 := rfl
@[simp] theorem State.lane_setDie (s : State) (d : Nat) (x : Die) (l2 n2 : Nat) : (s.setDie d x).lane l2 n2 = s.lane l2 n2 := rfl
@[simp] theorem State.chan_setDie (s : State) (d : Nat) (x : Die) (q2 c2 : Nat) : (s.setDie d x).chan q2 c2 = s.chan q2 c2 := rfl
@[simp] theorem State.laser_setDie (s : State) (d : Nat) (x : Die) (m2 : Nat) : (s.setDie d x).laser m2 = s.laser m2 := rfl
@[simp] theorem State.sensor_setDie (s : State) (d : Nat) (x : Die) (b2 : Nat) : (s.setDie d x).sensor b2 = s.sensor b2 := rfl

/-! ## setPart -/

@[simp] theorem State.setPart_pending (s : State) (p : Nat) (x : Part) : (s.setPart p x).pending = s.pending := rfl
@[simp] theorem State.setPart_regs (s : State) (p : Nat) (x : Part) : (s.setPart p x).regs = s.regs := rfl
@[simp] theorem State.setPart_snaps (s : State) (p : Nat) (x : Part) : (s.setPart p x).snaps = s.snaps := rfl
@[simp] theorem State.setPart_loHeld (s : State) (p : Nat) (x : Part) : (s.setPart p x).loHeld = s.loHeld := rfl
@[simp] theorem State.setPart_readOut (s : State) (p : Nat) (x : Part) : (s.setPart p x).readOut = s.readOut := rfl
@[simp] theorem State.setPart_mem (s : State) (p : Nat) (x : Part) : (s.setPart p x).mem = s.mem := rfl
@[simp] theorem State.setPart_poison (s : State) (p : Nat) (x : Part) : (s.setPart p x).poison = s.poison := rfl
@[simp] theorem State.setPart_badScale (s : State) (p : Nat) (x : Part) : (s.setPart p x).badScale = s.badScale := rfl
@[simp] theorem State.setPart_tiles (s : State) (p : Nat) (x : Part) : (s.setPart p x).tiles = s.tiles := rfl
@[simp] theorem State.setPart_arrays (s : State) (p : Nat) (x : Part) : (s.setPart p x).arrays = s.arrays := rfl
@[simp] theorem State.setPart_dies (s : State) (p : Nat) (x : Part) : (s.setPart p x).dies = s.dies := rfl
@[simp] theorem State.setPart_slots (s : State) (p : Nat) (x : Part) : (s.setPart p x).slots = s.slots := rfl
@[simp] theorem State.setPart_slotRec (s : State) (p : Nat) (x : Part) : (s.setPart p x).slotRec = s.slotRec := rfl
@[simp] theorem State.setPart_admitSeq (s : State) (p : Nat) (x : Part) : (s.setPart p x).admitSeq = s.admitSeq := rfl
@[simp] theorem State.setPart_pages (s : State) (p : Nat) (x : Part) : (s.setPart p x).pages = s.pages := rfl
@[simp] theorem State.setPart_index (s : State) (p : Nat) (x : Part) : (s.setPart p x).index = s.index := rfl
@[simp] theorem State.setPart_coldUsed (s : State) (p : Nat) (x : Part) : (s.setPart p x).coldUsed = s.coldUsed := rfl
@[simp] theorem State.setPart_pfxCache (s : State) (p : Nat) (x : Part) : (s.setPart p x).pfxCache = s.pfxCache := rfl
@[simp] theorem State.setPart_cache (s : State) (p : Nat) (x : Part) : (s.setPart p x).cache = s.cache := rfl
@[simp] theorem State.setPart_cacheMiss (s : State) (p : Nat) (x : Part) : (s.setPart p x).cacheMiss = s.cacheMiss := rfl
@[simp] theorem State.setPart_unmerged (s : State) (p : Nat) (x : Part) : (s.setPart p x).unmerged = s.unmerged := rfl
@[simp] theorem State.setPart_staging (s : State) (p : Nat) (x : Part) : (s.setPart p x).staging = s.staging := rfl
@[simp] theorem State.setPart_fetches (s : State) (p : Nat) (x : Part) : (s.setPart p x).fetches = s.fetches := rfl
@[simp] theorem State.setPart_childAsks (s : State) (p : Nat) (x : Part) : (s.setPart p x).childAsks = s.childAsks := rfl
@[simp] theorem State.setPart_start (s : State) (p : Nat) (x : Part) : (s.setPart p x).start = s.start := rfl
@[simp] theorem State.setPart_lanes (s : State) (p : Nat) (x : Part) : (s.setPart p x).lanes = s.lanes := rfl
@[simp] theorem State.setPart_chans (s : State) (p : Nat) (x : Part) : (s.setPart p x).chans = s.chans := rfl
@[simp] theorem State.setPart_replay (s : State) (p : Nat) (x : Part) : (s.setPart p x).replay = s.replay := rfl
@[simp] theorem State.setPart_lasers (s : State) (p : Nat) (x : Part) : (s.setPart p x).lasers = s.lasers := rfl
@[simp] theorem State.setPart_bow (s : State) (p : Nat) (x : Part) : (s.setPart p x).bow = s.bow := rfl
@[simp] theorem State.setPart_power (s : State) (p : Nat) (x : Part) : (s.setPart p x).power = s.power := rfl
@[simp] theorem State.setPart_steward (s : State) (p : Nat) (x : Part) : (s.setPart p x).steward = s.steward := rfl
@[simp] theorem State.setPart_sensors (s : State) (p : Nat) (x : Part) : (s.setPart p x).sensors = s.sensors := rfl
@[simp] theorem State.setPart_conf (s : State) (p : Nat) (x : Part) : (s.setPart p x).conf = s.conf := rfl
@[simp] theorem State.setPart_boot (s : State) (p : Nat) (x : Part) : (s.setPart p x).boot = s.boot := rfl
@[simp] theorem State.setPart_fuses (s : State) (p : Nat) (x : Part) : (s.setPart p x).fuses = s.fuses := rfl
@[simp] theorem State.setPart_flash (s : State) (p : Nat) (x : Part) : (s.setPart p x).flash = s.flash := rfl
@[simp] theorem State.setPart_recovery (s : State) (p : Nat) (x : Part) : (s.setPart p x).recovery = s.recovery := rfl
@[simp] theorem State.setPart_host (s : State) (p : Nat) (x : Part) : (s.setPart p x).host = s.host := rfl
@[simp] theorem State.setPart_central (s : State) (p : Nat) (x : Part) : (s.setPart p x).central = s.central := rfl
@[simp] theorem State.setPart_centralN (s : State) (p : Nat) (x : Part) : (s.setPart p x).centralN = s.centralN := rfl
@[simp] theorem State.setPart_shadow (s : State) (p : Nat) (x : Part) : (s.setPart p x).shadow = s.shadow := rfl
@[simp] theorem State.setPart_mesh (s : State) (p : Nat) (x : Part) : (s.setPart p x).mesh = s.mesh := rfl
@[simp] theorem State.setPart_meshTurn (s : State) (p : Nat) (x : Part) : (s.setPart p x).meshTurn = s.meshTurn := rfl
@[simp] theorem State.setPart_refresh (s : State) (p : Nat) (x : Part) : (s.setPart p x).refresh = s.refresh := rfl
@[simp] theorem State.setPart_deferred (s : State) (p : Nat) (x : Part) : (s.setPart p x).deferred = s.deferred := rfl
@[simp] theorem State.setPart_timers (s : State) (p : Nat) (x : Part) : (s.setPart p x).timers = s.timers := rfl
@[simp] theorem State.setPart_outputs (s : State) (p : Nat) (x : Part) : (s.setPart p x).outputs = s.outputs := rfl
@[simp] theorem State.setPart_fresh (s : State) (p : Nat) (x : Part) : (s.setPart p x).fresh = s.fresh := rfl

@[simp] theorem State.reg_setPart (s : State) (p : Nat) (x : Part) (k2 : RegKey) : (s.setPart p x).reg k2 = s.reg k2 := rfl
@[simp] theorem State.tile_setPart (s : State) (p : Nat) (x : Part) (t2 : TileId) : (s.setPart p x).tile t2 = s.tile t2 := rfl
@[simp] theorem State.arr_setPart (s : State) (p : Nat) (x : Part) (a2 : ArrayId) : (s.setPart p x).arr a2 = s.arr a2 := rfl
@[simp] theorem State.die_setPart (s : State) (p : Nat) (x : Part) (d2 : Nat) : (s.setPart p x).die d2 = s.die d2 := rfl
/-- Reading after `setPart`. -/
theorem State.part_setPart (s : State) (p : Nat) (x : Part) (p2 : Nat) :
    (s.setPart p x).part p2 = if p2 = p then x else s.part p2 := by
  simp only [State.setPart, State.part, Tbl.get_put]

@[simp] theorem State.part_setPart_same (s : State) (p : Nat) (x : Part) : (s.setPart p x).part p = x := by
  simp only [State.setPart, State.part, Tbl.get_put_same]
@[simp] theorem State.slot_setPart (s : State) (p : Nat) (x : Part) (i2 : Nat) : (s.setPart p x).slot i2 = s.slot i2 := rfl
@[simp] theorem State.page_setPart (s : State) (p : Nat) (x : Part) (p2 i2 : Nat) : (s.setPart p x).page p2 i2 = s.page p2 i2 := rfl
@[simp] theorem State.idx_setPart (s : State) (p : Nat) (x : Part) (e2 : Nat × Nat) : (s.setPart p x).idx e2 = s.idx e2 := rfl
@[simp] theorem State.lane_setPart (s : State) (p : Nat) (x : Part) (l2 n2 : Nat) : (s.setPart p x).lane l2 n2 = s.lane l2 n2 := rfl
@[simp] theorem State.chan_setPart (s : State) (p : Nat) (x : Part) (q2 c2 : Nat) : (s.setPart p x).chan q2 c2 = s.chan q2 c2 := rfl
@[simp] theorem State.laser_setPart (s : State) (p : Nat) (x : Part) (m2 : Nat) : (s.setPart p x).laser m2 = s.laser m2 := rfl
@[simp] theorem State.sensor_setPart (s : State) (p : Nat) (x : Part) (b2 : Nat) : (s.setPart p x).sensor b2 = s.sensor b2 := rfl

/-! ## setSlot -/

@[simp] theorem State.setSlot_pending (s : State) (i : Nat) (x : Slot) : (s.setSlot i x).pending = s.pending := rfl
@[simp] theorem State.setSlot_regs (s : State) (i : Nat) (x : Slot) : (s.setSlot i x).regs = s.regs := rfl
@[simp] theorem State.setSlot_snaps (s : State) (i : Nat) (x : Slot) : (s.setSlot i x).snaps = s.snaps := rfl
@[simp] theorem State.setSlot_loHeld (s : State) (i : Nat) (x : Slot) : (s.setSlot i x).loHeld = s.loHeld := rfl
@[simp] theorem State.setSlot_readOut (s : State) (i : Nat) (x : Slot) : (s.setSlot i x).readOut = s.readOut := rfl
@[simp] theorem State.setSlot_mem (s : State) (i : Nat) (x : Slot) : (s.setSlot i x).mem = s.mem := rfl
@[simp] theorem State.setSlot_poison (s : State) (i : Nat) (x : Slot) : (s.setSlot i x).poison = s.poison := rfl
@[simp] theorem State.setSlot_badScale (s : State) (i : Nat) (x : Slot) : (s.setSlot i x).badScale = s.badScale := rfl
@[simp] theorem State.setSlot_tiles (s : State) (i : Nat) (x : Slot) : (s.setSlot i x).tiles = s.tiles := rfl
@[simp] theorem State.setSlot_arrays (s : State) (i : Nat) (x : Slot) : (s.setSlot i x).arrays = s.arrays := rfl
@[simp] theorem State.setSlot_dies (s : State) (i : Nat) (x : Slot) : (s.setSlot i x).dies = s.dies := rfl
@[simp] theorem State.setSlot_parts (s : State) (i : Nat) (x : Slot) : (s.setSlot i x).parts = s.parts := rfl
@[simp] theorem State.setSlot_slotRec (s : State) (i : Nat) (x : Slot) : (s.setSlot i x).slotRec = s.slotRec := rfl
@[simp] theorem State.setSlot_admitSeq (s : State) (i : Nat) (x : Slot) : (s.setSlot i x).admitSeq = s.admitSeq := rfl
@[simp] theorem State.setSlot_pages (s : State) (i : Nat) (x : Slot) : (s.setSlot i x).pages = s.pages := rfl
@[simp] theorem State.setSlot_index (s : State) (i : Nat) (x : Slot) : (s.setSlot i x).index = s.index := rfl
@[simp] theorem State.setSlot_coldUsed (s : State) (i : Nat) (x : Slot) : (s.setSlot i x).coldUsed = s.coldUsed := rfl
@[simp] theorem State.setSlot_pfxCache (s : State) (i : Nat) (x : Slot) : (s.setSlot i x).pfxCache = s.pfxCache := rfl
@[simp] theorem State.setSlot_cache (s : State) (i : Nat) (x : Slot) : (s.setSlot i x).cache = s.cache := rfl
@[simp] theorem State.setSlot_cacheMiss (s : State) (i : Nat) (x : Slot) : (s.setSlot i x).cacheMiss = s.cacheMiss := rfl
@[simp] theorem State.setSlot_unmerged (s : State) (i : Nat) (x : Slot) : (s.setSlot i x).unmerged = s.unmerged := rfl
@[simp] theorem State.setSlot_staging (s : State) (i : Nat) (x : Slot) : (s.setSlot i x).staging = s.staging := rfl
@[simp] theorem State.setSlot_fetches (s : State) (i : Nat) (x : Slot) : (s.setSlot i x).fetches = s.fetches := rfl
@[simp] theorem State.setSlot_childAsks (s : State) (i : Nat) (x : Slot) : (s.setSlot i x).childAsks = s.childAsks := rfl
@[simp] theorem State.setSlot_start (s : State) (i : Nat) (x : Slot) : (s.setSlot i x).start = s.start := rfl
@[simp] theorem State.setSlot_lanes (s : State) (i : Nat) (x : Slot) : (s.setSlot i x).lanes = s.lanes := rfl
@[simp] theorem State.setSlot_chans (s : State) (i : Nat) (x : Slot) : (s.setSlot i x).chans = s.chans := rfl
@[simp] theorem State.setSlot_replay (s : State) (i : Nat) (x : Slot) : (s.setSlot i x).replay = s.replay := rfl
@[simp] theorem State.setSlot_lasers (s : State) (i : Nat) (x : Slot) : (s.setSlot i x).lasers = s.lasers := rfl
@[simp] theorem State.setSlot_bow (s : State) (i : Nat) (x : Slot) : (s.setSlot i x).bow = s.bow := rfl
@[simp] theorem State.setSlot_power (s : State) (i : Nat) (x : Slot) : (s.setSlot i x).power = s.power := rfl
@[simp] theorem State.setSlot_steward (s : State) (i : Nat) (x : Slot) : (s.setSlot i x).steward = s.steward := rfl
@[simp] theorem State.setSlot_sensors (s : State) (i : Nat) (x : Slot) : (s.setSlot i x).sensors = s.sensors := rfl
@[simp] theorem State.setSlot_conf (s : State) (i : Nat) (x : Slot) : (s.setSlot i x).conf = s.conf := rfl
@[simp] theorem State.setSlot_boot (s : State) (i : Nat) (x : Slot) : (s.setSlot i x).boot = s.boot := rfl
@[simp] theorem State.setSlot_fuses (s : State) (i : Nat) (x : Slot) : (s.setSlot i x).fuses = s.fuses := rfl
@[simp] theorem State.setSlot_flash (s : State) (i : Nat) (x : Slot) : (s.setSlot i x).flash = s.flash := rfl
@[simp] theorem State.setSlot_recovery (s : State) (i : Nat) (x : Slot) : (s.setSlot i x).recovery = s.recovery := rfl
@[simp] theorem State.setSlot_host (s : State) (i : Nat) (x : Slot) : (s.setSlot i x).host = s.host := rfl
@[simp] theorem State.setSlot_central (s : State) (i : Nat) (x : Slot) : (s.setSlot i x).central = s.central := rfl
@[simp] theorem State.setSlot_centralN (s : State) (i : Nat) (x : Slot) : (s.setSlot i x).centralN = s.centralN := rfl
@[simp] theorem State.setSlot_shadow (s : State) (i : Nat) (x : Slot) : (s.setSlot i x).shadow = s.shadow := rfl
@[simp] theorem State.setSlot_mesh (s : State) (i : Nat) (x : Slot) : (s.setSlot i x).mesh = s.mesh := rfl
@[simp] theorem State.setSlot_meshTurn (s : State) (i : Nat) (x : Slot) : (s.setSlot i x).meshTurn = s.meshTurn := rfl
@[simp] theorem State.setSlot_refresh (s : State) (i : Nat) (x : Slot) : (s.setSlot i x).refresh = s.refresh := rfl
@[simp] theorem State.setSlot_deferred (s : State) (i : Nat) (x : Slot) : (s.setSlot i x).deferred = s.deferred := rfl
@[simp] theorem State.setSlot_timers (s : State) (i : Nat) (x : Slot) : (s.setSlot i x).timers = s.timers := rfl
@[simp] theorem State.setSlot_outputs (s : State) (i : Nat) (x : Slot) : (s.setSlot i x).outputs = s.outputs := rfl
@[simp] theorem State.setSlot_fresh (s : State) (i : Nat) (x : Slot) : (s.setSlot i x).fresh = s.fresh := rfl

@[simp] theorem State.reg_setSlot (s : State) (i : Nat) (x : Slot) (k2 : RegKey) : (s.setSlot i x).reg k2 = s.reg k2 := rfl
@[simp] theorem State.tile_setSlot (s : State) (i : Nat) (x : Slot) (t2 : TileId) : (s.setSlot i x).tile t2 = s.tile t2 := rfl
@[simp] theorem State.arr_setSlot (s : State) (i : Nat) (x : Slot) (a2 : ArrayId) : (s.setSlot i x).arr a2 = s.arr a2 := rfl
@[simp] theorem State.die_setSlot (s : State) (i : Nat) (x : Slot) (d2 : Nat) : (s.setSlot i x).die d2 = s.die d2 := rfl
@[simp] theorem State.part_setSlot (s : State) (i : Nat) (x : Slot) (p2 : Nat) : (s.setSlot i x).part p2 = s.part p2 := rfl
/-- Reading after `setSlot`. -/
theorem State.slot_setSlot (s : State) (i : Nat) (x : Slot) (i2 : Nat) :
    (s.setSlot i x).slot i2 = if i2 = i then x else s.slot i2 := by
  simp only [State.setSlot, State.slot, Tbl.get_put]

@[simp] theorem State.slot_setSlot_same (s : State) (i : Nat) (x : Slot) : (s.setSlot i x).slot i = x := by
  simp only [State.setSlot, State.slot, Tbl.get_put_same]
@[simp] theorem State.page_setSlot (s : State) (i : Nat) (x : Slot) (p2 i2 : Nat) : (s.setSlot i x).page p2 i2 = s.page p2 i2 := rfl
@[simp] theorem State.idx_setSlot (s : State) (i : Nat) (x : Slot) (e2 : Nat × Nat) : (s.setSlot i x).idx e2 = s.idx e2 := rfl
@[simp] theorem State.lane_setSlot (s : State) (i : Nat) (x : Slot) (l2 n2 : Nat) : (s.setSlot i x).lane l2 n2 = s.lane l2 n2 := rfl
@[simp] theorem State.chan_setSlot (s : State) (i : Nat) (x : Slot) (q2 c2 : Nat) : (s.setSlot i x).chan q2 c2 = s.chan q2 c2 := rfl
@[simp] theorem State.laser_setSlot (s : State) (i : Nat) (x : Slot) (m2 : Nat) : (s.setSlot i x).laser m2 = s.laser m2 := rfl
@[simp] theorem State.sensor_setSlot (s : State) (i : Nat) (x : Slot) (b2 : Nat) : (s.setSlot i x).sensor b2 = s.sensor b2 := rfl

/-! ## setPage -/

@[simp] theorem State.setPage_pending (s : State) (p i : Nat) (x : PageSet) : (s.setPage p i x).pending = s.pending := rfl
@[simp] theorem State.setPage_regs (s : State) (p i : Nat) (x : PageSet) : (s.setPage p i x).regs = s.regs := rfl
@[simp] theorem State.setPage_snaps (s : State) (p i : Nat) (x : PageSet) : (s.setPage p i x).snaps = s.snaps := rfl
@[simp] theorem State.setPage_loHeld (s : State) (p i : Nat) (x : PageSet) : (s.setPage p i x).loHeld = s.loHeld := rfl
@[simp] theorem State.setPage_readOut (s : State) (p i : Nat) (x : PageSet) : (s.setPage p i x).readOut = s.readOut := rfl
@[simp] theorem State.setPage_mem (s : State) (p i : Nat) (x : PageSet) : (s.setPage p i x).mem = s.mem := rfl
@[simp] theorem State.setPage_poison (s : State) (p i : Nat) (x : PageSet) : (s.setPage p i x).poison = s.poison := rfl
@[simp] theorem State.setPage_badScale (s : State) (p i : Nat) (x : PageSet) : (s.setPage p i x).badScale = s.badScale := rfl
@[simp] theorem State.setPage_tiles (s : State) (p i : Nat) (x : PageSet) : (s.setPage p i x).tiles = s.tiles := rfl
@[simp] theorem State.setPage_arrays (s : State) (p i : Nat) (x : PageSet) : (s.setPage p i x).arrays = s.arrays := rfl
@[simp] theorem State.setPage_dies (s : State) (p i : Nat) (x : PageSet) : (s.setPage p i x).dies = s.dies := rfl
@[simp] theorem State.setPage_parts (s : State) (p i : Nat) (x : PageSet) : (s.setPage p i x).parts = s.parts := rfl
@[simp] theorem State.setPage_slots (s : State) (p i : Nat) (x : PageSet) : (s.setPage p i x).slots = s.slots := rfl
@[simp] theorem State.setPage_slotRec (s : State) (p i : Nat) (x : PageSet) : (s.setPage p i x).slotRec = s.slotRec := rfl
@[simp] theorem State.setPage_admitSeq (s : State) (p i : Nat) (x : PageSet) : (s.setPage p i x).admitSeq = s.admitSeq := rfl
@[simp] theorem State.setPage_index (s : State) (p i : Nat) (x : PageSet) : (s.setPage p i x).index = s.index := rfl
@[simp] theorem State.setPage_coldUsed (s : State) (p i : Nat) (x : PageSet) : (s.setPage p i x).coldUsed = s.coldUsed := rfl
@[simp] theorem State.setPage_pfxCache (s : State) (p i : Nat) (x : PageSet) : (s.setPage p i x).pfxCache = s.pfxCache := rfl
@[simp] theorem State.setPage_cache (s : State) (p i : Nat) (x : PageSet) : (s.setPage p i x).cache = s.cache := rfl
@[simp] theorem State.setPage_cacheMiss (s : State) (p i : Nat) (x : PageSet) : (s.setPage p i x).cacheMiss = s.cacheMiss := rfl
@[simp] theorem State.setPage_unmerged (s : State) (p i : Nat) (x : PageSet) : (s.setPage p i x).unmerged = s.unmerged := rfl
@[simp] theorem State.setPage_staging (s : State) (p i : Nat) (x : PageSet) : (s.setPage p i x).staging = s.staging := rfl
@[simp] theorem State.setPage_fetches (s : State) (p i : Nat) (x : PageSet) : (s.setPage p i x).fetches = s.fetches := rfl
@[simp] theorem State.setPage_childAsks (s : State) (p i : Nat) (x : PageSet) : (s.setPage p i x).childAsks = s.childAsks := rfl
@[simp] theorem State.setPage_start (s : State) (p i : Nat) (x : PageSet) : (s.setPage p i x).start = s.start := rfl
@[simp] theorem State.setPage_lanes (s : State) (p i : Nat) (x : PageSet) : (s.setPage p i x).lanes = s.lanes := rfl
@[simp] theorem State.setPage_chans (s : State) (p i : Nat) (x : PageSet) : (s.setPage p i x).chans = s.chans := rfl
@[simp] theorem State.setPage_replay (s : State) (p i : Nat) (x : PageSet) : (s.setPage p i x).replay = s.replay := rfl
@[simp] theorem State.setPage_lasers (s : State) (p i : Nat) (x : PageSet) : (s.setPage p i x).lasers = s.lasers := rfl
@[simp] theorem State.setPage_bow (s : State) (p i : Nat) (x : PageSet) : (s.setPage p i x).bow = s.bow := rfl
@[simp] theorem State.setPage_power (s : State) (p i : Nat) (x : PageSet) : (s.setPage p i x).power = s.power := rfl
@[simp] theorem State.setPage_steward (s : State) (p i : Nat) (x : PageSet) : (s.setPage p i x).steward = s.steward := rfl
@[simp] theorem State.setPage_sensors (s : State) (p i : Nat) (x : PageSet) : (s.setPage p i x).sensors = s.sensors := rfl
@[simp] theorem State.setPage_conf (s : State) (p i : Nat) (x : PageSet) : (s.setPage p i x).conf = s.conf := rfl
@[simp] theorem State.setPage_boot (s : State) (p i : Nat) (x : PageSet) : (s.setPage p i x).boot = s.boot := rfl
@[simp] theorem State.setPage_fuses (s : State) (p i : Nat) (x : PageSet) : (s.setPage p i x).fuses = s.fuses := rfl
@[simp] theorem State.setPage_flash (s : State) (p i : Nat) (x : PageSet) : (s.setPage p i x).flash = s.flash := rfl
@[simp] theorem State.setPage_recovery (s : State) (p i : Nat) (x : PageSet) : (s.setPage p i x).recovery = s.recovery := rfl
@[simp] theorem State.setPage_host (s : State) (p i : Nat) (x : PageSet) : (s.setPage p i x).host = s.host := rfl
@[simp] theorem State.setPage_central (s : State) (p i : Nat) (x : PageSet) : (s.setPage p i x).central = s.central := rfl
@[simp] theorem State.setPage_centralN (s : State) (p i : Nat) (x : PageSet) : (s.setPage p i x).centralN = s.centralN := rfl
@[simp] theorem State.setPage_shadow (s : State) (p i : Nat) (x : PageSet) : (s.setPage p i x).shadow = s.shadow := rfl
@[simp] theorem State.setPage_mesh (s : State) (p i : Nat) (x : PageSet) : (s.setPage p i x).mesh = s.mesh := rfl
@[simp] theorem State.setPage_meshTurn (s : State) (p i : Nat) (x : PageSet) : (s.setPage p i x).meshTurn = s.meshTurn := rfl
@[simp] theorem State.setPage_refresh (s : State) (p i : Nat) (x : PageSet) : (s.setPage p i x).refresh = s.refresh := rfl
@[simp] theorem State.setPage_deferred (s : State) (p i : Nat) (x : PageSet) : (s.setPage p i x).deferred = s.deferred := rfl
@[simp] theorem State.setPage_timers (s : State) (p i : Nat) (x : PageSet) : (s.setPage p i x).timers = s.timers := rfl
@[simp] theorem State.setPage_outputs (s : State) (p i : Nat) (x : PageSet) : (s.setPage p i x).outputs = s.outputs := rfl
@[simp] theorem State.setPage_fresh (s : State) (p i : Nat) (x : PageSet) : (s.setPage p i x).fresh = s.fresh := rfl

@[simp] theorem State.reg_setPage (s : State) (p i : Nat) (x : PageSet) (k2 : RegKey) : (s.setPage p i x).reg k2 = s.reg k2 := rfl
@[simp] theorem State.tile_setPage (s : State) (p i : Nat) (x : PageSet) (t2 : TileId) : (s.setPage p i x).tile t2 = s.tile t2 := rfl
@[simp] theorem State.arr_setPage (s : State) (p i : Nat) (x : PageSet) (a2 : ArrayId) : (s.setPage p i x).arr a2 = s.arr a2 := rfl
@[simp] theorem State.die_setPage (s : State) (p i : Nat) (x : PageSet) (d2 : Nat) : (s.setPage p i x).die d2 = s.die d2 := rfl
@[simp] theorem State.part_setPage (s : State) (p i : Nat) (x : PageSet) (p2 : Nat) : (s.setPage p i x).part p2 = s.part p2 := rfl
@[simp] theorem State.slot_setPage (s : State) (p i : Nat) (x : PageSet) (i2 : Nat) : (s.setPage p i x).slot i2 = s.slot i2 := rfl
/-- Reading after `setPage`. -/
theorem State.page_setPage (s : State) (p i : Nat) (x : PageSet) (p2 i2 : Nat) :
    (s.setPage p i x).page p2 i2 = if (p2, i2) = (p, i) then x else s.page p2 i2 := by
  simp only [State.setPage, State.page, Tbl.get_put]

@[simp] theorem State.page_setPage_same (s : State) (p i : Nat) (x : PageSet) : (s.setPage p i x).page p i = x := by
  simp only [State.setPage, State.page, Tbl.get_put_same]
@[simp] theorem State.idx_setPage (s : State) (p i : Nat) (x : PageSet) (e2 : Nat × Nat) : (s.setPage p i x).idx e2 = s.idx e2 := rfl
@[simp] theorem State.lane_setPage (s : State) (p i : Nat) (x : PageSet) (l2 n2 : Nat) : (s.setPage p i x).lane l2 n2 = s.lane l2 n2 := rfl
@[simp] theorem State.chan_setPage (s : State) (p i : Nat) (x : PageSet) (q2 c2 : Nat) : (s.setPage p i x).chan q2 c2 = s.chan q2 c2 := rfl
@[simp] theorem State.laser_setPage (s : State) (p i : Nat) (x : PageSet) (m2 : Nat) : (s.setPage p i x).laser m2 = s.laser m2 := rfl
@[simp] theorem State.sensor_setPage (s : State) (p i : Nat) (x : PageSet) (b2 : Nat) : (s.setPage p i x).sensor b2 = s.sensor b2 := rfl

/-! ## setIdx -/

@[simp] theorem State.setIdx_pending (s : State) (e : Nat × Nat) (x : IdxEntry) : (s.setIdx e x).pending = s.pending := rfl
@[simp] theorem State.setIdx_regs (s : State) (e : Nat × Nat) (x : IdxEntry) : (s.setIdx e x).regs = s.regs := rfl
@[simp] theorem State.setIdx_snaps (s : State) (e : Nat × Nat) (x : IdxEntry) : (s.setIdx e x).snaps = s.snaps := rfl
@[simp] theorem State.setIdx_loHeld (s : State) (e : Nat × Nat) (x : IdxEntry) : (s.setIdx e x).loHeld = s.loHeld := rfl
@[simp] theorem State.setIdx_readOut (s : State) (e : Nat × Nat) (x : IdxEntry) : (s.setIdx e x).readOut = s.readOut := rfl
@[simp] theorem State.setIdx_mem (s : State) (e : Nat × Nat) (x : IdxEntry) : (s.setIdx e x).mem = s.mem := rfl
@[simp] theorem State.setIdx_poison (s : State) (e : Nat × Nat) (x : IdxEntry) : (s.setIdx e x).poison = s.poison := rfl
@[simp] theorem State.setIdx_badScale (s : State) (e : Nat × Nat) (x : IdxEntry) : (s.setIdx e x).badScale = s.badScale := rfl
@[simp] theorem State.setIdx_tiles (s : State) (e : Nat × Nat) (x : IdxEntry) : (s.setIdx e x).tiles = s.tiles := rfl
@[simp] theorem State.setIdx_arrays (s : State) (e : Nat × Nat) (x : IdxEntry) : (s.setIdx e x).arrays = s.arrays := rfl
@[simp] theorem State.setIdx_dies (s : State) (e : Nat × Nat) (x : IdxEntry) : (s.setIdx e x).dies = s.dies := rfl
@[simp] theorem State.setIdx_parts (s : State) (e : Nat × Nat) (x : IdxEntry) : (s.setIdx e x).parts = s.parts := rfl
@[simp] theorem State.setIdx_slots (s : State) (e : Nat × Nat) (x : IdxEntry) : (s.setIdx e x).slots = s.slots := rfl
@[simp] theorem State.setIdx_slotRec (s : State) (e : Nat × Nat) (x : IdxEntry) : (s.setIdx e x).slotRec = s.slotRec := rfl
@[simp] theorem State.setIdx_admitSeq (s : State) (e : Nat × Nat) (x : IdxEntry) : (s.setIdx e x).admitSeq = s.admitSeq := rfl
@[simp] theorem State.setIdx_pages (s : State) (e : Nat × Nat) (x : IdxEntry) : (s.setIdx e x).pages = s.pages := rfl
@[simp] theorem State.setIdx_coldUsed (s : State) (e : Nat × Nat) (x : IdxEntry) : (s.setIdx e x).coldUsed = s.coldUsed := rfl
@[simp] theorem State.setIdx_pfxCache (s : State) (e : Nat × Nat) (x : IdxEntry) : (s.setIdx e x).pfxCache = s.pfxCache := rfl
@[simp] theorem State.setIdx_cache (s : State) (e : Nat × Nat) (x : IdxEntry) : (s.setIdx e x).cache = s.cache := rfl
@[simp] theorem State.setIdx_cacheMiss (s : State) (e : Nat × Nat) (x : IdxEntry) : (s.setIdx e x).cacheMiss = s.cacheMiss := rfl
@[simp] theorem State.setIdx_unmerged (s : State) (e : Nat × Nat) (x : IdxEntry) : (s.setIdx e x).unmerged = s.unmerged := rfl
@[simp] theorem State.setIdx_staging (s : State) (e : Nat × Nat) (x : IdxEntry) : (s.setIdx e x).staging = s.staging := rfl
@[simp] theorem State.setIdx_fetches (s : State) (e : Nat × Nat) (x : IdxEntry) : (s.setIdx e x).fetches = s.fetches := rfl
@[simp] theorem State.setIdx_childAsks (s : State) (e : Nat × Nat) (x : IdxEntry) : (s.setIdx e x).childAsks = s.childAsks := rfl
@[simp] theorem State.setIdx_start (s : State) (e : Nat × Nat) (x : IdxEntry) : (s.setIdx e x).start = s.start := rfl
@[simp] theorem State.setIdx_lanes (s : State) (e : Nat × Nat) (x : IdxEntry) : (s.setIdx e x).lanes = s.lanes := rfl
@[simp] theorem State.setIdx_chans (s : State) (e : Nat × Nat) (x : IdxEntry) : (s.setIdx e x).chans = s.chans := rfl
@[simp] theorem State.setIdx_replay (s : State) (e : Nat × Nat) (x : IdxEntry) : (s.setIdx e x).replay = s.replay := rfl
@[simp] theorem State.setIdx_lasers (s : State) (e : Nat × Nat) (x : IdxEntry) : (s.setIdx e x).lasers = s.lasers := rfl
@[simp] theorem State.setIdx_bow (s : State) (e : Nat × Nat) (x : IdxEntry) : (s.setIdx e x).bow = s.bow := rfl
@[simp] theorem State.setIdx_power (s : State) (e : Nat × Nat) (x : IdxEntry) : (s.setIdx e x).power = s.power := rfl
@[simp] theorem State.setIdx_steward (s : State) (e : Nat × Nat) (x : IdxEntry) : (s.setIdx e x).steward = s.steward := rfl
@[simp] theorem State.setIdx_sensors (s : State) (e : Nat × Nat) (x : IdxEntry) : (s.setIdx e x).sensors = s.sensors := rfl
@[simp] theorem State.setIdx_conf (s : State) (e : Nat × Nat) (x : IdxEntry) : (s.setIdx e x).conf = s.conf := rfl
@[simp] theorem State.setIdx_boot (s : State) (e : Nat × Nat) (x : IdxEntry) : (s.setIdx e x).boot = s.boot := rfl
@[simp] theorem State.setIdx_fuses (s : State) (e : Nat × Nat) (x : IdxEntry) : (s.setIdx e x).fuses = s.fuses := rfl
@[simp] theorem State.setIdx_flash (s : State) (e : Nat × Nat) (x : IdxEntry) : (s.setIdx e x).flash = s.flash := rfl
@[simp] theorem State.setIdx_recovery (s : State) (e : Nat × Nat) (x : IdxEntry) : (s.setIdx e x).recovery = s.recovery := rfl
@[simp] theorem State.setIdx_host (s : State) (e : Nat × Nat) (x : IdxEntry) : (s.setIdx e x).host = s.host := rfl
@[simp] theorem State.setIdx_central (s : State) (e : Nat × Nat) (x : IdxEntry) : (s.setIdx e x).central = s.central := rfl
@[simp] theorem State.setIdx_centralN (s : State) (e : Nat × Nat) (x : IdxEntry) : (s.setIdx e x).centralN = s.centralN := rfl
@[simp] theorem State.setIdx_shadow (s : State) (e : Nat × Nat) (x : IdxEntry) : (s.setIdx e x).shadow = s.shadow := rfl
@[simp] theorem State.setIdx_mesh (s : State) (e : Nat × Nat) (x : IdxEntry) : (s.setIdx e x).mesh = s.mesh := rfl
@[simp] theorem State.setIdx_meshTurn (s : State) (e : Nat × Nat) (x : IdxEntry) : (s.setIdx e x).meshTurn = s.meshTurn := rfl
@[simp] theorem State.setIdx_refresh (s : State) (e : Nat × Nat) (x : IdxEntry) : (s.setIdx e x).refresh = s.refresh := rfl
@[simp] theorem State.setIdx_deferred (s : State) (e : Nat × Nat) (x : IdxEntry) : (s.setIdx e x).deferred = s.deferred := rfl
@[simp] theorem State.setIdx_timers (s : State) (e : Nat × Nat) (x : IdxEntry) : (s.setIdx e x).timers = s.timers := rfl
@[simp] theorem State.setIdx_outputs (s : State) (e : Nat × Nat) (x : IdxEntry) : (s.setIdx e x).outputs = s.outputs := rfl
@[simp] theorem State.setIdx_fresh (s : State) (e : Nat × Nat) (x : IdxEntry) : (s.setIdx e x).fresh = s.fresh := rfl

@[simp] theorem State.reg_setIdx (s : State) (e : Nat × Nat) (x : IdxEntry) (k2 : RegKey) : (s.setIdx e x).reg k2 = s.reg k2 := rfl
@[simp] theorem State.tile_setIdx (s : State) (e : Nat × Nat) (x : IdxEntry) (t2 : TileId) : (s.setIdx e x).tile t2 = s.tile t2 := rfl
@[simp] theorem State.arr_setIdx (s : State) (e : Nat × Nat) (x : IdxEntry) (a2 : ArrayId) : (s.setIdx e x).arr a2 = s.arr a2 := rfl
@[simp] theorem State.die_setIdx (s : State) (e : Nat × Nat) (x : IdxEntry) (d2 : Nat) : (s.setIdx e x).die d2 = s.die d2 := rfl
@[simp] theorem State.part_setIdx (s : State) (e : Nat × Nat) (x : IdxEntry) (p2 : Nat) : (s.setIdx e x).part p2 = s.part p2 := rfl
@[simp] theorem State.slot_setIdx (s : State) (e : Nat × Nat) (x : IdxEntry) (i2 : Nat) : (s.setIdx e x).slot i2 = s.slot i2 := rfl
@[simp] theorem State.page_setIdx (s : State) (e : Nat × Nat) (x : IdxEntry) (p2 i2 : Nat) : (s.setIdx e x).page p2 i2 = s.page p2 i2 := rfl
/-- Reading after `setIdx`. -/
theorem State.idx_setIdx (s : State) (e : Nat × Nat) (x : IdxEntry) (e2 : Nat × Nat) :
    (s.setIdx e x).idx e2 = if e2 = e then x else s.idx e2 := by
  simp only [State.setIdx, State.idx, Tbl.get_put]

@[simp] theorem State.idx_setIdx_same (s : State) (e : Nat × Nat) (x : IdxEntry) : (s.setIdx e x).idx e = x := by
  simp only [State.setIdx, State.idx, Tbl.get_put_same]
@[simp] theorem State.lane_setIdx (s : State) (e : Nat × Nat) (x : IdxEntry) (l2 n2 : Nat) : (s.setIdx e x).lane l2 n2 = s.lane l2 n2 := rfl
@[simp] theorem State.chan_setIdx (s : State) (e : Nat × Nat) (x : IdxEntry) (q2 c2 : Nat) : (s.setIdx e x).chan q2 c2 = s.chan q2 c2 := rfl
@[simp] theorem State.laser_setIdx (s : State) (e : Nat × Nat) (x : IdxEntry) (m2 : Nat) : (s.setIdx e x).laser m2 = s.laser m2 := rfl
@[simp] theorem State.sensor_setIdx (s : State) (e : Nat × Nat) (x : IdxEntry) (b2 : Nat) : (s.setIdx e x).sensor b2 = s.sensor b2 := rfl

/-! ## setLane -/

@[simp] theorem State.setLane_pending (s : State) (l n : Nat) (x : Lane) : (s.setLane l n x).pending = s.pending := rfl
@[simp] theorem State.setLane_regs (s : State) (l n : Nat) (x : Lane) : (s.setLane l n x).regs = s.regs := rfl
@[simp] theorem State.setLane_snaps (s : State) (l n : Nat) (x : Lane) : (s.setLane l n x).snaps = s.snaps := rfl
@[simp] theorem State.setLane_loHeld (s : State) (l n : Nat) (x : Lane) : (s.setLane l n x).loHeld = s.loHeld := rfl
@[simp] theorem State.setLane_readOut (s : State) (l n : Nat) (x : Lane) : (s.setLane l n x).readOut = s.readOut := rfl
@[simp] theorem State.setLane_mem (s : State) (l n : Nat) (x : Lane) : (s.setLane l n x).mem = s.mem := rfl
@[simp] theorem State.setLane_poison (s : State) (l n : Nat) (x : Lane) : (s.setLane l n x).poison = s.poison := rfl
@[simp] theorem State.setLane_badScale (s : State) (l n : Nat) (x : Lane) : (s.setLane l n x).badScale = s.badScale := rfl
@[simp] theorem State.setLane_tiles (s : State) (l n : Nat) (x : Lane) : (s.setLane l n x).tiles = s.tiles := rfl
@[simp] theorem State.setLane_arrays (s : State) (l n : Nat) (x : Lane) : (s.setLane l n x).arrays = s.arrays := rfl
@[simp] theorem State.setLane_dies (s : State) (l n : Nat) (x : Lane) : (s.setLane l n x).dies = s.dies := rfl
@[simp] theorem State.setLane_parts (s : State) (l n : Nat) (x : Lane) : (s.setLane l n x).parts = s.parts := rfl
@[simp] theorem State.setLane_slots (s : State) (l n : Nat) (x : Lane) : (s.setLane l n x).slots = s.slots := rfl
@[simp] theorem State.setLane_slotRec (s : State) (l n : Nat) (x : Lane) : (s.setLane l n x).slotRec = s.slotRec := rfl
@[simp] theorem State.setLane_admitSeq (s : State) (l n : Nat) (x : Lane) : (s.setLane l n x).admitSeq = s.admitSeq := rfl
@[simp] theorem State.setLane_pages (s : State) (l n : Nat) (x : Lane) : (s.setLane l n x).pages = s.pages := rfl
@[simp] theorem State.setLane_index (s : State) (l n : Nat) (x : Lane) : (s.setLane l n x).index = s.index := rfl
@[simp] theorem State.setLane_coldUsed (s : State) (l n : Nat) (x : Lane) : (s.setLane l n x).coldUsed = s.coldUsed := rfl
@[simp] theorem State.setLane_pfxCache (s : State) (l n : Nat) (x : Lane) : (s.setLane l n x).pfxCache = s.pfxCache := rfl
@[simp] theorem State.setLane_cache (s : State) (l n : Nat) (x : Lane) : (s.setLane l n x).cache = s.cache := rfl
@[simp] theorem State.setLane_cacheMiss (s : State) (l n : Nat) (x : Lane) : (s.setLane l n x).cacheMiss = s.cacheMiss := rfl
@[simp] theorem State.setLane_unmerged (s : State) (l n : Nat) (x : Lane) : (s.setLane l n x).unmerged = s.unmerged := rfl
@[simp] theorem State.setLane_staging (s : State) (l n : Nat) (x : Lane) : (s.setLane l n x).staging = s.staging := rfl
@[simp] theorem State.setLane_fetches (s : State) (l n : Nat) (x : Lane) : (s.setLane l n x).fetches = s.fetches := rfl
@[simp] theorem State.setLane_childAsks (s : State) (l n : Nat) (x : Lane) : (s.setLane l n x).childAsks = s.childAsks := rfl
@[simp] theorem State.setLane_start (s : State) (l n : Nat) (x : Lane) : (s.setLane l n x).start = s.start := rfl
@[simp] theorem State.setLane_chans (s : State) (l n : Nat) (x : Lane) : (s.setLane l n x).chans = s.chans := rfl
@[simp] theorem State.setLane_replay (s : State) (l n : Nat) (x : Lane) : (s.setLane l n x).replay = s.replay := rfl
@[simp] theorem State.setLane_lasers (s : State) (l n : Nat) (x : Lane) : (s.setLane l n x).lasers = s.lasers := rfl
@[simp] theorem State.setLane_bow (s : State) (l n : Nat) (x : Lane) : (s.setLane l n x).bow = s.bow := rfl
@[simp] theorem State.setLane_power (s : State) (l n : Nat) (x : Lane) : (s.setLane l n x).power = s.power := rfl
@[simp] theorem State.setLane_steward (s : State) (l n : Nat) (x : Lane) : (s.setLane l n x).steward = s.steward := rfl
@[simp] theorem State.setLane_sensors (s : State) (l n : Nat) (x : Lane) : (s.setLane l n x).sensors = s.sensors := rfl
@[simp] theorem State.setLane_conf (s : State) (l n : Nat) (x : Lane) : (s.setLane l n x).conf = s.conf := rfl
@[simp] theorem State.setLane_boot (s : State) (l n : Nat) (x : Lane) : (s.setLane l n x).boot = s.boot := rfl
@[simp] theorem State.setLane_fuses (s : State) (l n : Nat) (x : Lane) : (s.setLane l n x).fuses = s.fuses := rfl
@[simp] theorem State.setLane_flash (s : State) (l n : Nat) (x : Lane) : (s.setLane l n x).flash = s.flash := rfl
@[simp] theorem State.setLane_recovery (s : State) (l n : Nat) (x : Lane) : (s.setLane l n x).recovery = s.recovery := rfl
@[simp] theorem State.setLane_host (s : State) (l n : Nat) (x : Lane) : (s.setLane l n x).host = s.host := rfl
@[simp] theorem State.setLane_central (s : State) (l n : Nat) (x : Lane) : (s.setLane l n x).central = s.central := rfl
@[simp] theorem State.setLane_centralN (s : State) (l n : Nat) (x : Lane) : (s.setLane l n x).centralN = s.centralN := rfl
@[simp] theorem State.setLane_shadow (s : State) (l n : Nat) (x : Lane) : (s.setLane l n x).shadow = s.shadow := rfl
@[simp] theorem State.setLane_mesh (s : State) (l n : Nat) (x : Lane) : (s.setLane l n x).mesh = s.mesh := rfl
@[simp] theorem State.setLane_meshTurn (s : State) (l n : Nat) (x : Lane) : (s.setLane l n x).meshTurn = s.meshTurn := rfl
@[simp] theorem State.setLane_refresh (s : State) (l n : Nat) (x : Lane) : (s.setLane l n x).refresh = s.refresh := rfl
@[simp] theorem State.setLane_deferred (s : State) (l n : Nat) (x : Lane) : (s.setLane l n x).deferred = s.deferred := rfl
@[simp] theorem State.setLane_timers (s : State) (l n : Nat) (x : Lane) : (s.setLane l n x).timers = s.timers := rfl
@[simp] theorem State.setLane_outputs (s : State) (l n : Nat) (x : Lane) : (s.setLane l n x).outputs = s.outputs := rfl
@[simp] theorem State.setLane_fresh (s : State) (l n : Nat) (x : Lane) : (s.setLane l n x).fresh = s.fresh := rfl

@[simp] theorem State.reg_setLane (s : State) (l n : Nat) (x : Lane) (k2 : RegKey) : (s.setLane l n x).reg k2 = s.reg k2 := rfl
@[simp] theorem State.tile_setLane (s : State) (l n : Nat) (x : Lane) (t2 : TileId) : (s.setLane l n x).tile t2 = s.tile t2 := rfl
@[simp] theorem State.arr_setLane (s : State) (l n : Nat) (x : Lane) (a2 : ArrayId) : (s.setLane l n x).arr a2 = s.arr a2 := rfl
@[simp] theorem State.die_setLane (s : State) (l n : Nat) (x : Lane) (d2 : Nat) : (s.setLane l n x).die d2 = s.die d2 := rfl
@[simp] theorem State.part_setLane (s : State) (l n : Nat) (x : Lane) (p2 : Nat) : (s.setLane l n x).part p2 = s.part p2 := rfl
@[simp] theorem State.slot_setLane (s : State) (l n : Nat) (x : Lane) (i2 : Nat) : (s.setLane l n x).slot i2 = s.slot i2 := rfl
@[simp] theorem State.page_setLane (s : State) (l n : Nat) (x : Lane) (p2 i2 : Nat) : (s.setLane l n x).page p2 i2 = s.page p2 i2 := rfl
@[simp] theorem State.idx_setLane (s : State) (l n : Nat) (x : Lane) (e2 : Nat × Nat) : (s.setLane l n x).idx e2 = s.idx e2 := rfl
/-- Reading after `setLane`. -/
theorem State.lane_setLane (s : State) (l n : Nat) (x : Lane) (l2 n2 : Nat) :
    (s.setLane l n x).lane l2 n2 = if (l2, n2) = (l, n) then x else s.lane l2 n2 := by
  simp only [State.setLane, State.lane, Tbl.get_put]

@[simp] theorem State.lane_setLane_same (s : State) (l n : Nat) (x : Lane) : (s.setLane l n x).lane l n = x := by
  simp only [State.setLane, State.lane, Tbl.get_put_same]
@[simp] theorem State.chan_setLane (s : State) (l n : Nat) (x : Lane) (q2 c2 : Nat) : (s.setLane l n x).chan q2 c2 = s.chan q2 c2 := rfl
@[simp] theorem State.laser_setLane (s : State) (l n : Nat) (x : Lane) (m2 : Nat) : (s.setLane l n x).laser m2 = s.laser m2 := rfl
@[simp] theorem State.sensor_setLane (s : State) (l n : Nat) (x : Lane) (b2 : Nat) : (s.setLane l n x).sensor b2 = s.sensor b2 := rfl

/-! ## setChan -/

@[simp] theorem State.setChan_pending (s : State) (q c : Nat) (x : Chan) : (s.setChan q c x).pending = s.pending := rfl
@[simp] theorem State.setChan_regs (s : State) (q c : Nat) (x : Chan) : (s.setChan q c x).regs = s.regs := rfl
@[simp] theorem State.setChan_snaps (s : State) (q c : Nat) (x : Chan) : (s.setChan q c x).snaps = s.snaps := rfl
@[simp] theorem State.setChan_loHeld (s : State) (q c : Nat) (x : Chan) : (s.setChan q c x).loHeld = s.loHeld := rfl
@[simp] theorem State.setChan_readOut (s : State) (q c : Nat) (x : Chan) : (s.setChan q c x).readOut = s.readOut := rfl
@[simp] theorem State.setChan_mem (s : State) (q c : Nat) (x : Chan) : (s.setChan q c x).mem = s.mem := rfl
@[simp] theorem State.setChan_poison (s : State) (q c : Nat) (x : Chan) : (s.setChan q c x).poison = s.poison := rfl
@[simp] theorem State.setChan_badScale (s : State) (q c : Nat) (x : Chan) : (s.setChan q c x).badScale = s.badScale := rfl
@[simp] theorem State.setChan_tiles (s : State) (q c : Nat) (x : Chan) : (s.setChan q c x).tiles = s.tiles := rfl
@[simp] theorem State.setChan_arrays (s : State) (q c : Nat) (x : Chan) : (s.setChan q c x).arrays = s.arrays := rfl
@[simp] theorem State.setChan_dies (s : State) (q c : Nat) (x : Chan) : (s.setChan q c x).dies = s.dies := rfl
@[simp] theorem State.setChan_parts (s : State) (q c : Nat) (x : Chan) : (s.setChan q c x).parts = s.parts := rfl
@[simp] theorem State.setChan_slots (s : State) (q c : Nat) (x : Chan) : (s.setChan q c x).slots = s.slots := rfl
@[simp] theorem State.setChan_slotRec (s : State) (q c : Nat) (x : Chan) : (s.setChan q c x).slotRec = s.slotRec := rfl
@[simp] theorem State.setChan_admitSeq (s : State) (q c : Nat) (x : Chan) : (s.setChan q c x).admitSeq = s.admitSeq := rfl
@[simp] theorem State.setChan_pages (s : State) (q c : Nat) (x : Chan) : (s.setChan q c x).pages = s.pages := rfl
@[simp] theorem State.setChan_index (s : State) (q c : Nat) (x : Chan) : (s.setChan q c x).index = s.index := rfl
@[simp] theorem State.setChan_coldUsed (s : State) (q c : Nat) (x : Chan) : (s.setChan q c x).coldUsed = s.coldUsed := rfl
@[simp] theorem State.setChan_pfxCache (s : State) (q c : Nat) (x : Chan) : (s.setChan q c x).pfxCache = s.pfxCache := rfl
@[simp] theorem State.setChan_cache (s : State) (q c : Nat) (x : Chan) : (s.setChan q c x).cache = s.cache := rfl
@[simp] theorem State.setChan_cacheMiss (s : State) (q c : Nat) (x : Chan) : (s.setChan q c x).cacheMiss = s.cacheMiss := rfl
@[simp] theorem State.setChan_unmerged (s : State) (q c : Nat) (x : Chan) : (s.setChan q c x).unmerged = s.unmerged := rfl
@[simp] theorem State.setChan_staging (s : State) (q c : Nat) (x : Chan) : (s.setChan q c x).staging = s.staging := rfl
@[simp] theorem State.setChan_fetches (s : State) (q c : Nat) (x : Chan) : (s.setChan q c x).fetches = s.fetches := rfl
@[simp] theorem State.setChan_childAsks (s : State) (q c : Nat) (x : Chan) : (s.setChan q c x).childAsks = s.childAsks := rfl
@[simp] theorem State.setChan_start (s : State) (q c : Nat) (x : Chan) : (s.setChan q c x).start = s.start := rfl
@[simp] theorem State.setChan_lanes (s : State) (q c : Nat) (x : Chan) : (s.setChan q c x).lanes = s.lanes := rfl
@[simp] theorem State.setChan_replay (s : State) (q c : Nat) (x : Chan) : (s.setChan q c x).replay = s.replay := rfl
@[simp] theorem State.setChan_lasers (s : State) (q c : Nat) (x : Chan) : (s.setChan q c x).lasers = s.lasers := rfl
@[simp] theorem State.setChan_bow (s : State) (q c : Nat) (x : Chan) : (s.setChan q c x).bow = s.bow := rfl
@[simp] theorem State.setChan_power (s : State) (q c : Nat) (x : Chan) : (s.setChan q c x).power = s.power := rfl
@[simp] theorem State.setChan_steward (s : State) (q c : Nat) (x : Chan) : (s.setChan q c x).steward = s.steward := rfl
@[simp] theorem State.setChan_sensors (s : State) (q c : Nat) (x : Chan) : (s.setChan q c x).sensors = s.sensors := rfl
@[simp] theorem State.setChan_conf (s : State) (q c : Nat) (x : Chan) : (s.setChan q c x).conf = s.conf := rfl
@[simp] theorem State.setChan_boot (s : State) (q c : Nat) (x : Chan) : (s.setChan q c x).boot = s.boot := rfl
@[simp] theorem State.setChan_fuses (s : State) (q c : Nat) (x : Chan) : (s.setChan q c x).fuses = s.fuses := rfl
@[simp] theorem State.setChan_flash (s : State) (q c : Nat) (x : Chan) : (s.setChan q c x).flash = s.flash := rfl
@[simp] theorem State.setChan_recovery (s : State) (q c : Nat) (x : Chan) : (s.setChan q c x).recovery = s.recovery := rfl
@[simp] theorem State.setChan_host (s : State) (q c : Nat) (x : Chan) : (s.setChan q c x).host = s.host := rfl
@[simp] theorem State.setChan_central (s : State) (q c : Nat) (x : Chan) : (s.setChan q c x).central = s.central := rfl
@[simp] theorem State.setChan_centralN (s : State) (q c : Nat) (x : Chan) : (s.setChan q c x).centralN = s.centralN := rfl
@[simp] theorem State.setChan_shadow (s : State) (q c : Nat) (x : Chan) : (s.setChan q c x).shadow = s.shadow := rfl
@[simp] theorem State.setChan_mesh (s : State) (q c : Nat) (x : Chan) : (s.setChan q c x).mesh = s.mesh := rfl
@[simp] theorem State.setChan_meshTurn (s : State) (q c : Nat) (x : Chan) : (s.setChan q c x).meshTurn = s.meshTurn := rfl
@[simp] theorem State.setChan_refresh (s : State) (q c : Nat) (x : Chan) : (s.setChan q c x).refresh = s.refresh := rfl
@[simp] theorem State.setChan_deferred (s : State) (q c : Nat) (x : Chan) : (s.setChan q c x).deferred = s.deferred := rfl
@[simp] theorem State.setChan_timers (s : State) (q c : Nat) (x : Chan) : (s.setChan q c x).timers = s.timers := rfl
@[simp] theorem State.setChan_outputs (s : State) (q c : Nat) (x : Chan) : (s.setChan q c x).outputs = s.outputs := rfl
@[simp] theorem State.setChan_fresh (s : State) (q c : Nat) (x : Chan) : (s.setChan q c x).fresh = s.fresh := rfl

@[simp] theorem State.reg_setChan (s : State) (q c : Nat) (x : Chan) (k2 : RegKey) : (s.setChan q c x).reg k2 = s.reg k2 := rfl
@[simp] theorem State.tile_setChan (s : State) (q c : Nat) (x : Chan) (t2 : TileId) : (s.setChan q c x).tile t2 = s.tile t2 := rfl
@[simp] theorem State.arr_setChan (s : State) (q c : Nat) (x : Chan) (a2 : ArrayId) : (s.setChan q c x).arr a2 = s.arr a2 := rfl
@[simp] theorem State.die_setChan (s : State) (q c : Nat) (x : Chan) (d2 : Nat) : (s.setChan q c x).die d2 = s.die d2 := rfl
@[simp] theorem State.part_setChan (s : State) (q c : Nat) (x : Chan) (p2 : Nat) : (s.setChan q c x).part p2 = s.part p2 := rfl
@[simp] theorem State.slot_setChan (s : State) (q c : Nat) (x : Chan) (i2 : Nat) : (s.setChan q c x).slot i2 = s.slot i2 := rfl
@[simp] theorem State.page_setChan (s : State) (q c : Nat) (x : Chan) (p2 i2 : Nat) : (s.setChan q c x).page p2 i2 = s.page p2 i2 := rfl
@[simp] theorem State.idx_setChan (s : State) (q c : Nat) (x : Chan) (e2 : Nat × Nat) : (s.setChan q c x).idx e2 = s.idx e2 := rfl
@[simp] theorem State.lane_setChan (s : State) (q c : Nat) (x : Chan) (l2 n2 : Nat) : (s.setChan q c x).lane l2 n2 = s.lane l2 n2 := rfl
/-- Reading after `setChan`. -/
theorem State.chan_setChan (s : State) (q c : Nat) (x : Chan) (q2 c2 : Nat) :
    (s.setChan q c x).chan q2 c2 = if (q2, c2) = (q, c) then x else s.chan q2 c2 := by
  simp only [State.setChan, State.chan, Tbl.get_put]

@[simp] theorem State.chan_setChan_same (s : State) (q c : Nat) (x : Chan) : (s.setChan q c x).chan q c = x := by
  simp only [State.setChan, State.chan, Tbl.get_put_same]
@[simp] theorem State.laser_setChan (s : State) (q c : Nat) (x : Chan) (m2 : Nat) : (s.setChan q c x).laser m2 = s.laser m2 := rfl
@[simp] theorem State.sensor_setChan (s : State) (q c : Nat) (x : Chan) (b2 : Nat) : (s.setChan q c x).sensor b2 = s.sensor b2 := rfl

/-! ## setLaser -/

@[simp] theorem State.setLaser_pending (s : State) (m : Nat) (x : Laser) : (s.setLaser m x).pending = s.pending := rfl
@[simp] theorem State.setLaser_regs (s : State) (m : Nat) (x : Laser) : (s.setLaser m x).regs = s.regs := rfl
@[simp] theorem State.setLaser_snaps (s : State) (m : Nat) (x : Laser) : (s.setLaser m x).snaps = s.snaps := rfl
@[simp] theorem State.setLaser_loHeld (s : State) (m : Nat) (x : Laser) : (s.setLaser m x).loHeld = s.loHeld := rfl
@[simp] theorem State.setLaser_readOut (s : State) (m : Nat) (x : Laser) : (s.setLaser m x).readOut = s.readOut := rfl
@[simp] theorem State.setLaser_mem (s : State) (m : Nat) (x : Laser) : (s.setLaser m x).mem = s.mem := rfl
@[simp] theorem State.setLaser_poison (s : State) (m : Nat) (x : Laser) : (s.setLaser m x).poison = s.poison := rfl
@[simp] theorem State.setLaser_badScale (s : State) (m : Nat) (x : Laser) : (s.setLaser m x).badScale = s.badScale := rfl
@[simp] theorem State.setLaser_tiles (s : State) (m : Nat) (x : Laser) : (s.setLaser m x).tiles = s.tiles := rfl
@[simp] theorem State.setLaser_arrays (s : State) (m : Nat) (x : Laser) : (s.setLaser m x).arrays = s.arrays := rfl
@[simp] theorem State.setLaser_dies (s : State) (m : Nat) (x : Laser) : (s.setLaser m x).dies = s.dies := rfl
@[simp] theorem State.setLaser_parts (s : State) (m : Nat) (x : Laser) : (s.setLaser m x).parts = s.parts := rfl
@[simp] theorem State.setLaser_slots (s : State) (m : Nat) (x : Laser) : (s.setLaser m x).slots = s.slots := rfl
@[simp] theorem State.setLaser_slotRec (s : State) (m : Nat) (x : Laser) : (s.setLaser m x).slotRec = s.slotRec := rfl
@[simp] theorem State.setLaser_admitSeq (s : State) (m : Nat) (x : Laser) : (s.setLaser m x).admitSeq = s.admitSeq := rfl
@[simp] theorem State.setLaser_pages (s : State) (m : Nat) (x : Laser) : (s.setLaser m x).pages = s.pages := rfl
@[simp] theorem State.setLaser_index (s : State) (m : Nat) (x : Laser) : (s.setLaser m x).index = s.index := rfl
@[simp] theorem State.setLaser_coldUsed (s : State) (m : Nat) (x : Laser) : (s.setLaser m x).coldUsed = s.coldUsed := rfl
@[simp] theorem State.setLaser_pfxCache (s : State) (m : Nat) (x : Laser) : (s.setLaser m x).pfxCache = s.pfxCache := rfl
@[simp] theorem State.setLaser_cache (s : State) (m : Nat) (x : Laser) : (s.setLaser m x).cache = s.cache := rfl
@[simp] theorem State.setLaser_cacheMiss (s : State) (m : Nat) (x : Laser) : (s.setLaser m x).cacheMiss = s.cacheMiss := rfl
@[simp] theorem State.setLaser_unmerged (s : State) (m : Nat) (x : Laser) : (s.setLaser m x).unmerged = s.unmerged := rfl
@[simp] theorem State.setLaser_staging (s : State) (m : Nat) (x : Laser) : (s.setLaser m x).staging = s.staging := rfl
@[simp] theorem State.setLaser_fetches (s : State) (m : Nat) (x : Laser) : (s.setLaser m x).fetches = s.fetches := rfl
@[simp] theorem State.setLaser_childAsks (s : State) (m : Nat) (x : Laser) : (s.setLaser m x).childAsks = s.childAsks := rfl
@[simp] theorem State.setLaser_start (s : State) (m : Nat) (x : Laser) : (s.setLaser m x).start = s.start := rfl
@[simp] theorem State.setLaser_lanes (s : State) (m : Nat) (x : Laser) : (s.setLaser m x).lanes = s.lanes := rfl
@[simp] theorem State.setLaser_chans (s : State) (m : Nat) (x : Laser) : (s.setLaser m x).chans = s.chans := rfl
@[simp] theorem State.setLaser_replay (s : State) (m : Nat) (x : Laser) : (s.setLaser m x).replay = s.replay := rfl
@[simp] theorem State.setLaser_bow (s : State) (m : Nat) (x : Laser) : (s.setLaser m x).bow = s.bow := rfl
@[simp] theorem State.setLaser_power (s : State) (m : Nat) (x : Laser) : (s.setLaser m x).power = s.power := rfl
@[simp] theorem State.setLaser_steward (s : State) (m : Nat) (x : Laser) : (s.setLaser m x).steward = s.steward := rfl
@[simp] theorem State.setLaser_sensors (s : State) (m : Nat) (x : Laser) : (s.setLaser m x).sensors = s.sensors := rfl
@[simp] theorem State.setLaser_conf (s : State) (m : Nat) (x : Laser) : (s.setLaser m x).conf = s.conf := rfl
@[simp] theorem State.setLaser_boot (s : State) (m : Nat) (x : Laser) : (s.setLaser m x).boot = s.boot := rfl
@[simp] theorem State.setLaser_fuses (s : State) (m : Nat) (x : Laser) : (s.setLaser m x).fuses = s.fuses := rfl
@[simp] theorem State.setLaser_flash (s : State) (m : Nat) (x : Laser) : (s.setLaser m x).flash = s.flash := rfl
@[simp] theorem State.setLaser_recovery (s : State) (m : Nat) (x : Laser) : (s.setLaser m x).recovery = s.recovery := rfl
@[simp] theorem State.setLaser_host (s : State) (m : Nat) (x : Laser) : (s.setLaser m x).host = s.host := rfl
@[simp] theorem State.setLaser_central (s : State) (m : Nat) (x : Laser) : (s.setLaser m x).central = s.central := rfl
@[simp] theorem State.setLaser_centralN (s : State) (m : Nat) (x : Laser) : (s.setLaser m x).centralN = s.centralN := rfl
@[simp] theorem State.setLaser_shadow (s : State) (m : Nat) (x : Laser) : (s.setLaser m x).shadow = s.shadow := rfl
@[simp] theorem State.setLaser_mesh (s : State) (m : Nat) (x : Laser) : (s.setLaser m x).mesh = s.mesh := rfl
@[simp] theorem State.setLaser_meshTurn (s : State) (m : Nat) (x : Laser) : (s.setLaser m x).meshTurn = s.meshTurn := rfl
@[simp] theorem State.setLaser_refresh (s : State) (m : Nat) (x : Laser) : (s.setLaser m x).refresh = s.refresh := rfl
@[simp] theorem State.setLaser_deferred (s : State) (m : Nat) (x : Laser) : (s.setLaser m x).deferred = s.deferred := rfl
@[simp] theorem State.setLaser_timers (s : State) (m : Nat) (x : Laser) : (s.setLaser m x).timers = s.timers := rfl
@[simp] theorem State.setLaser_outputs (s : State) (m : Nat) (x : Laser) : (s.setLaser m x).outputs = s.outputs := rfl
@[simp] theorem State.setLaser_fresh (s : State) (m : Nat) (x : Laser) : (s.setLaser m x).fresh = s.fresh := rfl

@[simp] theorem State.reg_setLaser (s : State) (m : Nat) (x : Laser) (k2 : RegKey) : (s.setLaser m x).reg k2 = s.reg k2 := rfl
@[simp] theorem State.tile_setLaser (s : State) (m : Nat) (x : Laser) (t2 : TileId) : (s.setLaser m x).tile t2 = s.tile t2 := rfl
@[simp] theorem State.arr_setLaser (s : State) (m : Nat) (x : Laser) (a2 : ArrayId) : (s.setLaser m x).arr a2 = s.arr a2 := rfl
@[simp] theorem State.die_setLaser (s : State) (m : Nat) (x : Laser) (d2 : Nat) : (s.setLaser m x).die d2 = s.die d2 := rfl
@[simp] theorem State.part_setLaser (s : State) (m : Nat) (x : Laser) (p2 : Nat) : (s.setLaser m x).part p2 = s.part p2 := rfl
@[simp] theorem State.slot_setLaser (s : State) (m : Nat) (x : Laser) (i2 : Nat) : (s.setLaser m x).slot i2 = s.slot i2 := rfl
@[simp] theorem State.page_setLaser (s : State) (m : Nat) (x : Laser) (p2 i2 : Nat) : (s.setLaser m x).page p2 i2 = s.page p2 i2 := rfl
@[simp] theorem State.idx_setLaser (s : State) (m : Nat) (x : Laser) (e2 : Nat × Nat) : (s.setLaser m x).idx e2 = s.idx e2 := rfl
@[simp] theorem State.lane_setLaser (s : State) (m : Nat) (x : Laser) (l2 n2 : Nat) : (s.setLaser m x).lane l2 n2 = s.lane l2 n2 := rfl
@[simp] theorem State.chan_setLaser (s : State) (m : Nat) (x : Laser) (q2 c2 : Nat) : (s.setLaser m x).chan q2 c2 = s.chan q2 c2 := rfl
/-- Reading after `setLaser`. -/
theorem State.laser_setLaser (s : State) (m : Nat) (x : Laser) (m2 : Nat) :
    (s.setLaser m x).laser m2 = if m2 = m then x else s.laser m2 := by
  simp only [State.setLaser, State.laser, Tbl.get_put]

@[simp] theorem State.laser_setLaser_same (s : State) (m : Nat) (x : Laser) : (s.setLaser m x).laser m = x := by
  simp only [State.setLaser, State.laser, Tbl.get_put_same]
@[simp] theorem State.sensor_setLaser (s : State) (m : Nat) (x : Laser) (b2 : Nat) : (s.setLaser m x).sensor b2 = s.sensor b2 := rfl

/-! ## setSensor -/

@[simp] theorem State.setSensor_pending (s : State) (b : Nat) (x : Sensor) : (s.setSensor b x).pending = s.pending := rfl
@[simp] theorem State.setSensor_regs (s : State) (b : Nat) (x : Sensor) : (s.setSensor b x).regs = s.regs := rfl
@[simp] theorem State.setSensor_snaps (s : State) (b : Nat) (x : Sensor) : (s.setSensor b x).snaps = s.snaps := rfl
@[simp] theorem State.setSensor_loHeld (s : State) (b : Nat) (x : Sensor) : (s.setSensor b x).loHeld = s.loHeld := rfl
@[simp] theorem State.setSensor_readOut (s : State) (b : Nat) (x : Sensor) : (s.setSensor b x).readOut = s.readOut := rfl
@[simp] theorem State.setSensor_mem (s : State) (b : Nat) (x : Sensor) : (s.setSensor b x).mem = s.mem := rfl
@[simp] theorem State.setSensor_poison (s : State) (b : Nat) (x : Sensor) : (s.setSensor b x).poison = s.poison := rfl
@[simp] theorem State.setSensor_badScale (s : State) (b : Nat) (x : Sensor) : (s.setSensor b x).badScale = s.badScale := rfl
@[simp] theorem State.setSensor_tiles (s : State) (b : Nat) (x : Sensor) : (s.setSensor b x).tiles = s.tiles := rfl
@[simp] theorem State.setSensor_arrays (s : State) (b : Nat) (x : Sensor) : (s.setSensor b x).arrays = s.arrays := rfl
@[simp] theorem State.setSensor_dies (s : State) (b : Nat) (x : Sensor) : (s.setSensor b x).dies = s.dies := rfl
@[simp] theorem State.setSensor_parts (s : State) (b : Nat) (x : Sensor) : (s.setSensor b x).parts = s.parts := rfl
@[simp] theorem State.setSensor_slots (s : State) (b : Nat) (x : Sensor) : (s.setSensor b x).slots = s.slots := rfl
@[simp] theorem State.setSensor_slotRec (s : State) (b : Nat) (x : Sensor) : (s.setSensor b x).slotRec = s.slotRec := rfl
@[simp] theorem State.setSensor_admitSeq (s : State) (b : Nat) (x : Sensor) : (s.setSensor b x).admitSeq = s.admitSeq := rfl
@[simp] theorem State.setSensor_pages (s : State) (b : Nat) (x : Sensor) : (s.setSensor b x).pages = s.pages := rfl
@[simp] theorem State.setSensor_index (s : State) (b : Nat) (x : Sensor) : (s.setSensor b x).index = s.index := rfl
@[simp] theorem State.setSensor_coldUsed (s : State) (b : Nat) (x : Sensor) : (s.setSensor b x).coldUsed = s.coldUsed := rfl
@[simp] theorem State.setSensor_pfxCache (s : State) (b : Nat) (x : Sensor) : (s.setSensor b x).pfxCache = s.pfxCache := rfl
@[simp] theorem State.setSensor_cache (s : State) (b : Nat) (x : Sensor) : (s.setSensor b x).cache = s.cache := rfl
@[simp] theorem State.setSensor_cacheMiss (s : State) (b : Nat) (x : Sensor) : (s.setSensor b x).cacheMiss = s.cacheMiss := rfl
@[simp] theorem State.setSensor_unmerged (s : State) (b : Nat) (x : Sensor) : (s.setSensor b x).unmerged = s.unmerged := rfl
@[simp] theorem State.setSensor_staging (s : State) (b : Nat) (x : Sensor) : (s.setSensor b x).staging = s.staging := rfl
@[simp] theorem State.setSensor_fetches (s : State) (b : Nat) (x : Sensor) : (s.setSensor b x).fetches = s.fetches := rfl
@[simp] theorem State.setSensor_childAsks (s : State) (b : Nat) (x : Sensor) : (s.setSensor b x).childAsks = s.childAsks := rfl
@[simp] theorem State.setSensor_start (s : State) (b : Nat) (x : Sensor) : (s.setSensor b x).start = s.start := rfl
@[simp] theorem State.setSensor_lanes (s : State) (b : Nat) (x : Sensor) : (s.setSensor b x).lanes = s.lanes := rfl
@[simp] theorem State.setSensor_chans (s : State) (b : Nat) (x : Sensor) : (s.setSensor b x).chans = s.chans := rfl
@[simp] theorem State.setSensor_replay (s : State) (b : Nat) (x : Sensor) : (s.setSensor b x).replay = s.replay := rfl
@[simp] theorem State.setSensor_lasers (s : State) (b : Nat) (x : Sensor) : (s.setSensor b x).lasers = s.lasers := rfl
@[simp] theorem State.setSensor_bow (s : State) (b : Nat) (x : Sensor) : (s.setSensor b x).bow = s.bow := rfl
@[simp] theorem State.setSensor_power (s : State) (b : Nat) (x : Sensor) : (s.setSensor b x).power = s.power := rfl
@[simp] theorem State.setSensor_steward (s : State) (b : Nat) (x : Sensor) : (s.setSensor b x).steward = s.steward := rfl
@[simp] theorem State.setSensor_conf (s : State) (b : Nat) (x : Sensor) : (s.setSensor b x).conf = s.conf := rfl
@[simp] theorem State.setSensor_boot (s : State) (b : Nat) (x : Sensor) : (s.setSensor b x).boot = s.boot := rfl
@[simp] theorem State.setSensor_fuses (s : State) (b : Nat) (x : Sensor) : (s.setSensor b x).fuses = s.fuses := rfl
@[simp] theorem State.setSensor_flash (s : State) (b : Nat) (x : Sensor) : (s.setSensor b x).flash = s.flash := rfl
@[simp] theorem State.setSensor_recovery (s : State) (b : Nat) (x : Sensor) : (s.setSensor b x).recovery = s.recovery := rfl
@[simp] theorem State.setSensor_host (s : State) (b : Nat) (x : Sensor) : (s.setSensor b x).host = s.host := rfl
@[simp] theorem State.setSensor_central (s : State) (b : Nat) (x : Sensor) : (s.setSensor b x).central = s.central := rfl
@[simp] theorem State.setSensor_centralN (s : State) (b : Nat) (x : Sensor) : (s.setSensor b x).centralN = s.centralN := rfl
@[simp] theorem State.setSensor_shadow (s : State) (b : Nat) (x : Sensor) : (s.setSensor b x).shadow = s.shadow := rfl
@[simp] theorem State.setSensor_mesh (s : State) (b : Nat) (x : Sensor) : (s.setSensor b x).mesh = s.mesh := rfl
@[simp] theorem State.setSensor_meshTurn (s : State) (b : Nat) (x : Sensor) : (s.setSensor b x).meshTurn = s.meshTurn := rfl
@[simp] theorem State.setSensor_refresh (s : State) (b : Nat) (x : Sensor) : (s.setSensor b x).refresh = s.refresh := rfl
@[simp] theorem State.setSensor_deferred (s : State) (b : Nat) (x : Sensor) : (s.setSensor b x).deferred = s.deferred := rfl
@[simp] theorem State.setSensor_timers (s : State) (b : Nat) (x : Sensor) : (s.setSensor b x).timers = s.timers := rfl
@[simp] theorem State.setSensor_outputs (s : State) (b : Nat) (x : Sensor) : (s.setSensor b x).outputs = s.outputs := rfl
@[simp] theorem State.setSensor_fresh (s : State) (b : Nat) (x : Sensor) : (s.setSensor b x).fresh = s.fresh := rfl

@[simp] theorem State.reg_setSensor (s : State) (b : Nat) (x : Sensor) (k2 : RegKey) : (s.setSensor b x).reg k2 = s.reg k2 := rfl
@[simp] theorem State.tile_setSensor (s : State) (b : Nat) (x : Sensor) (t2 : TileId) : (s.setSensor b x).tile t2 = s.tile t2 := rfl
@[simp] theorem State.arr_setSensor (s : State) (b : Nat) (x : Sensor) (a2 : ArrayId) : (s.setSensor b x).arr a2 = s.arr a2 := rfl
@[simp] theorem State.die_setSensor (s : State) (b : Nat) (x : Sensor) (d2 : Nat) : (s.setSensor b x).die d2 = s.die d2 := rfl
@[simp] theorem State.part_setSensor (s : State) (b : Nat) (x : Sensor) (p2 : Nat) : (s.setSensor b x).part p2 = s.part p2 := rfl
@[simp] theorem State.slot_setSensor (s : State) (b : Nat) (x : Sensor) (i2 : Nat) : (s.setSensor b x).slot i2 = s.slot i2 := rfl
@[simp] theorem State.page_setSensor (s : State) (b : Nat) (x : Sensor) (p2 i2 : Nat) : (s.setSensor b x).page p2 i2 = s.page p2 i2 := rfl
@[simp] theorem State.idx_setSensor (s : State) (b : Nat) (x : Sensor) (e2 : Nat × Nat) : (s.setSensor b x).idx e2 = s.idx e2 := rfl
@[simp] theorem State.lane_setSensor (s : State) (b : Nat) (x : Sensor) (l2 n2 : Nat) : (s.setSensor b x).lane l2 n2 = s.lane l2 n2 := rfl
@[simp] theorem State.chan_setSensor (s : State) (b : Nat) (x : Sensor) (q2 c2 : Nat) : (s.setSensor b x).chan q2 c2 = s.chan q2 c2 := rfl
@[simp] theorem State.laser_setSensor (s : State) (b : Nat) (x : Sensor) (m2 : Nat) : (s.setSensor b x).laser m2 = s.laser m2 := rfl
/-- Reading after `setSensor`. -/
theorem State.sensor_setSensor (s : State) (b : Nat) (x : Sensor) (b2 : Nat) :
    (s.setSensor b x).sensor b2 = if b2 = b then x else s.sensor b2 := by
  simp only [State.setSensor, State.sensor, Tbl.get_put]

@[simp] theorem State.sensor_setSensor_same (s : State) (b : Nat) (x : Sensor) : (s.setSensor b x).sensor b = x := by
  simp only [State.setSensor, State.sensor, Tbl.get_put_same]

/-! ## emit -/

@[simp] theorem State.emit_pending (s : State) (o : Output) : (s.emit o).pending = s.pending := rfl
@[simp] theorem State.emit_regs (s : State) (o : Output) : (s.emit o).regs = s.regs := rfl
@[simp] theorem State.emit_snaps (s : State) (o : Output) : (s.emit o).snaps = s.snaps := rfl
@[simp] theorem State.emit_loHeld (s : State) (o : Output) : (s.emit o).loHeld = s.loHeld := rfl
@[simp] theorem State.emit_readOut (s : State) (o : Output) : (s.emit o).readOut = s.readOut := rfl
@[simp] theorem State.emit_mem (s : State) (o : Output) : (s.emit o).mem = s.mem := rfl
@[simp] theorem State.emit_poison (s : State) (o : Output) : (s.emit o).poison = s.poison := rfl
@[simp] theorem State.emit_badScale (s : State) (o : Output) : (s.emit o).badScale = s.badScale := rfl
@[simp] theorem State.emit_tiles (s : State) (o : Output) : (s.emit o).tiles = s.tiles := rfl
@[simp] theorem State.emit_arrays (s : State) (o : Output) : (s.emit o).arrays = s.arrays := rfl
@[simp] theorem State.emit_dies (s : State) (o : Output) : (s.emit o).dies = s.dies := rfl
@[simp] theorem State.emit_parts (s : State) (o : Output) : (s.emit o).parts = s.parts := rfl
@[simp] theorem State.emit_slots (s : State) (o : Output) : (s.emit o).slots = s.slots := rfl
@[simp] theorem State.emit_slotRec (s : State) (o : Output) : (s.emit o).slotRec = s.slotRec := rfl
@[simp] theorem State.emit_admitSeq (s : State) (o : Output) : (s.emit o).admitSeq = s.admitSeq := rfl
@[simp] theorem State.emit_pages (s : State) (o : Output) : (s.emit o).pages = s.pages := rfl
@[simp] theorem State.emit_index (s : State) (o : Output) : (s.emit o).index = s.index := rfl
@[simp] theorem State.emit_coldUsed (s : State) (o : Output) : (s.emit o).coldUsed = s.coldUsed := rfl
@[simp] theorem State.emit_pfxCache (s : State) (o : Output) : (s.emit o).pfxCache = s.pfxCache := rfl
@[simp] theorem State.emit_cache (s : State) (o : Output) : (s.emit o).cache = s.cache := rfl
@[simp] theorem State.emit_cacheMiss (s : State) (o : Output) : (s.emit o).cacheMiss = s.cacheMiss := rfl
@[simp] theorem State.emit_unmerged (s : State) (o : Output) : (s.emit o).unmerged = s.unmerged := rfl
@[simp] theorem State.emit_staging (s : State) (o : Output) : (s.emit o).staging = s.staging := rfl
@[simp] theorem State.emit_fetches (s : State) (o : Output) : (s.emit o).fetches = s.fetches := rfl
@[simp] theorem State.emit_childAsks (s : State) (o : Output) : (s.emit o).childAsks = s.childAsks := rfl
@[simp] theorem State.emit_start (s : State) (o : Output) : (s.emit o).start = s.start := rfl
@[simp] theorem State.emit_lanes (s : State) (o : Output) : (s.emit o).lanes = s.lanes := rfl
@[simp] theorem State.emit_chans (s : State) (o : Output) : (s.emit o).chans = s.chans := rfl
@[simp] theorem State.emit_replay (s : State) (o : Output) : (s.emit o).replay = s.replay := rfl
@[simp] theorem State.emit_lasers (s : State) (o : Output) : (s.emit o).lasers = s.lasers := rfl
@[simp] theorem State.emit_bow (s : State) (o : Output) : (s.emit o).bow = s.bow := rfl
@[simp] theorem State.emit_power (s : State) (o : Output) : (s.emit o).power = s.power := rfl
@[simp] theorem State.emit_steward (s : State) (o : Output) : (s.emit o).steward = s.steward := rfl
@[simp] theorem State.emit_sensors (s : State) (o : Output) : (s.emit o).sensors = s.sensors := rfl
@[simp] theorem State.emit_conf (s : State) (o : Output) : (s.emit o).conf = s.conf := rfl
@[simp] theorem State.emit_boot (s : State) (o : Output) : (s.emit o).boot = s.boot := rfl
@[simp] theorem State.emit_fuses (s : State) (o : Output) : (s.emit o).fuses = s.fuses := rfl
@[simp] theorem State.emit_flash (s : State) (o : Output) : (s.emit o).flash = s.flash := rfl
@[simp] theorem State.emit_recovery (s : State) (o : Output) : (s.emit o).recovery = s.recovery := rfl
@[simp] theorem State.emit_host (s : State) (o : Output) : (s.emit o).host = s.host := rfl
@[simp] theorem State.emit_central (s : State) (o : Output) : (s.emit o).central = s.central := rfl
@[simp] theorem State.emit_centralN (s : State) (o : Output) : (s.emit o).centralN = s.centralN := rfl
@[simp] theorem State.emit_shadow (s : State) (o : Output) : (s.emit o).shadow = s.shadow := rfl
@[simp] theorem State.emit_mesh (s : State) (o : Output) : (s.emit o).mesh = s.mesh := rfl
@[simp] theorem State.emit_meshTurn (s : State) (o : Output) : (s.emit o).meshTurn = s.meshTurn := rfl
@[simp] theorem State.emit_refresh (s : State) (o : Output) : (s.emit o).refresh = s.refresh := rfl
@[simp] theorem State.emit_deferred (s : State) (o : Output) : (s.emit o).deferred = s.deferred := rfl
@[simp] theorem State.emit_timers (s : State) (o : Output) : (s.emit o).timers = s.timers := rfl
@[simp] theorem State.emit_fresh (s : State) (o : Output) : (s.emit o).fresh = s.fresh := rfl

@[simp] theorem State.reg_emit (s : State) (o : Output) (k2 : RegKey) : (s.emit o).reg k2 = s.reg k2 := rfl
@[simp] theorem State.tile_emit (s : State) (o : Output) (t2 : TileId) : (s.emit o).tile t2 = s.tile t2 := rfl
@[simp] theorem State.arr_emit (s : State) (o : Output) (a2 : ArrayId) : (s.emit o).arr a2 = s.arr a2 := rfl
@[simp] theorem State.die_emit (s : State) (o : Output) (d2 : Nat) : (s.emit o).die d2 = s.die d2 := rfl
@[simp] theorem State.part_emit (s : State) (o : Output) (p2 : Nat) : (s.emit o).part p2 = s.part p2 := rfl
@[simp] theorem State.slot_emit (s : State) (o : Output) (i2 : Nat) : (s.emit o).slot i2 = s.slot i2 := rfl
@[simp] theorem State.page_emit (s : State) (o : Output) (p2 i2 : Nat) : (s.emit o).page p2 i2 = s.page p2 i2 := rfl
@[simp] theorem State.idx_emit (s : State) (o : Output) (e2 : Nat × Nat) : (s.emit o).idx e2 = s.idx e2 := rfl
@[simp] theorem State.lane_emit (s : State) (o : Output) (l2 n2 : Nat) : (s.emit o).lane l2 n2 = s.lane l2 n2 := rfl
@[simp] theorem State.chan_emit (s : State) (o : Output) (q2 c2 : Nat) : (s.emit o).chan q2 c2 = s.chan q2 c2 := rfl
@[simp] theorem State.laser_emit (s : State) (o : Output) (m2 : Nat) : (s.emit o).laser m2 = s.laser m2 := rfl
@[simp] theorem State.sensor_emit (s : State) (o : Output) (b2 : Nat) : (s.emit o).sensor b2 = s.sensor b2 := rfl

@[simp] theorem State.modTile_eq (s : State) (t : TileId) (f : Tile → Tile) : s.modTile t f = s.setTile t (f (s.tile t)) := rfl
@[simp] theorem State.modArr_eq (s : State) (a : ArrayId) (f : Arr → Arr) : s.modArr a f = s.setArr a (f (s.arr a)) := rfl
@[simp] theorem State.modDie_eq (s : State) (d : Nat) (f : Die → Die) : s.modDie d f = s.setDie d (f (s.die d)) := rfl
@[simp] theorem State.modPart_eq (s : State) (p : Nat) (f : Part → Part) : s.modPart p f = s.setPart p (f (s.part p)) := rfl
@[simp] theorem State.modSlot_eq (s : State) (i : Nat) (f : Slot → Slot) : s.modSlot i f = s.setSlot i (f (s.slot i)) := rfl
@[simp] theorem State.modPage_eq (s : State) (p i : Nat) (f : PageSet → PageSet) : s.modPage p i f = s.setPage p i (f (s.page p i)) := rfl
@[simp] theorem State.modLane_eq (s : State) (l n : Nat) (f : Lane → Lane) : s.modLane l n f = s.setLane l n (f (s.lane l n)) := rfl

/-! ## Fields of registers -/

@[simp] theorem State.setFld_eq (s : State) (k : RegKey) (lo len v : Nat) :
    s.setFld k lo len v = s.setReg k (BitVec.ofNat 32 (putFld (s.reg k).toNat lo len v)) := rfl

@[simp] theorem State.setBit_eq (s : State) (k : RegKey) (i : Nat) : s.setBit k i = s.setFld k i 1 1 := rfl

@[simp] theorem State.bump_eq (s : State) (k : RegKey) (lo len n : Nat) :
    s.bump k lo len n = s.setFld k lo len (satAddN len (s.fldOf k lo len) n) := rfl

/-! ## Draws of free values -/

@[simp] theorem State.draw_val (s : State) : s.draw.1 = Config.freeValue s.fresh := rfl
@[simp] theorem State.draw_state (s : State) : s.draw.2 = { s with fresh := s.fresh + 1 } := rfl
@[simp] theorem State.drawB_val (s : State) : s.drawB.1 = Config.freeChoice s.fresh := rfl
@[simp] theorem State.drawB_state (s : State) : s.drawB.2 = { s with fresh := s.fresh + 1 } := rfl

end Sys2Proof.Machine
end

