-- ==== Sys2Proof/Laws/Fields.lean ====
section
/-!
SUPPORT. The laws of bit fields and of register fields: a field written reads back, every other field of the register is as before, and
so is every other register.
-/

namespace Sys2Proof.Machine

theorem testBit_fld (x lo len i : Nat) : (fld x lo len).testBit i = (decide (i < len) && x.testBit (lo + i)) := by
  unfold fld
  rw [Nat.testBit_mod_two_pow, Nat.testBit_div_two_pow, Nat.add_comm]

theorem fld_lt (x lo len : Nat) : fld x lo len < 2 ^ len := Nat.mod_lt _ (by positivity)

theorem bit_eq (x i : Nat) : bit x i = x.testBit i := by
  rw [Nat.testBit_eq_decide_div_mod_eq]; unfold bit; by_cases h : x / 2 ^ i % 2 = 1 <;> simp [h]

/-- A word is its bits above a field, the field, and its bits below. -/
theorem split_fld (x lo len : Nat) : x = x / 2 ^ (lo + len) * 2 ^ (lo + len) + fld x lo len * 2 ^ lo + x % 2 ^ lo := by
  unfold fld
  have h1 := Nat.div_add_mod x (2 ^ lo)
  have h2 := Nat.div_add_mod (x / 2 ^ lo) (2 ^ len)
  rw [Nat.div_div_eq_div_mul, ← pow_add] at h2
  calc x = 2 ^ lo * (x / 2 ^ lo) + x % 2 ^ lo := h1.symm
    _ = 2 ^ lo * (2 ^ len * (x / 2 ^ (lo + len)) + x / 2 ^ lo % 2 ^ len) + x % 2 ^ lo := by rw [h2]
    _ = _ := by rw [pow_add]; ring

theorem putFld_eq (x lo len v : Nat) :
    putFld x lo len v = x / 2 ^ (lo + len) * 2 ^ (lo + len) + v % 2 ^ len * 2 ^ lo + x % 2 ^ lo := by
  unfold putFld
  have := split_fld x lo len
  omega

theorem testBit_putFld (x lo len v i : Nat) :
    (putFld x lo len v).testBit i = if lo ≤ i ∧ i < lo + len then v.testBit (i - lo) else x.testBit i := by
  rw [putFld_eq]
  have hlow : x % 2 ^ lo < 2 ^ lo := Nat.mod_lt _ (by positivity)
  have hv : v % 2 ^ len < 2 ^ len := Nat.mod_lt _ (by positivity)
  have e : x / 2 ^ (lo + len) * 2 ^ (lo + len) + v % 2 ^ len * 2 ^ lo + x % 2 ^ lo
      = 2 ^ lo * (2 ^ len * (x / 2 ^ (lo + len)) + v % 2 ^ len) + x % 2 ^ lo := by rw [pow_add]; ring
  rw [e, Nat.testBit_two_pow_mul_add _ hlow, Nat.testBit_mod_two_pow]
  split
  · rename_i h
    rw [if_neg (by omega)]; simp [h]
  · rename_i h
    rw [Nat.testBit_two_pow_mul_add _ hv]
    by_cases h2 : i - lo < len
    · rw [if_pos h2, if_pos (by omega), Nat.testBit_mod_two_pow]; simp [h2]
    · rw [if_neg h2, if_neg (by omega), Nat.testBit_div_two_pow]; congr 1; omega

theorem fld_putFld_same (x lo len v : Nat) : fld (putFld x lo len v) lo len = v % 2 ^ len := by
  apply Nat.eq_of_testBit_eq; intro i
  rw [testBit_fld, testBit_putFld, Nat.testBit_mod_two_pow]
  by_cases h : i < len
  · rw [if_pos (by omega)]; simp [h]
  · simp [h]

theorem fld_putFld_other (x lo len v lo2 len2 : Nat) (h : lo2 + len2 ≤ lo ∨ lo + len ≤ lo2) :
    fld (putFld x lo len v) lo2 len2 = fld x lo2 len2 := by
  apply Nat.eq_of_testBit_eq; intro i
  rw [testBit_fld, testBit_fld, testBit_putFld]
  by_cases hi : i < len2
  · rw [if_neg (by omega)]
  · simp [hi]

theorem fld_mod (x n lo len : Nat) (h : lo + len ≤ n) : fld (x % 2 ^ n) lo len = fld x lo len := by
  apply Nat.eq_of_testBit_eq; intro i
  rw [testBit_fld, testBit_fld, Nat.testBit_mod_two_pow]
  by_cases hi : i < len
  · simp [hi, show lo + i < n by omega]
  · simp [hi]

/-- A field that lies in the word reads back what was written, to its width. -/
theorem State.fldOf_setFld_same (s : State) (k : RegKey) (lo len v : Nat) (h : lo + len ≤ 32) :
    (s.setFld k lo len v).fldOf k lo len = v % 2 ^ len := by
  unfold State.fldOf State.setFld
  rw [State.reg_setReg_same, BitVec.toNat_ofNat, fld_mod _ _ _ _ h, fld_putFld_same]

/-- Every other field of the register is as before. -/
theorem State.fldOf_setFld_other (s : State) (k : RegKey) (lo len v lo2 len2 : Nat) (h : lo2 + len2 ≤ lo ∨ lo + len ≤ lo2)
    (h2 : lo2 + len2 ≤ 32) : (s.setFld k lo len v).fldOf k lo2 len2 = s.fldOf k lo2 len2 := by
  unfold State.fldOf State.setFld
  rw [State.reg_setReg_same, BitVec.toNat_ofNat, fld_mod _ _ _ _ h2, fld_putFld_other _ _ _ _ _ _ h]

/-- So is every other register. -/
theorem State.reg_setFld_other (s : State) (k : RegKey) (lo len v : Nat) (k2 : RegKey) (h : k2 ≠ k) :
    (s.setFld k lo len v).reg k2 = s.reg k2 := by
  unfold State.setFld; rw [State.reg_setReg, if_neg h]

theorem State.fldOf_setFld_reg (s : State) (k : RegKey) (lo len v : Nat) (k2 : RegKey) (lo2 len2 : Nat) (h : k2 ≠ k) :
    (s.setFld k lo len v).fldOf k2 lo2 len2 = s.fldOf k2 lo2 len2 := by
  unfold State.fldOf; rw [State.reg_setFld_other _ _ _ _ _ _ h]

theorem State.fldOf_setReg_other (s : State) (k : RegKey) (v : W32) (k2 : RegKey) (lo len : Nat) (h : k2 ≠ k) :
    (s.setReg k v).fldOf k2 lo len = s.fldOf k2 lo len := by
  unfold State.fldOf; rw [State.reg_setReg, if_neg h]

theorem State.fldOf_setReg_same (s : State) (k : RegKey) (v : W32) (lo len : Nat) :
    (s.setReg k v).fldOf k lo len = fld v.toNat lo len := by
  unfold State.fldOf; rw [State.reg_setReg_same]

theorem State.fldOf_setBit_same (s : State) (k : RegKey) (i : Nat) (h : i < 32) : (s.setBit k i).fldOf k i 1 = 1 :=
  s.fldOf_setFld_same k i 1 1 (by omega)

theorem State.fldOf_setBit_other (s : State) (k : RegKey) (i lo len : Nat) (h : lo + len ≤ i ∨ i < lo) (h2 : lo + len ≤ 32) :
    (s.setBit k i).fldOf k lo len = s.fldOf k lo len := s.fldOf_setFld_other k i 1 1 lo len (by omega) h2

/-- A counter that saturates (R6 gives counters no wrap): the sum, held at its largest value. -/
theorem State.fldOf_bump_same (s : State) (k : RegKey) (lo len n : Nat) (h : lo + len ≤ 32) :
    (s.bump k lo len n).fldOf k lo len = min (2 ^ len - 1) (s.fldOf k lo len + n) := by
  unfold State.bump
  rw [State.fldOf_setFld_same _ _ _ _ _ h]
  have : 0 < 2 ^ len := by positivity
  unfold satAddN
  exact Nat.mod_eq_of_lt (by simp only [Nat.min_def]; split <;> omega)

theorem State.fldOf_bump_other (s : State) (k : RegKey) (lo len n lo2 len2 : Nat) (h : lo2 + len2 ≤ lo ∨ lo + len ≤ lo2)
    (h2 : lo2 + len2 ≤ 32) : (s.bump k lo len n).fldOf k lo2 len2 = s.fldOf k lo2 len2 :=
  s.fldOf_setFld_other k lo len _ lo2 len2 h h2

/-- A 64-bit pair reads back what was stored, to its width. -/
theorem State.pair_setPair (s : State) (lo hi : RegKey) (v : Nat) (h : lo ≠ hi) : (s.setPair lo hi v).pair lo hi = v % 2 ^ 64 := by
  unfold State.pair State.setPair State.regN
  rw [State.reg_setReg_same, State.reg_setReg, if_neg h, State.reg_setReg_same, BitVec.toNat_ofNat, BitVec.toNat_ofNat]
  omega

end Sys2Proof.Machine
end

