-- ==== Sys2Proof/Laws/Kept.lean ====
section
/-!
SUPPORT. `Kept` and `Quiet` (Sys2Proof/Safety.lean) through the shapes the operations are made of: a record update of a field that
they do not name, a choice, a fold, a pair. With these every operation of the model has one lemma in Laws/Kept1.lean to
Laws/Kept5.lean: `f_quiet` where `f` leaves the memory as it is, `f_kept` where it writes memory.
-/

set_option linter.unusedTactic false
set_option linter.unreachableTactic false
set_option linter.tactic.unusedName false

namespace Sys2Proof

open Machine

/-- Nothing done keeps everything. -/
theorem Kept.refl (s : State) : Kept s s := ⟨rfl, id, List.prefix_rfl, le_rfl⟩

theorem Kept.cut {s0 : State} {Q : Prop} (x : State) (h : Kept s0 x) (f : Kept s0 x → Q) : Q := f h

theorem Kept.cut2 {s0 : State} {Q : Prop} {α : Type} (x : α × State) (h : Kept s0 x.2) (f : Kept s0 x.2 → Q) : Q := f h

/-- A record update of any other field. -/
theorem Kept.upd {s0 s : State} {regs1 : Tbl RegKey W32} {snaps1 : Tbl (Port × RegKey) W32} {loHeld1 : Tbl (Port × RegKey) W32} {readOut1 : Tbl Port W32} {poison1 : List Nat} {badScale1 : List Nat} {tiles1 : Tbl TileId Tile} {arrays1 : Tbl ArrayId Arr} {dies1 : Tbl Nat Die} {parts1 : Tbl Nat Part} {slots1 : Tbl Nat Slot} {slotRec1 : Tbl Nat (List Byte)} {admitSeq1 : Nat} {pages1 : Tbl (Nat × Nat) PageSet} {index1 : Tbl (Nat × Nat) IdxEntry} {coldUsed1 : Tbl (Nat × Nat) ColdPage} {pfxCache1 : Tbl Nat (List (Nat × Nat))} {cache1 : List Cached} {cacheMiss1 : Nat} {unmerged1 : Nat} {staging1 : Tbl (Nat × Nat) (List Byte)} {fetches1 : List Fetch} {childAsks1 : List (Nat × W64 × Nat)} {start1 : StartRec} {lanes1 : Tbl (Nat × Nat) Lane} {chans1 : Tbl (Nat × Nat) Chan} {replay1 : List (Nat × Nat × Nat × Msg)} {lasers1 : Tbl Nat Laser} {bow1 : Bow} {power1 : Power} {steward1 : Steward} {sensors1 : Tbl Nat Sensor} {conf1 : Conf} {boot1 : Boot} {fuses1 : Fuses} {flash1 : Tbl Nat Byte} {recovery1 : Tbl Nat Byte} {host1 : HostSess} {central1 : Tbl Nat FaultRec} {centralN1 : Nat} {shadow1 : Tbl RegKey W32} {mesh1 : Tbl MeshBuf (List (Packet × Bool))} {meshTurn1 : Tbl (TileId × Nat) (Nat × Nat)} {refresh1 : Tbl (Nat × Nat) Refresh} {deferred1 : List Instr} {timers1 : Tbl Timer Nat}
    (h : Kept s0 s) : Kept s0 (State.mk s.pending regs1 snaps1 loHeld1 readOut1 s.mem poison1 badScale1 tiles1 arrays1 dies1 parts1 slots1 slotRec1 admitSeq1 pages1 index1 coldUsed1 pfxCache1 cache1 cacheMiss1 unmerged1 staging1 fetches1 childAsks1 start1 lanes1 chans1 replay1 lasers1 bow1 power1 steward1 sensors1 conf1 boot1 fuses1 flash1 recovery1 host1 central1 centralN1 shadow1 mesh1 meshTurn1 refresh1 deferred1 timers1 s.outputs s.fresh) :=
  ⟨h.pending, h.mem, h.outputs, h.fresh⟩

theorem Kept.ite {s0 a b : State} {c : Prop} {_ : Decidable c} (ha : Kept s0 a) (hb : Kept s0 b) : Kept s0 (if c then a else b) := by
  split <;> assumption

theorem Kept.ite2 {s0 : State} {α : Type} {a b : α × State} {c : Prop} {_ : Decidable c} (ha : Kept s0 a.2) (hb : Kept s0 b.2) :
    Kept s0 (if c then a else b).2 := by
  split <;> assumption

theorem Kept.snd {s0 t : State} {α : Type} {a : α} {p : α × State} (e : p = (a, t)) (h : Kept s0 p.2) : Kept s0 t := by
  rw [e] at h; exact h

/-- A fold whose step keeps it keeps it. -/
theorem Kept.foldl {s0 s : State} {α : Type} {f : State → α → State} {l : List α} (h : Kept s0 s)
    (hf : ∀ s x, Kept s0 s → Kept s0 (f s x)) : Kept s0 (l.foldl f s) := by
  induction l generalizing s with
  | nil => exact h
  | cons x r ih => exact ih (hf s x h)

/-- The same for a state inside an accumulator. -/
theorem Kept.foldlOn {s0 : State} {α β : Type} (g : β → State) {b : β} {f : β → α → β} {l : List α} (h : Kept s0 (g b))
    (hf : ∀ b x, Kept s0 (g b) → Kept s0 (g (f b x))) : Kept s0 (g (l.foldl f b)) := by
  induction l generalizing b with
  | nil => exact h
  | cons x r ih => exact ih (hf b x h)

/-- Nothing done keeps everything. -/
theorem Quiet.refl (s : State) : Quiet s s := ⟨rfl, rfl, List.prefix_rfl, le_rfl⟩

theorem Quiet.cut {s0 : State} {Q : Prop} (x : State) (h : Quiet s0 x) (f : Quiet s0 x → Q) : Q := f h

theorem Quiet.cut2 {s0 : State} {Q : Prop} {α : Type} (x : α × State) (h : Quiet s0 x.2) (f : Quiet s0 x.2 → Q) : Q := f h

/-- A record update of any other field. -/
theorem Quiet.upd {s0 s : State} {regs1 : Tbl RegKey W32} {snaps1 : Tbl (Port × RegKey) W32} {loHeld1 : Tbl (Port × RegKey) W32} {readOut1 : Tbl Port W32} {poison1 : List Nat} {badScale1 : List Nat} {tiles1 : Tbl TileId Tile} {arrays1 : Tbl ArrayId Arr} {dies1 : Tbl Nat Die} {parts1 : Tbl Nat Part} {slots1 : Tbl Nat Slot} {slotRec1 : Tbl Nat (List Byte)} {admitSeq1 : Nat} {pages1 : Tbl (Nat × Nat) PageSet} {index1 : Tbl (Nat × Nat) IdxEntry} {coldUsed1 : Tbl (Nat × Nat) ColdPage} {pfxCache1 : Tbl Nat (List (Nat × Nat))} {cache1 : List Cached} {cacheMiss1 : Nat} {unmerged1 : Nat} {staging1 : Tbl (Nat × Nat) (List Byte)} {fetches1 : List Fetch} {childAsks1 : List (Nat × W64 × Nat)} {start1 : StartRec} {lanes1 : Tbl (Nat × Nat) Lane} {chans1 : Tbl (Nat × Nat) Chan} {replay1 : List (Nat × Nat × Nat × Msg)} {lasers1 : Tbl Nat Laser} {bow1 : Bow} {power1 : Power} {steward1 : Steward} {sensors1 : Tbl Nat Sensor} {conf1 : Conf} {boot1 : Boot} {fuses1 : Fuses} {flash1 : Tbl Nat Byte} {recovery1 : Tbl Nat Byte} {host1 : HostSess} {central1 : Tbl Nat FaultRec} {centralN1 : Nat} {shadow1 : Tbl RegKey W32} {mesh1 : Tbl MeshBuf (List (Packet × Bool))} {meshTurn1 : Tbl (TileId × Nat) (Nat × Nat)} {refresh1 : Tbl (Nat × Nat) Refresh} {deferred1 : List Instr} {timers1 : Tbl Timer Nat}
    (h : Quiet s0 s) : Quiet s0 (State.mk s.pending regs1 snaps1 loHeld1 readOut1 s.mem poison1 badScale1 tiles1 arrays1 dies1 parts1 slots1 slotRec1 admitSeq1 pages1 index1 coldUsed1 pfxCache1 cache1 cacheMiss1 unmerged1 staging1 fetches1 childAsks1 start1 lanes1 chans1 replay1 lasers1 bow1 power1 steward1 sensors1 conf1 boot1 fuses1 flash1 recovery1 host1 central1 centralN1 shadow1 mesh1 meshTurn1 refresh1 deferred1 timers1 s.outputs s.fresh) :=
  ⟨h.pending, h.mem, h.outputs, h.fresh⟩

theorem Quiet.ite {s0 a b : State} {c : Prop} {_ : Decidable c} (ha : Quiet s0 a) (hb : Quiet s0 b) : Quiet s0 (if c then a else b) := by
  split <;> assumption

theorem Quiet.ite2 {s0 : State} {α : Type} {a b : α × State} {c : Prop} {_ : Decidable c} (ha : Quiet s0 a.2) (hb : Quiet s0 b.2) :
    Quiet s0 (if c then a else b).2 := by
  split <;> assumption

theorem Quiet.snd {s0 t : State} {α : Type} {a : α} {p : α × State} (e : p = (a, t)) (h : Quiet s0 p.2) : Quiet s0 t := by
  rw [e] at h; exact h

/-- A fold whose step keeps it keeps it. -/
theorem Quiet.foldl {s0 s : State} {α : Type} {f : State → α → State} {l : List α} (h : Quiet s0 s)
    (hf : ∀ s x, Quiet s0 s → Quiet s0 (f s x)) : Quiet s0 (l.foldl f s) := by
  induction l generalizing s with
  | nil => exact h
  | cons x r ih => exact ih (hf s x h)

/-- The same for a state inside an accumulator. -/
theorem Quiet.foldlOn {s0 : State} {α β : Type} (g : β → State) {b : β} {f : β → α → β} {l : List α} (h : Quiet s0 (g b))
    (hf : ∀ b x, Quiet s0 (g b) → Quiet s0 (g (f b x))) : Quiet s0 (g (l.foldl f b)) := by
  induction l generalizing b with
  | nil => exact h
  | cons x r ih => exact ih (hf b x h)

/-- What keeps the memory whole keeps its form. -/
theorem Quiet.keeps {s0 s t : State} (q : Quiet s t) (h : Kept s0 s) : Kept s0 t :=
  ⟨q.pending.trans h.pending, fun hm => q.mem ▸ h.mem hm, h.outputs.trans q.outputs, h.fresh.trans q.fresh⟩

/-- Quiet steps in a row are quiet. -/
theorem Quiet.then {s0 s t : State} (h : Quiet s0 s) (q : Quiet s t) : Quiet s0 t :=
  ⟨q.pending.trans h.pending, q.mem.trans h.mem, h.outputs.trans q.outputs, h.fresh.trans q.fresh⟩

end Sys2Proof
end

