-- ==== Sys2Proof/Laws/Kept1.lean ====
section
/-!
SUPPORT. What every operation and every command's effect keeps, for the files: State, Ops, Flags, Pages, Jobs, Compose, Fences, Manifests, Tiles, VectorAlu, VectorMem.
-/

set_option Elab.async false
set_option linter.unusedTactic false
set_option linter.unreachableTactic false
set_option linter.tactic.unusedName false

namespace Sys2Proof.Machine

/-! ## Ops -/

theorem State.poisonOn_quiet {s0 : State} (s : State) (a n : Nat) (hs : Quiet s0 s) : Quiet s0 (State.poisonOn s a n) := by
  unfold State.poisonOn
  repeat' (first
    | with_reducible assumption
    | (extract_lets +onlyGivenNames x; change State at x; refine Quiet.cut (s0 := s0) x ?_ ?_; (on_goal 1 => dsimp only [x]; clear x); (on_goal 2 => intro hx; clear_value x))
    | (extract_lets +onlyGivenNames x; change _ × State at x; refine Quiet.cut2 (s0 := s0) x ?_ ?_; (on_goal 1 => dsimp only [x]; clear x); (on_goal 2 => intro hx; clear_value x))
    | (extract_lets +onlyGivenNames x; clear_value x) | with_reducible apply Quiet.ite | fail_if_no_progress intros
    | fail_if_no_progress with_reducible apply Quiet.upd | dsimp only | split)

theorem State.poisonOn_kept {s0 : State} (s : State) (a n : Nat) (hs : Kept s0 s) : Kept s0 (State.poisonOn s a n) :=
  (State.poisonOn_quiet s a n (Quiet.refl _)).keeps hs

theorem State.poisonOff_quiet {s0 : State} (s : State) (a n : Nat) (hs : Quiet s0 s) : Quiet s0 (State.poisonOff s a n) := by
  unfold State.poisonOff
  repeat' (first
    | with_reducible assumption | fail_if_no_progress intros | fail_if_no_progress with_reducible apply Quiet.upd)

theorem State.poisonOff_kept {s0 : State} (s : State) (a n : Nat) (hs : Kept s0 s) : Kept s0 (State.poisonOff s a n) :=
  (State.poisonOff_quiet s a n (Quiet.refl _)).keeps hs

theorem State.setBytesP_kept {s0 : State} (s : State) (a : Nat) (b : List Byte) (p : Bool) (hs : Kept s0 s) :
    Kept s0 (s.setBytesP a b p) := by
  refine ⟨?_, ?_, ?_, ?_⟩
  · rw [← hs.pending]; cases p <;> rfl
  · intro h; rw [State.setBytesP_mem]; exact Memory.wf_writeN (hs.mem h) a b
  · have : (s.setBytesP a b p).outputs = s.outputs := by cases p <;> rfl
    rw [this]; exact hs.outputs
  · have : (s.setBytesP a b p).fresh = s.fresh := by cases p <;> rfl
    rw [this]; exact hs.fresh

theorem State.setBytes_kept {s0 : State} (s : State) (a : Nat) (b : List Byte) (hs : Kept s0 s) : Kept s0 (State.setBytes s a b) := by
  unfold State.setBytes
  repeat' (first
    | with_reducible assumption | with_reducible apply State.setBytesP_kept | fail_if_no_progress intros)

theorem State.draw_quiet {s0 : State} (s : State) (hs : Quiet s0 s) : Quiet s0 s.draw.2 :=
  ⟨hs.pending, hs.mem, hs.outputs, Nat.le_succ_of_le hs.fresh⟩

theorem State.draw_kept {s0 : State} (s : State) (hs : Kept s0 s) : Kept s0 (State.draw s).2 :=
  (State.draw_quiet s (Quiet.refl _)).keeps hs

theorem State.drawB_quiet {s0 : State} (s : State) (hs : Quiet s0 s) : Quiet s0 s.drawB.2 :=
  ⟨hs.pending, hs.mem, hs.outputs, Nat.le_succ_of_le hs.fresh⟩

theorem State.setReg_quiet {s0 : State} (s : State) (k : RegKey) (v : W32) (hs : Quiet s0 s) : Quiet s0 (State.setReg s k v) := by
  unfold State.setReg
  repeat' (first
    | with_reducible assumption | fail_if_no_progress intros | fail_if_no_progress with_reducible apply Quiet.upd)

theorem State.setReg_kept {s0 : State} (s : State) (k : RegKey) (v : W32) (hs : Kept s0 s) : Kept s0 (State.setReg s k v) :=
  (State.setReg_quiet s k v (Quiet.refl _)).keeps hs

theorem State.setFld_quiet {s0 : State} (s : State) (k : RegKey) (lo len v : Nat) (hs : Quiet s0 s) : Quiet s0 (State.setFld s k lo len v) := by
  unfold State.setFld
  repeat' (first
    | with_reducible assumption | with_reducible apply State.setReg_quiet | fail_if_no_progress intros)

theorem State.setFld_kept {s0 : State} (s : State) (k : RegKey) (lo len v : Nat) (hs : Kept s0 s) : Kept s0 (State.setFld s k lo len v) :=
  (State.setFld_quiet s k lo len v (Quiet.refl _)).keeps hs

theorem State.setBit_quiet {s0 : State} (s : State) (k : RegKey) (i : Nat) (hs : Quiet s0 s) : Quiet s0 (State.setBit s k i) := by
  unfold State.setBit
  repeat' (first
    | with_reducible assumption | with_reducible apply State.setFld_quiet | fail_if_no_progress intros)

theorem State.setBit_kept {s0 : State} (s : State) (k : RegKey) (i : Nat) (hs : Kept s0 s) : Kept s0 (State.setBit s k i) :=
  (State.setBit_quiet s k i (Quiet.refl _)).keeps hs

theorem State.bump_quiet {s0 : State} (s : State) (k : RegKey) (lo len n : Nat) (hs : Quiet s0 s) : Quiet s0 (State.bump s k lo len n) := by
  unfold State.bump
  repeat' (first
    | with_reducible assumption | with_reducible apply State.setFld_quiet | fail_if_no_progress intros)

theorem State.bump_kept {s0 : State} (s : State) (k : RegKey) (lo len n : Nat) (hs : Kept s0 s) : Kept s0 (State.bump s k lo len n) :=
  (State.bump_quiet s k lo len n (Quiet.refl _)).keeps hs

theorem State.setPair_quiet {s0 : State} (s : State) (lo hi : RegKey) (v : Nat) (hs : Quiet s0 s) : Quiet s0 (State.setPair s lo hi v) := by
  unfold State.setPair
  repeat' (first
    | with_reducible assumption | with_reducible apply State.setReg_quiet | fail_if_no_progress intros)

theorem State.bumpPair_quiet {s0 : State} (s : State) (lo hi : RegKey) (n : Nat) (hs : Quiet s0 s) : Quiet s0 (State.bumpPair s lo hi n) := by
  unfold State.bumpPair
  repeat' (first
    | with_reducible assumption | with_reducible apply State.setPair_quiet | fail_if_no_progress intros)

theorem State.bumpPair_kept {s0 : State} (s : State) (lo hi : RegKey) (n : Nat) (hs : Kept s0 s) : Kept s0 (State.bumpPair s lo hi n) :=
  (State.bumpPair_quiet s lo hi n (Quiet.refl _)).keeps hs

theorem State.setTile_quiet {s0 : State} (s : State) (t : TileId) (x : Tile) (hs : Quiet s0 s) : Quiet s0 (State.setTile s t x) := by
  unfold State.setTile
  repeat' (first
    | with_reducible assumption | fail_if_no_progress intros | fail_if_no_progress with_reducible apply Quiet.upd)

theorem State.modTile_quiet {s0 : State} (s : State) (t : TileId) (f : Tile → Tile) (hs : Quiet s0 s) : Quiet s0 (State.modTile s t f) := by
  unfold State.modTile
  repeat' (first
    | with_reducible assumption | with_reducible apply State.setTile_quiet | fail_if_no_progress intros)

theorem State.modTile_kept {s0 : State} (s : State) (t : TileId) (f : Tile → Tile) (hs : Kept s0 s) : Kept s0 (State.modTile s t f) :=
  (State.modTile_quiet s t f (Quiet.refl _)).keeps hs

theorem State.setArr_quiet {s0 : State} (s : State) (a : ArrayId) (x : Arr) (hs : Quiet s0 s) : Quiet s0 (State.setArr s a x) := by
  unfold State.setArr
  repeat' (first
    | with_reducible assumption | fail_if_no_progress intros | fail_if_no_progress with_reducible apply Quiet.upd)

theorem State.modArr_quiet {s0 : State} (s : State) (a : ArrayId) (f : Arr → Arr) (hs : Quiet s0 s) : Quiet s0 (State.modArr s a f) := by
  unfold State.modArr
  repeat' (first
    | with_reducible assumption | with_reducible apply State.setArr_quiet | fail_if_no_progress intros)

theorem State.modArr_kept {s0 : State} (s : State) (a : ArrayId) (f : Arr → Arr) (hs : Kept s0 s) : Kept s0 (State.modArr s a f) :=
  (State.modArr_quiet s a f (Quiet.refl _)).keeps hs

theorem State.setDie_quiet {s0 : State} (s : State) (d : Nat) (x : Die) (hs : Quiet s0 s) : Quiet s0 (State.setDie s d x) := by
  unfold State.setDie
  repeat' (first
    | with_reducible assumption | fail_if_no_progress intros | fail_if_no_progress with_reducible apply Quiet.upd)

theorem State.modDie_quiet {s0 : State} (s : State) (d : Nat) (f : Die → Die) (hs : Quiet s0 s) : Quiet s0 (State.modDie s d f) := by
  unfold State.modDie
  repeat' (first
    | with_reducible assumption | with_reducible apply State.setDie_quiet | fail_if_no_progress intros)

theorem State.modDie_kept {s0 : State} (s : State) (d : Nat) (f : Die → Die) (hs : Kept s0 s) : Kept s0 (State.modDie s d f) :=
  (State.modDie_quiet s d f (Quiet.refl _)).keeps hs

theorem State.setPart_quiet {s0 : State} (s : State) (p : Nat) (x : Part) (hs : Quiet s0 s) : Quiet s0 (State.setPart s p x) := by
  unfold State.setPart
  repeat' (first
    | with_reducible assumption | fail_if_no_progress intros | fail_if_no_progress with_reducible apply Quiet.upd)

theorem State.setPart_kept {s0 : State} (s : State) (p : Nat) (x : Part) (hs : Kept s0 s) : Kept s0 (State.setPart s p x) :=
  (State.setPart_quiet s p x (Quiet.refl _)).keeps hs

theorem State.modPart_quiet {s0 : State} (s : State) (p : Nat) (f : Part → Part) (hs : Quiet s0 s) : Quiet s0 (State.modPart s p f) := by
  unfold State.modPart
  repeat' (first
    | with_reducible assumption | with_reducible apply State.setPart_quiet | fail_if_no_progress intros)

theorem State.modPart_kept {s0 : State} (s : State) (p : Nat) (f : Part → Part) (hs : Kept s0 s) : Kept s0 (State.modPart s p f) :=
  (State.modPart_quiet s p f (Quiet.refl _)).keeps hs

theorem State.setSlot_quiet {s0 : State} (s : State) (i : Nat) (x : Slot) (hs : Quiet s0 s) : Quiet s0 (State.setSlot s i x) := by
  unfold State.setSlot
  repeat' (first
    | with_reducible assumption | fail_if_no_progress intros | fail_if_no_progress with_reducible apply Quiet.upd)

theorem State.modSlot_quiet {s0 : State} (s : State) (i : Nat) (f : Slot → Slot) (hs : Quiet s0 s) : Quiet s0 (State.modSlot s i f) := by
  unfold State.modSlot
  repeat' (first
    | with_reducible assumption | with_reducible apply State.setSlot_quiet | fail_if_no_progress intros)

theorem State.modSlot_kept {s0 : State} (s : State) (i : Nat) (f : Slot → Slot) (hs : Kept s0 s) : Kept s0 (State.modSlot s i f) :=
  (State.modSlot_quiet s i f (Quiet.refl _)).keeps hs

theorem State.setPage_quiet {s0 : State} (s : State) (p i : Nat) (x : PageSet) (hs : Quiet s0 s) : Quiet s0 (State.setPage s p i x) := by
  unfold State.setPage
  repeat' (first
    | with_reducible assumption | fail_if_no_progress intros | fail_if_no_progress with_reducible apply Quiet.upd)

theorem State.modPage_quiet {s0 : State} (s : State) (p i : Nat) (f : PageSet → PageSet) (hs : Quiet s0 s) : Quiet s0 (State.modPage s p i f) := by
  unfold State.modPage
  repeat' (first
    | with_reducible assumption | with_reducible apply State.setPage_quiet | fail_if_no_progress intros)

theorem State.modPage_kept {s0 : State} (s : State) (p i : Nat) (f : PageSet → PageSet) (hs : Kept s0 s) : Kept s0 (State.modPage s p i f) :=
  (State.modPage_quiet s p i f (Quiet.refl _)).keeps hs

theorem State.setIdx_quiet {s0 : State} (s : State) (e : Nat × Nat) (x : IdxEntry) (hs : Quiet s0 s) : Quiet s0 (State.setIdx s e x) := by
  unfold State.setIdx
  repeat' (first
    | with_reducible assumption | fail_if_no_progress intros | fail_if_no_progress with_reducible apply Quiet.upd)

theorem State.setLane_quiet {s0 : State} (s : State) (l n : Nat) (x : Lane) (hs : Quiet s0 s) : Quiet s0 (State.setLane s l n x) := by
  unfold State.setLane
  repeat' (first
    | with_reducible assumption | fail_if_no_progress intros | fail_if_no_progress with_reducible apply Quiet.upd)

theorem State.modLane_quiet {s0 : State} (s : State) (l n : Nat) (f : Lane → Lane) (hs : Quiet s0 s) : Quiet s0 (State.modLane s l n f) := by
  unfold State.modLane
  repeat' (first
    | with_reducible assumption | with_reducible apply State.setLane_quiet | fail_if_no_progress intros)

theorem State.modLane_kept {s0 : State} (s : State) (l n : Nat) (f : Lane → Lane) (hs : Kept s0 s) : Kept s0 (State.modLane s l n f) :=
  (State.modLane_quiet s l n f (Quiet.refl _)).keeps hs

theorem State.setChan_quiet {s0 : State} (s : State) (port c : Nat) (x : Chan) (hs : Quiet s0 s) : Quiet s0 (State.setChan s port c x) := by
  unfold State.setChan
  repeat' (first
    | with_reducible assumption | fail_if_no_progress intros | fail_if_no_progress with_reducible apply Quiet.upd)

theorem State.setChan_kept {s0 : State} (s : State) (port c : Nat) (x : Chan) (hs : Kept s0 s) : Kept s0 (State.setChan s port c x) :=
  (State.setChan_quiet s port c x (Quiet.refl _)).keeps hs

theorem State.setLaser_quiet {s0 : State} (s : State) (m : Nat) (x : Laser) (hs : Quiet s0 s) : Quiet s0 (State.setLaser s m x) := by
  unfold State.setLaser
  repeat' (first
    | with_reducible assumption | fail_if_no_progress intros | fail_if_no_progress with_reducible apply Quiet.upd)

theorem State.setSensor_quiet {s0 : State} (s : State) (b : Nat) (x : Sensor) (hs : Quiet s0 s) : Quiet s0 (State.setSensor s b x) := by
  unfold State.setSensor
  repeat' (first
    | with_reducible assumption | fail_if_no_progress intros | fail_if_no_progress with_reducible apply Quiet.upd)

theorem State.armTimer_quiet {s0 : State} (s : State) (t : Timer) (next : Nat) (hs : Quiet s0 s) : Quiet s0 (State.armTimer s t next) := by
  unfold State.armTimer
  repeat' (first
    | with_reducible assumption | fail_if_no_progress intros | fail_if_no_progress with_reducible apply Quiet.upd)

theorem State.armTimer_kept {s0 : State} (s : State) (t : Timer) (next : Nat) (hs : Kept s0 s) : Kept s0 (State.armTimer s t next) :=
  (State.armTimer_quiet s t next (Quiet.refl _)).keeps hs

theorem State.every_quiet {s0 : State} (s : State) (t : Timer) (next : Nat) (f : State → State) (hs : Quiet s0 s) (hf : ∀ (a0 : State), Quiet s0 a0 → Quiet s0 (f a0)) : Quiet s0 (State.every s t next f) := by
  unfold State.every
  repeat' (first
    | with_reducible assumption | with_reducible apply hf | with_reducible apply State.armTimer_quiet
    | with_reducible apply Quiet.ite | fail_if_no_progress intros | split)

theorem State.every_kept {s0 : State} (s : State) (t : Timer) (next : Nat) (f : State → State) (hs : Kept s0 s) (hf : ∀ (a0 : State), Kept s0 a0 → Kept s0 (f a0)) : Kept s0 (State.every s t next f) := by
  unfold State.every
  repeat' (first
    | with_reducible assumption | with_reducible apply hf | with_reducible apply State.armTimer_kept
    | with_reducible apply Kept.ite | fail_if_no_progress intros | split)

theorem State.emit_quiet {s0 : State} (s : State) (o : Output) (hs : Quiet s0 s) : Quiet s0 (s.emit o) :=
  ⟨hs.pending, hs.mem, hs.outputs.trans (List.prefix_append _ _), hs.fresh⟩

theorem State.emit_kept {s0 : State} (s : State) (o : Output) (hs : Kept s0 s) : Kept s0 (State.emit s o) :=
  (State.emit_quiet s o (Quiet.refl _)).keeps hs

/-! ## Flags -/

theorem State.ctrAdd_quiet {s0 : State} (s : State) (d region k n : Nat) (hs : Quiet s0 s) : Quiet s0 (State.ctrAdd s d region k n) := by
  unfold State.ctrAdd
  repeat' (first
    | with_reducible assumption
    | (extract_lets +onlyGivenNames x; change State at x; refine Quiet.cut (s0 := s0) x ?_ ?_; (on_goal 1 => dsimp only [x]; clear x); (on_goal 2 => intro hx; clear_value x))
    | (extract_lets +onlyGivenNames x; change _ × State at x; refine Quiet.cut2 (s0 := s0) x ?_ ?_; (on_goal 1 => dsimp only [x]; clear x); (on_goal 2 => intro hx; clear_value x))
    | (extract_lets +onlyGivenNames x; clear_value x) | with_reducible apply State.setPair_quiet
    | with_reducible apply State.setBit_quiet | with_reducible apply Quiet.ite | fail_if_no_progress intros | dsimp only
    | split)

theorem State.event_quiet {s0 : State} (s : State) (d region ev n : Nat) (layer : Option Nat) (hs : Quiet s0 s) : Quiet s0 (State.event s d region ev n layer) := by
  unfold State.event
  repeat' (first
    | with_reducible assumption | with_reducible apply State.ctrAdd_quiet | with_reducible apply Quiet.ite
    | with_reducible apply Quiet.foldl | fail_if_no_progress intros | split)

theorem State.event_kept {s0 : State} (s : State) (d region ev n : Nat) (layer : Option Nat) (hs : Kept s0 s) : Kept s0 (State.event s d region ev n layer) :=
  (State.event_quiet s d region ev n layer (Quiet.refl _)).keeps hs

theorem State.tileEvent_quiet {s0 : State} (s : State) (t : TileId) (ev n : Nat) (layer : Option Nat) (hs : Quiet s0 s) : Quiet s0 (State.tileEvent s t ev n layer) := by
  unfold State.tileEvent
  repeat' (first
    | with_reducible assumption | with_reducible apply State.event_quiet | fail_if_no_progress intros)

theorem State.tileEvent_kept {s0 : State} (s : State) (t : TileId) (ev n : Nat) (layer : Option Nat) (hs : Kept s0 s) : Kept s0 (State.tileEvent s t ev n layer) :=
  (State.tileEvent_quiet s t ev n layer (Quiet.refl _)).keeps hs

theorem State.putFault_quiet {s0 : State} (s : State) (r : FaultRec) (hs : Quiet s0 s) : Quiet s0 (State.putFault s r) := by
  unfold State.putFault
  repeat' (first
    | with_reducible assumption
    | (extract_lets +onlyGivenNames x; change State at x; refine Quiet.cut (s0 := s0) x ?_ ?_; (on_goal 1 => dsimp only [x]; clear x); (on_goal 2 => intro hx; clear_value x))
    | (extract_lets +onlyGivenNames x; change _ × State at x; refine Quiet.cut2 (s0 := s0) x ?_ ?_; (on_goal 1 => dsimp only [x]; clear x); (on_goal 2 => intro hx; clear_value x))
    | (extract_lets +onlyGivenNames x; clear_value x) | with_reducible apply State.modDie_quiet
    | with_reducible apply State.setDie_quiet | with_reducible apply State.bump_quiet | with_reducible apply State.setBit_quiet
    | with_reducible apply State.setFld_quiet | with_reducible apply Quiet.ite | fail_if_no_progress intros
    | fail_if_no_progress with_reducible apply Quiet.upd | (with_reducible apply Quiet.snd; with_reducible assumption)
    | dsimp only | split)

theorem State.fault_quiet {s0 : State} (s : State) (code die unit region detail : Nat) (part : Option Nat) (opidx : Nat) (hs : Quiet s0 s) : Quiet s0 (State.fault s code die unit region detail part opidx) := by
  unfold State.fault
  repeat' (first
    | with_reducible assumption | with_reducible apply State.putFault_quiet | fail_if_no_progress intros)

theorem State.fault_kept {s0 : State} (s : State) (code die unit region detail : Nat) (part : Option Nat) (opidx : Nat) (hs : Kept s0 s) : Kept s0 (State.fault s code die unit region detail part opidx) :=
  (State.fault_quiet s code die unit region detail part opidx (Quiet.refl _)).keeps hs

theorem State.addrFault_quiet {s0 : State} (s : State) (port : Port) (a : Nat) (hs : Quiet s0 s) : Quiet s0 (State.addrFault s port a) := by
  unfold State.addrFault
  repeat' (first
    | with_reducible assumption
    | (extract_lets +onlyGivenNames x; change State at x; refine Quiet.cut (s0 := s0) x ?_ ?_; (on_goal 1 => dsimp only [x]; clear x); (on_goal 2 => intro hx; clear_value x))
    | (extract_lets +onlyGivenNames x; change _ × State at x; refine Quiet.cut2 (s0 := s0) x ?_ ?_; (on_goal 1 => dsimp only [x]; clear x); (on_goal 2 => intro hx; clear_value x))
    | (extract_lets +onlyGivenNames x; clear_value x) | with_reducible apply State.fault_quiet | with_reducible apply Quiet.ite
    | fail_if_no_progress intros | dsimp only | split)

theorem State.addrFault_kept {s0 : State} (s : State) (port : Port) (a : Nat) (hs : Kept s0 s) : Kept s0 (State.addrFault s port a) :=
  (State.addrFault_quiet s port a (Quiet.refl _)).keeps hs

theorem State.addrFaultTile_quiet {s0 : State} (s : State) (t : TileId) (unit a opidx : Nat) (hs : Quiet s0 s) : Quiet s0 (State.addrFaultTile s t unit a opidx) := by
  unfold State.addrFaultTile
  repeat' (first
    | with_reducible assumption | with_reducible apply State.fault_quiet | with_reducible apply Quiet.ite
    | fail_if_no_progress intros | split)

theorem State.addrFaultTile_kept {s0 : State} (s : State) (t : TileId) (unit a opidx : Nat) (hs : Kept s0 s) : Kept s0 (State.addrFaultTile s t unit a opidx) :=
  (State.addrFaultTile_quiet s t unit a opidx (Quiet.refl _)).keeps hs

theorem State.fwFault_quiet {s0 : State} (s : State) (a : Nat) (hs : Quiet s0 s) : Quiet s0 (State.fwFault s a) := by
  unfold State.fwFault
  repeat' (first
    | with_reducible assumption | with_reducible apply State.fault_quiet | fail_if_no_progress intros)

theorem State.fwFault_kept {s0 : State} (s : State) (a : Nat) (hs : Kept s0 s) : Kept s0 (State.fwFault s a) :=
  (State.fwFault_quiet s a (Quiet.refl _)).keeps hs

theorem State.hostFault_quiet {s0 : State} (s : State) (code detail : Nat) (hs : Quiet s0 s) : Quiet s0 (State.hostFault s code detail) := by
  unfold State.hostFault
  repeat' (first
    | with_reducible assumption | with_reducible apply State.fault_quiet | fail_if_no_progress intros)

/-! ## Pages -/

theorem State.pfxTouch_quiet {s0 : State} (s : State) (k : Nat × Nat) (hs : Quiet s0 s) : Quiet s0 (State.pfxTouch s k) := by
  unfold State.pfxTouch
  repeat' (first
    | with_reducible assumption
    | (extract_lets +onlyGivenNames x; change State at x; refine Quiet.cut (s0 := s0) x ?_ ?_; (on_goal 1 => dsimp only [x]; clear x); (on_goal 2 => intro hx; clear_value x))
    | (extract_lets +onlyGivenNames x; change _ × State at x; refine Quiet.cut2 (s0 := s0) x ?_ ?_; (on_goal 1 => dsimp only [x]; clear x); (on_goal 2 => intro hx; clear_value x))
    | (extract_lets +onlyGivenNames x; clear_value x) | fail_if_no_progress intros
    | fail_if_no_progress with_reducible apply Quiet.upd | dsimp only)

theorem State.dropEntry_quiet {s0 : State} (s : State) (k : Nat × Nat) (hs : Quiet s0 s) : Quiet s0 (State.dropEntry s k) := by
  unfold State.dropEntry
  repeat' (first
    | with_reducible assumption
    | (extract_lets +onlyGivenNames x; change State at x; refine Quiet.cut (s0 := s0) x ?_ ?_; (on_goal 1 => dsimp only [x]; clear x); (on_goal 2 => intro hx; clear_value x))
    | (extract_lets +onlyGivenNames x; change _ × State at x; refine Quiet.cut2 (s0 := s0) x ?_ ?_; (on_goal 1 => dsimp only [x]; clear x); (on_goal 2 => intro hx; clear_value x))
    | (extract_lets +onlyGivenNames x; clear_value x) | with_reducible apply State.setIdx_quiet
    | with_reducible apply Quiet.ite | fail_if_no_progress intros | fail_if_no_progress with_reducible apply Quiet.upd
    | dsimp only | split)

theorem State.earmarkAll_quiet {s0 : State} (s : State) (p slot : Nat) (l : List Nat) (hs : Quiet s0 s) : Quiet s0 (State.earmarkAll s p slot l) := by
  unfold State.earmarkAll
  repeat' (first
    | with_reducible assumption | with_reducible apply State.modPage_quiet | with_reducible apply Quiet.foldl
    | fail_if_no_progress intros | fail_if_no_progress with_reducible apply Quiet.upd)

theorem State.unearmark_quiet {s0 : State} (s : State) (p : Nat) (l : List Nat) (hs : Quiet s0 s) : Quiet s0 (State.unearmark s p l) := by
  unfold State.unearmark
  repeat' (first
    | with_reducible assumption | with_reducible apply State.modPage_quiet | with_reducible apply Quiet.foldl
    | fail_if_no_progress intros | fail_if_no_progress with_reducible apply Quiet.upd)

theorem State.demote_quiet {s0 : State} (s : State) (p : Nat) (hs : Quiet s0 s) : Quiet s0 (State.demote s p) := by
  unfold State.demote
  repeat' (first
    | with_reducible assumption | with_reducible apply State.modPage_quiet | with_reducible apply State.modPart_quiet
    | with_reducible apply Quiet.ite | with_reducible apply Quiet.foldl | fail_if_no_progress intros
    | fail_if_no_progress with_reducible apply Quiet.upd | (with_reducible apply Quiet.snd; with_reducible assumption) | split)

theorem State.demote_kept {s0 : State} (s : State) (p : Nat) (hs : Kept s0 s) : Kept s0 (State.demote s p) :=
  (State.demote_quiet s p (Quiet.refl _)).keeps hs

theorem State.freePageSet_quiet {s0 : State} (s : State) (p i : Nat) (hs : Quiet s0 s) : Quiet s0 (State.freePageSet s p i) := by
  unfold State.freePageSet
  repeat' (first
    | with_reducible assumption
    | (extract_lets +onlyGivenNames x; change State at x; refine Quiet.cut (s0 := s0) x ?_ ?_; (on_goal 1 => dsimp only [x]; clear x); (on_goal 2 => intro hx; clear_value x))
    | (extract_lets +onlyGivenNames x; change _ × State at x; refine Quiet.cut2 (s0 := s0) x ?_ ?_; (on_goal 1 => dsimp only [x]; clear x); (on_goal 2 => intro hx; clear_value x))
    | (extract_lets +onlyGivenNames x; clear_value x) | with_reducible apply State.setPage_quiet
    | with_reducible apply State.modPart_quiet | fail_if_no_progress intros
    | fail_if_no_progress with_reducible apply Quiet.upd | dsimp only)

theorem State.dropIndexed_quiet {s0 : State} (s : State) (p i : Nat) (hs : Quiet s0 s) : Quiet s0 (State.dropIndexed s p i) := by
  unfold State.dropIndexed
  repeat' (first
    | with_reducible assumption
    | (extract_lets +onlyGivenNames x; change State at x; refine Quiet.cut (s0 := s0) x ?_ ?_; (on_goal 1 => dsimp only [x]; clear x); (on_goal 2 => intro hx; clear_value x))
    | (extract_lets +onlyGivenNames x; change _ × State at x; refine Quiet.cut2 (s0 := s0) x ?_ ?_; (on_goal 1 => dsimp only [x]; clear x); (on_goal 2 => intro hx; clear_value x))
    | (extract_lets +onlyGivenNames x; clear_value x) | with_reducible apply State.freePageSet_quiet
    | with_reducible apply State.dropEntry_quiet | fail_if_no_progress intros
    | fail_if_no_progress with_reducible apply Quiet.upd | (with_reducible apply Quiet.snd; with_reducible assumption)
    | dsimp only | split)

theorem State.allocPage_quiet {s0 : State} {s : State} {p slot : Nat} {n : Nat} {t : State} (e : State.allocPage s p slot = some (n, t)) (hs : Quiet s0 s) : Quiet s0 t := by
  revert e
  unfold State.allocPage
  repeat' (first
    | with_reducible assumption
    | (extract_lets +onlyGivenNames x; change State at x; refine Quiet.cut (s0 := s0) x ?_ ?_; (on_goal 1 => dsimp only [x]; clear x); (on_goal 2 => intro hx; clear_value x))
    | (extract_lets +onlyGivenNames x; change _ × State at x; refine Quiet.cut2 (s0 := s0) x ?_ ?_; (on_goal 1 => dsimp only [x]; clear x); (on_goal 2 => intro hx; clear_value x))
    | (extract_lets +onlyGivenNames x; clear_value x) | with_reducible apply State.dropIndexed_quiet
    | with_reducible apply State.setPage_quiet | with_reducible apply State.setBit_quiet | with_reducible apply Quiet.ite
    | with_reducible apply Quiet.ite2 | fail_if_no_progress with_reducible apply Quiet.upd
    | (with_reducible apply Quiet.snd; with_reducible assumption) | rintro ⟨⟩ | dsimp only | split)

theorem State.allocPage_quiet' {s0 : State} {s : State} {p slot : Nat} {r : Nat × State} (e : State.allocPage s p slot = some r) (hs : Quiet s0 s) : Quiet s0 r.2 := State.allocPage_quiet e hs

theorem State.derefPage_quiet {s0 : State} (s : State) (p i : Nat) (hs : Quiet s0 s) : Quiet s0 (State.derefPage s p i) := by
  unfold State.derefPage
  repeat' (first
    | with_reducible assumption
    | (extract_lets +onlyGivenNames x; change State at x; refine Quiet.cut (s0 := s0) x ?_ ?_; (on_goal 1 => dsimp only [x]; clear x); (on_goal 2 => intro hx; clear_value x))
    | (extract_lets +onlyGivenNames x; change _ × State at x; refine Quiet.cut2 (s0 := s0) x ?_ ?_; (on_goal 1 => dsimp only [x]; clear x); (on_goal 2 => intro hx; clear_value x))
    | (extract_lets +onlyGivenNames x; clear_value x) | with_reducible apply State.freePageSet_quiet
    | with_reducible apply State.setPage_quiet | with_reducible apply Quiet.ite | fail_if_no_progress intros
    | fail_if_no_progress with_reducible apply Quiet.upd | dsimp only | split)

theorem State.releasePages_quiet {s0 : State} (s : State) (slot : Nat) (hs : Quiet s0 s) : Quiet s0 (State.releasePages s slot) := by
  unfold State.releasePages
  repeat' (first
    | with_reducible assumption
    | (extract_lets +onlyGivenNames x; change State at x; refine Quiet.cut (s0 := s0) x ?_ ?_; (on_goal 1 => dsimp only [x]; clear x); (on_goal 2 => intro hx; clear_value x))
    | (extract_lets +onlyGivenNames x; change _ × State at x; refine Quiet.cut2 (s0 := s0) x ?_ ?_; (on_goal 1 => dsimp only [x]; clear x); (on_goal 2 => intro hx; clear_value x))
    | (extract_lets +onlyGivenNames x; clear_value x) | with_reducible apply State.derefPage_quiet
    | with_reducible apply State.unearmark_quiet | with_reducible apply State.modSlot_quiet | with_reducible apply Quiet.foldl
    | fail_if_no_progress intros | fail_if_no_progress with_reducible apply Quiet.upd | dsimp only)

theorem State.poisonPage_quiet {s0 : State} (s : State) (p i : Nat) (hs : Quiet s0 s) : Quiet s0 (State.poisonPage s p i) := by
  unfold State.poisonPage
  repeat' (first
    | with_reducible assumption
    | (extract_lets +onlyGivenNames x; change State at x; refine Quiet.cut (s0 := s0) x ?_ ?_; (on_goal 1 => dsimp only [x]; clear x); (on_goal 2 => intro hx; clear_value x))
    | (extract_lets +onlyGivenNames x; change _ × State at x; refine Quiet.cut2 (s0 := s0) x ?_ ?_; (on_goal 1 => dsimp only [x]; clear x); (on_goal 2 => intro hx; clear_value x))
    | (extract_lets +onlyGivenNames x; clear_value x) | with_reducible apply State.freePageSet_quiet
    | with_reducible apply State.dropEntry_quiet | with_reducible apply State.setPage_quiet
    | with_reducible apply State.setBit_quiet | with_reducible apply Quiet.ite | fail_if_no_progress intros
    | fail_if_no_progress with_reducible apply Quiet.upd | (with_reducible apply Quiet.snd; with_reducible assumption)
    | dsimp only | split)

theorem State.poisonPage_kept {s0 : State} (s : State) (p i : Nat) (hs : Kept s0 s) : Kept s0 (State.poisonPage s p i) :=
  (State.poisonPage_quiet s p i (Quiet.refl _)).keeps hs

theorem State.lookupHit_quiet {s0 : State} {s : State} {slot b : Nat} {k : Nat × Nat} {e : IdxEntry} {t : State} (e : State.lookupHit s slot b k e = some t) (hs : Quiet s0 s) : Quiet s0 t := by
  revert e
  unfold State.lookupHit
  repeat' (first
    | with_reducible assumption
    | (extract_lets +onlyGivenNames x; change State at x; refine Quiet.cut (s0 := s0) x ?_ ?_; (on_goal 1 => dsimp only [x]; clear x); (on_goal 2 => intro hx; clear_value x))
    | (extract_lets +onlyGivenNames x; change _ × State at x; refine Quiet.cut2 (s0 := s0) x ?_ ?_; (on_goal 1 => dsimp only [x]; clear x); (on_goal 2 => intro hx; clear_value x))
    | (extract_lets +onlyGivenNames x; clear_value x) | with_reducible apply State.setIdx_quiet
    | with_reducible apply State.modPage_quiet | with_reducible apply State.setPage_quiet
    | with_reducible apply State.modSlot_quiet | with_reducible apply Quiet.ite
    | fail_if_no_progress with_reducible apply Quiet.upd | (with_reducible apply Quiet.snd; with_reducible assumption)
    | rintro ⟨⟩ | dsimp only | split)

theorem State.probe_quiet {s0 : State} (slot n b : Nat) (s : State) (hs : Quiet s0 s) : Quiet s0 (State.probe slot n b s).2 := by
  induction n generalizing b s with
  | zero => exact hs
  | succ n ih =>
    unfold State.probe
    dsimp only
    split
    · exact hs
    · split
      · split
        · exact hs
        · rename_i heq
          exact ih _ _ (State.lookupHit_quiet heq (State.pfxTouch_quiet _ _ hs))
      · exact hs

theorem State.probe_kept {s0 : State} (slot n b : Nat) (s : State) (hs : Kept s0 s) : Kept s0 (State.probe slot n b s).2 :=
  (State.probe_quiet slot n b s (Quiet.refl _)).keeps hs

theorem State.insertBlock_quiet {s0 : State} (s : State) (slot b : Nat) (hs : Quiet s0 s) : Quiet s0 (State.insertBlock s slot b) := by
  unfold State.insertBlock
  repeat' (first
    | with_reducible assumption
    | (extract_lets +onlyGivenNames x; change State at x; refine Quiet.cut (s0 := s0) x ?_ ?_; (on_goal 1 => dsimp only [x]; clear x); (on_goal 2 => intro hx; clear_value x))
    | (extract_lets +onlyGivenNames x; change _ × State at x; refine Quiet.cut2 (s0 := s0) x ?_ ?_; (on_goal 1 => dsimp only [x]; clear x); (on_goal 2 => intro hx; clear_value x))
    | (extract_lets +onlyGivenNames x; clear_value x) | with_reducible apply State.freePageSet_quiet
    | with_reducible apply State.dropEntry_quiet | with_reducible apply State.pfxTouch_quiet
    | with_reducible apply State.setIdx_quiet | with_reducible apply State.setPage_quiet
    | with_reducible apply State.setBit_quiet | with_reducible apply Quiet.ite | fail_if_no_progress intros
    | fail_if_no_progress with_reducible apply Quiet.upd | (with_reducible apply Quiet.snd; with_reducible assumption)
    | dsimp only | split)

/-! ## Jobs -/

theorem State.publish_quiet {s0 : State} (s : State) (i : Nat) (hs : Quiet s0 s) : Quiet s0 (State.publish s i) := by
  unfold State.publish
  repeat' (first
    | with_reducible assumption | fail_if_no_progress intros | fail_if_no_progress with_reducible apply Quiet.upd)

theorem State.freeSlot_quiet {s0 : State} (s : State) (i : Nat) (hs : Quiet s0 s) : Quiet s0 (State.freeSlot s i) := by
  unfold State.freeSlot
  repeat' (first
    | with_reducible assumption | with_reducible apply State.setSlot_quiet | fail_if_no_progress intros)

theorem State.endTwin_quiet {s0 : State} (s : State) (i : Nat) (hs : Quiet s0 s) : Quiet s0 (State.endTwin s i) := by
  unfold State.endTwin
  repeat' (first
    | with_reducible assumption | with_reducible apply State.freeSlot_quiet | with_reducible apply State.releasePages_quiet
    | with_reducible apply State.modSlot_quiet | fail_if_no_progress intros
    | fail_if_no_progress with_reducible apply Quiet.upd | (with_reducible apply Quiet.snd; with_reducible assumption) | split)

theorem State.endRequest_quiet {s0 : State} (s : State) (i : Nat) (st : SlotState) (reason : Nat) (first : Nat) (tokens : List Nat) (hs : Quiet s0 s) : Quiet s0 (State.endRequest s i st reason first tokens) := by
  unfold State.endRequest
  repeat' (first
    | with_reducible assumption
    | (extract_lets +onlyGivenNames x; change State at x; refine Quiet.cut (s0 := s0) x ?_ ?_; (on_goal 1 => dsimp only [x]; clear x); (on_goal 2 => intro hx; clear_value x))
    | (extract_lets +onlyGivenNames x; change _ × State at x; refine Quiet.cut2 (s0 := s0) x ?_ ?_; (on_goal 1 => dsimp only [x]; clear x); (on_goal 2 => intro hx; clear_value x))
    | (extract_lets +onlyGivenNames x; clear_value x) | with_reducible apply State.endTwin_quiet
    | with_reducible apply State.freeSlot_quiet | with_reducible apply State.releasePages_quiet
    | with_reducible apply State.demote_quiet | with_reducible apply State.modSlot_quiet
    | with_reducible apply State.modPart_quiet | fail_if_no_progress intros
    | fail_if_no_progress with_reducible apply Quiet.upd | (with_reducible apply Quiet.snd; with_reducible assumption)
    | dsimp only | split)

theorem State.setTileState_quiet {s0 : State} (s : State) (t : TileId) (v : Nat) (hs : Quiet s0 s) : Quiet s0 (State.setTileState s t v) := by
  unfold State.setTileState
  repeat' (first
    | with_reducible assumption | with_reducible apply State.setFld_quiet | with_reducible apply Quiet.ite
    | fail_if_no_progress intros | split)

theorem State.setTileState_kept {s0 : State} (s : State) (t : TileId) (v : Nat) (hs : Kept s0 s) : Kept s0 (State.setTileState s t v) :=
  (State.setTileState_quiet s t v (Quiet.refl _)).keeps hs

theorem State.jobEnd_quiet {s0 : State} (s : State) (p : Nat) (hs : Quiet s0 s) : Quiet s0 (State.jobEnd s p) := by
  unfold State.jobEnd
  repeat' (first
    | with_reducible assumption
    | (extract_lets +onlyGivenNames x; change State at x; refine Quiet.cut (s0 := s0) x ?_ ?_; (on_goal 1 => dsimp only [x]; clear x); (on_goal 2 => intro hx; clear_value x))
    | (extract_lets +onlyGivenNames x; change _ × State at x; refine Quiet.cut2 (s0 := s0) x ?_ ?_; (on_goal 1 => dsimp only [x]; clear x); (on_goal 2 => intro hx; clear_value x))
    | (extract_lets +onlyGivenNames x; clear_value x) | with_reducible apply State.setTileState_quiet
    | with_reducible apply State.endRequest_quiet | with_reducible apply State.publish_quiet
    | with_reducible apply State.modPart_quiet | with_reducible apply State.modTile_quiet
    | with_reducible apply State.setBit_quiet | with_reducible apply State.setFld_quiet | with_reducible apply Quiet.ite
    | with_reducible apply Quiet.foldl | fail_if_no_progress intros | fail_if_no_progress with_reducible apply Quiet.upd
    | dsimp only | split)

theorem State.jobEndOn_quiet {s0 : State} (s : State) (d : Nat) (hs : Quiet s0 s) : Quiet s0 (State.jobEndOn s d) := by
  unfold State.jobEndOn
  repeat' (first
    | with_reducible assumption | with_reducible apply State.jobEnd_quiet | fail_if_no_progress intros
    | fail_if_no_progress with_reducible apply Quiet.upd | (with_reducible apply Quiet.snd; with_reducible assumption) | split)

theorem State.jobFault_quiet {s0 : State} (s : State) (code die unit region detail : Nat) (part : Option Nat) (opidx : Nat) (hs : Quiet s0 s) : Quiet s0 (State.jobFault s code die unit region detail part opidx) := by
  unfold State.jobFault
  repeat' (first
    | with_reducible assumption
    | (extract_lets +onlyGivenNames x; change State at x; refine Quiet.cut (s0 := s0) x ?_ ?_; (on_goal 1 => dsimp only [x]; clear x); (on_goal 2 => intro hx; clear_value x))
    | (extract_lets +onlyGivenNames x; change _ × State at x; refine Quiet.cut2 (s0 := s0) x ?_ ?_; (on_goal 1 => dsimp only [x]; clear x); (on_goal 2 => intro hx; clear_value x))
    | (extract_lets +onlyGivenNames x; clear_value x) | with_reducible apply State.jobEnd_quiet
    | with_reducible apply State.fault_quiet | fail_if_no_progress intros | fail_if_no_progress with_reducible apply Quiet.upd
    | (with_reducible apply Quiet.snd; with_reducible assumption) | dsimp only | split)

theorem State.jobFault_kept {s0 : State} (s : State) (code die unit region detail : Nat) (part : Option Nat) (opidx : Nat) (hs : Kept s0 s) : Kept s0 (State.jobFault s code die unit region detail part opidx) :=
  (State.jobFault_quiet s code die unit region detail part opidx (Quiet.refl _)).keeps hs

theorem State.tileFault_quiet {s0 : State} (s : State) (t : TileId) (code unit detail opidx : Nat) (hs : Quiet s0 s) : Quiet s0 (State.tileFault s t code unit detail opidx) := by
  unfold State.tileFault
  repeat' (first
    | with_reducible assumption
    | (extract_lets +onlyGivenNames x; change State at x; refine Quiet.cut (s0 := s0) x ?_ ?_; (on_goal 1 => dsimp only [x]; clear x); (on_goal 2 => intro hx; clear_value x))
    | (extract_lets +onlyGivenNames x; change _ × State at x; refine Quiet.cut2 (s0 := s0) x ?_ ?_; (on_goal 1 => dsimp only [x]; clear x); (on_goal 2 => intro hx; clear_value x))
    | (extract_lets +onlyGivenNames x; clear_value x) | with_reducible apply State.fault_quiet | fail_if_no_progress intros
    | dsimp only)

theorem State.tileFault_kept {s0 : State} (s : State) (t : TileId) (code unit detail opidx : Nat) (hs : Kept s0 s) : Kept s0 (State.tileFault s t code unit detail opidx) :=
  (State.tileFault_quiet s t code unit detail opidx (Quiet.refl _)).keeps hs

theorem State.tileJobFault_quiet {s0 : State} (s : State) (t : TileId) (code unit detail opidx : Nat) (hs : Quiet s0 s) : Quiet s0 (State.tileJobFault s t code unit detail opidx) := by
  unfold State.tileJobFault
  repeat' (first
    | with_reducible assumption
    | (extract_lets +onlyGivenNames x; change State at x; refine Quiet.cut (s0 := s0) x ?_ ?_; (on_goal 1 => dsimp only [x]; clear x); (on_goal 2 => intro hx; clear_value x))
    | (extract_lets +onlyGivenNames x; change _ × State at x; refine Quiet.cut2 (s0 := s0) x ?_ ?_; (on_goal 1 => dsimp only [x]; clear x); (on_goal 2 => intro hx; clear_value x))
    | (extract_lets +onlyGivenNames x; clear_value x) | with_reducible apply State.jobFault_quiet | fail_if_no_progress intros
    | dsimp only)

theorem State.tileJobFault_kept {s0 : State} (s : State) (t : TileId) (code unit detail opidx : Nat) (hs : Kept s0 s) : Kept s0 (State.tileJobFault s t code unit detail opidx) :=
  (State.tileJobFault_quiet s t code unit detail opidx (Quiet.refl _)).keeps hs

/-! ## Compose -/

theorem State.showLast_quiet {s0 : State} (s : State) (p shape dused pused : Nat) (idle : Bool) (hs : Quiet s0 s) : Quiet s0 (State.showLast s p shape dused pused idle) := by
  unfold State.showLast
  repeat' (first
    | with_reducible assumption | with_reducible apply State.setReg_quiet | fail_if_no_progress intros)

theorem State.compose_quiet {s0 : State} (s : State) (p : Nat) (hs : Quiet s0 s) : Quiet s0 (State.compose s p) := by
  unfold State.compose
  repeat' (first
    | with_reducible assumption
    | (extract_lets +onlyGivenNames x; change State at x; refine Quiet.cut (s0 := s0) x ?_ ?_; (on_goal 1 => dsimp only [x]; clear x); (on_goal 2 => intro hx; clear_value x))
    | (extract_lets +onlyGivenNames x; change _ × State at x; refine Quiet.cut2 (s0 := s0) x ?_ ?_; (on_goal 1 => dsimp only [x]; clear x); (on_goal 2 => intro hx; clear_value x))
    | (extract_lets +onlyGivenNames x; clear_value x) | with_reducible apply State.showLast_quiet
    | with_reducible apply State.modSlot_quiet | with_reducible apply State.modPart_quiet
    | with_reducible apply State.setFld_quiet | with_reducible apply Quiet.ite | with_reducible apply Quiet.foldl
    | fail_if_no_progress intros | fail_if_no_progress with_reducible apply Quiet.upd
    | (with_reducible apply Quiet.snd; with_reducible assumption) | dsimp only | split)

theorem State.wake_quiet {s0 : State} (s : State) (p : Nat) (hs : Quiet s0 s) : Quiet s0 (State.wake s p) := by
  unfold State.wake
  repeat' (first
    | with_reducible assumption
    | (extract_lets +onlyGivenNames x; change State at x; refine Quiet.cut (s0 := s0) x ?_ ?_; (on_goal 1 => dsimp only [x]; clear x); (on_goal 2 => intro hx; clear_value x))
    | (extract_lets +onlyGivenNames x; change _ × State at x; refine Quiet.cut2 (s0 := s0) x ?_ ?_; (on_goal 1 => dsimp only [x]; clear x); (on_goal 2 => intro hx; clear_value x))
    | (extract_lets +onlyGivenNames x; clear_value x) | with_reducible apply State.compose_quiet
    | with_reducible apply State.modPart_quiet | with_reducible apply Quiet.ite | fail_if_no_progress intros
    | fail_if_no_progress with_reducible apply Quiet.upd | dsimp only | split)

theorem State.voidNext_quiet {s0 : State} (s : State) (p slot : Nat) (hs : Quiet s0 s) : Quiet s0 (State.voidNext s p slot) := by
  unfold State.voidNext
  repeat' (first
    | with_reducible assumption | with_reducible apply State.modPart_quiet | fail_if_no_progress intros
    | fail_if_no_progress with_reducible apply Quiet.upd)

theorem State.poisonRequest_quiet {s0 : State} (s : State) (p slot : Nat) (hs : Quiet s0 s) : Quiet s0 (State.poisonRequest s p slot) := by
  unfold State.poisonRequest
  repeat' (first
    | with_reducible assumption | with_reducible apply State.voidNext_quiet | with_reducible apply State.modSlot_quiet
    | fail_if_no_progress intros | fail_if_no_progress with_reducible apply Quiet.upd)

/-! ## Fences -/

theorem State.dropHotOf_quiet {s0 : State} (s : State) (p : Nat) (t : TileId) (hs : Quiet s0 s) : Quiet s0 (State.dropHotOf s p t) := by
  unfold State.dropHotOf
  repeat' (first
    | with_reducible assumption
    | (extract_lets +onlyGivenNames x; change State at x; refine Quiet.cut (s0 := s0) x ?_ ?_; (on_goal 1 => dsimp only [x]; clear x); (on_goal 2 => intro hx; clear_value x))
    | (extract_lets +onlyGivenNames x; change _ × State at x; refine Quiet.cut2 (s0 := s0) x ?_ ?_; (on_goal 1 => dsimp only [x]; clear x); (on_goal 2 => intro hx; clear_value x))
    | (extract_lets +onlyGivenNames x; clear_value x) | with_reducible apply State.modPage_quiet
    | with_reducible apply State.modPart_quiet | with_reducible apply Quiet.ite | with_reducible apply Quiet.foldl
    | fail_if_no_progress intros | fail_if_no_progress with_reducible apply Quiet.upd
    | (with_reducible apply Quiet.snd; with_reducible assumption) | dsimp only | split)

theorem State.repairEnter_quiet {s0 : State} (s : State) (p : Nat) (cause : Nat) (hs : Quiet s0 s) : Quiet s0 (State.repairEnter s p cause) := by
  unfold State.repairEnter
  repeat' (first
    | with_reducible assumption
    | (extract_lets +onlyGivenNames x; change State at x; refine Quiet.cut (s0 := s0) x ?_ ?_; (on_goal 1 => dsimp only [x]; clear x); (on_goal 2 => intro hx; clear_value x))
    | (extract_lets +onlyGivenNames x; change _ × State at x; refine Quiet.cut2 (s0 := s0) x ?_ ?_; (on_goal 1 => dsimp only [x]; clear x); (on_goal 2 => intro hx; clear_value x))
    | (extract_lets +onlyGivenNames x; clear_value x) | with_reducible apply State.wake_quiet
    | with_reducible apply State.modPart_quiet | with_reducible apply State.setFld_quiet | with_reducible apply Quiet.ite
    | fail_if_no_progress intros | fail_if_no_progress with_reducible apply Quiet.upd | dsimp only | split)

theorem State.showCal_quiet {s0 : State} (s : State) (d : Nat) (hs : Quiet s0 s) : Quiet s0 (State.showCal s d) := by
  unfold State.showCal
  repeat' (first
    | with_reducible assumption
    | (extract_lets +onlyGivenNames x; change State at x; refine Quiet.cut (s0 := s0) x ?_ ?_; (on_goal 1 => dsimp only [x]; clear x); (on_goal 2 => intro hx; clear_value x))
    | (extract_lets +onlyGivenNames x; change _ × State at x; refine Quiet.cut2 (s0 := s0) x ?_ ?_; (on_goal 1 => dsimp only [x]; clear x); (on_goal 2 => intro hx; clear_value x))
    | (extract_lets +onlyGivenNames x; clear_value x) | with_reducible apply State.setFld_quiet | fail_if_no_progress intros
    | dsimp only)

theorem State.showCal_kept {s0 : State} (s : State) (d : Nat) (hs : Kept s0 s) : Kept s0 (State.showCal s d) :=
  (State.showCal_quiet s d (Quiet.refl _)).keeps hs

theorem State.calAborted_quiet {s0 : State} (s : State) (b : Nat) (hs : Quiet s0 s) : Quiet s0 (State.calAborted s b) := by
  unfold State.calAborted
  repeat' (first
    | with_reducible assumption | with_reducible apply State.setBit_quiet | fail_if_no_progress intros)

theorem State.calAbandon_quiet {s0 : State} (s : State) (a : ArrayId) (hs : Quiet s0 s) : Quiet s0 (State.calAbandon s a) := by
  unfold State.calAbandon
  repeat' (first
    | with_reducible assumption
    | (extract_lets +onlyGivenNames x; change State at x; refine Quiet.cut (s0 := s0) x ?_ ?_; (on_goal 1 => dsimp only [x]; clear x); (on_goal 2 => intro hx; clear_value x))
    | (extract_lets +onlyGivenNames x; change _ × State at x; refine Quiet.cut2 (s0 := s0) x ?_ ?_; (on_goal 1 => dsimp only [x]; clear x); (on_goal 2 => intro hx; clear_value x))
    | (extract_lets +onlyGivenNames x; clear_value x) | with_reducible apply State.calAborted_quiet
    | with_reducible apply State.showCal_quiet | with_reducible apply State.modDie_quiet | with_reducible apply Quiet.ite
    | fail_if_no_progress intros | fail_if_no_progress with_reducible apply Quiet.upd | dsimp only | split)

theorem State.calDieLost_quiet {s0 : State} (s : State) (d : Nat) (hs : Quiet s0 s) : Quiet s0 (State.calDieLost s d) := by
  unfold State.calDieLost
  repeat' (first
    | with_reducible assumption | with_reducible apply State.calAborted_quiet | with_reducible apply State.showCal_quiet
    | with_reducible apply State.modDie_quiet | with_reducible apply Quiet.ite | fail_if_no_progress intros
    | fail_if_no_progress with_reducible apply Quiet.upd | split)

theorem State.showFul_quiet {s0 : State} (s : State) (d : Nat) (hs : Quiet s0 s) : Quiet s0 (State.showFul s d) := by
  unfold State.showFul
  repeat' (first
    | with_reducible assumption
    | (extract_lets +onlyGivenNames x; change State at x; refine Quiet.cut (s0 := s0) x ?_ ?_; (on_goal 1 => dsimp only [x]; clear x); (on_goal 2 => intro hx; clear_value x))
    | (extract_lets +onlyGivenNames x; change _ × State at x; refine Quiet.cut2 (s0 := s0) x ?_ ?_; (on_goal 1 => dsimp only [x]; clear x); (on_goal 2 => intro hx; clear_value x))
    | (extract_lets +onlyGivenNames x; clear_value x) | with_reducible apply State.setFld_quiet
    | with_reducible apply State.setReg_quiet | fail_if_no_progress intros | fail_if_no_progress with_reducible apply Quiet.upd
    | (with_reducible apply Quiet.snd; with_reducible assumption) | dsimp only | split)

theorem State.showFul_kept {s0 : State} (s : State) (d : Nat) (hs : Kept s0 s) : Kept s0 (State.showFul s d) :=
  (State.showFul_quiet s d (Quiet.refl _)).keeps hs

theorem State.postResult_quiet {s0 : State} (s : State) (d : Nat) (j : FulJob) (rounds outcome : Nat) (hs : Quiet s0 s) : Quiet s0 (State.postResult s d j rounds outcome) := by
  unfold State.postResult
  repeat' (first
    | with_reducible assumption | with_reducible apply State.showFul_quiet | with_reducible apply State.modDie_quiet
    | fail_if_no_progress intros | fail_if_no_progress with_reducible apply Quiet.upd)

theorem State.postResult_kept {s0 : State} (s : State) (d : Nat) (j : FulJob) (rounds outcome : Nat) (hs : Kept s0 s) : Kept s0 (State.postResult s d j rounds outcome) :=
  (State.postResult_quiet s d j rounds outcome (Quiet.refl _)).keeps hs

theorem State.fullStop_quiet {s0 : State} (s : State) (a : ArrayId) (hs : Quiet s0 s) : Quiet s0 (State.fullStop s a) := by
  unfold State.fullStop
  repeat' (first
    | with_reducible assumption
    | (extract_lets +onlyGivenNames x; change State at x; refine Quiet.cut (s0 := s0) x ?_ ?_; (on_goal 1 => dsimp only [x]; clear x); (on_goal 2 => intro hx; clear_value x))
    | (extract_lets +onlyGivenNames x; change _ × State at x; refine Quiet.cut2 (s0 := s0) x ?_ ?_; (on_goal 1 => dsimp only [x]; clear x); (on_goal 2 => intro hx; clear_value x))
    | (extract_lets +onlyGivenNames x; clear_value x) | with_reducible apply State.postResult_quiet
    | with_reducible apply State.modDie_quiet | with_reducible apply State.draw_quiet | fail_if_no_progress intros
    | fail_if_no_progress with_reducible apply Quiet.upd | (with_reducible apply Quiet.snd; with_reducible assumption)
    | dsimp only | split)

theorem State.fenceOne_quiet {s0 : State} (s : State) (a : ArrayId) (cause : Nat) (hs : Quiet s0 s) : Quiet s0 (State.fenceOne s a cause) := by
  unfold State.fenceOne
  repeat' (first
    | with_reducible assumption
    | (extract_lets +onlyGivenNames x; change State at x; refine Quiet.cut (s0 := s0) x ?_ ?_; (on_goal 1 => dsimp only [x]; clear x); (on_goal 2 => intro hx; clear_value x))
    | (extract_lets +onlyGivenNames x; change _ × State at x; refine Quiet.cut2 (s0 := s0) x ?_ ?_; (on_goal 1 => dsimp only [x]; clear x); (on_goal 2 => intro hx; clear_value x))
    | (extract_lets +onlyGivenNames x; clear_value x) | with_reducible apply State.fullStop_quiet
    | with_reducible apply State.calAbandon_quiet | with_reducible apply State.fault_quiet
    | with_reducible apply State.modArr_quiet | fail_if_no_progress intros | fail_if_no_progress with_reducible apply Quiet.upd
    | dsimp only)

theorem State.fenceTile_quiet {s0 : State} (s : State) (t : TileId) (cause : Nat) (hs : Quiet s0 s) : Quiet s0 (State.fenceTile s t cause) := by
  unfold State.fenceTile
  repeat' (first
    | with_reducible assumption
    | (extract_lets +onlyGivenNames x; change State at x; refine Quiet.cut (s0 := s0) x ?_ ?_; (on_goal 1 => dsimp only [x]; clear x); (on_goal 2 => intro hx; clear_value x))
    | (extract_lets +onlyGivenNames x; change _ × State at x; refine Quiet.cut2 (s0 := s0) x ?_ ?_; (on_goal 1 => dsimp only [x]; clear x); (on_goal 2 => intro hx; clear_value x))
    | (extract_lets +onlyGivenNames x; clear_value x) | with_reducible apply State.fenceOne_quiet
    | with_reducible apply State.repairEnter_quiet | with_reducible apply State.dropHotOf_quiet
    | with_reducible apply State.fault_quiet | with_reducible apply State.modTile_quiet
    | with_reducible apply State.setFld_quiet | with_reducible apply Quiet.ite | with_reducible apply Quiet.foldl
    | fail_if_no_progress intros | fail_if_no_progress with_reducible apply Quiet.upd
    | (with_reducible apply Quiet.snd; with_reducible assumption) | dsimp only | split)

theorem State.fenceArray_quiet {s0 : State} (s : State) (a : ArrayId) (cause : Nat) (hs : Quiet s0 s) : Quiet s0 (State.fenceArray s a cause) := by
  unfold State.fenceArray
  repeat' (first
    | with_reducible assumption
    | (extract_lets +onlyGivenNames x; change State at x; refine Quiet.cut (s0 := s0) x ?_ ?_; (on_goal 1 => dsimp only [x]; clear x); (on_goal 2 => intro hx; clear_value x))
    | (extract_lets +onlyGivenNames x; change _ × State at x; refine Quiet.cut2 (s0 := s0) x ?_ ?_; (on_goal 1 => dsimp only [x]; clear x); (on_goal 2 => intro hx; clear_value x))
    | (extract_lets +onlyGivenNames x; clear_value x) | with_reducible apply State.fenceTile_quiet
    | with_reducible apply State.fenceOne_quiet | with_reducible apply State.repairEnter_quiet | with_reducible apply Quiet.ite
    | fail_if_no_progress intros | fail_if_no_progress with_reducible apply Quiet.upd
    | (with_reducible apply Quiet.snd; with_reducible assumption) | dsimp only | split)

theorem State.fenceArray_kept {s0 : State} (s : State) (a : ArrayId) (cause : Nat) (hs : Kept s0 s) : Kept s0 (State.fenceArray s a cause) :=
  (State.fenceArray_quiet s a cause (Quiet.refl _)).keeps hs

theorem State.residueFault_quiet {s0 : State} (s : State) (t : TileId) (code unit detail opidx : Nat) (hs : Quiet s0 s) : Quiet s0 (State.residueFault s t code unit detail opidx) := by
  unfold State.residueFault
  repeat' (first
    | with_reducible assumption
    | (extract_lets +onlyGivenNames x; change State at x; refine Quiet.cut (s0 := s0) x ?_ ?_; (on_goal 1 => dsimp only [x]; clear x); (on_goal 2 => intro hx; clear_value x))
    | (extract_lets +onlyGivenNames x; change _ × State at x; refine Quiet.cut2 (s0 := s0) x ?_ ?_; (on_goal 1 => dsimp only [x]; clear x); (on_goal 2 => intro hx; clear_value x))
    | (extract_lets +onlyGivenNames x; clear_value x) | with_reducible apply State.fenceTile_quiet
    | with_reducible apply State.tileFault_quiet | with_reducible apply State.modTile_quiet | with_reducible apply Quiet.ite
    | fail_if_no_progress intros | fail_if_no_progress with_reducible apply Quiet.upd | dsimp only | split)

theorem State.residueFault_kept {s0 : State} (s : State) (t : TileId) (code unit detail opidx : Nat) (hs : Kept s0 s) : Kept s0 (State.residueFault s t code unit detail opidx) :=
  (State.residueFault_quiet s t code unit detail opidx (Quiet.refl _)).keeps hs

/-! ## Manifests -/

theorem State.touch_quiet {s0 : State} (s : State) (boltId : W64) (chunk : Nat) (hs : Quiet s0 s) : Quiet s0 (State.touch s boltId chunk) := by
  unfold State.touch
  repeat' (first
    | with_reducible assumption | with_reducible apply Quiet.ite | fail_if_no_progress intros
    | fail_if_no_progress with_reducible apply Quiet.upd | split)

theorem State.touch_kept {s0 : State} (s : State) (boltId : W64) (chunk : Nat) (hs : Kept s0 s) : Kept s0 (State.touch s boltId chunk) :=
  (State.touch_quiet s boltId chunk (Quiet.refl _)).keeps hs

theorem State.evict_quiet {s0 : State} (room n : Nat) (s : State) (hs : Quiet s0 s) : Quiet s0 (State.evict room n s) := by
  induction n generalizing s with
  | zero => exact hs
  | succ n ih =>
    unfold State.evict
    split
    · exact hs
    · split
      · exact hs
      · exact ih _ (Quiet.upd hs)

theorem State.cacheInsert_quiet {s0 : State} (s : State) (boltId : W64) (chunk : Nat) (data : List Byte) (hs : Quiet s0 s) : Quiet s0 (State.cacheInsert s boltId chunk data) := by
  unfold State.cacheInsert
  repeat' (first
    | with_reducible assumption
    | (extract_lets +onlyGivenNames x; change State at x; refine Quiet.cut (s0 := s0) x ?_ ?_; (on_goal 1 => dsimp only [x]; clear x); (on_goal 2 => intro hx; clear_value x))
    | (extract_lets +onlyGivenNames x; change _ × State at x; refine Quiet.cut2 (s0 := s0) x ?_ ?_; (on_goal 1 => dsimp only [x]; clear x); (on_goal 2 => intro hx; clear_value x))
    | (extract_lets +onlyGivenNames x; clear_value x) | with_reducible apply State.evict_quiet
    | with_reducible apply State.touch_quiet | with_reducible apply Quiet.ite | fail_if_no_progress intros
    | fail_if_no_progress with_reducible apply Quiet.upd | dsimp only | split)

theorem State.cacheInsert_kept {s0 : State} (s : State) (boltId : W64) (chunk : Nat) (data : List Byte) (hs : Kept s0 s) : Kept s0 (State.cacheInsert s boltId chunk data) :=
  (State.cacheInsert_quiet s boltId chunk data (Quiet.refl _)).keeps hs

theorem State.hostSay_quiet {s0 : State} (s : State) (m : Msg) (hs : Quiet s0 s) : Quiet s0 (State.hostSay s m) := by
  unfold State.hostSay
  repeat' (first
    | with_reducible assumption | fail_if_no_progress intros | fail_if_no_progress with_reducible apply Quiet.upd)

theorem State.sourceAsk_quiet {s0 : State} (s : State) (src : Nat) (boltId : W64) (chunk off len : Nat) (hs : Quiet s0 s) : Quiet s0 (State.sourceAsk s src boltId chunk off len) := by
  unfold State.sourceAsk
  repeat' (first
    | with_reducible assumption
    | (extract_lets +onlyGivenNames x; change State at x; refine Quiet.cut (s0 := s0) x ?_ ?_; (on_goal 1 => dsimp only [x]; clear x); (on_goal 2 => intro hx; clear_value x))
    | (extract_lets +onlyGivenNames x; change _ × State at x; refine Quiet.cut2 (s0 := s0) x ?_ ?_; (on_goal 1 => dsimp only [x]; clear x); (on_goal 2 => intro hx; clear_value x))
    | (extract_lets +onlyGivenNames x; clear_value x) | with_reducible apply State.hostSay_quiet
    | with_reducible apply State.emit_quiet | with_reducible apply Quiet.ite | fail_if_no_progress intros
    | fail_if_no_progress with_reducible apply Quiet.upd | (with_reducible apply Quiet.snd; with_reducible assumption)
    | dsimp only | split)

theorem State.fetchTry_quiet {s0 : State} (s : State) (p : Nat) (boltId : W64) (chunk len : Nat) (isLoad : Bool) (fails : Nat) (hs : Quiet s0 s) : Quiet s0 (State.fetchTry s p boltId chunk len isLoad fails) := by
  unfold State.fetchTry
  repeat' (first
    | with_reducible assumption
    | (extract_lets +onlyGivenNames x; change State at x; refine Quiet.cut (s0 := s0) x ?_ ?_; (on_goal 1 => dsimp only [x]; clear x); (on_goal 2 => intro hx; clear_value x))
    | (extract_lets +onlyGivenNames x; change _ × State at x; refine Quiet.cut2 (s0 := s0) x ?_ ?_; (on_goal 1 => dsimp only [x]; clear x); (on_goal 2 => intro hx; clear_value x))
    | (extract_lets +onlyGivenNames x; clear_value x) | with_reducible apply State.sourceAsk_quiet
    | with_reducible apply Quiet.ite | fail_if_no_progress intros | fail_if_no_progress with_reducible apply Quiet.upd
    | (with_reducible apply Quiet.snd; with_reducible assumption) | dsimp only | split)

theorem State.fetchTry_kept {s0 : State} (s : State) (p : Nat) (boltId : W64) (chunk len : Nat) (isLoad : Bool) (fails : Nat) (hs : Kept s0 s) : Kept s0 (State.fetchTry s p boltId chunk len isLoad fails) :=
  (State.fetchTry_quiet s p boltId chunk len isLoad fails (Quiet.refl _)).keeps hs

theorem State.fetchStart_quiet {s0 : State} (s : State) (p : Nat) (boltId : W64) (chunk len : Nat) (isLoad : Bool) (hs : Quiet s0 s) : Quiet s0 (State.fetchStart s p boltId chunk len isLoad) := by
  unfold State.fetchStart
  repeat' (first
    | with_reducible assumption | with_reducible apply State.fetchTry_quiet | fail_if_no_progress intros)

theorem State.fetchStart_kept {s0 : State} (s : State) (p : Nat) (boltId : W64) (chunk len : Nat) (isLoad : Bool) (hs : Kept s0 s) : Kept s0 (State.fetchStart s p boltId chunk len isLoad) :=
  (State.fetchStart_quiet s p boltId chunk len isLoad (Quiet.refl _)).keeps hs

theorem State.toChildren_quiet {s0 : State} (s : State) (boltId : W64) (chunk : Nat) (data : List Byte) (hs : Quiet s0 s) : Quiet s0 (State.toChildren s boltId chunk data) := by
  unfold State.toChildren
  repeat' (first
    | with_reducible assumption | with_reducible apply State.emit_quiet | with_reducible apply Quiet.foldl
    | fail_if_no_progress intros | fail_if_no_progress with_reducible apply Quiet.upd)

theorem State.toChildren_kept {s0 : State} (s : State) (boltId : W64) (chunk : Nat) (data : List Byte) (hs : Kept s0 s) : Kept s0 (State.toChildren s boltId chunk data) :=
  (State.toChildren_quiet s boltId chunk data (Quiet.refl _)).keeps hs

theorem State.fetchForChildren_quiet {s0 : State} (s : State) (hs : Quiet s0 s) : Quiet s0 (State.fetchForChildren s) := by
  unfold State.fetchForChildren
  repeat' (first
    | with_reducible assumption | with_reducible apply State.fetchStart_quiet | with_reducible apply Quiet.foldl
    | fail_if_no_progress intros | fail_if_no_progress with_reducible apply Quiet.upd
    | (with_reducible apply Quiet.snd; with_reducible assumption) | split)

theorem State.childAsk_quiet {s0 : State} (s : State) (g : Nat) (boltId : W64) (chunk : Nat) (hs : Quiet s0 s) : Quiet s0 (State.childAsk s g boltId chunk) := by
  unfold State.childAsk
  repeat' (first
    | with_reducible assumption | with_reducible apply State.fetchForChildren_quiet | with_reducible apply State.touch_quiet
    | with_reducible apply State.emit_quiet | fail_if_no_progress intros | fail_if_no_progress with_reducible apply Quiet.upd
    | (with_reducible apply Quiet.snd; with_reducible assumption) | split)

theorem State.answerChildren_quiet {s0 : State} (s : State) (boltId : W64) (chunk : Nat) (data : List Byte) (hs : Quiet s0 s) : Quiet s0 (State.answerChildren s boltId chunk data) := by
  unfold State.answerChildren
  repeat' (first
    | with_reducible assumption
    | (extract_lets +onlyGivenNames x; change State at x; refine Quiet.cut (s0 := s0) x ?_ ?_; (on_goal 1 => dsimp only [x]; clear x); (on_goal 2 => intro hx; clear_value x))
    | (extract_lets +onlyGivenNames x; change _ × State at x; refine Quiet.cut2 (s0 := s0) x ?_ ?_; (on_goal 1 => dsimp only [x]; clear x); (on_goal 2 => intro hx; clear_value x))
    | (extract_lets +onlyGivenNames x; clear_value x) | with_reducible apply State.emit_quiet
    | with_reducible apply Quiet.foldl | fail_if_no_progress intros | fail_if_no_progress with_reducible apply Quiet.upd
    | dsimp only)

theorem State.answerChildren_kept {s0 : State} (s : State) (boltId : W64) (chunk : Nat) (data : List Byte) (hs : Kept s0 s) : Kept s0 (State.answerChildren s boltId chunk data) :=
  (State.answerChildren_quiet s boltId chunk data (Quiet.refl _)).keeps hs

/-! ## Tiles -/

theorem State.charge_quiet {s0 : State} (s : State) (t : TileId) (n r : Nat) (hs : Quiet s0 s) : Quiet s0 (State.charge s t n r) := by
  unfold State.charge
  repeat' (first
    | with_reducible assumption
    | (extract_lets +onlyGivenNames x; change State at x; refine Quiet.cut (s0 := s0) x ?_ ?_; (on_goal 1 => dsimp only [x]; clear x); (on_goal 2 => intro hx; clear_value x))
    | (extract_lets +onlyGivenNames x; change _ × State at x; refine Quiet.cut2 (s0 := s0) x ?_ ?_; (on_goal 1 => dsimp only [x]; clear x); (on_goal 2 => intro hx; clear_value x))
    | (extract_lets +onlyGivenNames x; clear_value x) | with_reducible apply State.tileEvent_quiet
    | with_reducible apply State.setTile_quiet | with_reducible apply Quiet.ite | fail_if_no_progress intros
    | fail_if_no_progress with_reducible apply Quiet.upd | (with_reducible apply Quiet.snd; with_reducible assumption)
    | dsimp only | split)

theorem State.charge_kept {s0 : State} (s : State) (t : TileId) (n r : Nat) (hs : Kept s0 s) : Kept s0 (State.charge s t n r) :=
  (State.charge_quiet s t n r (Quiet.refl _)).keeps hs

theorem State.flushW_kept {s0 : State} (s : State) (t : TileId) (c : Nat) (hs : Kept s0 s) : Kept s0 (State.flushW s t c) := by
  unfold State.flushW
  repeat' (first
    | with_reducible assumption
    | (extract_lets +onlyGivenNames x; change State at x; refine Kept.cut (s0 := s0) x ?_ ?_; (on_goal 1 => dsimp only [x]; clear x); (on_goal 2 => intro hx; clear_value x))
    | (extract_lets +onlyGivenNames x; change _ × State at x; refine Kept.cut2 (s0 := s0) x ?_ ?_; (on_goal 1 => dsimp only [x]; clear x); (on_goal 2 => intro hx; clear_value x))
    | (extract_lets +onlyGivenNames x; clear_value x) | with_reducible apply State.modTile_kept
    | with_reducible apply State.setBytesP_kept | with_reducible apply Kept.foldl | fail_if_no_progress intros
    | fail_if_no_progress with_reducible apply Kept.upd | dsimp only)

theorem State.flushAll_kept {s0 : State} (s : State) (t : TileId) (hs : Kept s0 s) : Kept s0 (State.flushAll s t) := by
  unfold State.flushAll
  repeat' (first
    | with_reducible assumption
    | (extract_lets +onlyGivenNames x; change State at x; refine Kept.cut (s0 := s0) x ?_ ?_; (on_goal 1 => dsimp only [x]; clear x); (on_goal 2 => intro hx; clear_value x))
    | (extract_lets +onlyGivenNames x; change _ × State at x; refine Kept.cut2 (s0 := s0) x ?_ ?_; (on_goal 1 => dsimp only [x]; clear x); (on_goal 2 => intro hx; clear_value x))
    | (extract_lets +onlyGivenNames x; clear_value x) | with_reducible apply State.modTile_kept
    | with_reducible apply State.setBytesP_kept | with_reducible apply Kept.foldl | fail_if_no_progress intros
    | fail_if_no_progress with_reducible apply Kept.upd | dsimp only)

theorem State.enqueue_quiet {s0 : State} (s : State) (t : TileId) (i : Instr) (hs : Quiet s0 s) : Quiet s0 (State.enqueue s t i) := by
  unfold State.enqueue
  repeat' (first
    | with_reducible assumption | with_reducible apply State.modTile_quiet | fail_if_no_progress intros
    | fail_if_no_progress with_reducible apply Quiet.upd)

theorem State.enqueue_kept {s0 : State} (s : State) (t : TileId) (i : Instr) (hs : Kept s0 s) : Kept s0 (State.enqueue s t i) :=
  (State.enqueue_quiet s t i (Quiet.refl _)).keeps hs

theorem State.issue_kept {s0 : State} (s : State) (h : OpHdr) (c : Nat) (reserve : Nat) (hs : Kept s0 s) : Kept s0 (State.issue s h c reserve) := by
  unfold State.issue
  repeat' (first
    | with_reducible assumption
    | (extract_lets +onlyGivenNames x; change State at x; refine Kept.cut (s0 := s0) x ?_ ?_; (on_goal 1 => dsimp only [x]; clear x); (on_goal 2 => intro hx; clear_value x))
    | (extract_lets +onlyGivenNames x; change _ × State at x; refine Kept.cut2 (s0 := s0) x ?_ ?_; (on_goal 1 => dsimp only [x]; clear x); (on_goal 2 => intro hx; clear_value x))
    | (extract_lets +onlyGivenNames x; clear_value x) | with_reducible apply State.flushW_kept
    | with_reducible apply State.charge_kept | with_reducible apply State.modTile_kept | with_reducible apply State.setReg_kept
    | fail_if_no_progress intros | fail_if_no_progress with_reducible apply Kept.upd | dsimp only)

theorem State.tileOp_quiet {s0 : State} (s : State) (h : OpHdr) (i : Instr) (body : State → State) (hs : Quiet s0 s) (hbody : ∀ (a0 : State), Quiet s0 a0 → Quiet s0 (body a0)) : Quiet s0 (State.tileOp s h i body) := by
  unfold State.tileOp
  repeat' (first
    | with_reducible assumption | with_reducible apply hbody | with_reducible apply State.enqueue_quiet
    | with_reducible apply Quiet.ite | fail_if_no_progress intros | split)

theorem State.tileOp_kept {s0 : State} (s : State) (h : OpHdr) (i : Instr) (body : State → State) (hs : Kept s0 s) (hbody : ∀ (a0 : State), Kept s0 a0 → Kept s0 (body a0)) : Kept s0 (State.tileOp s h i body) := by
  unfold State.tileOp
  repeat' (first
    | with_reducible assumption | with_reducible apply hbody | with_reducible apply State.enqueue_kept
    | with_reducible apply Kept.ite | fail_if_no_progress intros | split)

theorem State.vecIssue_kept {s0 : State} (s : State) (h : OpHdr) (n : Nat) (hs : Kept s0 s) : Kept s0 (State.vecIssue s h n).2 := by
  unfold State.vecIssue
  repeat' (first
    | with_reducible assumption
    | (extract_lets +onlyGivenNames x; change State at x; refine Kept.cut (s0 := s0) x ?_ ?_; (on_goal 1 => dsimp only [x]; clear x); (on_goal 2 => intro hx; clear_value x))
    | (extract_lets +onlyGivenNames x; change _ × State at x; refine Kept.cut2 (s0 := s0) x ?_ ?_; (on_goal 1 => dsimp only [x]; clear x); (on_goal 2 => intro hx; clear_value x))
    | (extract_lets +onlyGivenNames x; clear_value x) | with_reducible apply State.issue_kept
    | with_reducible apply State.tileEvent_kept | with_reducible apply State.modTile_kept | fail_if_no_progress intros
    | fail_if_no_progress with_reducible apply Kept.upd | dsimp only)

theorem State.drawTickets_ok_quiet {s0 s t : State} {h : OpHdr} {n unit : Nat} (e : s.drawTickets h n unit = .ok t)
    (hs : Quiet s0 s) : Quiet s0 t := by
  unfold State.drawTickets at e
  dsimp only at e
  repeat' split at e
  all_goals cases e
  all_goals first
    | exact hs | exact State.tileJobFault_quiet _ _ _ _ _ _ hs | exact State.setTile_quiet _ _ _ hs
    | exact State.tileEvent_quiet _ _ _ _ _ (State.setTile_quiet _ _ _ hs)

theorem State.drawTickets_wait_quiet {s0 s t : State} {h : OpHdr} {n unit : Nat} (e : s.drawTickets h n unit = .wait t)
    (hs : Quiet s0 s) : Quiet s0 t := by
  unfold State.drawTickets at e
  dsimp only at e
  repeat' split at e
  all_goals cases e
  all_goals first
    | exact hs | exact State.tileJobFault_quiet _ _ _ _ _ _ hs | exact State.setTile_quiet _ _ _ hs
    | exact State.tileEvent_quiet _ _ _ _ _ (State.setTile_quiet _ _ _ hs)

theorem State.drawTickets_short_quiet {s0 s t : State} {h : OpHdr} {n unit : Nat} (e : s.drawTickets h n unit = .short t)
    (hs : Quiet s0 s) : Quiet s0 t := by
  unfold State.drawTickets at e
  dsimp only at e
  repeat' split at e
  all_goals cases e
  all_goals first
    | exact hs | exact State.tileJobFault_quiet _ _ _ _ _ _ hs | exact State.setTile_quiet _ _ _ hs
    | exact State.tileEvent_quiet _ _ _ _ _ (State.setTile_quiet _ _ _ hs)

theorem State.drawTickets_ok_kept {s0 s t : State} {h : OpHdr} {n unit : Nat} (e : s.drawTickets h n unit = .ok t)
    (hs : Kept s0 s) : Kept s0 t := (State.drawTickets_ok_quiet e (Quiet.refl _)).keeps hs

theorem State.drawTickets_wait_kept {s0 s t : State} {h : OpHdr} {n unit : Nat} (e : s.drawTickets h n unit = .wait t)
    (hs : Kept s0 s) : Kept s0 t := (State.drawTickets_wait_quiet e (Quiet.refl _)).keeps hs

theorem State.drawTickets_short_kept {s0 s t : State} {h : OpHdr} {n unit : Nat} (e : s.drawTickets h n unit = .short t)
    (hs : Kept s0 s) : Kept s0 t := (State.drawTickets_short_quiet e (Quiet.refl _)).keeps hs

theorem State.bankConflict_quiet {s0 : State} (s : State) (t : TileId) (o kind cycle opidx : Nat) (hs : Quiet s0 s) : Quiet s0 (State.bankConflict s t o kind cycle opidx) := by
  unfold State.bankConflict
  repeat' (first
    | with_reducible assumption
    | (extract_lets +onlyGivenNames x; change State at x; refine Quiet.cut (s0 := s0) x ?_ ?_; (on_goal 1 => dsimp only [x]; clear x); (on_goal 2 => intro hx; clear_value x))
    | (extract_lets +onlyGivenNames x; change _ × State at x; refine Quiet.cut2 (s0 := s0) x ?_ ?_; (on_goal 1 => dsimp only [x]; clear x); (on_goal 2 => intro hx; clear_value x))
    | (extract_lets +onlyGivenNames x; clear_value x) | with_reducible apply State.tileJobFault_quiet
    | with_reducible apply State.setBit_quiet | with_reducible apply State.setReg_quiet | with_reducible apply Quiet.ite
    | fail_if_no_progress intros | dsimp only | split)

theorem State.bankConflict_kept {s0 : State} (s : State) (t : TileId) (o kind cycle opidx : Nat) (hs : Kept s0 s) : Kept s0 (State.bankConflict s t o kind cycle opidx) :=
  (State.bankConflict_quiet s t o kind cycle opidx (Quiet.refl _)).keeps hs

theorem State.rowCollision_quiet {s0 : State} (s : State) (t : TileId) (o opidx : Nat) (hs : Quiet s0 s) : Quiet s0 (State.rowCollision s t o opidx) := by
  unfold State.rowCollision
  repeat' (first
    | with_reducible assumption
    | (extract_lets +onlyGivenNames x; change State at x; refine Quiet.cut (s0 := s0) x ?_ ?_; (on_goal 1 => dsimp only [x]; clear x); (on_goal 2 => intro hx; clear_value x))
    | (extract_lets +onlyGivenNames x; change _ × State at x; refine Quiet.cut2 (s0 := s0) x ?_ ?_; (on_goal 1 => dsimp only [x]; clear x); (on_goal 2 => intro hx; clear_value x))
    | (extract_lets +onlyGivenNames x; clear_value x) | with_reducible apply State.tileJobFault_quiet
    | with_reducible apply State.tileEvent_quiet | with_reducible apply State.bump_quiet
    | with_reducible apply State.setBit_quiet | with_reducible apply Quiet.ite | fail_if_no_progress intros | dsimp only
    | split)

theorem State.rowCollision_kept {s0 : State} (s : State) (t : TileId) (o opidx : Nat) (hs : Kept s0 s) : Kept s0 (State.rowCollision s t o opidx) :=
  (State.rowCollision_quiet s t o opidx (Quiet.refl _)).keeps hs

theorem State.shield_quiet {s0 : State} (s : State) (c : Collision) (a : Nat) (b : List Byte) (bad : List Nat) (hs : Quiet s0 s) : Quiet s0 (State.shield s c a b bad) := by
  unfold State.shield
  repeat' (first
    | with_reducible assumption | with_reducible apply State.modTile_quiet | fail_if_no_progress intros
    | fail_if_no_progress with_reducible apply Quiet.upd)

theorem State.shield_kept {s0 : State} (s : State) (c : Collision) (a : Nat) (b : List Byte) (bad : List Nat) (hs : Kept s0 s) : Kept s0 (State.shield s c a b bad) :=
  (State.shield_quiet s c a b bad (Quiet.refl _)).keeps hs

theorem State.collideRow_kept {s0 : State} (s : State) (t : TileId) (c o opidx : Nat) (env : OpEnv) (wr : Option (List Byte × Bool)) (hs : Kept s0 s) : Kept s0 (State.collideRow s t c o opidx env wr) := by
  unfold State.collideRow
  repeat' (first
    | with_reducible assumption
    | (extract_lets +onlyGivenNames x; change State at x; refine Kept.cut (s0 := s0) x ?_ ?_; (on_goal 1 => dsimp only [x]; clear x); (on_goal 2 => intro hx; clear_value x))
    | (extract_lets +onlyGivenNames x; change _ × State at x; refine Kept.cut2 (s0 := s0) x ?_ ?_; (on_goal 1 => dsimp only [x]; clear x); (on_goal 2 => intro hx; clear_value x))
    | (extract_lets +onlyGivenNames x; clear_value x) | with_reducible apply State.shield_kept
    | with_reducible apply State.rowCollision_kept | with_reducible apply State.flushW_kept | with_reducible apply Kept.ite
    | with_reducible apply Kept.foldl | fail_if_no_progress intros | fail_if_no_progress with_reducible apply Kept.upd
    | (with_reducible apply Kept.snd; with_reducible assumption) | dsimp only | split)

theorem State.eccRead_quiet {s0 : State} (s : State) (t : TileId) (o n opidx : Nat) (env : OpEnv) (hs : Quiet s0 s) : Quiet s0 (State.eccRead s t o n opidx env) := by
  unfold State.eccRead
  repeat' (first
    | with_reducible assumption
    | (extract_lets +onlyGivenNames x; change State at x; refine Quiet.cut (s0 := s0) x ?_ ?_; (on_goal 1 => dsimp only [x]; clear x); (on_goal 2 => intro hx; clear_value x))
    | (extract_lets +onlyGivenNames x; change _ × State at x; refine Quiet.cut2 (s0 := s0) x ?_ ?_; (on_goal 1 => dsimp only [x]; clear x); (on_goal 2 => intro hx; clear_value x))
    | (extract_lets +onlyGivenNames x; clear_value x) | with_reducible apply State.tileFault_quiet
    | with_reducible apply State.tileEvent_quiet | with_reducible apply State.modTile_quiet
    | with_reducible apply State.bump_quiet | with_reducible apply State.setBit_quiet | with_reducible apply State.setFld_quiet
    | with_reducible apply State.poisonOn_quiet | with_reducible apply Quiet.ite | with_reducible apply Quiet.foldl
    | fail_if_no_progress intros | fail_if_no_progress with_reducible apply Quiet.upd | dsimp only | split)

theorem State.eccRead_kept {s0 : State} (s : State) (t : TileId) (o n opidx : Nat) (env : OpEnv) (hs : Kept s0 s) : Kept s0 (State.eccRead s t o n opidx env) :=
  (State.eccRead_quiet s t o n opidx env (Quiet.refl _)).keeps hs

theorem State.freeBytes_quiet {s0 : State} (s : State) (n : Nat) (hs : Quiet s0 s) : Quiet s0 (State.freeBytes s n).2 := by
  unfold State.freeBytes
  repeat' (first
    | with_reducible assumption
    | (extract_lets +onlyGivenNames x; change State at x; refine Quiet.cut (s0 := s0) x ?_ ?_; (on_goal 1 => dsimp only [x]; clear x); (on_goal 2 => intro hx; clear_value x))
    | (extract_lets +onlyGivenNames x; change _ × State at x; refine Quiet.cut2 (s0 := s0) x ?_ ?_; (on_goal 1 => dsimp only [x]; clear x); (on_goal 2 => intro hx; clear_value x))
    | (extract_lets +onlyGivenNames x; clear_value x) | with_reducible apply State.draw_quiet | fail_if_no_progress intros
    | (with_reducible apply Quiet.snd; with_reducible assumption) | dsimp only | split)

theorem State.freeBytes_kept {s0 : State} (s : State) (n : Nat) (hs : Kept s0 s) : Kept s0 (State.freeBytes s n).2 :=
  (State.freeBytes_quiet s n (Quiet.refl _)).keeps hs

theorem State.engFetch_kept {s0 : State} (s : State) (h : OpHdr) (c o n : Nat) (hs : Kept s0 s) : Kept s0 (State.engFetch s h c o n).2 := by
  unfold State.engFetch
  repeat' (first
    | with_reducible assumption
    | (extract_lets +onlyGivenNames x; change State at x; refine Kept.cut (s0 := s0) x ?_ ?_; (on_goal 1 => dsimp only [x]; clear x); (on_goal 2 => intro hx; clear_value x))
    | (extract_lets +onlyGivenNames x; change _ × State at x; refine Kept.cut2 (s0 := s0) x ?_ ?_; (on_goal 1 => dsimp only [x]; clear x); (on_goal 2 => intro hx; clear_value x))
    | (extract_lets +onlyGivenNames x; clear_value x) | with_reducible apply State.eccRead_kept
    | with_reducible apply State.collideRow_kept | with_reducible apply State.bankConflict_kept
    | with_reducible apply State.flushW_kept | with_reducible apply State.addrFaultTile_kept
    | with_reducible apply State.modTile_kept | with_reducible apply Kept.ite | with_reducible apply Kept.ite2
    | fail_if_no_progress intros | fail_if_no_progress with_reducible apply Kept.upd
    | (with_reducible apply Kept.snd; with_reducible assumption) | dsimp only | split)

theorem State.engRead_kept {s0 : State} (s : State) (h : OpHdr) (c o n : Nat) (hs : Kept s0 s) : Kept s0 (State.engRead s h c o n).2 := by
  unfold State.engRead
  repeat' (first
    | with_reducible assumption
    | (extract_lets +onlyGivenNames x; change State at x; refine Kept.cut (s0 := s0) x ?_ ?_; (on_goal 1 => dsimp only [x]; clear x); (on_goal 2 => intro hx; clear_value x))
    | (extract_lets +onlyGivenNames x; change _ × State at x; refine Kept.cut2 (s0 := s0) x ?_ ?_; (on_goal 1 => dsimp only [x]; clear x); (on_goal 2 => intro hx; clear_value x))
    | (extract_lets +onlyGivenNames x; clear_value x) | with_reducible apply State.engFetch_kept
    | with_reducible apply State.freeBytes_kept | fail_if_no_progress intros
    | fail_if_no_progress with_reducible apply Kept.upd | (with_reducible apply Kept.snd; with_reducible assumption)
    | dsimp only | split)

theorem State.engWrite_kept {s0 : State} (s : State) (h : OpHdr) (c late o : Nat) (b : List Byte) (poison : Bool) (hs : Kept s0 s) : Kept s0 (State.engWrite s h c late o b poison) := by
  unfold State.engWrite
  repeat' (first
    | with_reducible assumption
    | (extract_lets +onlyGivenNames x; change State at x; refine Kept.cut (s0 := s0) x ?_ ?_; (on_goal 1 => dsimp only [x]; clear x); (on_goal 2 => intro hx; clear_value x))
    | (extract_lets +onlyGivenNames x; change _ × State at x; refine Kept.cut2 (s0 := s0) x ?_ ?_; (on_goal 1 => dsimp only [x]; clear x); (on_goal 2 => intro hx; clear_value x))
    | (extract_lets +onlyGivenNames x; clear_value x) | with_reducible apply State.collideRow_kept
    | with_reducible apply State.bankConflict_kept | with_reducible apply State.addrFaultTile_kept
    | with_reducible apply State.modTile_kept | with_reducible apply Kept.ite | fail_if_no_progress intros
    | fail_if_no_progress with_reducible apply Kept.upd | (with_reducible apply Kept.snd; with_reducible assumption)
    | dsimp only | split)

theorem State.readRows_kept {s0 : State} (s : State) (h : OpHdr) (c : Nat) (l : List (Nat × Nat)) (hs : Kept s0 s) :
    Kept s0 (State.readRows s h c l).2 := by
  unfold State.readRows
  exact Kept.foldlOn (fun (a : (List Byte × Bool) × State × Nat) => a.2.1) hs (fun b x hb => State.engRead_kept _ _ _ _ _ hb)

theorem State.writeRows_kept {s0 : State} (s : State) (h : OpHdr) (c late : Nat) (l : List (Nat × Nat)) (b : List Byte) (poison : Bool)
    (hs : Kept s0 s) : Kept s0 (State.writeRows s h c late l b poison) := by
  unfold State.writeRows
  exact Kept.foldlOn (fun (a : State × Nat × List Byte) => a.1) hs (fun b x hb => State.engWrite_kept _ _ _ _ _ _ _ hb)

theorem State.poisonReport_quiet {s0 : State} (s : State) (t : TileId) (slot : Nat) (hs : Quiet s0 s) : Quiet s0 (State.poisonReport s t slot) := by
  unfold State.poisonReport
  repeat' (first
    | with_reducible assumption | with_reducible apply State.tileEvent_quiet | with_reducible apply State.modTile_quiet
    | with_reducible apply Quiet.ite | fail_if_no_progress intros | fail_if_no_progress with_reducible apply Quiet.upd | split)

theorem State.poisonReport_kept {s0 : State} (s : State) (t : TileId) (slot : Nat) (hs : Kept s0 s) : Kept s0 (State.poisonReport s t slot) :=
  (State.poisonReport_quiet s t slot (Quiet.refl _)).keeps hs

theorem State.release_quiet {s0 : State} (s : State) (t : TileId) (e : VRes) (slot : Nat) (hs : Quiet s0 s) : Quiet s0 (State.release s t e slot) := by
  unfold State.release
  repeat' (first
    | with_reducible assumption
    | (extract_lets +onlyGivenNames x; change State at x; refine Quiet.cut (s0 := s0) x ?_ ?_; (on_goal 1 => dsimp only [x]; clear x); (on_goal 2 => intro hx; clear_value x))
    | (extract_lets +onlyGivenNames x; change _ × State at x; refine Quiet.cut2 (s0 := s0) x ?_ ?_; (on_goal 1 => dsimp only [x]; clear x); (on_goal 2 => intro hx; clear_value x))
    | (extract_lets +onlyGivenNames x; clear_value x) | with_reducible apply State.poisonReport_quiet
    | with_reducible apply State.modTile_quiet | with_reducible apply Quiet.ite | fail_if_no_progress intros
    | fail_if_no_progress with_reducible apply Quiet.upd | dsimp only | split)

theorem State.release_kept {s0 : State} (s : State) (t : TileId) (e : VRes) (slot : Nat) (hs : Kept s0 s) : Kept s0 (State.release s t e slot) :=
  (State.release_quiet s t e slot (Quiet.refl _)).keeps hs

theorem State.writeVr_quiet {s0 : State} (s : State) (t : TileId) (ready r : Nat) (b : List Byte) (g : Tag) (sat : Bool) (fmt : Option VFmt) (hs : Quiet s0 s) : Quiet s0 (State.writeVr s t ready r b g sat fmt) := by
  unfold State.writeVr
  repeat' (first
    | with_reducible assumption | with_reducible apply State.release_quiet | fail_if_no_progress intros)

theorem State.writeVr_kept {s0 : State} (s : State) (t : TileId) (ready r : Nat) (b : List Byte) (g : Tag) (sat : Bool) (fmt : Option VFmt) (hs : Kept s0 s) : Kept s0 (State.writeVr s t ready r b g sat fmt) :=
  (State.writeVr_quiet s t ready r b g sat fmt (Quiet.refl _)).keeps hs

theorem State.writeRead_quiet {s0 : State} (s : State) (t : TileId) (ready r : Nat) (b : List Byte) (poison : Bool) (hs : Quiet s0 s) : Quiet s0 (State.writeRead s t ready r b poison) := by
  unfold State.writeRead
  repeat' (first
    | with_reducible assumption
    | (extract_lets +onlyGivenNames x; change State at x; refine Quiet.cut (s0 := s0) x ?_ ?_; (on_goal 1 => dsimp only [x]; clear x); (on_goal 2 => intro hx; clear_value x))
    | (extract_lets +onlyGivenNames x; change _ × State at x; refine Quiet.cut2 (s0 := s0) x ?_ ?_; (on_goal 1 => dsimp only [x]; clear x); (on_goal 2 => intro hx; clear_value x))
    | (extract_lets +onlyGivenNames x; clear_value x) | with_reducible apply State.release_quiet | fail_if_no_progress intros
    | fail_if_no_progress with_reducible apply Quiet.upd | dsimp only)

theorem State.writeRead_kept {s0 : State} (s : State) (t : TileId) (ready r : Nat) (b : List Byte) (poison : Bool) (hs : Kept s0 s) : Kept s0 (State.writeRead s t ready r b poison) :=
  (State.writeRead_quiet s t ready r b poison (Quiet.refl _)).keeps hs

theorem State.fillFree_quiet {s0 : State} (s : State) (l : List (Option Nat)) (hs : Quiet s0 s) : Quiet s0 (State.fillFree s l).2 := by
  induction l generalizing s with
  | nil => exact hs
  | cons v r ih => cases v with
    | none => exact ih _ (State.draw_quiet s hs)
    | some v => exact ih s hs

theorem State.fillFree_kept {s0 : State} (s : State) (l : List (Option Nat)) (hs : Kept s0 s) : Kept s0 (State.fillFree s l).2 :=
  (State.fillFree_quiet s l (Quiet.refl _)).keeps hs

/-! ## VectorAlu -/

theorem vecAlu_kept {s0 : State} (h : OpHdr) (i : Instr) (n lc2 lc1 dst : Nat) (srcs : List Nat) (fmt : VFmt) (w : Nat) (checked : Bool) (f : (Nat → List Byte) → List (Option Nat)) (s : State) (hs : Kept s0 s) : Kept s0 (vecAlu h i n lc2 lc1 dst srcs fmt w checked f s) := by
  unfold vecAlu
  repeat' (first
    | with_reducible assumption
    | (extract_lets +onlyGivenNames x; change State at x; refine Kept.cut (s0 := s0) x ?_ ?_; (on_goal 1 => dsimp only [x]; clear x); (on_goal 2 => intro hx; clear_value x))
    | (extract_lets +onlyGivenNames x; change _ × State at x; refine Kept.cut2 (s0 := s0) x ?_ ?_; (on_goal 1 => dsimp only [x]; clear x); (on_goal 2 => intro hx; clear_value x))
    | (extract_lets +onlyGivenNames x; clear_value x) | with_reducible apply State.fillFree_kept
    | with_reducible apply State.writeVr_kept | with_reducible apply State.vecIssue_kept
    | with_reducible apply State.tileOp_kept | with_reducible apply State.residueFault_kept | with_reducible apply Kept.ite
    | fail_if_no_progress intros | fail_if_no_progress with_reducible apply Kept.upd | dsimp only | split)

theorem vec1_kept {s0 : State} (h : OpHdr) (i : Instr) (f : VFmt) (dst a : Nat) (g : Nat → Option Nat) (s : State) (hs : Kept s0 s) : Kept s0 (vec1 h i f dst a g s) := by
  unfold vec1
  repeat' (first
    | with_reducible assumption | with_reducible apply vecAlu_kept | fail_if_no_progress intros)

theorem vec2_kept {s0 : State} (h : OpHdr) (i : Instr) (f : VFmt) (dst a b : Nat) (checked : Bool) (g : Nat → Nat → Option Nat) (s : State) (hs : Kept s0 s) : Kept s0 (vec2 h i f dst a b checked g s) := by
  unfold vec2
  repeat' (first
    | with_reducible assumption | with_reducible apply vecAlu_kept | fail_if_no_progress intros)

theorem vec3_kept {s0 : State} (h : OpHdr) (i : Instr) (lc2 lc1 : Nat) (f : VFmt) (dst a b c : Nat) (checked : Bool) (g : Nat → Nat → Nat → Option Nat) (s : State) (hs : Kept s0 s) : Kept s0 (vec3 h i lc2 lc1 f dst a b c checked g s) := by
  unfold vec3
  repeat' (first
    | with_reducible assumption | with_reducible apply vecAlu_kept | fail_if_no_progress intros)

theorem vecI8_kept {s0 : State} (h : OpHdr) (i : Instr) (dst a b : Nat) (g : Int → Int → Int) (s : State) (hs : Kept s0 s) : Kept s0 (vecI8 h i dst a b g s) := by
  unfold vecI8
  repeat' (first
    | with_reducible assumption | with_reducible apply vecAlu_kept | fail_if_no_progress intros)

theorem vecFun_kept {s0 : State} (h : OpHdr) (i : Instr) (f : VFmt) (dst a : Nat) (g : Nat → Option Nat) (s : State) (hs : Kept s0 s) : Kept s0 (vecFun h i f dst a g s) := by
  unfold vecFun
  repeat' (first
    | with_reducible assumption
    | (extract_lets +onlyGivenNames x; change State at x; refine Kept.cut (s0 := s0) x ?_ ?_; (on_goal 1 => dsimp only [x]; clear x); (on_goal 2 => intro hx; clear_value x))
    | (extract_lets +onlyGivenNames x; change _ × State at x; refine Kept.cut2 (s0 := s0) x ?_ ?_; (on_goal 1 => dsimp only [x]; clear x); (on_goal 2 => intro hx; clear_value x))
    | (extract_lets +onlyGivenNames x; clear_value x) | with_reducible apply State.fillFree_kept
    | with_reducible apply State.writeVr_kept | (refine State.drawTickets_ok_kept (by assumption) ?_)
    | (refine State.drawTickets_wait_kept (by assumption) ?_) | (refine State.drawTickets_short_kept (by assumption) ?_)
    | with_reducible apply State.vecIssue_kept | with_reducible apply State.tileOp_kept
    | with_reducible apply State.enqueue_kept | fail_if_no_progress intros | fail_if_no_progress with_reducible apply Kept.upd
    | (with_reducible apply Kept.snd; with_reducible assumption) | dsimp only | split)

theorem vecRed_kept {s0 : State} (h : OpHdr) (i : Instr) (f : VFmt) (dst : Nat) (srcs : List Nat) (checked : Bool) (g : (Nat → List Byte) → Option Nat) (s : State) (hs : Kept s0 s) : Kept s0 (vecRed h i f dst srcs checked g s) := by
  unfold vecRed
  repeat' (first
    | with_reducible assumption | with_reducible apply vecAlu_kept | fail_if_no_progress intros)

theorem runAdd_kept {s0 : State} (h : OpHdr) (dst : VReg) (a : VReg) (b : VReg) (fmt : VFmt) (s : State) (hs : Kept s0 s) : Kept s0 (runAdd h dst a b fmt s) := by
  unfold runAdd
  repeat' (first
    | with_reducible assumption | with_reducible apply vec2_kept | fail_if_no_progress intros)

theorem runSub_kept {s0 : State} (h : OpHdr) (dst : VReg) (a : VReg) (b : VReg) (fmt : VFmt) (s : State) (hs : Kept s0 s) : Kept s0 (runSub h dst a b fmt s) := by
  unfold runSub
  repeat' (first
    | with_reducible assumption | with_reducible apply vec2_kept | fail_if_no_progress intros)

theorem runMul_kept {s0 : State} (h : OpHdr) (dst : VReg) (a : VReg) (b : VReg) (fmt : VFmt) (s : State) (hs : Kept s0 s) : Kept s0 (runMul h dst a b fmt s) := by
  unfold runMul
  repeat' (first
    | with_reducible assumption | with_reducible apply vec2_kept | fail_if_no_progress intros)

theorem runFma_kept {s0 : State} (h : OpHdr) (dst : VReg) (a : VReg) (b : VReg) (c : VReg) (fmt : VFmt) (s : State) (hs : Kept s0 s) : Kept s0 (runFma h dst a b c fmt s) := by
  unfold runFma
  repeat' (first
    | with_reducible assumption | with_reducible apply vec3_kept | fail_if_no_progress intros)

theorem runMin_kept {s0 : State} (h : OpHdr) (dst : VReg) (a : VReg) (b : VReg) (fmt : VFmt) (s : State) (hs : Kept s0 s) : Kept s0 (runMin h dst a b fmt s) := by
  unfold runMin
  repeat' (first
    | with_reducible assumption | with_reducible apply vec2_kept | fail_if_no_progress intros)

theorem runMax_kept {s0 : State} (h : OpHdr) (dst : VReg) (a : VReg) (b : VReg) (fmt : VFmt) (s : State) (hs : Kept s0 s) : Kept s0 (runMax h dst a b fmt s) := by
  unfold runMax
  repeat' (first
    | with_reducible assumption | with_reducible apply vec2_kept | fail_if_no_progress intros)

theorem runAbs_kept {s0 : State} (h : OpHdr) (dst : VReg) (a : VReg) (fmt : VFmt) (s : State) (hs : Kept s0 s) : Kept s0 (runAbs h dst a fmt s) := by
  unfold runAbs
  repeat' (first
    | with_reducible assumption | with_reducible apply vec1_kept | fail_if_no_progress intros)

theorem runNeg_kept {s0 : State} (h : OpHdr) (dst : VReg) (a : VReg) (fmt : VFmt) (s : State) (hs : Kept s0 s) : Kept s0 (runNeg h dst a fmt s) := by
  unfold runNeg
  repeat' (first
    | with_reducible assumption | with_reducible apply vec1_kept | fail_if_no_progress intros)

theorem runCmp_kept {s0 : State} (h : OpHdr) (dst : VReg) (a : VReg) (b : VReg) (fmt : VFmt) (pred : CmpPred) (s : State) (hs : Kept s0 s) : Kept s0 (runCmp h dst a b fmt pred s) := by
  unfold runCmp
  repeat' (first
    | with_reducible assumption | with_reducible apply vec2_kept | fail_if_no_progress intros)

theorem runSel_kept {s0 : State} (h : OpHdr) (dst : VReg) (a : VReg) (b : VReg) (c : VReg) (fmt : VFmt) (s : State) (hs : Kept s0 s) : Kept s0 (runSel h dst a b c fmt s) := by
  unfold runSel
  repeat' (first
    | with_reducible assumption | with_reducible apply vec3_kept | fail_if_no_progress intros)

theorem runI8add_kept {s0 : State} (h : OpHdr) (dst : VReg) (a : VReg) (b : VReg) (s : State) (hs : Kept s0 s) : Kept s0 (runI8add h dst a b s) := by
  unfold runI8add
  repeat' (first
    | with_reducible assumption | with_reducible apply vecI8_kept | fail_if_no_progress intros)

theorem runI8sub_kept {s0 : State} (h : OpHdr) (dst : VReg) (a : VReg) (b : VReg) (s : State) (hs : Kept s0 s) : Kept s0 (runI8sub h dst a b s) := by
  unfold runI8sub
  repeat' (first
    | with_reducible assumption | with_reducible apply vecI8_kept | fail_if_no_progress intros)

theorem runI8min_kept {s0 : State} (h : OpHdr) (dst : VReg) (a : VReg) (b : VReg) (s : State) (hs : Kept s0 s) : Kept s0 (runI8min h dst a b s) := by
  unfold runI8min
  repeat' (first
    | with_reducible assumption | with_reducible apply vecI8_kept | with_reducible apply Kept.ite | fail_if_no_progress intros
    | split)

theorem runI8max_kept {s0 : State} (h : OpHdr) (dst : VReg) (a : VReg) (b : VReg) (s : State) (hs : Kept s0 s) : Kept s0 (runI8max h dst a b s) := by
  unfold runI8max
  repeat' (first
    | with_reducible assumption | with_reducible apply vecI8_kept | with_reducible apply Kept.ite | fail_if_no_progress intros
    | split)

theorem runI8dot4_kept {s0 : State} (h : OpHdr) (dst : VReg) (a : VReg) (b : VReg) (s : State) (hs : Kept s0 s) : Kept s0 (runI8dot4 h dst a b s) := by
  unfold runI8dot4
  repeat' (first
    | with_reducible assumption | with_reducible apply vecAlu_kept | fail_if_no_progress intros)

theorem runCvt_kept {s0 : State} (h : OpHdr) (dst : VReg) (a : VReg) (src : VFmt) (tgt : VFmt) (s : State) (hs : Kept s0 s) : Kept s0 (runCvt h dst a src tgt s) := by
  unfold runCvt
  repeat' (first
    | with_reducible assumption
    | (extract_lets +onlyGivenNames x; change State at x; refine Kept.cut (s0 := s0) x ?_ ?_; (on_goal 1 => dsimp only [x]; clear x); (on_goal 2 => intro hx; clear_value x))
    | (extract_lets +onlyGivenNames x; change _ × State at x; refine Kept.cut2 (s0 := s0) x ?_ ?_; (on_goal 1 => dsimp only [x]; clear x); (on_goal 2 => intro hx; clear_value x))
    | (extract_lets +onlyGivenNames x; clear_value x) | with_reducible apply State.fillFree_kept
    | with_reducible apply State.writeVr_kept | with_reducible apply State.vecIssue_kept
    | with_reducible apply State.tileOp_kept | with_reducible apply State.tileEvent_kept | with_reducible apply Kept.ite
    | fail_if_no_progress intros | dsimp only | split)

theorem runExp2_kept {s0 : State} (h : OpHdr) (dst : VReg) (a : VReg) (fmt : VFmt) (s : State) (hs : Kept s0 s) : Kept s0 (runExp2 h dst a fmt s) := by
  unfold runExp2
  repeat' (first
    | with_reducible assumption | with_reducible apply vecFun_kept | fail_if_no_progress intros)

theorem runLog2_kept {s0 : State} (h : OpHdr) (dst : VReg) (a : VReg) (fmt : VFmt) (s : State) (hs : Kept s0 s) : Kept s0 (runLog2 h dst a fmt s) := by
  unfold runLog2
  repeat' (first
    | with_reducible assumption | with_reducible apply vecFun_kept | fail_if_no_progress intros)

theorem runRcp_kept {s0 : State} (h : OpHdr) (dst : VReg) (a : VReg) (fmt : VFmt) (s : State) (hs : Kept s0 s) : Kept s0 (runRcp h dst a fmt s) := by
  unfold runRcp
  repeat' (first
    | with_reducible assumption | with_reducible apply vecFun_kept | fail_if_no_progress intros)

theorem runRsqrt_kept {s0 : State} (h : OpHdr) (dst : VReg) (a : VReg) (fmt : VFmt) (s : State) (hs : Kept s0 s) : Kept s0 (runRsqrt h dst a fmt s) := by
  unfold runRsqrt
  repeat' (first
    | with_reducible assumption | with_reducible apply vecFun_kept | fail_if_no_progress intros)

theorem runRsum_kept {s0 : State} (h : OpHdr) (dst : VReg) (a : VReg) (fmt : VFmt) (s : State) (hs : Kept s0 s) : Kept s0 (runRsum h dst a fmt s) := by
  unfold runRsum
  repeat' (first
    | with_reducible assumption | with_reducible apply vecRed_kept | fail_if_no_progress intros)

theorem runRdot_kept {s0 : State} (h : OpHdr) (dst : VReg) (a : VReg) (b : VReg) (fmt : VFmt) (s : State) (hs : Kept s0 s) : Kept s0 (runRdot h dst a b fmt s) := by
  unfold runRdot
  repeat' (first
    | with_reducible assumption | with_reducible apply vecRed_kept | fail_if_no_progress intros)

theorem runRsumsq_kept {s0 : State} (h : OpHdr) (dst : VReg) (a : VReg) (fmt : VFmt) (s : State) (hs : Kept s0 s) : Kept s0 (runRsumsq h dst a fmt s) := by
  unfold runRsumsq
  repeat' (first
    | with_reducible assumption
    | (extract_lets +onlyGivenNames x; change State at x; refine Kept.cut (s0 := s0) x ?_ ?_; (on_goal 1 => dsimp only [x]; clear x); (on_goal 2 => intro hx; clear_value x))
    | (extract_lets +onlyGivenNames x; change _ × State at x; refine Kept.cut2 (s0 := s0) x ?_ ?_; (on_goal 1 => dsimp only [x]; clear x); (on_goal 2 => intro hx; clear_value x))
    | (extract_lets +onlyGivenNames x; clear_value x) | with_reducible apply vecRed_kept | fail_if_no_progress intros
    | dsimp only)

theorem runRmax_kept {s0 : State} (h : OpHdr) (dst : VReg) (a : VReg) (fmt : VFmt) (s : State) (hs : Kept s0 s) : Kept s0 (runRmax h dst a fmt s) := by
  unfold runRmax
  repeat' (first
    | with_reducible assumption | with_reducible apply vecRed_kept | fail_if_no_progress intros)

theorem runRargmax_kept {s0 : State} (h : OpHdr) (dst : VReg) (a : VReg) (fmt : VFmt) (s : State) (hs : Kept s0 s) : Kept s0 (runRargmax h dst a fmt s) := by
  unfold runRargmax
  repeat' (first
    | with_reducible assumption
    | (extract_lets +onlyGivenNames x; change State at x; refine Kept.cut (s0 := s0) x ?_ ?_; (on_goal 1 => dsimp only [x]; clear x); (on_goal 2 => intro hx; clear_value x))
    | (extract_lets +onlyGivenNames x; change _ × State at x; refine Kept.cut2 (s0 := s0) x ?_ ?_; (on_goal 1 => dsimp only [x]; clear x); (on_goal 2 => intro hx; clear_value x))
    | (extract_lets +onlyGivenNames x; clear_value x) | with_reducible apply State.fillFree_kept
    | with_reducible apply State.writeVr_kept | with_reducible apply State.vecIssue_kept
    | with_reducible apply State.tileOp_kept | with_reducible apply State.draw_kept | fail_if_no_progress intros
    | fail_if_no_progress with_reducible apply Kept.upd | (with_reducible apply Kept.snd; with_reducible assumption)
    | dsimp only | split)

theorem runBcast_kept {s0 : State} (h : OpHdr) (dst : VReg) (a : VReg) (fmt : VFmt) (elem : BitVec 16) (s : State) (hs : Kept s0 s) : Kept s0 (runBcast h dst a fmt elem s) := by
  unfold runBcast
  repeat' (first
    | with_reducible assumption | with_reducible apply vecAlu_kept | fail_if_no_progress intros)

theorem runRot_kept {s0 : State} (h : OpHdr) (dst : VReg) (a : VReg) (fmt : VFmt) (lanes : BitVec 16) (s : State) (hs : Kept s0 s) : Kept s0 (runRot h dst a fmt lanes s) := by
  unfold runRot
  repeat' (first
    | with_reducible assumption
    | (extract_lets +onlyGivenNames x; change State at x; refine Kept.cut (s0 := s0) x ?_ ?_; (on_goal 1 => dsimp only [x]; clear x); (on_goal 2 => intro hx; clear_value x))
    | (extract_lets +onlyGivenNames x; change _ × State at x; refine Kept.cut2 (s0 := s0) x ?_ ?_; (on_goal 1 => dsimp only [x]; clear x); (on_goal 2 => intro hx; clear_value x))
    | (extract_lets +onlyGivenNames x; clear_value x) | with_reducible apply vecAlu_kept | with_reducible apply Kept.ite
    | fail_if_no_progress intros | dsimp only | split)

theorem runGatherr_kept {s0 : State} (h : OpHdr) (dst : VReg) (a : VReg) (b : VReg) (fmt : VFmt) (s : State) (hs : Kept s0 s) : Kept s0 (runGatherr h dst a b fmt s) := by
  unfold runGatherr
  repeat' (first
    | with_reducible assumption
    | (extract_lets +onlyGivenNames x; change State at x; refine Kept.cut (s0 := s0) x ?_ ?_; (on_goal 1 => dsimp only [x]; clear x); (on_goal 2 => intro hx; clear_value x))
    | (extract_lets +onlyGivenNames x; change _ × State at x; refine Kept.cut2 (s0 := s0) x ?_ ?_; (on_goal 1 => dsimp only [x]; clear x); (on_goal 2 => intro hx; clear_value x))
    | (extract_lets +onlyGivenNames x; clear_value x) | with_reducible apply vecAlu_kept | fail_if_no_progress intros
    | dsimp only)

theorem runTagset_kept {s0 : State} (h : OpHdr) (dst : VReg) (slot : SlotIdx) (wgen : Byte) (pos : BitVec 24) (s : State) (hs : Kept s0 s) : Kept s0 (runTagset h dst slot wgen pos s) := by
  unfold runTagset
  repeat' (first
    | with_reducible assumption
    | (extract_lets +onlyGivenNames x; change State at x; refine Kept.cut (s0 := s0) x ?_ ?_; (on_goal 1 => dsimp only [x]; clear x); (on_goal 2 => intro hx; clear_value x))
    | (extract_lets +onlyGivenNames x; change _ × State at x; refine Kept.cut2 (s0 := s0) x ?_ ?_; (on_goal 1 => dsimp only [x]; clear x); (on_goal 2 => intro hx; clear_value x))
    | (extract_lets +onlyGivenNames x; clear_value x) | with_reducible apply State.release_kept
    | with_reducible apply State.vecIssue_kept | with_reducible apply State.tileOp_kept | fail_if_no_progress intros
    | dsimp only)

/-! ## VectorMem -/

theorem State.fourRegs_quiet {s0 : State} (s : State) (r : Nat) (f : State → Nat → Nat → State) (hs : Quiet s0 s) (hf : ∀ (a0 : State) (a1 : Nat) (a2 : Nat), Quiet s0 a0 → Quiet s0 (f a0 a1 a2)) : Quiet s0 (State.fourRegs s r f) := by
  unfold State.fourRegs
  repeat' (first
    | with_reducible assumption | with_reducible apply hf | with_reducible apply Quiet.foldl | fail_if_no_progress intros)

theorem State.fourRegs_kept {s0 : State} (s : State) (r : Nat) (f : State → Nat → Nat → State) (hs : Kept s0 s) (hf : ∀ (a0 : State) (a1 : Nat) (a2 : Nat), Kept s0 a0 → Kept s0 (f a0 a1 a2)) : Kept s0 (State.fourRegs s r f) := by
  unfold State.fourRegs
  repeat' (first
    | with_reducible assumption | with_reducible apply hf | with_reducible apply Kept.foldl | fail_if_no_progress intros)

theorem runAout_kept {s0 : State} (h : OpHdr) (dst : VReg) (larray : Fin 64) (fmt : VFmt) (s : State) (hs : Kept s0 s) : Kept s0 (runAout h dst larray fmt s) := by
  unfold runAout
  repeat' (first
    | with_reducible assumption
    | (extract_lets +onlyGivenNames x; change State at x; refine Kept.cut (s0 := s0) x ?_ ?_; (on_goal 1 => dsimp only [x]; clear x); (on_goal 2 => intro hx; clear_value x))
    | (extract_lets +onlyGivenNames x; change _ × State at x; refine Kept.cut2 (s0 := s0) x ?_ ?_; (on_goal 1 => dsimp only [x]; clear x); (on_goal 2 => intro hx; clear_value x))
    | (extract_lets +onlyGivenNames x; clear_value x) | with_reducible apply State.fourRegs_kept
    | with_reducible apply State.writeRead_kept | with_reducible apply State.writeVr_kept
    | with_reducible apply State.freeBytes_kept | with_reducible apply State.vecIssue_kept
    | with_reducible apply State.tileOp_kept | with_reducible apply State.issue_kept | with_reducible apply State.enqueue_kept
    | with_reducible apply State.tileEvent_kept | with_reducible apply State.modTile_kept | with_reducible apply Kept.ite
    | fail_if_no_progress intros | fail_if_no_progress with_reducible apply Kept.upd
    | (with_reducible apply Kept.snd; with_reducible assumption) | dsimp only | split)

theorem runLoad_kept {s0 : State} (h : OpHdr) (dst : VReg) (addr : BitVec 19) (s : State) (hs : Kept s0 s) : Kept s0 (runLoad h dst addr s) := by
  unfold runLoad
  repeat' (first
    | with_reducible assumption
    | (extract_lets +onlyGivenNames x; change State at x; refine Kept.cut (s0 := s0) x ?_ ?_; (on_goal 1 => dsimp only [x]; clear x); (on_goal 2 => intro hx; clear_value x))
    | (extract_lets +onlyGivenNames x; change _ × State at x; refine Kept.cut2 (s0 := s0) x ?_ ?_; (on_goal 1 => dsimp only [x]; clear x); (on_goal 2 => intro hx; clear_value x))
    | (extract_lets +onlyGivenNames x; clear_value x) | with_reducible apply State.writeRead_kept
    | with_reducible apply State.readRows_kept | with_reducible apply State.vecIssue_kept
    | with_reducible apply State.tileOp_kept | fail_if_no_progress intros | dsimp only)

theorem runStore_kept {s0 : State} (h : OpHdr) (src : VReg) (addr : BitVec 19) (s : State) (hs : Kept s0 s) : Kept s0 (runStore h src addr s) := by
  unfold runStore
  repeat' (first
    | with_reducible assumption
    | (extract_lets +onlyGivenNames x; change State at x; refine Kept.cut (s0 := s0) x ?_ ?_; (on_goal 1 => dsimp only [x]; clear x); (on_goal 2 => intro hx; clear_value x))
    | (extract_lets +onlyGivenNames x; change _ × State at x; refine Kept.cut2 (s0 := s0) x ?_ ?_; (on_goal 1 => dsimp only [x]; clear x); (on_goal 2 => intro hx; clear_value x))
    | (extract_lets +onlyGivenNames x; clear_value x) | with_reducible apply State.writeRows_kept
    | with_reducible apply State.vecIssue_kept | with_reducible apply State.tileOp_kept
    | with_reducible apply State.modTile_kept | with_reducible apply Kept.ite | fail_if_no_progress intros
    | fail_if_no_progress with_reducible apply Kept.upd | (with_reducible apply Kept.snd; with_reducible assumption)
    | dsimp only | split)

theorem runEccWriteback_quiet {s0 : State} (t : TileId) (addr : BitVec 19) (s : State) (hs : Quiet s0 s) : Quiet s0 (runEccWriteback t addr s) := by
  unfold runEccWriteback
  repeat' (first
    | with_reducible assumption | with_reducible apply State.modTile_quiet | fail_if_no_progress intros
    | fail_if_no_progress with_reducible apply Quiet.upd)

theorem runSwload_kept {s0 : State} (h : OpHdr) (dst : VReg) (addr : BitVec 19) (layer : Fin 256) (fmt : VFmt) (s : State) (hs : Kept s0 s) : Kept s0 (runSwload h dst addr layer fmt s) := by
  unfold runSwload
  repeat' (first
    | with_reducible assumption
    | (extract_lets +onlyGivenNames x; change State at x; refine Kept.cut (s0 := s0) x ?_ ?_; (on_goal 1 => dsimp only [x]; clear x); (on_goal 2 => intro hx; clear_value x))
    | (extract_lets +onlyGivenNames x; change _ × State at x; refine Kept.cut2 (s0 := s0) x ?_ ?_; (on_goal 1 => dsimp only [x]; clear x); (on_goal 2 => intro hx; clear_value x))
    | (extract_lets +onlyGivenNames x; clear_value x) | with_reducible apply State.fillFree_kept
    | with_reducible apply State.writeVr_kept | with_reducible apply State.readRows_kept
    | with_reducible apply State.vecIssue_kept | with_reducible apply State.tileOp_kept
    | with_reducible apply State.tileJobFault_kept | with_reducible apply State.tileEvent_kept | with_reducible apply Kept.ite
    | fail_if_no_progress intros | fail_if_no_progress with_reducible apply Kept.upd
    | (with_reducible apply Kept.snd; with_reducible assumption) | dsimp only | split)

theorem State.gatherCycle_kept {s0 : State} (s : State) (h : OpHdr) (c w : Nat) (offs : List Nat) (hs : Kept s0 s) :
    Kept s0 (State.gatherCycle s h c w offs).2 := by
  unfold State.gatherCycle
  refine Kept.foldlOn (fun (a : Tbl Nat (List Byte) × Bool × State) => a.2.2) hs (fun b x hb => ?_)
  dsimp only
  split
  · exact State.engFetch_kept _ _ _ _ _ hb
  · exact State.freeBytes_kept _ 64 (State.engFetch_kept _ _ _ _ _ hb)

theorem runGather_kept {s0 : State} (h : OpHdr) (dst : VReg) (addr : BitVec 19) (n1 : Fin 256) (width : BitVec 2) (stride : BitVec 16) (s : State) (hs : Kept s0 s) : Kept s0 (runGather h dst addr n1 width stride s) := by
  unfold runGather
  repeat' (first
    | with_reducible assumption
    | (extract_lets +onlyGivenNames x; change State at x; refine Kept.cut (s0 := s0) x ?_ ?_; (on_goal 1 => dsimp only [x]; clear x); (on_goal 2 => intro hx; clear_value x))
    | (extract_lets +onlyGivenNames x; change _ × State at x; refine Kept.cut2 (s0 := s0) x ?_ ?_; (on_goal 1 => dsimp only [x]; clear x); (on_goal 2 => intro hx; clear_value x))
    | (extract_lets +onlyGivenNames x; (first | change _ → State at x | change _ → _ → State at x | change _ → _ → _ → State at x | change _ → _ × State at x | change Option State at x | change Option (_ × State) at x | change _ × State × _ at x | change Draw at x); subst x)
    | (extract_lets +onlyGivenNames x; clear_value x)
    | with_reducible refine Kept.foldlOn (fun (a : (List Byte × Bool) × State × Nat) => a.2.1) ?_ ?_
    | with_reducible apply State.gatherCycle_kept | with_reducible apply State.writeRead_kept
    | with_reducible apply State.vecIssue_kept | with_reducible apply State.tileOp_kept | with_reducible apply Kept.foldl
    | fail_if_no_progress intros | dsimp only)

theorem runTranspose_kept {s0 : State} (h : OpHdr) (dst : VReg) (addr : BitVec 19) (width : BitVec 2) (stride : BitVec 16) (s : State) (hs : Kept s0 s) : Kept s0 (runTranspose h dst addr width stride s) := by
  unfold runTranspose
  repeat' (first
    | with_reducible assumption
    | (extract_lets +onlyGivenNames x; change State at x; refine Kept.cut (s0 := s0) x ?_ ?_; (on_goal 1 => dsimp only [x]; clear x); (on_goal 2 => intro hx; clear_value x))
    | (extract_lets +onlyGivenNames x; change _ × State at x; refine Kept.cut2 (s0 := s0) x ?_ ?_; (on_goal 1 => dsimp only [x]; clear x); (on_goal 2 => intro hx; clear_value x))
    | (extract_lets +onlyGivenNames x; clear_value x)
    | with_reducible refine Kept.foldlOn (fun (a : (List (List Byte) × Bool) × State) => a.2) ?_ ?_
    | with_reducible apply State.fourRegs_kept | with_reducible apply State.writeRead_kept
    | with_reducible apply State.engRead_kept | with_reducible apply State.vecIssue_kept
    | with_reducible apply State.tileOp_kept | with_reducible apply Kept.foldl | fail_if_no_progress intros | dsimp only)

theorem State.countNap_quiet {s0 : State} (s : State) (t : TileId) (layer n : Nat) (hs : Quiet s0 s) : Quiet s0 (State.countNap s t layer n) := by
  unfold State.countNap
  repeat' (first
    | with_reducible assumption
    | (extract_lets +onlyGivenNames x; change State at x; refine Quiet.cut (s0 := s0) x ?_ ?_; (on_goal 1 => dsimp only [x]; clear x); (on_goal 2 => intro hx; clear_value x))
    | (extract_lets +onlyGivenNames x; change _ × State at x; refine Quiet.cut2 (s0 := s0) x ?_ ?_; (on_goal 1 => dsimp only [x]; clear x); (on_goal 2 => intro hx; clear_value x))
    | (extract_lets +onlyGivenNames x; clear_value x) | with_reducible apply State.tileEvent_quiet
    | with_reducible apply State.bump_quiet | with_reducible apply Quiet.ite | fail_if_no_progress intros
    | fail_if_no_progress with_reducible apply Quiet.upd | (with_reducible apply Quiet.snd; with_reducible assumption)
    | dsimp only | split)

theorem State.countNap_kept {s0 : State} (s : State) (t : TileId) (layer n : Nat) (hs : Kept s0 s) : Kept s0 (State.countNap s t layer n) :=
  (State.countNap_quiet s t layer n (Quiet.refl _)).keeps hs

theorem State.countQsat_quiet {s0 : State} (s : State) (t : TileId) (layer n : Nat) (hs : Quiet s0 s) : Quiet s0 (State.countQsat s t layer n) := by
  unfold State.countQsat
  repeat' (first
    | with_reducible assumption
    | (extract_lets +onlyGivenNames x; change State at x; refine Quiet.cut (s0 := s0) x ?_ ?_; (on_goal 1 => dsimp only [x]; clear x); (on_goal 2 => intro hx; clear_value x))
    | (extract_lets +onlyGivenNames x; change _ × State at x; refine Quiet.cut2 (s0 := s0) x ?_ ?_; (on_goal 1 => dsimp only [x]; clear x); (on_goal 2 => intro hx; clear_value x))
    | (extract_lets +onlyGivenNames x; clear_value x) | with_reducible apply State.tileEvent_quiet
    | with_reducible apply State.bump_quiet | with_reducible apply Quiet.ite | fail_if_no_progress intros
    | fail_if_no_progress with_reducible apply Quiet.upd | (with_reducible apply Quiet.snd; with_reducible assumption)
    | dsimp only | split)

theorem State.countQsat_kept {s0 : State} (s : State) (t : TileId) (layer n : Nat) (hs : Kept s0 s) : Kept s0 (State.countQsat s t layer n) :=
  (State.countQsat_quiet s t layer n (Quiet.refl _)).keeps hs

theorem State.countJump_quiet {s0 : State} (s : State) (t : TileId) (layer k : Nat) (hs : Quiet s0 s) : Quiet s0 (State.countJump s t layer k) := by
  unfold State.countJump
  repeat' (first
    | with_reducible assumption | with_reducible apply State.tileEvent_quiet | with_reducible apply State.bump_quiet
    | fail_if_no_progress intros)

theorem State.countJump_kept {s0 : State} (s : State) (t : TileId) (layer k : Nat) (hs : Kept s0 s) : Kept s0 (State.countJump s t layer k) :=
  (State.countJump_quiet s t layer k (Quiet.refl _)).keeps hs

theorem State.emitSwatch_quiet {s0 : State} (s : State) (t : TileId) (layer slot addr : Nat) (hs : Quiet s0 s) : Quiet s0 (State.emitSwatch s t layer slot addr) := by
  unfold State.emitSwatch
  repeat' (first
    | with_reducible assumption | with_reducible apply State.modTile_quiet | fail_if_no_progress intros
    | fail_if_no_progress with_reducible apply Quiet.upd)

theorem State.emitSwatch_kept {s0 : State} (s : State) (t : TileId) (layer slot addr : Nat) (hs : Kept s0 s) : Kept s0 (State.emitSwatch s t layer slot addr) :=
  (State.emitSwatch_quiet s t layer slot addr (Quiet.refl _)).keeps hs

theorem runQuant_kept {s0 : State} (h : OpHdr) (src : VReg) (addr : BitVec 19) (layer : Fin 256) (fmt : VFmt) (s : State) (hs : Kept s0 s) : Kept s0 (runQuant h src addr layer fmt s) := by
  unfold runQuant
  repeat' (first
    | with_reducible assumption
    | (extract_lets +onlyGivenNames x; change State at x; refine Kept.cut (s0 := s0) x ?_ ?_; (on_goal 1 => dsimp only [x]; clear x); (on_goal 2 => intro hx; clear_value x))
    | (extract_lets +onlyGivenNames x; change _ × State at x; refine Kept.cut2 (s0 := s0) x ?_ ?_; (on_goal 1 => dsimp only [x]; clear x); (on_goal 2 => intro hx; clear_value x))
    | (extract_lets +onlyGivenNames x; (first | change _ → State at x | change _ → _ → State at x | change _ → _ → _ → State at x | change _ → _ × State at x | change Option State at x | change Option (_ × State) at x | change _ × State × _ at x | change Draw at x); subst x)
    | (extract_lets +onlyGivenNames x; clear_value x) | with_reducible apply State.emitSwatch_kept
    | with_reducible apply State.countQsat_kept | with_reducible apply State.countNap_kept
    | with_reducible apply State.poisonReport_kept | with_reducible apply State.writeRows_kept
    | with_reducible apply State.freeBytes_kept | with_reducible apply State.vecIssue_kept
    | with_reducible apply State.tileOp_kept | with_reducible apply State.tileFault_kept | with_reducible apply Kept.ite
    | fail_if_no_progress intros | dsimp only | split)

theorem State.assignWindow_quiet {s0 : State} (s : State) (t : TileId) (k layer : Nat) (hs : Quiet s0 s) : Quiet s0 (State.assignWindow s t k layer) := by
  unfold State.assignWindow
  repeat' (first
    | with_reducible assumption
    | (extract_lets +onlyGivenNames x; change State at x; refine Quiet.cut (s0 := s0) x ?_ ?_; (on_goal 1 => dsimp only [x]; clear x); (on_goal 2 => intro hx; clear_value x))
    | (extract_lets +onlyGivenNames x; change _ × State at x; refine Quiet.cut2 (s0 := s0) x ?_ ?_; (on_goal 1 => dsimp only [x]; clear x); (on_goal 2 => intro hx; clear_value x))
    | (extract_lets +onlyGivenNames x; clear_value x) | with_reducible apply State.modTile_quiet
    | with_reducible apply State.setFld_quiet | fail_if_no_progress intros | fail_if_no_progress with_reducible apply Quiet.upd
    | dsimp only)

theorem State.assignWindow_kept {s0 : State} (s : State) (t : TileId) (k layer : Nat) (hs : Kept s0 s) : Kept s0 (State.assignWindow s t k layer) :=
  (State.assignWindow_quiet s t k layer (Quiet.refl _)).keeps hs

theorem State.poisonSwatch_kept {s0 : State} (s : State) (t : TileId) (addr : Nat) (hs : Kept s0 s) : Kept s0 (State.poisonSwatch s t addr) := by
  unfold State.poisonSwatch
  repeat' (first
    | with_reducible assumption
    | (extract_lets +onlyGivenNames x; change State at x; refine Kept.cut (s0 := s0) x ?_ ?_; (on_goal 1 => dsimp only [x]; clear x); (on_goal 2 => intro hx; clear_value x))
    | (extract_lets +onlyGivenNames x; change _ × State at x; refine Kept.cut2 (s0 := s0) x ?_ ?_; (on_goal 1 => dsimp only [x]; clear x); (on_goal 2 => intro hx; clear_value x))
    | (extract_lets +onlyGivenNames x; clear_value x) | with_reducible apply State.modTile_kept
    | with_reducible apply State.setBytesP_kept | with_reducible apply Kept.ite | fail_if_no_progress intros
    | fail_if_no_progress with_reducible apply Kept.upd | dsimp only | split)

theorem State.normJump_kept {s0 : State} (s : State) (t : TileId) (k : Nat) (w : NormWindow) (policy : Nat) (sl : Slice) (level : Int) (hs : Kept s0 s) : Kept s0 (State.normJump s t k w policy sl level) := by
  unfold State.normJump
  repeat' (first
    | with_reducible assumption
    | (extract_lets +onlyGivenNames x; change State at x; refine Kept.cut (s0 := s0) x ?_ ?_; (on_goal 1 => dsimp only [x]; clear x); (on_goal 2 => intro hx; clear_value x))
    | (extract_lets +onlyGivenNames x; change _ × State at x; refine Kept.cut2 (s0 := s0) x ?_ ?_; (on_goal 1 => dsimp only [x]; clear x); (on_goal 2 => intro hx; clear_value x))
    | (extract_lets +onlyGivenNames x; clear_value x) | with_reducible apply State.poisonSwatch_kept
    | with_reducible apply State.countJump_kept | with_reducible apply State.poisonReport_kept
    | with_reducible apply State.tileFault_kept | with_reducible apply State.modSlot_kept
    | with_reducible apply State.modTile_kept | with_reducible apply Kept.ite | with_reducible apply Kept.foldl
    | fail_if_no_progress intros | fail_if_no_progress with_reducible apply Kept.upd | dsimp only | split)

theorem State.endSlice_kept {s0 : State} (s : State) (t : TileId) (k : Nat) (hs : Kept s0 s) : Kept s0 (State.endSlice s t k) := by
  unfold State.endSlice
  repeat' (first
    | with_reducible assumption
    | (extract_lets +onlyGivenNames x; change State at x; refine Kept.cut (s0 := s0) x ?_ ?_; (on_goal 1 => dsimp only [x]; clear x); (on_goal 2 => intro hx; clear_value x))
    | (extract_lets +onlyGivenNames x; change _ × State at x; refine Kept.cut2 (s0 := s0) x ?_ ?_; (on_goal 1 => dsimp only [x]; clear x); (on_goal 2 => intro hx; clear_value x))
    | (extract_lets +onlyGivenNames x; clear_value x) | with_reducible apply State.normJump_kept
    | with_reducible apply State.modTile_kept | with_reducible apply Kept.ite | fail_if_no_progress intros
    | fail_if_no_progress with_reducible apply Kept.upd | (with_reducible apply Kept.snd; with_reducible assumption)
    | dsimp only | split)

theorem State.endSlices_kept {s0 : State} (s : State) (t : TileId) (hs : Kept s0 s) : Kept s0 (State.endSlices s t) := by
  unfold State.endSlices
  repeat' (first
    | with_reducible assumption | with_reducible apply State.endSlice_kept | with_reducible apply Kept.foldl
    | fail_if_no_progress intros)

theorem runNsamp_kept {s0 : State} (h : OpHdr) (addr : BitVec 19) (window : Fin 8) (s : State) (hs : Kept s0 s) : Kept s0 (runNsamp h addr window s) := by
  unfold runNsamp
  repeat' (first
    | with_reducible assumption
    | (extract_lets +onlyGivenNames x; change State at x; refine Kept.cut (s0 := s0) x ?_ ?_; (on_goal 1 => dsimp only [x]; clear x); (on_goal 2 => intro hx; clear_value x))
    | (extract_lets +onlyGivenNames x; change _ × State at x; refine Kept.cut2 (s0 := s0) x ?_ ?_; (on_goal 1 => dsimp only [x]; clear x); (on_goal 2 => intro hx; clear_value x))
    | (extract_lets +onlyGivenNames x; clear_value x) | with_reducible apply State.endSlice_kept
    | with_reducible apply State.assignWindow_kept | with_reducible apply State.readRows_kept
    | with_reducible apply State.vecIssue_kept | with_reducible apply State.tileOp_kept
    | with_reducible apply State.modTile_kept | with_reducible apply Kept.ite | fail_if_no_progress intros
    | fail_if_no_progress with_reducible apply Kept.upd | (with_reducible apply Kept.snd; with_reducible assumption)
    | dsimp only | split)

theorem runTopk_kept {s0 : State} (h : OpHdr) (src : VReg) (inp : BitVec 19) (n1 : Fin 8192) (out : BitVec 19) (k1 : Fin 256) (base : BitVec 17) (s : State) (hs : Kept s0 s) : Kept s0 (runTopk h src inp n1 out k1 base s) := by
  unfold runTopk
  repeat' (first
    | with_reducible assumption
    | (extract_lets +onlyGivenNames x; change State at x; refine Kept.cut (s0 := s0) x ?_ ?_; (on_goal 1 => dsimp only [x]; clear x); (on_goal 2 => intro hx; clear_value x))
    | (extract_lets +onlyGivenNames x; change _ × State at x; refine Kept.cut2 (s0 := s0) x ?_ ?_; (on_goal 1 => dsimp only [x]; clear x); (on_goal 2 => intro hx; clear_value x))
    | (extract_lets +onlyGivenNames x; clear_value x) | with_reducible apply State.poisonReport_kept
    | with_reducible apply State.writeRows_kept | with_reducible apply State.readRows_kept
    | with_reducible apply State.freeBytes_kept | with_reducible apply State.vecIssue_kept
    | with_reducible apply State.tileOp_kept | with_reducible apply State.tileFault_kept | with_reducible apply Kept.ite
    | fail_if_no_progress intros | dsimp only | split)

end Sys2Proof.Machine
end

