-- ==== Sys2Proof/Laws/Kept2.lean ====
section
/-!
SUPPORT. What every operation and every command's effect keeps, for the files: Passes, Registers, Images, CrownAreas, Crown, Dma, TileRun, Mesh, Generations, Commit, Symbols.
-/

set_option Elab.async false
set_option linter.unusedTactic false
set_option linter.unreachableTactic false
set_option linter.tactic.unusedName false

namespace Sys2Proof.Machine

/-! ## Passes -/

theorem State.fetchSwatches_kept {s0 : State} (s : State) (h : OpHdr) (c slots : Nat) (offs : List Nat) (hs : Kept s0 s) :
    Kept s0 (State.fetchSwatches s h c slots offs).2 := by
  unfold State.fetchSwatches
  refine Kept.foldlOn (fun (a : List (List Byte × Bool) × State) => a.2) hs (fun b r hb => ?_)
  refine Kept.foldlOn (fun (a : List (List Byte × Bool) × State) => a.2) hb (fun b x hb => ?_)
  dsimp only
  split
  · exact hb
  · exact State.engRead_kept _ _ _ _ _ hb

theorem State.launchPass_quiet {s0 : State} (s : State) (h : OpHdr) (k : PassKind) (o : PassOps) (c draw : Nat) (data : List (List Byte)) (poison : Bool) (hs : Quiet s0 s) : Quiet s0 (State.launchPass s h k o c draw data poison) := by
  unfold State.launchPass
  repeat' (first
    | with_reducible assumption
    | (extract_lets +onlyGivenNames x; change State at x; refine Quiet.cut (s0 := s0) x ?_ ?_; (on_goal 1 => dsimp only [x]; clear x); (on_goal 2 => intro hx; clear_value x))
    | (extract_lets +onlyGivenNames x; change _ × State at x; refine Quiet.cut2 (s0 := s0) x ?_ ?_; (on_goal 1 => dsimp only [x]; clear x); (on_goal 2 => intro hx; clear_value x))
    | (extract_lets +onlyGivenNames x; clear_value x) | with_reducible apply State.tileJobFault_quiet
    | with_reducible apply State.tileEvent_quiet | with_reducible apply State.modArr_quiet
    | with_reducible apply State.modTile_quiet | with_reducible apply State.draw_quiet | with_reducible apply Quiet.ite
    | fail_if_no_progress intros | fail_if_no_progress with_reducible apply Quiet.upd
    | (with_reducible apply Quiet.snd; with_reducible assumption) | dsimp only | split)

theorem State.launchPass_kept {s0 : State} (s : State) (h : OpHdr) (k : PassKind) (o : PassOps) (c draw : Nat) (data : List (List Byte)) (poison : Bool) (hs : Kept s0 s) : Kept s0 (State.launchPass s h k o c draw data poison) :=
  (State.launchPass_quiet s h k o c draw data poison (Quiet.refl _)).keeps hs

theorem mainPass_kept {s0 : State} (h : OpHdr) (k : PassKind) (o : PassOps) (i : Instr) (s : State) (hs : Kept s0 s) : Kept s0 (mainPass h k o i s) := by
  unfold mainPass
  repeat' (first
    | with_reducible assumption
    | (extract_lets +onlyGivenNames x; change State at x; refine Kept.cut (s0 := s0) x ?_ ?_; (on_goal 1 => dsimp only [x]; clear x); (on_goal 2 => intro hx; clear_value x))
    | (extract_lets +onlyGivenNames x; change _ × State at x; refine Kept.cut2 (s0 := s0) x ?_ ?_; (on_goal 1 => dsimp only [x]; clear x); (on_goal 2 => intro hx; clear_value x))
    | (extract_lets +onlyGivenNames x; clear_value x) | with_reducible apply State.launchPass_kept
    | with_reducible apply State.fetchSwatches_kept | (refine State.drawTickets_ok_kept (by assumption) ?_)
    | (refine State.drawTickets_wait_kept (by assumption) ?_) | (refine State.drawTickets_short_kept (by assumption) ?_)
    | with_reducible apply State.tileOp_kept | with_reducible apply State.issue_kept | with_reducible apply State.enqueue_kept
    | with_reducible apply State.flushW_kept | with_reducible apply State.tileJobFault_kept
    | with_reducible apply State.tileEvent_kept | with_reducible apply State.draw_kept | with_reducible apply Kept.ite
    | fail_if_no_progress intros | fail_if_no_progress with_reducible apply Kept.upd
    | (with_reducible apply Kept.snd; with_reducible assumption) | dsimp only | split)

theorem runPass32_kept {s0 : State} (h : OpHdr) (o : PassOps) (s : State) (hs : Kept s0 s) : Kept s0 (runPass32 h o s) := by
  unfold runPass32
  repeat' (first
    | with_reducible assumption | with_reducible apply mainPass_kept | fail_if_no_progress intros)

theorem runPass16_kept {s0 : State} (h : OpHdr) (o : PassOps) (s : State) (hs : Kept s0 s) : Kept s0 (runPass16 h o s) := by
  unfold runPass16
  repeat' (first
    | with_reducible assumption | with_reducible apply mainPass_kept | fail_if_no_progress intros)

theorem runNap_kept {s0 : State} (h : OpHdr) (o : PassOps) (s : State) (hs : Kept s0 s) : Kept s0 (runNap h o s) := by
  unfold runNap
  repeat' (first
    | with_reducible assumption
    | (extract_lets +onlyGivenNames x; change State at x; refine Kept.cut (s0 := s0) x ?_ ?_; (on_goal 1 => dsimp only [x]; clear x); (on_goal 2 => intro hx; clear_value x))
    | (extract_lets +onlyGivenNames x; change _ × State at x; refine Kept.cut2 (s0 := s0) x ?_ ?_; (on_goal 1 => dsimp only [x]; clear x); (on_goal 2 => intro hx; clear_value x))
    | (extract_lets +onlyGivenNames x; clear_value x) | with_reducible apply State.launchPass_kept
    | (refine State.drawTickets_ok_kept (by assumption) ?_) | (refine State.drawTickets_wait_kept (by assumption) ?_)
    | (refine State.drawTickets_short_kept (by assumption) ?_) | with_reducible apply State.tileOp_kept
    | with_reducible apply State.issue_kept | with_reducible apply State.enqueue_kept | with_reducible apply State.draw_kept
    | fail_if_no_progress intros | fail_if_no_progress with_reducible apply Kept.upd
    | (with_reducible apply Kept.snd; with_reducible assumption) | dsimp only | split)

theorem State.logMismatch_quiet {s0 : State} (s : State) (a : ArrayId) (again nap : Bool) (l : List (Nat × Nat × Nat × Bool)) (hs : Quiet s0 s) : Quiet s0 (State.logMismatch s a again nap l) := by
  unfold State.logMismatch
  repeat' (first
    | with_reducible assumption | with_reducible apply State.setBit_quiet | with_reducible apply State.setReg_quiet
    | fail_if_no_progress intros | fail_if_no_progress with_reducible apply Quiet.upd
    | (with_reducible apply Quiet.snd; with_reducible assumption) | split)

theorem State.runEvents_quiet {s0 : State} (s : State) (t : TileId) (layer overs retries unchecked : Nat) (hs : Quiet s0 s) : Quiet s0 (State.runEvents s t layer overs retries unchecked) := by
  unfold State.runEvents
  repeat' (first
    | with_reducible assumption
    | (extract_lets +onlyGivenNames x; change State at x; refine Quiet.cut (s0 := s0) x ?_ ?_; (on_goal 1 => dsimp only [x]; clear x); (on_goal 2 => intro hx; clear_value x))
    | (extract_lets +onlyGivenNames x; change _ × State at x; refine Quiet.cut2 (s0 := s0) x ?_ ?_; (on_goal 1 => dsimp only [x]; clear x); (on_goal 2 => intro hx; clear_value x))
    | (extract_lets +onlyGivenNames x; clear_value x) | with_reducible apply State.tileEvent_quiet
    | with_reducible apply State.setBit_quiet | with_reducible apply Quiet.ite | fail_if_no_progress intros | dsimp only
    | split)

theorem State.transient_quiet {s0 : State} (s : State) (a : ArrayId) (layer word opidx : Nat) (hs : Quiet s0 s) : Quiet s0 (State.transient s a layer word opidx) := by
  unfold State.transient
  repeat' (first
    | with_reducible assumption
    | (extract_lets +onlyGivenNames x; change State at x; refine Quiet.cut (s0 := s0) x ?_ ?_; (on_goal 1 => dsimp only [x]; clear x); (on_goal 2 => intro hx; clear_value x))
    | (extract_lets +onlyGivenNames x; change _ × State at x; refine Quiet.cut2 (s0 := s0) x ?_ ?_; (on_goal 1 => dsimp only [x]; clear x); (on_goal 2 => intro hx; clear_value x))
    | (extract_lets +onlyGivenNames x; clear_value x) | with_reducible apply State.tileFault_quiet
    | with_reducible apply State.tileEvent_quiet | with_reducible apply State.modDie_quiet
    | with_reducible apply State.modArr_quiet | with_reducible apply Quiet.ite | fail_if_no_progress intros
    | fail_if_no_progress with_reducible apply Quiet.upd | dsimp only | split)

theorem State.deliver_quiet {s0 : State} (s : State) (a : ArrayId) (p : Pass) (acc : List (Int × Bool)) (poison sat : Bool) (ready : Nat) (hs : Quiet s0 s) : Quiet s0 (State.deliver s a p acc poison sat ready) := by
  unfold State.deliver
  repeat' (first
    | with_reducible assumption
    | (extract_lets +onlyGivenNames x; change State at x; refine Quiet.cut (s0 := s0) x ?_ ?_; (on_goal 1 => dsimp only [x]; clear x); (on_goal 2 => intro hx; clear_value x))
    | (extract_lets +onlyGivenNames x; change _ × State at x; refine Quiet.cut2 (s0 := s0) x ?_ ?_; (on_goal 1 => dsimp only [x]; clear x); (on_goal 2 => intro hx; clear_value x))
    | (extract_lets +onlyGivenNames x; clear_value x) | with_reducible apply State.modArr_quiet
    | with_reducible apply Quiet.ite | fail_if_no_progress intros | fail_if_no_progress with_reducible apply Quiet.upd
    | dsimp only | split)

theorem State.deliverPoison_quiet {s0 : State} (s : State) (a : ArrayId) (p : Pass) (hs : Quiet s0 s) : Quiet s0 (State.deliverPoison s a p) := by
  unfold State.deliverPoison
  repeat' (first
    | with_reducible assumption
    | (extract_lets +onlyGivenNames x; change State at x; refine Quiet.cut (s0 := s0) x ?_ ?_; (on_goal 1 => dsimp only [x]; clear x); (on_goal 2 => intro hx; clear_value x))
    | (extract_lets +onlyGivenNames x; change _ × State at x; refine Quiet.cut2 (s0 := s0) x ?_ ?_; (on_goal 1 => dsimp only [x]; clear x); (on_goal 2 => intro hx; clear_value x))
    | (extract_lets +onlyGivenNames x; clear_value x) | with_reducible apply State.freeBytes_quiet
    | with_reducible apply State.modArr_quiet | with_reducible apply Quiet.ite | fail_if_no_progress intros
    | fail_if_no_progress with_reducible apply Quiet.upd | dsimp only | split)

theorem State.lengthen_quiet {s0 : State} (s : State) (a : ArrayId) (n : Nat) (hs : Quiet s0 s) : Quiet s0 (State.lengthen s a n) := by
  unfold State.lengthen
  repeat' (first
    | with_reducible assumption
    | (extract_lets +onlyGivenNames x; change State at x; refine Quiet.cut (s0 := s0) x ?_ ?_; (on_goal 1 => dsimp only [x]; clear x); (on_goal 2 => intro hx; clear_value x))
    | (extract_lets +onlyGivenNames x; change _ × State at x; refine Quiet.cut2 (s0 := s0) x ?_ ?_; (on_goal 1 => dsimp only [x]; clear x); (on_goal 2 => intro hx; clear_value x))
    | (extract_lets +onlyGivenNames x; clear_value x) | with_reducible apply State.charge_quiet
    | with_reducible apply State.modArr_quiet | with_reducible apply Quiet.ite | fail_if_no_progress intros
    | fail_if_no_progress with_reducible apply Quiet.upd | dsimp only | split)

theorem State.payDraws_quiet {s0 : State} (s : State) (t : TileId) (l : List Nat) (hs : Quiet s0 s) : Quiet s0 (State.payDraws s t l).2 := by
  induction l generalizing s with
  | nil => exact hs
  | cons n r ih =>
    have h1 := State.modTile_quiet s t (fun y => { y with opTickets := y.opTickets - n }) hs
    exact Quiet.ite2 hs (ih _ (Quiet.ite h1 (State.tileEvent_quiet _ _ _ _ _ h1)))

theorem State.spoilScales_quiet {s0 : State} (s : State) (a : ArrayId) (l : List Nat) (hs : Quiet s0 s) : Quiet s0 (State.spoilScales s a l) := by
  unfold State.spoilScales
  repeat' (first
    | with_reducible assumption
    | (extract_lets +onlyGivenNames x; change State at x; refine Quiet.cut (s0 := s0) x ?_ ?_; (on_goal 1 => dsimp only [x]; clear x); (on_goal 2 => intro hx; clear_value x))
    | (extract_lets +onlyGivenNames x; change _ × State at x; refine Quiet.cut2 (s0 := s0) x ?_ ?_; (on_goal 1 => dsimp only [x]; clear x); (on_goal 2 => intro hx; clear_value x))
    | (extract_lets +onlyGivenNames x; clear_value x) | fail_if_no_progress intros
    | fail_if_no_progress with_reducible apply Quiet.upd | dsimp only)

theorem State.closePass_quiet {s0 : State} (s : State) (a : ArrayId) (p : Pass) (env : PassEnv) (r1 r2 : RunRes) (hs : Quiet s0 s) : Quiet s0 (State.closePass s a p env r1 r2) := by
  unfold State.closePass
  repeat' (first
    | with_reducible assumption
    | (extract_lets +onlyGivenNames x; change State at x; refine Quiet.cut (s0 := s0) x ?_ ?_; (on_goal 1 => dsimp only [x]; clear x); (on_goal 2 => intro hx; clear_value x))
    | (extract_lets +onlyGivenNames x; change _ × State at x; refine Quiet.cut2 (s0 := s0) x ?_ ?_; (on_goal 1 => dsimp only [x]; clear x); (on_goal 2 => intro hx; clear_value x))
    | (extract_lets +onlyGivenNames x; clear_value x) | with_reducible apply State.lengthen_quiet
    | with_reducible apply State.deliver_quiet | with_reducible apply State.transient_quiet
    | with_reducible apply State.runEvents_quiet | with_reducible apply State.logMismatch_quiet
    | with_reducible apply State.residueFault_quiet | with_reducible apply State.fenceArray_quiet
    | with_reducible apply State.tileFault_quiet | with_reducible apply State.tileEvent_quiet
    | with_reducible apply State.setBit_quiet | with_reducible apply Quiet.ite | fail_if_no_progress intros
    | fail_if_no_progress with_reducible apply Quiet.upd | (with_reducible apply Quiet.snd; with_reducible assumption)
    | dsimp only | split)

theorem State.endPass_quiet {s0 : State} (s : State) (a : ArrayId) (p : Pass) (env : PassEnv) (hs : Quiet s0 s) : Quiet s0 (State.endPass s a p env) := by
  unfold State.endPass
  repeat' (first
    | with_reducible assumption
    | (extract_lets +onlyGivenNames x; change State at x; refine Quiet.cut (s0 := s0) x ?_ ?_; (on_goal 1 => dsimp only [x]; clear x); (on_goal 2 => intro hx; clear_value x))
    | (extract_lets +onlyGivenNames x; change _ × State at x; refine Quiet.cut2 (s0 := s0) x ?_ ?_; (on_goal 1 => dsimp only [x]; clear x); (on_goal 2 => intro hx; clear_value x))
    | (extract_lets +onlyGivenNames x; clear_value x) | with_reducible apply State.closePass_quiet
    | with_reducible apply State.spoilScales_quiet | with_reducible apply State.payDraws_quiet
    | with_reducible apply State.modArr_quiet | with_reducible apply Quiet.ite | fail_if_no_progress intros
    | fail_if_no_progress with_reducible apply Quiet.upd | dsimp only | split)

theorem runPassOutputReady_quiet {s0 : State} (a : ArrayId) (env : PassEnv) (s : State) (hs : Quiet s0 s) : Quiet s0 (runPassOutputReady a env s) := by
  unfold runPassOutputReady
  repeat' (first
    | with_reducible assumption
    | (extract_lets +onlyGivenNames x; change State at x; refine Quiet.cut (s0 := s0) x ?_ ?_; (on_goal 1 => dsimp only [x]; clear x); (on_goal 2 => intro hx; clear_value x))
    | (extract_lets +onlyGivenNames x; change _ × State at x; refine Quiet.cut2 (s0 := s0) x ?_ ?_; (on_goal 1 => dsimp only [x]; clear x); (on_goal 2 => intro hx; clear_value x))
    | (extract_lets +onlyGivenNames x; clear_value x) | with_reducible apply State.endPass_quiet
    | with_reducible apply State.deliverPoison_quiet | with_reducible apply State.modArr_quiet | with_reducible apply Quiet.ite
    | fail_if_no_progress intros | fail_if_no_progress with_reducible apply Quiet.upd
    | (with_reducible apply Quiet.snd; with_reducible assumption) | dsimp only | split)

theorem runTileParityError_quiet {s0 : State} (t : TileId) (s : State) (hs : Quiet s0 s) : Quiet s0 (runTileParityError t s) := by
  unfold runTileParityError
  repeat' (first
    | with_reducible assumption | with_reducible apply State.fenceTile_quiet | fail_if_no_progress intros)

/-! ## Registers -/

theorem State.storeReg_quiet {s0 : State} (s : State) (k : RegKey) (data : Nat) (hs : Quiet s0 s) : Quiet s0 (State.storeReg s k data) := by
  unfold State.storeReg
  repeat' (first
    | with_reducible assumption | with_reducible apply State.setReg_quiet | fail_if_no_progress intros)

theorem State.hostFail_quiet {s0 : State} (s : State) (code detail : Nat) (hs : Quiet s0 s) : Quiet s0 (State.hostFail s code detail) := by
  unfold State.hostFail
  repeat' (first
    | with_reducible assumption | with_reducible apply State.hostFault_quiet | with_reducible apply State.setBit_quiet
    | with_reducible apply Quiet.ite | fail_if_no_progress intros | split)

theorem State.hostDrop_quiet {s0 : State} (s : State) (code detail : Nat) (hs : Quiet s0 s) : Quiet s0 (State.hostDrop s code detail) := by
  unfold State.hostDrop
  repeat' (first
    | with_reducible assumption | with_reducible apply State.hostFail_quiet | with_reducible apply State.bump_quiet
    | with_reducible apply Quiet.ite | fail_if_no_progress intros | split)

theorem State.hostDrop_kept {s0 : State} (s : State) (code detail : Nat) (hs : Kept s0 s) : Kept s0 (State.hostDrop s code detail) :=
  (State.hostDrop_quiet s code detail (Quiet.refl _)).keeps hs

theorem State.protFault_quiet {s0 : State} (s : State) (port : Port) (hs : Quiet s0 s) : Quiet s0 (State.protFault s port) := by
  unfold State.protFault
  repeat' (first
    | with_reducible assumption | fail_if_no_progress intros | fail_if_no_progress with_reducible apply Quiet.upd)

theorem State.protFault_kept {s0 : State} (s : State) (port : Port) (hs : Kept s0 s) : Kept s0 (State.protFault s port) :=
  (State.protFault_quiet s port (Quiet.refl _)).keeps hs

theorem State.guardedWrite_quiet {s0 : State} (s : State) (port : Port) (k : RegKey) (d : Nat) (f : State → State) (hs : Quiet s0 s) (hf : ∀ (a0 : State), Quiet s0 a0 → Quiet s0 (f a0)) : Quiet s0 (State.guardedWrite s port k d f) := by
  unfold State.guardedWrite
  repeat' (first
    | with_reducible assumption | with_reducible apply hf | with_reducible apply State.protFault_quiet
    | with_reducible apply State.fwFault_quiet | with_reducible apply State.addrFault_quiet | with_reducible apply Quiet.ite
    | fail_if_no_progress intros | split)

theorem State.guardedWrite_kept {s0 : State} (s : State) (port : Port) (k : RegKey) (d : Nat) (f : State → State) (hs : Kept s0 s) (hf : ∀ (a0 : State), Kept s0 a0 → Kept s0 (f a0)) : Kept s0 (State.guardedWrite s port k d f) := by
  unfold State.guardedWrite
  repeat' (first
    | with_reducible assumption | with_reducible apply hf | with_reducible apply State.protFault_kept
    | with_reducible apply State.fwFault_kept | with_reducible apply State.addrFault_kept | with_reducible apply Kept.ite
    | fail_if_no_progress intros | split)

theorem State.pairHi_quiet {s0 : State} (s : State) (port : Port) (k : RegKey) (d : Nat) (hs : Quiet s0 s) : Quiet s0 (State.pairHi s port k d) := by
  unfold State.pairHi
  repeat' (first
    | with_reducible assumption | with_reducible apply State.storeReg_quiet | fail_if_no_progress intros
    | fail_if_no_progress with_reducible apply Quiet.upd | (with_reducible apply Quiet.snd; with_reducible assumption) | split)

theorem State.plainWrite_quiet {s0 : State} (s : State) (port : Port) (k : RegKey) (d : Nat) (hs : Quiet s0 s) : Quiet s0 (State.plainWrite s port k d) := by
  unfold State.plainWrite
  repeat' (first
    | with_reducible assumption | with_reducible apply State.pairHi_quiet | with_reducible apply State.storeReg_quiet
    | fail_if_no_progress intros | fail_if_no_progress with_reducible apply Quiet.upd
    | (with_reducible apply Quiet.snd; with_reducible assumption) | split)

theorem State.regWrite_quiet {s0 : State} (s : State) (port : Port) (k : RegKey) (d : Nat) (hs : Quiet s0 s) : Quiet s0 (State.regWrite s port k d) := by
  unfold State.regWrite
  repeat' (first
    | with_reducible assumption | with_reducible apply State.plainWrite_quiet | with_reducible apply State.guardedWrite_quiet
    | with_reducible apply State.hostDrop_quiet | with_reducible apply Quiet.ite | fail_if_no_progress intros | split)

theorem State.regWrite_kept {s0 : State} (s : State) (port : Port) (k : RegKey) (d : Nat) (hs : Kept s0 s) : Kept s0 (State.regWrite s port k d) :=
  (State.regWrite_quiet s port k d (Quiet.refl _)).keeps hs

theorem State.regWriteAt_quiet {s0 : State} (s : State) (port : Port) (regs : List Reg) (a d : Nat) (hs : Quiet s0 s) : Quiet s0 (State.regWriteAt s port regs a d) := by
  unfold State.regWriteAt
  repeat' (first
    | with_reducible assumption | with_reducible apply State.regWrite_quiet | with_reducible apply State.addrFault_quiet
    | with_reducible apply Quiet.ite | fail_if_no_progress intros | fail_if_no_progress with_reducible apply Quiet.upd
    | (with_reducible apply Quiet.snd; with_reducible assumption) | split)

/-! ## Images -/

theorem State.writeImage_kept {s0 : State} (s : State) (a : ArrayId) (payload : List Byte) (hs : Kept s0 s) : Kept s0 (State.writeImage s a payload) := by
  unfold State.writeImage
  repeat' (first
    | with_reducible assumption
    | (extract_lets +onlyGivenNames x; change State at x; refine Kept.cut (s0 := s0) x ?_ ?_; (on_goal 1 => dsimp only [x]; clear x); (on_goal 2 => intro hx; clear_value x))
    | (extract_lets +onlyGivenNames x; change _ × State at x; refine Kept.cut2 (s0 := s0) x ?_ ?_; (on_goal 1 => dsimp only [x]; clear x); (on_goal 2 => intro hx; clear_value x))
    | (extract_lets +onlyGivenNames x; clear_value x) | with_reducible apply State.setBytes_kept | fail_if_no_progress intros
    | fail_if_no_progress with_reducible apply Kept.upd | dsimp only)

theorem State.spoilRow_kept {s0 : State} (s : State) (a : ArrayId) (r : Nat) (hs : Kept s0 s) : Kept s0 (State.spoilRow s a r) := by
  unfold State.spoilRow
  repeat' (first
    | with_reducible assumption
    | (extract_lets +onlyGivenNames x; change State at x; refine Kept.cut (s0 := s0) x ?_ ?_; (on_goal 1 => dsimp only [x]; clear x); (on_goal 2 => intro hx; clear_value x))
    | (extract_lets +onlyGivenNames x; change _ × State at x; refine Kept.cut2 (s0 := s0) x ?_ ?_; (on_goal 1 => dsimp only [x]; clear x); (on_goal 2 => intro hx; clear_value x))
    | (extract_lets +onlyGivenNames x; clear_value x) | with_reducible apply State.freeBytes_kept
    | with_reducible apply State.setBytes_kept | fail_if_no_progress intros | dsimp only)

theorem State.drawFull_quiet {s0 : State} (s : State) (t : TileId) (n : Nat) (hs : Quiet s0 s) : Quiet s0 (State.drawFull s t n) := by
  unfold State.drawFull
  repeat' (first
    | with_reducible assumption | with_reducible apply State.tileEvent_quiet | with_reducible apply State.modTile_quiet
    | fail_if_no_progress intros | fail_if_no_progress with_reducible apply Quiet.upd)

theorem State.drawFull_kept {s0 : State} (s : State) (t : TileId) (n : Nat) (hs : Kept s0 s) : Kept s0 (State.drawFull s t n) :=
  (State.drawFull_quiet s t n (Quiet.refl _)).keeps hs

theorem State.pushJob_quiet {s0 : State} (s : State) (d : Nat) (j : FulJob) (hs : Quiet s0 s) : Quiet s0 (State.pushJob s d j) := by
  unfold State.pushJob
  repeat' (first
    | with_reducible assumption | with_reducible apply State.showFul_quiet | with_reducible apply State.modDie_quiet
    | fail_if_no_progress intros | fail_if_no_progress with_reducible apply Quiet.upd)

theorem State.queueJob_quiet {s0 : State} (s : State) (d : Nat) (j : FulJob) (hs : Quiet s0 s) : Quiet s0 (State.queueJob s d j) := by
  unfold State.queueJob
  repeat' (first
    | with_reducible assumption | with_reducible apply State.pushJob_quiet | with_reducible apply State.modDie_quiet
    | with_reducible apply Quiet.ite | fail_if_no_progress intros | fail_if_no_progress with_reducible apply Quiet.upd | split)

theorem State.queueJob_kept {s0 : State} (s : State) (d : Nat) (j : FulJob) (hs : Kept s0 s) : Kept s0 (State.queueJob s d j) :=
  (State.queueJob_quiet s d j (Quiet.refl _)).keeps hs

theorem State.dropJobs_quiet {s0 : State} (s : State) (d : Nat) (f : List FulJob → List FulJob) (hs : Quiet s0 s) : Quiet s0 (State.dropJobs s d f) := by
  unfold State.dropJobs
  repeat' (first
    | with_reducible assumption
    | (extract_lets +onlyGivenNames x; change State at x; refine Quiet.cut (s0 := s0) x ?_ ?_; (on_goal 1 => dsimp only [x]; clear x); (on_goal 2 => intro hx; clear_value x))
    | (extract_lets +onlyGivenNames x; change _ × State at x; refine Quiet.cut2 (s0 := s0) x ?_ ?_; (on_goal 1 => dsimp only [x]; clear x); (on_goal 2 => intro hx; clear_value x))
    | (extract_lets +onlyGivenNames x; clear_value x) | with_reducible apply State.showFul_quiet
    | with_reducible apply State.modDie_quiet | fail_if_no_progress intros | fail_if_no_progress with_reducible apply Quiet.upd
    | dsimp only)

theorem State.dropJobs_kept {s0 : State} (s : State) (d : Nat) (f : List FulJob → List FulJob) (hs : Kept s0 s) : Kept s0 (State.dropJobs s d f) :=
  (State.dropJobs_quiet s d f (Quiet.refl _)).keeps hs

theorem State.beginJob_kept {s0 : State} (s : State) (d : Nat) (j : FulJob) (payload : List Byte) (hs : Kept s0 s) : Kept s0 (State.beginJob s d j payload) := by
  unfold State.beginJob
  repeat' (first
    | with_reducible assumption
    | (extract_lets +onlyGivenNames x; change State at x; refine Kept.cut (s0 := s0) x ?_ ?_; (on_goal 1 => dsimp only [x]; clear x); (on_goal 2 => intro hx; clear_value x))
    | (extract_lets +onlyGivenNames x; change _ × State at x; refine Kept.cut2 (s0 := s0) x ?_ ?_; (on_goal 1 => dsimp only [x]; clear x); (on_goal 2 => intro hx; clear_value x))
    | (extract_lets +onlyGivenNames x; clear_value x) | with_reducible apply State.writeImage_kept
    | with_reducible apply State.showFul_kept | with_reducible apply State.modDie_kept | with_reducible apply State.modArr_kept
    | fail_if_no_progress intros | fail_if_no_progress with_reducible apply Kept.upd | dsimp only)

theorem State.refuseJob_quiet {s0 : State} (s : State) (d : Nat) (j : FulJob) (hs : Quiet s0 s) : Quiet s0 (State.refuseJob s d j) := by
  unfold State.refuseJob
  repeat' (first
    | with_reducible assumption | with_reducible apply State.postResult_quiet | with_reducible apply State.fwFault_quiet
    | with_reducible apply State.setBit_quiet | fail_if_no_progress intros)

theorem State.refuseJob_kept {s0 : State} (s : State) (d : Nat) (j : FulJob) (hs : Kept s0 s) : Kept s0 (State.refuseJob s d j) :=
  (State.refuseJob_quiet s d j (Quiet.refl _)).keeps hs

theorem State.chunkRead_quiet {s0 : State} (s : State) (d : Nat) (j : FulJob) (hs : Quiet s0 s) : Quiet s0 (State.chunkRead s d j) := by
  unfold State.chunkRead
  repeat' (first
    | with_reducible assumption
    | (extract_lets +onlyGivenNames x; change State at x; refine Quiet.cut (s0 := s0) x ?_ ?_; (on_goal 1 => dsimp only [x]; clear x); (on_goal 2 => intro hx; clear_value x))
    | (extract_lets +onlyGivenNames x; change _ × State at x; refine Quiet.cut2 (s0 := s0) x ?_ ?_; (on_goal 1 => dsimp only [x]; clear x); (on_goal 2 => intro hx; clear_value x))
    | (extract_lets +onlyGivenNames x; clear_value x) | with_reducible apply State.touch_quiet | with_reducible apply Quiet.ite
    | fail_if_no_progress intros | fail_if_no_progress with_reducible apply Quiet.upd
    | (with_reducible apply Quiet.snd; with_reducible assumption) | dsimp only | split)

theorem State.chunkRead_kept {s0 : State} (s : State) (d : Nat) (j : FulJob) (hs : Kept s0 s) : Kept s0 (State.chunkRead s d j) :=
  (State.chunkRead_quiet s d j (Quiet.refl _)).keeps hs

theorem State.startJob_kept {s0 : State} (s : State) (d : Nat) (j : FulJob) (hs : Kept s0 s) : Kept s0 (State.startJob s d j) := by
  unfold State.startJob
  repeat' (first
    | with_reducible assumption
    | (extract_lets +onlyGivenNames x; change State at x; refine Kept.cut (s0 := s0) x ?_ ?_; (on_goal 1 => dsimp only [x]; clear x); (on_goal 2 => intro hx; clear_value x))
    | (extract_lets +onlyGivenNames x; change _ × State at x; refine Kept.cut2 (s0 := s0) x ?_ ?_; (on_goal 1 => dsimp only [x]; clear x); (on_goal 2 => intro hx; clear_value x))
    | (extract_lets +onlyGivenNames x; clear_value x) | with_reducible apply State.chunkRead_kept
    | with_reducible apply State.refuseJob_kept | with_reducible apply State.beginJob_kept
    | with_reducible apply State.dropJobs_kept | with_reducible apply Kept.ite | fail_if_no_progress intros
    | fail_if_no_progress with_reducible apply Kept.upd | (with_reducible apply Kept.snd; with_reducible assumption)
    | dsimp only | split)

theorem State.submitJob_kept {s0 : State} (s : State) (d : Nat) (j : FulJob) (hs : Kept s0 s) : Kept s0 (State.submitJob s d j) := by
  unfold State.submitJob
  repeat' (first
    | with_reducible assumption
    | (extract_lets +onlyGivenNames x; change State at x; refine Kept.cut (s0 := s0) x ?_ ?_; (on_goal 1 => dsimp only [x]; clear x); (on_goal 2 => intro hx; clear_value x))
    | (extract_lets +onlyGivenNames x; change _ × State at x; refine Kept.cut2 (s0 := s0) x ?_ ?_; (on_goal 1 => dsimp only [x]; clear x); (on_goal 2 => intro hx; clear_value x))
    | (extract_lets +onlyGivenNames x; clear_value x) | with_reducible apply State.startJob_kept
    | with_reducible apply State.queueJob_kept | with_reducible apply State.draw_kept | with_reducible apply Kept.ite
    | fail_if_no_progress intros | fail_if_no_progress with_reducible apply Kept.upd | dsimp only | split)

/-! ## CrownAreas -/

theorem State.areaPut_quiet {s0 : State} (s : State) (c : Nat) (k : DramArea) (o : Nat) (b : Byte) (hs : Quiet s0 s) : Quiet s0 (State.areaPut s c k o b) := by
  unfold State.areaPut
  repeat' (first
    | with_reducible assumption
    | (extract_lets +onlyGivenNames x; change State at x; refine Quiet.cut (s0 := s0) x ?_ ?_; (on_goal 1 => dsimp only [x]; clear x); (on_goal 2 => intro hx; clear_value x))
    | (extract_lets +onlyGivenNames x; change _ × State at x; refine Quiet.cut2 (s0 := s0) x ?_ ?_; (on_goal 1 => dsimp only [x]; clear x); (on_goal 2 => intro hx; clear_value x))
    | (extract_lets +onlyGivenNames x; clear_value x) | with_reducible apply State.setIdx_quiet
    | with_reducible apply State.setPage_quiet | with_reducible apply State.modSlot_quiet | with_reducible apply Quiet.ite
    | fail_if_no_progress intros | fail_if_no_progress with_reducible apply Quiet.upd
    | (with_reducible apply Quiet.snd; with_reducible assumption) | dsimp only | split)

theorem State.areaPut_kept {s0 : State} (s : State) (c : Nat) (k : DramArea) (o : Nat) (b : Byte) (hs : Kept s0 s) : Kept s0 (State.areaPut s c k o b) :=
  (State.areaPut_quiet s c k o b (Quiet.refl _)).keeps hs

theorem State.dramPut_kept {s0 : State} (s : State) (c a : Nat) (b : List Byte) (hs : Kept s0 s) : Kept s0 (State.dramPut s c a b) := by
  unfold State.dramPut
  repeat' (first
    | with_reducible assumption
    | (extract_lets +onlyGivenNames x; change State at x; refine Kept.cut (s0 := s0) x ?_ ?_; (on_goal 1 => dsimp only [x]; clear x); (on_goal 2 => intro hx; clear_value x))
    | (extract_lets +onlyGivenNames x; change _ × State at x; refine Kept.cut2 (s0 := s0) x ?_ ?_; (on_goal 1 => dsimp only [x]; clear x); (on_goal 2 => intro hx; clear_value x))
    | (extract_lets +onlyGivenNames x; clear_value x) | with_reducible apply State.areaPut_kept
    | with_reducible apply State.setBytesP_kept | with_reducible apply Kept.ite | with_reducible apply Kept.foldl
    | fail_if_no_progress intros | fail_if_no_progress with_reducible apply Kept.upd
    | (with_reducible apply Kept.snd; with_reducible assumption) | dsimp only | split)

theorem State.outOfAlloc_quiet {s0 : State} (s : State) (t : TileId) (a opidx : Nat) (hs : Quiet s0 s) : Quiet s0 (State.outOfAlloc s t a opidx) := by
  unfold State.outOfAlloc
  repeat' (first
    | with_reducible assumption | with_reducible apply State.tileJobFault_quiet | fail_if_no_progress intros)

theorem State.outOfAlloc_kept {s0 : State} (s : State) (t : TileId) (a opidx : Nat) (hs : Kept s0 s) : Kept s0 (State.outOfAlloc s t a opidx) :=
  (State.outOfAlloc_quiet s t a opidx (Quiet.refl _)).keeps hs

/-! ## Crown -/

theorem State.defer_quiet {s0 : State} (s : State) (i : Instr) (hs : Quiet s0 s) : Quiet s0 (State.defer s i) := by
  unfold State.defer
  repeat' (first
    | with_reducible assumption | fail_if_no_progress intros | fail_if_no_progress with_reducible apply Quiet.upd)

theorem State.defer_kept {s0 : State} (s : State) (i : Instr) (hs : Kept s0 s) : Kept s0 (State.defer s i) :=
  (State.defer_quiet s i (Quiet.refl _)).keeps hs

theorem runCrownRefreshWindow_quiet {s0 : State} (c : CrownDie) (granule : Fin 32) (s : State) (hs : Quiet s0 s) : Quiet s0 (runCrownRefreshWindow c granule s) := by
  unfold runCrownRefreshWindow
  repeat' (first
    | with_reducible assumption
    | (extract_lets +onlyGivenNames x; change State at x; refine Quiet.cut (s0 := s0) x ?_ ?_; (on_goal 1 => dsimp only [x]; clear x); (on_goal 2 => intro hx; clear_value x))
    | (extract_lets +onlyGivenNames x; change _ × State at x; refine Quiet.cut2 (s0 := s0) x ?_ ?_; (on_goal 1 => dsimp only [x]; clear x); (on_goal 2 => intro hx; clear_value x))
    | (extract_lets +onlyGivenNames x; clear_value x) | with_reducible apply Quiet.ite | fail_if_no_progress intros
    | fail_if_no_progress with_reducible apply Quiet.upd | (with_reducible apply Quiet.snd; with_reducible assumption)
    | dsimp only | split)

theorem State.respond_quiet {s0 : State} (s : State) (t : TileId) (a : Nat) (b : List Byte) (poison : Bool) (hs : Quiet s0 s) : Quiet s0 (State.respond s t a b poison) := by
  unfold State.respond
  repeat' (first
    | with_reducible assumption | with_reducible apply State.modTile_quiet | fail_if_no_progress intros
    | fail_if_no_progress with_reducible apply Quiet.upd)

theorem State.crownRefuse_quiet {s0 : State} (s : State) (t : TileId) (a len : Nat) (read window : Bool) (hs : Quiet s0 s) : Quiet s0 (State.crownRefuse s t a len read window) := by
  unfold State.crownRefuse
  repeat' (first
    | with_reducible assumption
    | (extract_lets +onlyGivenNames x; change State at x; refine Quiet.cut (s0 := s0) x ?_ ?_; (on_goal 1 => dsimp only [x]; clear x); (on_goal 2 => intro hx; clear_value x))
    | (extract_lets +onlyGivenNames x; change _ × State at x; refine Quiet.cut2 (s0 := s0) x ?_ ?_; (on_goal 1 => dsimp only [x]; clear x); (on_goal 2 => intro hx; clear_value x))
    | (extract_lets +onlyGivenNames x; clear_value x) | with_reducible apply State.respond_quiet
    | with_reducible apply State.outOfAlloc_quiet | with_reducible apply State.setBit_quiet | with_reducible apply Quiet.ite
    | fail_if_no_progress intros | dsimp only | split)

theorem State.crownRefuse_kept {s0 : State} (s : State) (t : TileId) (a len : Nat) (read window : Bool) (hs : Kept s0 s) : Kept s0 (State.crownRefuse s t a len read window) :=
  (State.crownRefuse_quiet s t a len read window (Quiet.refl _)).keeps hs

theorem State.zeroPage_quiet {s0 : State} (s : State) (c : Nat) (t : TileId) (a len : Nat) (hs : Quiet s0 s) : Quiet s0 (State.zeroPage s c t a len) := by
  unfold State.zeroPage
  repeat' (first
    | with_reducible assumption | with_reducible apply State.respond_quiet | with_reducible apply State.bump_quiet
    | fail_if_no_progress intros)

theorem State.crownBad_quiet {s0 : State} (s : State) (c a : Nat) (hs : Quiet s0 s) : Quiet s0 (State.crownBad s c a) := by
  unfold State.crownBad
  repeat' (first
    | with_reducible assumption
    | (extract_lets +onlyGivenNames x; change State at x; refine Quiet.cut (s0 := s0) x ?_ ?_; (on_goal 1 => dsimp only [x]; clear x); (on_goal 2 => intro hx; clear_value x))
    | (extract_lets +onlyGivenNames x; change _ × State at x; refine Quiet.cut2 (s0 := s0) x ?_ ?_; (on_goal 1 => dsimp only [x]; clear x); (on_goal 2 => intro hx; clear_value x))
    | (extract_lets +onlyGivenNames x; clear_value x) | with_reducible apply State.repairEnter_quiet
    | with_reducible apply State.poisonPage_quiet | with_reducible apply State.dropEntry_quiet
    | with_reducible apply State.putFault_quiet | with_reducible apply State.poisonOff_quiet
    | with_reducible apply State.poisonOn_quiet | with_reducible apply Quiet.foldl | fail_if_no_progress intros
    | fail_if_no_progress with_reducible apply Quiet.upd | (with_reducible apply Quiet.snd; with_reducible assumption)
    | dsimp only | split)

theorem State.crownCheck_quiet {s0 : State} (s : State) (c a : Nat) (ecc : LineEcc) (hs : Quiet s0 s) : Quiet s0 (State.crownCheck s c a ecc) := by
  unfold State.crownCheck
  repeat' (first
    | with_reducible assumption | with_reducible apply State.crownBad_quiet | with_reducible apply State.modDie_quiet
    | fail_if_no_progress intros | fail_if_no_progress with_reducible apply Quiet.upd
    | (with_reducible apply Quiet.snd; with_reducible assumption) | split)

theorem State.streamRead_quiet {s0 : State} (s : State) (c : Nat) (src : TileId) (offset len : Nat) (ecc : LineEcc) (hs : Quiet s0 s) : Quiet s0 (State.streamRead s c src offset len ecc) := by
  unfold State.streamRead
  repeat' (first
    | with_reducible assumption
    | (extract_lets +onlyGivenNames x; change State at x; refine Quiet.cut (s0 := s0) x ?_ ?_; (on_goal 1 => dsimp only [x]; clear x); (on_goal 2 => intro hx; clear_value x))
    | (extract_lets +onlyGivenNames x; change _ × State at x; refine Quiet.cut2 (s0 := s0) x ?_ ?_; (on_goal 1 => dsimp only [x]; clear x); (on_goal 2 => intro hx; clear_value x))
    | (extract_lets +onlyGivenNames x; clear_value x) | with_reducible apply State.crownCheck_quiet
    | with_reducible apply State.zeroPage_quiet | with_reducible apply State.crownRefuse_quiet
    | with_reducible apply State.respond_quiet | with_reducible apply State.poisonPage_quiet
    | with_reducible apply State.modPart_quiet | with_reducible apply Quiet.ite | fail_if_no_progress intros
    | fail_if_no_progress with_reducible apply Quiet.upd | (with_reducible apply Quiet.snd; with_reducible assumption)
    | dsimp only | split)

theorem runCrownStreamRead_quiet {s0 : State} (c : CrownDie) (src : TileId) (offset len : Nat) (ecc : LineEcc) (s : State) (hs : Quiet s0 s) : Quiet s0 (runCrownStreamRead c src offset len ecc s) := by
  unfold runCrownStreamRead
  repeat' (first
    | with_reducible assumption
    | (extract_lets +onlyGivenNames x; change State at x; refine Quiet.cut (s0 := s0) x ?_ ?_; (on_goal 1 => dsimp only [x]; clear x); (on_goal 2 => intro hx; clear_value x))
    | (extract_lets +onlyGivenNames x; change _ × State at x; refine Quiet.cut2 (s0 := s0) x ?_ ?_; (on_goal 1 => dsimp only [x]; clear x); (on_goal 2 => intro hx; clear_value x))
    | (extract_lets +onlyGivenNames x; clear_value x) | with_reducible apply State.streamRead_quiet
    | with_reducible apply State.defer_quiet | with_reducible apply Quiet.ite | fail_if_no_progress intros | dsimp only | split)

theorem runCrownStreamRead_kept {s0 : State} (c : CrownDie) (src : TileId) (offset len : Nat) (ecc : LineEcc) (s : State) (hs : Kept s0 s) : Kept s0 (runCrownStreamRead c src offset len ecc s) :=
  (runCrownStreamRead_quiet c src offset len ecc s (Quiet.refl _)).keeps hs

theorem State.tentative_quiet {s0 : State} (s : State) (p page r : Nat) (hs : Quiet s0 s) : Quiet s0 (State.tentative s p page r) := by
  unfold State.tentative
  repeat' (first
    | with_reducible assumption | with_reducible apply State.modPage_quiet | fail_if_no_progress intros
    | fail_if_no_progress with_reducible apply Quiet.upd)

theorem State.tentative_kept {s0 : State} (s : State) (p page r : Nat) (hs : Kept s0 s) : Kept s0 (State.tentative s p page r) :=
  (State.tentative_quiet s p page r (Quiet.refl _)).keeps hs

theorem State.appendOne_kept {s0 : State} (s : State) (p d j u : Nat) (b : List Byte) (poison : Bool) (hs : Kept s0 s) : Kept s0 (State.appendOne s p d j u b poison) := by
  unfold State.appendOne
  repeat' (first
    | with_reducible assumption
    | (extract_lets +onlyGivenNames x; change State at x; refine Kept.cut (s0 := s0) x ?_ ?_; (on_goal 1 => dsimp only [x]; clear x); (on_goal 2 => intro hx; clear_value x))
    | (extract_lets +onlyGivenNames x; change _ × State at x; refine Kept.cut2 (s0 := s0) x ?_ ?_; (on_goal 1 => dsimp only [x]; clear x); (on_goal 2 => intro hx; clear_value x))
    | (extract_lets +onlyGivenNames x; (first | change _ → State at x | change _ → _ → State at x | change _ → _ → _ → State at x | change _ → _ × State at x | change Option State at x | change Option (_ × State) at x | change _ × State × _ at x | change Draw at x); subst x)
    | (extract_lets +onlyGivenNames x; clear_value x) | with_reducible apply State.tentative_kept
    | with_reducible apply State.setBytesP_kept | with_reducible apply Kept.ite | fail_if_no_progress intros
    | fail_if_no_progress with_reducible apply Kept.upd | (with_reducible apply Kept.snd; with_reducible assumption)
    | dsimp only | split)

theorem State.appendWrite_kept {s0 : State} (s : State) (c : Nat) (src : TileId) (offset : Nat) (data : List Byte) (bad : List (Nat × Nat)) (hs : Kept s0 s) : Kept s0 (State.appendWrite s c src offset data bad) := by
  unfold State.appendWrite
  repeat' (first
    | with_reducible assumption
    | (extract_lets +onlyGivenNames x; change State at x; refine Kept.cut (s0 := s0) x ?_ ?_; (on_goal 1 => dsimp only [x]; clear x); (on_goal 2 => intro hx; clear_value x))
    | (extract_lets +onlyGivenNames x; change _ × State at x; refine Kept.cut2 (s0 := s0) x ?_ ?_; (on_goal 1 => dsimp only [x]; clear x); (on_goal 2 => intro hx; clear_value x))
    | (extract_lets +onlyGivenNames x; clear_value x) | with_reducible apply State.appendOne_kept
    | with_reducible apply State.crownRefuse_kept | with_reducible apply Kept.ite | with_reducible apply Kept.foldl
    | fail_if_no_progress intros | fail_if_no_progress with_reducible apply Kept.upd
    | (with_reducible apply Kept.snd; with_reducible assumption) | dsimp only | split)

theorem runCrownAppendWrite_kept {s0 : State} (c : CrownDie) (src : TileId) (offset : Nat) (data : List Byte) (poison : Bool) (s : State) (hs : Kept s0 s) : Kept s0 (runCrownAppendWrite c src offset data poison s) := by
  unfold runCrownAppendWrite
  repeat' (first
    | with_reducible assumption
    | (extract_lets +onlyGivenNames x; change State at x; refine Kept.cut (s0 := s0) x ?_ ?_; (on_goal 1 => dsimp only [x]; clear x); (on_goal 2 => intro hx; clear_value x))
    | (extract_lets +onlyGivenNames x; change _ × State at x; refine Kept.cut2 (s0 := s0) x ?_ ?_; (on_goal 1 => dsimp only [x]; clear x); (on_goal 2 => intro hx; clear_value x))
    | (extract_lets +onlyGivenNames x; clear_value x) | with_reducible apply State.appendWrite_kept
    | with_reducible apply State.defer_kept | with_reducible apply Kept.ite | fail_if_no_progress intros | dsimp only | split)

theorem State.windowRead_quiet {s0 : State} (s : State) (c : Nat) (src : TileId) (a len : Nat) (hs : Quiet s0 s) : Quiet s0 (State.windowRead s c src a len) := by
  unfold State.windowRead
  repeat' (first
    | with_reducible assumption
    | (extract_lets +onlyGivenNames x; change State at x; refine Quiet.cut (s0 := s0) x ?_ ?_; (on_goal 1 => dsimp only [x]; clear x); (on_goal 2 => intro hx; clear_value x))
    | (extract_lets +onlyGivenNames x; change _ × State at x; refine Quiet.cut2 (s0 := s0) x ?_ ?_; (on_goal 1 => dsimp only [x]; clear x); (on_goal 2 => intro hx; clear_value x))
    | (extract_lets +onlyGivenNames x; clear_value x) | with_reducible apply State.crownRefuse_quiet
    | with_reducible apply State.respond_quiet | with_reducible apply State.poisonPage_quiet | with_reducible apply Quiet.ite
    | fail_if_no_progress intros | fail_if_no_progress with_reducible apply Quiet.upd
    | (with_reducible apply Quiet.snd; with_reducible assumption) | dsimp only | split)

theorem runAdapterWindowRead_quiet {s0 : State} (c : CrownDie) (src : TileId) (addr : BitVec 35) (len : Nat) (s : State) (hs : Quiet s0 s) : Quiet s0 (runAdapterWindowRead c src addr len s) := by
  unfold runAdapterWindowRead
  repeat' (first
    | with_reducible assumption
    | (extract_lets +onlyGivenNames x; change State at x; refine Quiet.cut (s0 := s0) x ?_ ?_; (on_goal 1 => dsimp only [x]; clear x); (on_goal 2 => intro hx; clear_value x))
    | (extract_lets +onlyGivenNames x; change _ × State at x; refine Quiet.cut2 (s0 := s0) x ?_ ?_; (on_goal 1 => dsimp only [x]; clear x); (on_goal 2 => intro hx; clear_value x))
    | (extract_lets +onlyGivenNames x; clear_value x) | with_reducible apply State.windowRead_quiet
    | with_reducible apply State.defer_quiet | with_reducible apply Quiet.ite | fail_if_no_progress intros | dsimp only | split)

theorem runAdapterWindowRead_kept {s0 : State} (c : CrownDie) (src : TileId) (addr : BitVec 35) (len : Nat) (s : State) (hs : Kept s0 s) : Kept s0 (runAdapterWindowRead c src addr len s) :=
  (runAdapterWindowRead_quiet c src addr len s (Quiet.refl _)).keeps hs

theorem State.crownRead_quiet {s0 : State} (s : State) (c : Nat) (src : TileId) (a len : Nat) (ecc : LineEcc) (hs : Quiet s0 s) : Quiet s0 (State.crownRead s c src a len ecc) := by
  unfold State.crownRead
  repeat' (first
    | with_reducible assumption
    | (extract_lets +onlyGivenNames x; change State at x; refine Quiet.cut (s0 := s0) x ?_ ?_; (on_goal 1 => dsimp only [x]; clear x); (on_goal 2 => intro hx; clear_value x))
    | (extract_lets +onlyGivenNames x; change _ × State at x; refine Quiet.cut2 (s0 := s0) x ?_ ?_; (on_goal 1 => dsimp only [x]; clear x); (on_goal 2 => intro hx; clear_value x))
    | (extract_lets +onlyGivenNames x; clear_value x) | with_reducible apply State.windowRead_quiet
    | with_reducible apply State.streamRead_quiet | with_reducible apply State.crownCheck_quiet
    | with_reducible apply State.crownRefuse_quiet | with_reducible apply State.respond_quiet
    | with_reducible apply State.poisonPage_quiet | with_reducible apply Quiet.ite | with_reducible apply Quiet.foldl
    | fail_if_no_progress intros | fail_if_no_progress with_reducible apply Quiet.upd
    | (with_reducible apply Quiet.snd; with_reducible assumption) | dsimp only | split)

theorem State.crownRead_kept {s0 : State} (s : State) (c : Nat) (src : TileId) (a len : Nat) (ecc : LineEcc) (hs : Kept s0 s) : Kept s0 (State.crownRead s c src a len ecc) :=
  (State.crownRead_quiet s c src a len ecc (Quiet.refl _)).keeps hs

theorem State.crownWrite_kept {s0 : State} (s : State) (c : Nat) (src : TileId) (a : Nat) (data : List Byte) (bad : List (Nat × Nat)) (hs : Kept s0 s) : Kept s0 (State.crownWrite s c src a data bad) := by
  unfold State.crownWrite
  repeat' (first
    | with_reducible assumption | with_reducible apply State.appendWrite_kept | with_reducible apply State.crownRefuse_kept
    | with_reducible apply State.dramPut_kept | with_reducible apply State.poisonOn_kept | with_reducible apply Kept.foldl
    | fail_if_no_progress intros | fail_if_no_progress with_reducible apply Kept.upd
    | (with_reducible apply Kept.snd; with_reducible assumption) | split)

theorem runCrownPoolAccess_kept {s0 : State} (c : CrownDie) (src : TileId) (addr : BitVec 35) (write : Option (List Byte × Bool)) (len : Nat) (ecc : LineEcc) (s : State) (hs : Kept s0 s) : Kept s0 (runCrownPoolAccess c src addr write len ecc s) := by
  unfold runCrownPoolAccess
  repeat' (first
    | with_reducible assumption
    | (extract_lets +onlyGivenNames x; change State at x; refine Kept.cut (s0 := s0) x ?_ ?_; (on_goal 1 => dsimp only [x]; clear x); (on_goal 2 => intro hx; clear_value x))
    | (extract_lets +onlyGivenNames x; change _ × State at x; refine Kept.cut2 (s0 := s0) x ?_ ?_; (on_goal 1 => dsimp only [x]; clear x); (on_goal 2 => intro hx; clear_value x))
    | (extract_lets +onlyGivenNames x; clear_value x) | with_reducible apply State.crownWrite_kept
    | with_reducible apply State.crownRead_kept | with_reducible apply State.defer_kept | with_reducible apply Kept.ite
    | fail_if_no_progress intros | fail_if_no_progress with_reducible apply Kept.upd
    | (with_reducible apply Kept.snd; with_reducible assumption) | dsimp only | split)

theorem runCrownPatrolScrub_quiet {s0 : State} (c : CrownDie) (line : BitVec 29) (corrected uncorrectable : Bool) (s : State) (hs : Quiet s0 s) : Quiet s0 (runCrownPatrolScrub c line corrected uncorrectable s) := by
  unfold runCrownPatrolScrub
  repeat' (first
    | with_reducible assumption | with_reducible apply State.crownCheck_quiet | with_reducible apply Quiet.ite
    | fail_if_no_progress intros | split)

/-! ## Dma -/

theorem State.showInflight_quiet {s0 : State} (s : State) (t : TileId) (hs : Quiet s0 s) : Quiet s0 (State.showInflight s t) := by
  unfold State.showInflight
  repeat' (first
    | with_reducible assumption | with_reducible apply State.setFld_quiet | fail_if_no_progress intros)

theorem State.showInflight_kept {s0 : State} (s : State) (t : TileId) (hs : Kept s0 s) : Kept s0 (State.showInflight s t) :=
  (State.showInflight_quiet s t (Quiet.refl _)).keeps hs

theorem State.appendReports_quiet {s0 : State} (s : State) (t : TileId) (d : Desc) (hs : Quiet s0 s) : Quiet s0 (State.appendReports s t d) := by
  unfold State.appendReports
  repeat' (first
    | with_reducible assumption
    | (extract_lets +onlyGivenNames x; change State at x; refine Quiet.cut (s0 := s0) x ?_ ?_; (on_goal 1 => dsimp only [x]; clear x); (on_goal 2 => intro hx; clear_value x))
    | (extract_lets +onlyGivenNames x; change _ × State at x; refine Quiet.cut2 (s0 := s0) x ?_ ?_; (on_goal 1 => dsimp only [x]; clear x); (on_goal 2 => intro hx; clear_value x))
    | (extract_lets +onlyGivenNames x; clear_value x) | with_reducible apply State.poisonReport_quiet
    | with_reducible apply Quiet.ite | with_reducible apply Quiet.foldl | fail_if_no_progress intros
    | fail_if_no_progress with_reducible apply Quiet.upd | (with_reducible apply Quiet.snd; with_reducible assumption)
    | dsimp only | split)

theorem State.appendReports_kept {s0 : State} (s : State) (t : TileId) (d : Desc) (hs : Kept s0 s) : Kept s0 (State.appendReports s t d) :=
  (State.appendReports_quiet s t d (Quiet.refl _)).keeps hs

theorem runDma_kept {s0 : State} (h : OpHdr) (desc : Fin 1024) (s : State) (hs : Kept s0 s) : Kept s0 (runDma h desc s) := by
  unfold runDma
  repeat' (first
    | with_reducible assumption
    | (extract_lets +onlyGivenNames x; change State at x; refine Kept.cut (s0 := s0) x ?_ ?_; (on_goal 1 => dsimp only [x]; clear x); (on_goal 2 => intro hx; clear_value x))
    | (extract_lets +onlyGivenNames x; change _ × State at x; refine Kept.cut2 (s0 := s0) x ?_ ?_; (on_goal 1 => dsimp only [x]; clear x); (on_goal 2 => intro hx; clear_value x))
    | (extract_lets +onlyGivenNames x; clear_value x) | with_reducible apply State.appendReports_kept
    | with_reducible apply State.showInflight_kept | (refine State.drawTickets_ok_kept (by assumption) ?_)
    | (refine State.drawTickets_wait_kept (by assumption) ?_) | (refine State.drawTickets_short_kept (by assumption) ?_)
    | with_reducible apply State.tileOp_kept | with_reducible apply State.issue_kept | with_reducible apply State.enqueue_kept
    | with_reducible apply State.tileJobFault_kept | with_reducible apply State.tileEvent_kept
    | with_reducible apply State.modTile_kept | with_reducible apply State.setFld_kept | with_reducible apply Kept.ite
    | fail_if_no_progress intros | fail_if_no_progress with_reducible apply Kept.upd
    | (with_reducible apply Kept.snd; with_reducible assumption) | dsimp only | split)

theorem runWaitl_kept {s0 : State} (h : OpHdr) (counter : Fin 32) (target : BitVec 16) (s : State) (hs : Kept s0 s) : Kept s0 (runWaitl h counter target s) := by
  unfold runWaitl
  repeat' (first
    | with_reducible assumption | with_reducible apply State.tileOp_kept | with_reducible apply State.issue_kept
    | with_reducible apply State.enqueue_kept | with_reducible apply Kept.ite | fail_if_no_progress intros | split)

theorem runEndOp_kept {s0 : State} (h : OpHdr) (s : State) (hs : Kept s0 s) : Kept s0 (runEndOp h s) := by
  unfold runEndOp
  repeat' (first
    | with_reducible assumption
    | (extract_lets +onlyGivenNames x; change State at x; refine Kept.cut (s0 := s0) x ?_ ?_; (on_goal 1 => dsimp only [x]; clear x); (on_goal 2 => intro hx; clear_value x))
    | (extract_lets +onlyGivenNames x; change _ × State at x; refine Kept.cut2 (s0 := s0) x ?_ ?_; (on_goal 1 => dsimp only [x]; clear x); (on_goal 2 => intro hx; clear_value x))
    | (extract_lets +onlyGivenNames x; clear_value x) | with_reducible apply State.endSlices_kept
    | with_reducible apply State.tileOp_kept | with_reducible apply State.issue_kept | with_reducible apply State.flushAll_kept
    | with_reducible apply State.setTileState_kept | with_reducible apply State.modTile_kept | fail_if_no_progress intros
    | fail_if_no_progress with_reducible apply Kept.upd | dsimp only)

theorem State.landOne_quiet {s0 : State} (s : State) (t : TileId) (n : Nat) (hs : Quiet s0 s) : Quiet s0 (State.landOne s t n) := by
  unfold State.landOne
  repeat' (first
    | with_reducible assumption
    | (extract_lets +onlyGivenNames x; change State at x; refine Quiet.cut (s0 := s0) x ?_ ?_; (on_goal 1 => dsimp only [x]; clear x); (on_goal 2 => intro hx; clear_value x))
    | (extract_lets +onlyGivenNames x; change _ × State at x; refine Quiet.cut2 (s0 := s0) x ?_ ?_; (on_goal 1 => dsimp only [x]; clear x); (on_goal 2 => intro hx; clear_value x))
    | (extract_lets +onlyGivenNames x; clear_value x) | with_reducible apply State.setFld_quiet | fail_if_no_progress intros
    | dsimp only)

theorem State.landOne_kept {s0 : State} (s : State) (t : TileId) (n : Nat) (hs : Kept s0 s) : Kept s0 (State.landOne s t n) :=
  (State.landOne_quiet s t n (Quiet.refl _)).keeps hs

theorem State.keepShields_kept {s0 : State} (s : State) (t : TileId) (x : Xfer) (hs : Kept s0 s) : Kept s0 (State.keepShields s t x) := by
  unfold State.keepShields
  repeat' (first
    | with_reducible assumption | with_reducible apply State.setBytesP_kept | with_reducible apply Kept.foldl
    | fail_if_no_progress intros)

theorem State.xferForeign_quiet {s0 : State} (s : State) (t : TileId) (x : Xfer) (a : Nat) (hs : Quiet s0 s) : Quiet s0 (State.xferForeign s t x a) := by
  unfold State.xferForeign
  repeat' (first
    | with_reducible assumption | with_reducible apply State.outOfAlloc_quiet | with_reducible apply Quiet.ite
    | fail_if_no_progress intros | split)

theorem State.xferForeign_kept {s0 : State} (s : State) (t : TileId) (x : Xfer) (a : Nat) (hs : Kept s0 s) : Kept s0 (State.xferForeign s t x a) :=
  (State.xferForeign_quiet s t x a (Quiet.refl _)).keeps hs

theorem State.xferData_kept {s0 : State} (s : State) (t : TileId) (x : Xfer) (env : OpEnv) (hs : Kept s0 s) :
    Kept s0 (State.xferData s t x env).2 := by
  unfold State.xferData
  dsimp only
  split
  · exact State.outOfAlloc_kept _ _ _ _ hs
  · exact Kept.ite (State.crownRead_kept _ _ _ _ _ _ hs) hs
  · split
    · exact State.xferForeign_kept _ _ _ _ hs
    · exact State.eccRead_kept _ _ _ _ _ _ (State.flushAll_kept _ _ hs)
  · exact hs
  · exact State.addrFaultTile_kept _ _ _ _ _ hs

theorem State.putData_kept {s0 : State} (s : State) (dst : Nat) (b : List Byte) (bad : List (Nat × Nat)) (hs : Kept s0 s) : Kept s0 (State.putData s dst b bad) := by
  unfold State.putData
  repeat' (first
    | with_reducible assumption | with_reducible apply State.setBytes_kept | with_reducible apply State.poisonOn_kept
    | with_reducible apply Kept.foldl | fail_if_no_progress intros)

theorem State.xferWrite_kept {s0 : State} (s : State) (t : TileId) (x : Xfer) (b : List Byte) (bad : List (Nat × Nat)) (hs : Kept s0 s) : Kept s0 (State.xferWrite s t x b bad).2 := by
  unfold State.xferWrite
  repeat' (first
    | with_reducible assumption
    | (extract_lets +onlyGivenNames x; change State at x; refine Kept.cut (s0 := s0) x ?_ ?_; (on_goal 1 => dsimp only [x]; clear x); (on_goal 2 => intro hx; clear_value x))
    | (extract_lets +onlyGivenNames x; change _ × State at x; refine Kept.cut2 (s0 := s0) x ?_ ?_; (on_goal 1 => dsimp only [x]; clear x); (on_goal 2 => intro hx; clear_value x))
    | (extract_lets +onlyGivenNames x; clear_value x) | with_reducible apply State.putData_kept
    | with_reducible apply State.xferForeign_kept | with_reducible apply State.keepShields_kept
    | with_reducible apply State.crownWrite_kept | with_reducible apply State.outOfAlloc_kept
    | with_reducible apply State.flushAll_kept | with_reducible apply State.addrFaultTile_kept
    | with_reducible apply State.modPart_kept | with_reducible apply Kept.ite | with_reducible apply Kept.ite2
    | fail_if_no_progress intros | fail_if_no_progress with_reducible apply Kept.upd
    | (with_reducible apply Kept.snd; with_reducible assumption) | dsimp only | split)

theorem runDmaLanding_kept {s0 : State} (t : TileId) (xfer : Nat) (env : OpEnv) (s : State) (hs : Kept s0 s) : Kept s0 (runDmaLanding t xfer env s) := by
  unfold runDmaLanding
  repeat' (first
    | with_reducible assumption
    | (extract_lets +onlyGivenNames x; change State at x; refine Kept.cut (s0 := s0) x ?_ ?_; (on_goal 1 => dsimp only [x]; clear x); (on_goal 2 => intro hx; clear_value x))
    | (extract_lets +onlyGivenNames x; change _ × State at x; refine Kept.cut2 (s0 := s0) x ?_ ?_; (on_goal 1 => dsimp only [x]; clear x); (on_goal 2 => intro hx; clear_value x))
    | (extract_lets +onlyGivenNames x; (first | change _ → State at x | change _ → _ → State at x | change _ → _ → _ → State at x | change _ → _ × State at x | change Option State at x | change Option (_ × State) at x | change _ × State × _ at x | change Draw at x); subst x)
    | (extract_lets +onlyGivenNames x; clear_value x) | with_reducible apply State.xferWrite_kept
    | with_reducible apply State.xferData_kept | with_reducible apply State.landOne_kept
    | with_reducible apply State.defer_kept | with_reducible apply State.tileEvent_kept
    | with_reducible apply State.modTile_kept | with_reducible apply Kept.ite | fail_if_no_progress intros
    | fail_if_no_progress with_reducible apply Kept.upd | (with_reducible apply Kept.snd; with_reducible assumption)
    | dsimp only | split)

theorem runDmaRelease_quiet {s0 : State} (t : TileId) (xfer : Nat) (s : State) (hs : Quiet s0 s) : Quiet s0 (runDmaRelease t xfer s) := by
  unfold runDmaRelease
  repeat' (first
    | with_reducible assumption
    | (extract_lets +onlyGivenNames x; change State at x; refine Quiet.cut (s0 := s0) x ?_ ?_; (on_goal 1 => dsimp only [x]; clear x); (on_goal 2 => intro hx; clear_value x))
    | (extract_lets +onlyGivenNames x; change _ × State at x; refine Quiet.cut2 (s0 := s0) x ?_ ?_; (on_goal 1 => dsimp only [x]; clear x); (on_goal 2 => intro hx; clear_value x))
    | (extract_lets +onlyGivenNames x; clear_value x) | with_reducible apply State.showInflight_quiet
    | with_reducible apply State.modTile_quiet | fail_if_no_progress intros
    | fail_if_no_progress with_reducible apply Quiet.upd | (with_reducible apply Quiet.snd; with_reducible assumption)
    | dsimp only | split)

/-! ## TileRun -/

theorem runTileOp_kept {s0 : State} (i : Instr) (s : State) (hs : Kept s0 s) : Kept s0 (runTileOp i s) := by
  unfold runTileOp
  repeat' (first
    | with_reducible assumption | with_reducible apply runEndOp_kept | with_reducible apply runWaitl_kept
    | with_reducible apply runDma_kept | with_reducible apply runNap_kept | with_reducible apply runPass16_kept
    | with_reducible apply runPass32_kept | with_reducible apply runTopk_kept | with_reducible apply runNsamp_kept
    | with_reducible apply runQuant_kept | with_reducible apply runTranspose_kept | with_reducible apply runGather_kept
    | with_reducible apply runSwload_kept | with_reducible apply runStore_kept | with_reducible apply runLoad_kept
    | with_reducible apply runAout_kept | with_reducible apply runTagset_kept | with_reducible apply runGatherr_kept
    | with_reducible apply runRot_kept | with_reducible apply runBcast_kept | with_reducible apply runRargmax_kept
    | with_reducible apply runRmax_kept | with_reducible apply runRsumsq_kept | with_reducible apply runRdot_kept
    | with_reducible apply runRsum_kept | with_reducible apply runRsqrt_kept | with_reducible apply runRcp_kept
    | with_reducible apply runLog2_kept | with_reducible apply runExp2_kept | with_reducible apply runCvt_kept
    | with_reducible apply runI8dot4_kept | with_reducible apply runI8max_kept | with_reducible apply runI8min_kept
    | with_reducible apply runI8sub_kept | with_reducible apply runI8add_kept | with_reducible apply runSel_kept
    | with_reducible apply runCmp_kept | with_reducible apply runNeg_kept | with_reducible apply runAbs_kept
    | with_reducible apply runMax_kept | with_reducible apply runMin_kept | with_reducible apply runFma_kept
    | with_reducible apply runMul_kept | with_reducible apply runSub_kept | with_reducible apply runAdd_kept
    | fail_if_no_progress intros | fail_if_no_progress with_reducible apply Kept.upd
    | (with_reducible apply Kept.snd; with_reducible assumption) | split)

theorem State.drainQueue_kept {s0 : State} (s : State) (t : TileId) (hs : Kept s0 s) : Kept s0 (State.drainQueue s t) := by
  unfold State.drainQueue
  repeat' (first
    | with_reducible assumption
    | (extract_lets +onlyGivenNames x; change State at x; refine Kept.cut (s0 := s0) x ?_ ?_; (on_goal 1 => dsimp only [x]; clear x); (on_goal 2 => intro hx; clear_value x))
    | (extract_lets +onlyGivenNames x; change _ × State at x; refine Kept.cut2 (s0 := s0) x ?_ ?_; (on_goal 1 => dsimp only [x]; clear x); (on_goal 2 => intro hx; clear_value x))
    | (extract_lets +onlyGivenNames x; clear_value x) | with_reducible apply runTileOp_kept
    | with_reducible apply State.modTile_kept | with_reducible apply Kept.foldl | fail_if_no_progress intros
    | fail_if_no_progress with_reducible apply Kept.upd | dsimp only)

theorem runOperationWaitEnd_kept {s0 : State} (t : TileId) (cycles : Nat) (s : State) (hs : Kept s0 s) : Kept s0 (runOperationWaitEnd t cycles s) := by
  unfold runOperationWaitEnd
  repeat' (first
    | with_reducible assumption | with_reducible apply State.drainQueue_kept | with_reducible apply State.charge_kept
    | with_reducible apply Kept.ite | fail_if_no_progress intros | split)

theorem runTicketDrawGranted_kept {s0 : State} (t : TileId) (cycles : Nat) (s : State) (hs : Kept s0 s) : Kept s0 (runTicketDrawGranted t cycles s) := by
  unfold runTicketDrawGranted
  repeat' (first
    | with_reducible assumption
    | (extract_lets +onlyGivenNames x; change State at x; refine Kept.cut (s0 := s0) x ?_ ?_; (on_goal 1 => dsimp only [x]; clear x); (on_goal 2 => intro hx; clear_value x))
    | (extract_lets +onlyGivenNames x; change _ × State at x; refine Kept.cut2 (s0 := s0) x ?_ ?_; (on_goal 1 => dsimp only [x]; clear x); (on_goal 2 => intro hx; clear_value x))
    | (extract_lets +onlyGivenNames x; clear_value x) | with_reducible apply State.drainQueue_kept
    | with_reducible apply State.charge_kept | with_reducible apply State.tileEvent_kept | with_reducible apply State.bump_kept
    | with_reducible apply Kept.ite | fail_if_no_progress intros | dsimp only | split)

/-! ## Mesh -/

theorem runD2dCrcRetry_quiet {s0 : State} (d : DieIdx) (edge : Fin 4) (s : State) (hs : Quiet s0 s) : Quiet s0 (runD2dCrcRetry d edge s) := by
  unfold runD2dCrcRetry
  repeat' (first
    | with_reducible assumption
    | (extract_lets +onlyGivenNames x; change State at x; refine Quiet.cut (s0 := s0) x ?_ ?_; (on_goal 1 => dsimp only [x]; clear x); (on_goal 2 => intro hx; clear_value x))
    | (extract_lets +onlyGivenNames x; change _ × State at x; refine Quiet.cut2 (s0 := s0) x ?_ ?_; (on_goal 1 => dsimp only [x]; clear x); (on_goal 2 => intro hx; clear_value x))
    | (extract_lets +onlyGivenNames x; clear_value x) | with_reducible apply State.event_quiet
    | with_reducible apply State.bump_quiet | with_reducible apply Quiet.ite | fail_if_no_progress intros
    | fail_if_no_progress with_reducible apply Quiet.upd | (with_reducible apply Quiet.snd; with_reducible assumption)
    | dsimp only | split)

theorem runD2dLinkDown_quiet {s0 : State} (d : DieIdx) (edge : Fin 4) (s : State) (hs : Quiet s0 s) : Quiet s0 (runD2dLinkDown d edge s) := by
  unfold runD2dLinkDown
  repeat' (first
    | with_reducible assumption
    | (extract_lets +onlyGivenNames x; change State at x; refine Quiet.cut (s0 := s0) x ?_ ?_; (on_goal 1 => dsimp only [x]; clear x); (on_goal 2 => intro hx; clear_value x))
    | (extract_lets +onlyGivenNames x; change _ × State at x; refine Quiet.cut2 (s0 := s0) x ?_ ?_; (on_goal 1 => dsimp only [x]; clear x); (on_goal 2 => intro hx; clear_value x))
    | (extract_lets +onlyGivenNames x; clear_value x) | with_reducible apply State.jobEnd_quiet
    | with_reducible apply State.fault_quiet | with_reducible apply State.setFld_quiet | with_reducible apply Quiet.ite
    | with_reducible apply Quiet.foldl | fail_if_no_progress intros | fail_if_no_progress with_reducible apply Quiet.upd
    | (with_reducible apply Quiet.snd; with_reducible assumption) | dsimp only | split)

theorem State.setMeshBuf_quiet {s0 : State} (s : State) (b : MeshBuf) (l : List (Packet × Bool)) (hs : Quiet s0 s) : Quiet s0 (State.setMeshBuf s b l) := by
  unfold State.setMeshBuf
  repeat' (first
    | with_reducible assumption | with_reducible apply Quiet.ite | fail_if_no_progress intros
    | fail_if_no_progress with_reducible apply Quiet.upd | split)

theorem State.discardBorder_quiet {s0 : State} (s : State) (d : Nat) (p : Packet) (hs : Quiet s0 s) : Quiet s0 (State.discardBorder s d p) := by
  unfold State.discardBorder
  repeat' (first
    | with_reducible assumption
    | (extract_lets +onlyGivenNames x; change State at x; refine Quiet.cut (s0 := s0) x ?_ ?_; (on_goal 1 => dsimp only [x]; clear x); (on_goal 2 => intro hx; clear_value x))
    | (extract_lets +onlyGivenNames x; change _ × State at x; refine Quiet.cut2 (s0 := s0) x ?_ ?_; (on_goal 1 => dsimp only [x]; clear x); (on_goal 2 => intro hx; clear_value x))
    | (extract_lets +onlyGivenNames x; clear_value x) | with_reducible apply State.tileJobFault_quiet
    | with_reducible apply State.fault_quiet | with_reducible apply State.event_quiet | with_reducible apply State.bump_quiet
    | fail_if_no_progress intros | fail_if_no_progress with_reducible apply Quiet.upd
    | (with_reducible apply Quiet.snd; with_reducible assumption) | dsimp only | split)

theorem State.forward_quiet {s0 : State} (s : State) (t : TileId) (e flits : Nat) (transit : Bool) (hs : Quiet s0 s) : Quiet s0 (State.forward s t e flits transit) := by
  unfold State.forward
  repeat' (first
    | with_reducible assumption
    | (extract_lets +onlyGivenNames x; change State at x; refine Quiet.cut (s0 := s0) x ?_ ?_; (on_goal 1 => dsimp only [x]; clear x); (on_goal 2 => intro hx; clear_value x))
    | (extract_lets +onlyGivenNames x; change _ × State at x; refine Quiet.cut2 (s0 := s0) x ?_ ?_; (on_goal 1 => dsimp only [x]; clear x); (on_goal 2 => intro hx; clear_value x))
    | (extract_lets +onlyGivenNames x; clear_value x) | with_reducible apply State.tileEvent_quiet
    | with_reducible apply State.event_quiet | with_reducible apply Quiet.ite | fail_if_no_progress intros | dsimp only | split)

theorem State.meshSend_quiet {s0 : State} (s : State) (t : TileId) (e : Nat) (b : MeshBuf) (p : Packet) (hs : Quiet s0 s) : Quiet s0 (State.meshSend s t e b p) := by
  unfold State.meshSend
  repeat' (first
    | with_reducible assumption
    | (extract_lets +onlyGivenNames x; change State at x; refine Quiet.cut (s0 := s0) x ?_ ?_; (on_goal 1 => dsimp only [x]; clear x); (on_goal 2 => intro hx; clear_value x))
    | (extract_lets +onlyGivenNames x; change _ × State at x; refine Quiet.cut2 (s0 := s0) x ?_ ?_; (on_goal 1 => dsimp only [x]; clear x); (on_goal 2 => intro hx; clear_value x))
    | (extract_lets +onlyGivenNames x; clear_value x) | with_reducible apply State.forward_quiet
    | with_reducible apply State.setMeshBuf_quiet | with_reducible apply Quiet.ite | fail_if_no_progress intros
    | fail_if_no_progress with_reducible apply Quiet.upd | dsimp only | split)

theorem State.meshStep_quiet {s0 : State} (s : State) (hs : Quiet s0 s) : Quiet s0 (State.meshStep s) := by
  unfold State.meshStep
  repeat' (first
    | with_reducible assumption | with_reducible apply State.meshSend_quiet | fail_if_no_progress intros
    | fail_if_no_progress with_reducible apply Quiet.upd | (with_reducible apply Quiet.snd; with_reducible assumption) | split)

theorem State.meshEject_quiet {s0 : State} (s : State) (t : TileId) (b : MeshBuf) (p : Packet) (hs : Quiet s0 s) : Quiet s0 (State.meshEject s t b p) := by
  unfold State.meshEject
  repeat' (first
    | with_reducible assumption
    | (extract_lets +onlyGivenNames x; change State at x; refine Quiet.cut (s0 := s0) x ?_ ?_; (on_goal 1 => dsimp only [x]; clear x); (on_goal 2 => intro hx; clear_value x))
    | (extract_lets +onlyGivenNames x; change _ × State at x; refine Quiet.cut2 (s0 := s0) x ?_ ?_; (on_goal 1 => dsimp only [x]; clear x); (on_goal 2 => intro hx; clear_value x))
    | (extract_lets +onlyGivenNames x; clear_value x) | with_reducible apply State.discardBorder_quiet
    | with_reducible apply State.setMeshBuf_quiet | with_reducible apply State.deliver_quiet
    | with_reducible apply State.addrFaultTile_quiet | with_reducible apply State.fault_quiet
    | with_reducible apply State.event_quiet | with_reducible apply State.bump_quiet | fail_if_no_progress intros
    | fail_if_no_progress with_reducible apply Quiet.upd | (with_reducible apply Quiet.snd; with_reducible assumption)
    | dsimp only | split)

theorem State.meshMove_quiet {s0 : State} (s : State) (hs : Quiet s0 s) : Quiet s0 (State.meshMove s) := by
  unfold State.meshMove
  repeat' (first
    | with_reducible assumption | with_reducible apply State.meshEject_quiet | with_reducible apply State.meshStep_quiet
    | fail_if_no_progress intros | fail_if_no_progress with_reducible apply Quiet.upd
    | (with_reducible apply Quiet.snd; with_reducible assumption) | split)

theorem State.meshSettle_quiet {s0 : State} (s : State) (hs : Quiet s0 s) : Quiet s0 (State.meshSettle s) := by
  unfold State.meshSettle
  repeat' (first
    | with_reducible assumption | with_reducible apply State.meshMove_quiet | with_reducible apply Quiet.foldl
    | fail_if_no_progress intros)

theorem State.meshCome_quiet {s0 : State} (s : State) (t : TileId) (p : Packet) (hs : Quiet s0 s) : Quiet s0 (State.meshCome s t p) := by
  unfold State.meshCome
  repeat' (first
    | with_reducible assumption
    | (extract_lets +onlyGivenNames x; change State at x; refine Quiet.cut (s0 := s0) x ?_ ?_; (on_goal 1 => dsimp only [x]; clear x); (on_goal 2 => intro hx; clear_value x))
    | (extract_lets +onlyGivenNames x; change _ × State at x; refine Quiet.cut2 (s0 := s0) x ?_ ?_; (on_goal 1 => dsimp only [x]; clear x); (on_goal 2 => intro hx; clear_value x))
    | (extract_lets +onlyGivenNames x; clear_value x) | with_reducible apply State.setMeshBuf_quiet
    | with_reducible apply Quiet.ite | fail_if_no_progress intros | dsimp only | split)

theorem runMeshPacketArrival_quiet {s0 : State} (d : BodyDie) (region : Fin 512) (p : Packet) (s : State) (hs : Quiet s0 s) : Quiet s0 (runMeshPacketArrival d region p s) := by
  unfold runMeshPacketArrival
  repeat' (first
    | with_reducible assumption | with_reducible apply State.meshCome_quiet | with_reducible apply State.meshSettle_quiet
    | fail_if_no_progress intros)

theorem State.mshWrite_quiet {s0 : State} (s : State) (port : Port) (k : RegKey) (data : W32) (hs : Quiet s0 s) : Quiet s0 (State.mshWrite s port k data) := by
  unfold State.mshWrite
  repeat' (first
    | with_reducible assumption | with_reducible apply State.guardedWrite_quiet | with_reducible apply State.storeReg_quiet
    | with_reducible apply State.fwFault_quiet | with_reducible apply Quiet.ite | fail_if_no_progress intros | split)

theorem runMshPartWrite_quiet {s0 : State} (port : Port) (d : BodyDie) (data : W32) (s : State) (hs : Quiet s0 s) : Quiet s0 (runMshPartWrite port d data s) := by
  unfold runMshPartWrite
  repeat' (first
    | with_reducible assumption | with_reducible apply State.mshWrite_quiet | fail_if_no_progress intros)

theorem runMshPartWrite_kept {s0 : State} (port : Port) (d : BodyDie) (data : W32) (s : State) (hs : Kept s0 s) : Kept s0 (runMshPartWrite port d data s) :=
  (runMshPartWrite_quiet port d data s (Quiet.refl _)).keeps hs

theorem runMshBorderWrite_quiet {s0 : State} (port : Port) (d : BodyDie) (data : W32) (s : State) (hs : Quiet s0 s) : Quiet s0 (runMshBorderWrite port d data s) := by
  unfold runMshBorderWrite
  repeat' (first
    | with_reducible assumption | with_reducible apply State.mshWrite_quiet | fail_if_no_progress intros)

theorem runMshBorderWrite_kept {s0 : State} (port : Port) (d : BodyDie) (data : W32) (s : State) (hs : Kept s0 s) : Kept s0 (runMshBorderWrite port d data s) :=
  (runMshBorderWrite_quiet port d data s (Quiet.refl _)).keeps hs

theorem runDescriptorWrite_quiet {s0 : State} (port : Port) (t : TileId) (offset : BitVec 16) (data : W32) (s : State) (hs : Quiet s0 s) : Quiet s0 (runDescriptorWrite port t offset data s) := by
  unfold runDescriptorWrite
  repeat' (first
    | with_reducible assumption | with_reducible apply State.regWriteAt_quiet | fail_if_no_progress intros)

theorem runDescriptorWrite_kept {s0 : State} (port : Port) (t : TileId) (offset : BitVec 16) (data : W32) (s : State) (hs : Kept s0 s) : Kept s0 (runDescriptorWrite port t offset data s) :=
  (runDescriptorWrite_quiet port t offset data s (Quiet.refl _)).keeps hs

theorem State.mapRefused_quiet {s0 : State} (s : State) (k : RegKey) (hs : Quiet s0 s) : Quiet s0 (State.mapRefused s k) := by
  unfold State.mapRefused
  repeat' (first
    | with_reducible assumption | with_reducible apply State.fwFault_quiet | with_reducible apply State.setBit_quiet
    | fail_if_no_progress intros)

theorem State.showStage_quiet {s0 : State} (s : State) (t : TileId) (hs : Quiet s0 s) : Quiet s0 (State.showStage s t) := by
  unfold State.showStage
  repeat' (first
    | with_reducible assumption
    | (extract_lets +onlyGivenNames x; change State at x; refine Quiet.cut (s0 := s0) x ?_ ?_; (on_goal 1 => dsimp only [x]; clear x); (on_goal 2 => intro hx; clear_value x))
    | (extract_lets +onlyGivenNames x; change _ × State at x; refine Quiet.cut2 (s0 := s0) x ?_ ?_; (on_goal 1 => dsimp only [x]; clear x); (on_goal 2 => intro hx; clear_value x))
    | (extract_lets +onlyGivenNames x; clear_value x) | with_reducible apply State.setFld_quiet | fail_if_no_progress intros
    | dsimp only)

theorem State.mapWrite_quiet {s0 : State} (s : State) (t : TileId) (bank : Bool) (n d : Nat) (hs : Quiet s0 s) : Quiet s0 (State.mapWrite s t bank n d) := by
  unfold State.mapWrite
  repeat' (first
    | with_reducible assumption
    | (extract_lets +onlyGivenNames x; change State at x; refine Quiet.cut (s0 := s0) x ?_ ?_; (on_goal 1 => dsimp only [x]; clear x); (on_goal 2 => intro hx; clear_value x))
    | (extract_lets +onlyGivenNames x; change _ × State at x; refine Quiet.cut2 (s0 := s0) x ?_ ?_; (on_goal 1 => dsimp only [x]; clear x); (on_goal 2 => intro hx; clear_value x))
    | (extract_lets +onlyGivenNames x; clear_value x) | with_reducible apply State.showStage_quiet
    | with_reducible apply State.mapRefused_quiet | with_reducible apply State.storeReg_quiet
    | with_reducible apply State.modTile_quiet | with_reducible apply Quiet.ite | fail_if_no_progress intros
    | fail_if_no_progress with_reducible apply Quiet.upd | dsimp only | split)

theorem runArrMapWrite_quiet {s0 : State} (port : Port) (t : TileId) (bank : Bool) (n : Fin 64) (data : W32) (s : State) (hs : Quiet s0 s) : Quiet s0 (runArrMapWrite port t bank n data s) := by
  unfold runArrMapWrite
  repeat' (first
    | with_reducible assumption | with_reducible apply State.mapWrite_quiet | with_reducible apply State.guardedWrite_quiet
    | fail_if_no_progress intros)

theorem runArrMapWrite_kept {s0 : State} (port : Port) (t : TileId) (bank : Bool) (n : Fin 64) (data : W32) (s : State) (hs : Kept s0 s) : Kept s0 (runArrMapWrite port t bank n data s) :=
  (runArrMapWrite_quiet port t bank n data s (Quiet.refl _)).keeps hs

theorem State.bankWrite_quiet {s0 : State} (s : State) (t : TileId) (d : Nat) (hs : Quiet s0 s) : Quiet s0 (State.bankWrite s t d) := by
  unfold State.bankWrite
  repeat' (first
    | with_reducible assumption
    | (extract_lets +onlyGivenNames x; change State at x; refine Quiet.cut (s0 := s0) x ?_ ?_; (on_goal 1 => dsimp only [x]; clear x); (on_goal 2 => intro hx; clear_value x))
    | (extract_lets +onlyGivenNames x; change _ × State at x; refine Quiet.cut2 (s0 := s0) x ?_ ?_; (on_goal 1 => dsimp only [x]; clear x); (on_goal 2 => intro hx; clear_value x))
    | (extract_lets +onlyGivenNames x; clear_value x) | with_reducible apply State.showStage_quiet
    | with_reducible apply State.mapRefused_quiet | with_reducible apply State.modTile_quiet
    | with_reducible apply State.setFld_quiet | with_reducible apply Quiet.ite | with_reducible apply Quiet.foldl
    | fail_if_no_progress intros | fail_if_no_progress with_reducible apply Quiet.upd | dsimp only | split)

theorem runArrBankWrite_quiet {s0 : State} (port : Port) (t : TileId) (data : W32) (s : State) (hs : Quiet s0 s) : Quiet s0 (runArrBankWrite port t data s) := by
  unfold runArrBankWrite
  repeat' (first
    | with_reducible assumption | with_reducible apply State.bankWrite_quiet | with_reducible apply State.guardedWrite_quiet
    | fail_if_no_progress intros)

theorem runArrBankWrite_kept {s0 : State} (port : Port) (t : TileId) (data : W32) (s : State) (hs : Kept s0 s) : Kept s0 (runArrBankWrite port t data s) :=
  (runArrBankWrite_quiet port t data s (Quiet.refl _)).keeps hs

/-! ## Generations -/

theorem State.armCommit_quiet {s0 : State} (s : State) (p st : Nat) (hs : Quiet s0 s) : Quiet s0 (State.armCommit s p st) := by
  unfold State.armCommit
  repeat' (first
    | with_reducible assumption | with_reducible apply State.setFld_quiet | with_reducible apply State.setReg_quiet
    | with_reducible apply Quiet.foldl | fail_if_no_progress intros)

theorem State.disarmCommit_quiet {s0 : State} (s : State) (p : Nat) (hs : Quiet s0 s) : Quiet s0 (State.disarmCommit s p) := by
  unfold State.disarmCommit
  repeat' (first
    | with_reducible assumption | with_reducible apply State.setFld_quiet | with_reducible apply Quiet.foldl
    | fail_if_no_progress intros)

theorem State.disarmCommit_kept {s0 : State} (s : State) (p : Nat) (hs : Kept s0 s) : Kept s0 (State.disarmCommit s p) :=
  (State.disarmCommit_quiet s p (Quiet.refl _)).keeps hs

theorem State.showGen_quiet {s0 : State} (s : State) (p : Nat) (hs : Quiet s0 s) : Quiet s0 (State.showGen s p) := by
  unfold State.showGen
  repeat' (first
    | with_reducible assumption
    | (extract_lets +onlyGivenNames x; change State at x; refine Quiet.cut (s0 := s0) x ?_ ?_; (on_goal 1 => dsimp only [x]; clear x); (on_goal 2 => intro hx; clear_value x))
    | (extract_lets +onlyGivenNames x; change _ × State at x; refine Quiet.cut2 (s0 := s0) x ?_ ?_; (on_goal 1 => dsimp only [x]; clear x); (on_goal 2 => intro hx; clear_value x))
    | (extract_lets +onlyGivenNames x; clear_value x) | with_reducible apply State.setReg_quiet
    | with_reducible apply Quiet.foldl | fail_if_no_progress intros | dsimp only)

theorem State.stageCopy_quiet {s0 : State} (s : State) (t : TileId) (src copy : Nat) (hs : Quiet s0 s) : Quiet s0 (State.stageCopy s t src copy) := by
  unfold State.stageCopy
  repeat' (first
    | with_reducible assumption
    | (extract_lets +onlyGivenNames x; change State at x; refine Quiet.cut (s0 := s0) x ?_ ?_; (on_goal 1 => dsimp only [x]; clear x); (on_goal 2 => intro hx; clear_value x))
    | (extract_lets +onlyGivenNames x; change _ × State at x; refine Quiet.cut2 (s0 := s0) x ?_ ?_; (on_goal 1 => dsimp only [x]; clear x); (on_goal 2 => intro hx; clear_value x))
    | (extract_lets +onlyGivenNames x; clear_value x) | with_reducible apply State.mapWrite_quiet
    | with_reducible apply Quiet.ite | with_reducible apply Quiet.foldl | fail_if_no_progress intros | dsimp only | split)

theorem State.stageBank_quiet {s0 : State} (s : State) (t : TileId) (w : Nat) (hs : Quiet s0 s) : Quiet s0 (State.stageBank s t w) := by
  unfold State.stageBank
  repeat' (first
    | with_reducible assumption | with_reducible apply State.showStage_quiet | with_reducible apply State.modTile_quiet
    | fail_if_no_progress intros | fail_if_no_progress with_reducible apply Quiet.upd)

theorem State.settleArrays_quiet {s0 : State} (s : State) (t : TileId) (hs : Quiet s0 s) : Quiet s0 (State.settleArrays s t) := by
  unfold State.settleArrays
  repeat' (first
    | with_reducible assumption
    | (extract_lets +onlyGivenNames x; change State at x; refine Quiet.cut (s0 := s0) x ?_ ?_; (on_goal 1 => dsimp only [x]; clear x); (on_goal 2 => intro hx; clear_value x))
    | (extract_lets +onlyGivenNames x; change _ × State at x; refine Quiet.cut2 (s0 := s0) x ?_ ?_; (on_goal 1 => dsimp only [x]; clear x); (on_goal 2 => intro hx; clear_value x))
    | (extract_lets +onlyGivenNames x; clear_value x) | with_reducible apply State.modArr_quiet
    | with_reducible apply Quiet.ite | with_reducible apply Quiet.foldl | fail_if_no_progress intros
    | fail_if_no_progress with_reducible apply Quiet.upd | (with_reducible apply Quiet.snd; with_reducible assumption)
    | dsimp only | split)

theorem State.applyEntry_quiet {s0 : State} (s : State) (t : TileId) (e : Bool × Nat × W32) (hs : Quiet s0 s) : Quiet s0 (State.applyEntry s t e) := by
  unfold State.applyEntry
  repeat' (first
    | with_reducible assumption
    | (extract_lets +onlyGivenNames x; change State at x; refine Quiet.cut (s0 := s0) x ?_ ?_; (on_goal 1 => dsimp only [x]; clear x); (on_goal 2 => intro hx; clear_value x))
    | (extract_lets +onlyGivenNames x; change _ × State at x; refine Quiet.cut2 (s0 := s0) x ?_ ?_; (on_goal 1 => dsimp only [x]; clear x); (on_goal 2 => intro hx; clear_value x))
    | (extract_lets +onlyGivenNames x; clear_value x) | with_reducible apply State.fwFault_quiet
    | with_reducible apply State.setReg_quiet | with_reducible apply Quiet.ite | fail_if_no_progress intros | dsimp only
    | split)

theorem State.applyTile_quiet {s0 : State} (s : State) (t : TileId) (hs : Quiet s0 s) : Quiet s0 (State.applyTile s t) := by
  unfold State.applyTile
  repeat' (first
    | with_reducible assumption
    | (extract_lets +onlyGivenNames x; change State at x; refine Quiet.cut (s0 := s0) x ?_ ?_; (on_goal 1 => dsimp only [x]; clear x); (on_goal 2 => intro hx; clear_value x))
    | (extract_lets +onlyGivenNames x; change _ × State at x; refine Quiet.cut2 (s0 := s0) x ?_ ?_; (on_goal 1 => dsimp only [x]; clear x); (on_goal 2 => intro hx; clear_value x))
    | (extract_lets +onlyGivenNames x; clear_value x) | with_reducible apply State.applyEntry_quiet
    | with_reducible apply State.settleArrays_quiet | with_reducible apply State.showStage_quiet
    | with_reducible apply State.storeReg_quiet | with_reducible apply State.modTile_quiet | with_reducible apply Quiet.ite
    | with_reducible apply Quiet.foldl | fail_if_no_progress intros | fail_if_no_progress with_reducible apply Quiet.upd
    | (with_reducible apply Quiet.snd; with_reducible assumption) | dsimp only | split)

theorem State.flipNow_quiet {s0 : State} (s : State) (p : Nat) (hs : Quiet s0 s) : Quiet s0 (State.flipNow s p) := by
  unfold State.flipNow
  repeat' (first
    | with_reducible assumption
    | (extract_lets +onlyGivenNames x; change State at x; refine Quiet.cut (s0 := s0) x ?_ ?_; (on_goal 1 => dsimp only [x]; clear x); (on_goal 2 => intro hx; clear_value x))
    | (extract_lets +onlyGivenNames x; change _ × State at x; refine Quiet.cut2 (s0 := s0) x ?_ ?_; (on_goal 1 => dsimp only [x]; clear x); (on_goal 2 => intro hx; clear_value x))
    | (extract_lets +onlyGivenNames x; clear_value x) | with_reducible apply State.showGen_quiet
    | with_reducible apply State.modPart_quiet | with_reducible apply State.setPart_quiet
    | with_reducible apply State.setFld_quiet | with_reducible apply Quiet.ite | fail_if_no_progress intros
    | fail_if_no_progress with_reducible apply Quiet.upd | (with_reducible apply Quiet.snd; with_reducible assumption)
    | dsimp only | split)

theorem State.keepHeld_quiet {s0 : State} (s : State) (p : Nat) (hs : Quiet s0 s) : Quiet s0 (State.keepHeld s p) := by
  unfold State.keepHeld
  repeat' (first
    | with_reducible assumption
    | (extract_lets +onlyGivenNames x; change State at x; refine Quiet.cut (s0 := s0) x ?_ ?_; (on_goal 1 => dsimp only [x]; clear x); (on_goal 2 => intro hx; clear_value x))
    | (extract_lets +onlyGivenNames x; change _ × State at x; refine Quiet.cut2 (s0 := s0) x ?_ ?_; (on_goal 1 => dsimp only [x]; clear x); (on_goal 2 => intro hx; clear_value x))
    | (extract_lets +onlyGivenNames x; clear_value x) | with_reducible apply State.stageBank_quiet
    | with_reducible apply Quiet.ite | with_reducible apply Quiet.foldl | fail_if_no_progress intros
    | fail_if_no_progress with_reducible apply Quiet.upd | (with_reducible apply Quiet.snd; with_reducible assumption)
    | dsimp only | split)

theorem State.applyMaps_quiet {s0 : State} (s : State) (p : Nat) (hs : Quiet s0 s) : Quiet s0 (State.applyMaps s p) := by
  unfold State.applyMaps
  repeat' (first
    | with_reducible assumption
    | (extract_lets +onlyGivenNames x; change State at x; refine Quiet.cut (s0 := s0) x ?_ ?_; (on_goal 1 => dsimp only [x]; clear x); (on_goal 2 => intro hx; clear_value x))
    | (extract_lets +onlyGivenNames x; change _ × State at x; refine Quiet.cut2 (s0 := s0) x ?_ ?_; (on_goal 1 => dsimp only [x]; clear x); (on_goal 2 => intro hx; clear_value x))
    | (extract_lets +onlyGivenNames x; clear_value x) | with_reducible apply State.keepHeld_quiet
    | with_reducible apply State.flipNow_quiet | with_reducible apply State.applyTile_quiet
    | with_reducible apply State.showGen_quiet | with_reducible apply State.repairEnter_quiet
    | with_reducible apply State.modPart_quiet | with_reducible apply State.setBit_quiet
    | with_reducible apply State.setFld_quiet | with_reducible apply Quiet.ite | with_reducible apply Quiet.foldl
    | fail_if_no_progress intros | fail_if_no_progress with_reducible apply Quiet.upd
    | (with_reducible apply Quiet.snd; with_reducible assumption) | dsimp only | split)

theorem State.applyMaps_kept {s0 : State} (s : State) (p : Nat) (hs : Kept s0 s) : Kept s0 (State.applyMaps s p) :=
  (State.applyMaps_quiet s p (Quiet.refl _)).keeps hs

theorem State.stageCopies_quiet {s0 : State} (s : State) (p : Nat) (hs : Quiet s0 s) : Quiet s0 (State.stageCopies s p) := by
  unfold State.stageCopies
  repeat' (first
    | with_reducible assumption | with_reducible apply State.stageCopy_quiet | with_reducible apply Quiet.ite
    | with_reducible apply Quiet.foldl | fail_if_no_progress intros | fail_if_no_progress with_reducible apply Quiet.upd
    | (with_reducible apply Quiet.snd; with_reducible assumption) | split)

theorem State.stageCopies_kept {s0 : State} (s : State) (p : Nat) (hs : Kept s0 s) : Kept s0 (State.stageCopies s p) :=
  (State.stageCopies_quiet s p (Quiet.refl _)).keeps hs

theorem State.fullReady_quiet {s0 : State} (s : State) (p : Nat) (l : BoltLoad) (hs : Quiet s0 s) : Quiet s0 (State.fullReady s p l) := by
  unfold State.fullReady
  repeat' (first
    | with_reducible assumption
    | (extract_lets +onlyGivenNames x; change State at x; refine Quiet.cut (s0 := s0) x ?_ ?_; (on_goal 1 => dsimp only [x]; clear x); (on_goal 2 => intro hx; clear_value x))
    | (extract_lets +onlyGivenNames x; change _ × State at x; refine Quiet.cut2 (s0 := s0) x ?_ ?_; (on_goal 1 => dsimp only [x]; clear x); (on_goal 2 => intro hx; clear_value x))
    | (extract_lets +onlyGivenNames x; clear_value x) | with_reducible apply State.armCommit_quiet
    | with_reducible apply State.bankWrite_quiet | with_reducible apply State.mapWrite_quiet
    | with_reducible apply State.modPart_quiet | with_reducible apply Quiet.foldl | fail_if_no_progress intros
    | fail_if_no_progress with_reducible apply Quiet.upd | dsimp only)

theorem State.deltaReady_quiet {s0 : State} (s : State) (p : Nat) (l : BoltLoad) (hs : Quiet s0 s) : Quiet s0 (State.deltaReady s p l) := by
  unfold State.deltaReady
  repeat' (first
    | with_reducible assumption
    | (extract_lets +onlyGivenNames x; change State at x; refine Quiet.cut (s0 := s0) x ?_ ?_; (on_goal 1 => dsimp only [x]; clear x); (on_goal 2 => intro hx; clear_value x))
    | (extract_lets +onlyGivenNames x; change _ × State at x; refine Quiet.cut2 (s0 := s0) x ?_ ?_; (on_goal 1 => dsimp only [x]; clear x); (on_goal 2 => intro hx; clear_value x))
    | (extract_lets +onlyGivenNames x; clear_value x) | with_reducible apply State.armCommit_quiet
    | with_reducible apply State.bankWrite_quiet | with_reducible apply State.mapWrite_quiet
    | with_reducible apply State.modPart_quiet | with_reducible apply Quiet.foldl | fail_if_no_progress intros
    | fail_if_no_progress with_reducible apply Quiet.upd | (with_reducible apply Quiet.snd; with_reducible assumption)
    | dsimp only | split)

theorem State.releaseHeld_quiet {s0 : State} (s : State) (p : Nat) (hs : Quiet s0 s) : Quiet s0 (State.releaseHeld s p) := by
  unfold State.releaseHeld
  repeat' (first
    | with_reducible assumption
    | (extract_lets +onlyGivenNames x; change State at x; refine Quiet.cut (s0 := s0) x ?_ ?_; (on_goal 1 => dsimp only [x]; clear x); (on_goal 2 => intro hx; clear_value x))
    | (extract_lets +onlyGivenNames x; change _ × State at x; refine Quiet.cut2 (s0 := s0) x ?_ ?_; (on_goal 1 => dsimp only [x]; clear x); (on_goal 2 => intro hx; clear_value x))
    | (extract_lets +onlyGivenNames x; clear_value x) | with_reducible apply State.armCommit_quiet
    | with_reducible apply State.bankWrite_quiet | with_reducible apply Quiet.ite | with_reducible apply Quiet.foldl
    | fail_if_no_progress intros | fail_if_no_progress with_reducible apply Quiet.upd
    | (with_reducible apply Quiet.snd; with_reducible assumption) | dsimp only | split)

theorem State.loadCheck_quiet {s0 : State} (s : State) (p : Nat) (hs : Quiet s0 s) : Quiet s0 (State.loadCheck s p) := by
  unfold State.loadCheck
  repeat' (first
    | with_reducible assumption | with_reducible apply State.deltaReady_quiet | with_reducible apply State.fullReady_quiet
    | with_reducible apply State.modPart_quiet | with_reducible apply Quiet.ite | fail_if_no_progress intros
    | fail_if_no_progress with_reducible apply Quiet.upd | (with_reducible apply Quiet.snd; with_reducible assumption) | split)

theorem State.loadCheck_kept {s0 : State} (s : State) (p : Nat) (hs : Kept s0 s) : Kept s0 (State.loadCheck s p) :=
  (State.loadCheck_quiet s p (Quiet.refl _)).keeps hs

theorem State.armRepair_quiet {s0 : State} (s : State) (p : Nat) (hs : Quiet s0 s) : Quiet s0 (State.armRepair s p) := by
  unfold State.armRepair
  repeat' (first
    | with_reducible assumption
    | (extract_lets +onlyGivenNames x; change State at x; refine Quiet.cut (s0 := s0) x ?_ ?_; (on_goal 1 => dsimp only [x]; clear x); (on_goal 2 => intro hx; clear_value x))
    | (extract_lets +onlyGivenNames x; change _ × State at x; refine Quiet.cut2 (s0 := s0) x ?_ ?_; (on_goal 1 => dsimp only [x]; clear x); (on_goal 2 => intro hx; clear_value x))
    | (extract_lets +onlyGivenNames x; clear_value x) | with_reducible apply State.armCommit_quiet
    | with_reducible apply State.modPart_quiet | with_reducible apply Quiet.ite | fail_if_no_progress intros
    | fail_if_no_progress with_reducible apply Quiet.upd | dsimp only | split)

theorem State.unstageFlip_quiet {s0 : State} (s : State) (p : Nat) (hs : Quiet s0 s) : Quiet s0 (State.unstageFlip s p) := by
  unfold State.unstageFlip
  repeat' (first
    | with_reducible assumption
    | (extract_lets +onlyGivenNames x; change State at x; refine Quiet.cut (s0 := s0) x ?_ ?_; (on_goal 1 => dsimp only [x]; clear x); (on_goal 2 => intro hx; clear_value x))
    | (extract_lets +onlyGivenNames x; change _ × State at x; refine Quiet.cut2 (s0 := s0) x ?_ ?_; (on_goal 1 => dsimp only [x]; clear x); (on_goal 2 => intro hx; clear_value x))
    | (extract_lets +onlyGivenNames x; clear_value x) | with_reducible apply State.armRepair_quiet
    | with_reducible apply State.disarmCommit_quiet | with_reducible apply State.showStage_quiet
    | with_reducible apply State.modPart_quiet | with_reducible apply State.modTile_quiet | with_reducible apply Quiet.ite
    | with_reducible apply Quiet.foldl | fail_if_no_progress intros | fail_if_no_progress with_reducible apply Quiet.upd
    | dsimp only | split)

theorem State.unstageFlip_kept {s0 : State} (s : State) (p : Nat) (hs : Kept s0 s) : Kept s0 (State.unstageFlip s p) :=
  (State.unstageFlip_quiet s p (Quiet.refl _)).keeps hs

theorem State.loadFail_quiet {s0 : State} (s : State) (p : Nat) (hs : Quiet s0 s) : Quiet s0 (State.loadFail s p) := by
  unfold State.loadFail
  repeat' (first
    | with_reducible assumption
    | (extract_lets +onlyGivenNames x; change State at x; refine Quiet.cut (s0 := s0) x ?_ ?_; (on_goal 1 => dsimp only [x]; clear x); (on_goal 2 => intro hx; clear_value x))
    | (extract_lets +onlyGivenNames x; change _ × State at x; refine Quiet.cut2 (s0 := s0) x ?_ ?_; (on_goal 1 => dsimp only [x]; clear x); (on_goal 2 => intro hx; clear_value x))
    | (extract_lets +onlyGivenNames x; clear_value x) | with_reducible apply State.unstageFlip_quiet
    | with_reducible apply State.dropJobs_quiet | with_reducible apply State.setPage_quiet
    | with_reducible apply State.modPart_quiet | with_reducible apply State.modDie_quiet
    | with_reducible apply State.modArr_quiet | with_reducible apply Quiet.ite | with_reducible apply Quiet.foldl
    | fail_if_no_progress intros | fail_if_no_progress with_reducible apply Quiet.upd
    | (with_reducible apply Quiet.snd; with_reducible assumption) | dsimp only | split)

theorem State.loadFail_kept {s0 : State} (s : State) (p : Nat) (hs : Kept s0 s) : Kept s0 (State.loadFail s p) :=
  (State.loadFail_quiet s p (Quiet.refl _)).keeps hs

theorem State.spareExhausted_quiet {s0 : State} (s : State) (p : Nat) (t : TileId) (boltId : W64) (hs : Quiet s0 s) : Quiet s0 (State.spareExhausted s p t boltId) := by
  unfold State.spareExhausted
  repeat' (first
    | with_reducible assumption | with_reducible apply State.loadFail_quiet | with_reducible apply State.fault_quiet
    | fail_if_no_progress intros)

theorem State.spareExhausted_kept {s0 : State} (s : State) (p : Nat) (t : TileId) (boltId : W64) (hs : Kept s0 s) : Kept s0 (State.spareExhausted s p t boltId) :=
  (State.spareExhausted_quiet s p t boltId (Quiet.refl _)).keeps hs

/-! ## Commit -/

theorem State.commitKv_quiet {s0 : State} (s : State) (p i old new : Nat) (hs : Quiet s0 s) : Quiet s0 (State.commitKv s p i old new) := by
  unfold State.commitKv
  repeat' (first
    | with_reducible assumption
    | (extract_lets +onlyGivenNames x; change State at x; refine Quiet.cut (s0 := s0) x ?_ ?_; (on_goal 1 => dsimp only [x]; clear x); (on_goal 2 => intro hx; clear_value x))
    | (extract_lets +onlyGivenNames x; change _ × State at x; refine Quiet.cut2 (s0 := s0) x ?_ ?_; (on_goal 1 => dsimp only [x]; clear x); (on_goal 2 => intro hx; clear_value x))
    | (extract_lets +onlyGivenNames x; clear_value x) | with_reducible apply State.modPage_quiet
    | with_reducible apply Quiet.foldl | fail_if_no_progress intros | fail_if_no_progress with_reducible apply Quiet.upd
    | (with_reducible apply Quiet.snd; with_reducible assumption) | dsimp only | split)

theorem State.insertNew_quiet {s0 : State} (s : State) (i old new : Nat) (hs : Quiet s0 s) : Quiet s0 (State.insertNew s i old new) := by
  unfold State.insertNew
  repeat' (first
    | with_reducible assumption
    | (extract_lets +onlyGivenNames x; change State at x; refine Quiet.cut (s0 := s0) x ?_ ?_; (on_goal 1 => dsimp only [x]; clear x); (on_goal 2 => intro hx; clear_value x))
    | (extract_lets +onlyGivenNames x; change _ × State at x; refine Quiet.cut2 (s0 := s0) x ?_ ?_; (on_goal 1 => dsimp only [x]; clear x); (on_goal 2 => intro hx; clear_value x))
    | (extract_lets +onlyGivenNames x; clear_value x) | with_reducible apply State.insertBlock_quiet
    | with_reducible apply Quiet.foldl | fail_if_no_progress intros | fail_if_no_progress with_reducible apply Quiet.upd
    | (with_reducible apply Quiet.snd; with_reducible assumption) | dsimp only | split)

theorem State.leaveTokens_quiet {s0 : State} (s : State) (p i first : Nat) (toks : List Nat) (hs : Quiet s0 s) : Quiet s0 (State.leaveTokens s p i first toks) := by
  unfold State.leaveTokens
  repeat' (first
    | with_reducible assumption | with_reducible apply State.modPart_quiet | with_reducible apply Quiet.ite
    | fail_if_no_progress intros | fail_if_no_progress with_reducible apply Quiet.upd | split)

theorem State.commitSlot_quiet {s0 : State} (s : State) (p i : Nat) (hs : Quiet s0 s) : Quiet s0 (State.commitSlot s p i) := by
  unfold State.commitSlot
  repeat' (first
    | with_reducible assumption
    | (extract_lets +onlyGivenNames x; change State at x; refine Quiet.cut (s0 := s0) x ?_ ?_; (on_goal 1 => dsimp only [x]; clear x); (on_goal 2 => intro hx; clear_value x))
    | (extract_lets +onlyGivenNames x; change _ × State at x; refine Quiet.cut2 (s0 := s0) x ?_ ?_; (on_goal 1 => dsimp only [x]; clear x); (on_goal 2 => intro hx; clear_value x))
    | (extract_lets +onlyGivenNames x; clear_value x) | with_reducible apply State.leaveTokens_quiet
    | with_reducible apply State.insertNew_quiet | with_reducible apply State.commitKv_quiet
    | with_reducible apply State.endRequest_quiet | with_reducible apply State.setSlot_quiet
    | with_reducible apply State.bumpPair_quiet | with_reducible apply Quiet.ite | fail_if_no_progress intros
    | fail_if_no_progress with_reducible apply Quiet.upd | (with_reducible apply Quiet.snd; with_reducible assumption)
    | dsimp only | split)

theorem State.tailBack_quiet {s0 : State} (s : State) (i pos : Nat) (hs : Quiet s0 s) : Quiet s0 (State.tailBack s i pos) := by
  unfold State.tailBack
  repeat' (first
    | with_reducible assumption
    | (extract_lets +onlyGivenNames x; change State at x; refine Quiet.cut (s0 := s0) x ?_ ?_; (on_goal 1 => dsimp only [x]; clear x); (on_goal 2 => intro hx; clear_value x))
    | (extract_lets +onlyGivenNames x; change _ × State at x; refine Quiet.cut2 (s0 := s0) x ?_ ?_; (on_goal 1 => dsimp only [x]; clear x); (on_goal 2 => intro hx; clear_value x))
    | (extract_lets +onlyGivenNames x; clear_value x) | with_reducible apply State.modPage_quiet
    | with_reducible apply Quiet.foldl | fail_if_no_progress intros | fail_if_no_progress with_reducible apply Quiet.upd
    | (with_reducible apply Quiet.snd; with_reducible assumption) | dsimp only | split)

theorem State.setBack_quiet {s0 : State} (s : State) (i old : Nat) (hs : Quiet s0 s) : Quiet s0 (State.setBack s i old) := by
  unfold State.setBack
  repeat' (first
    | with_reducible assumption
    | (extract_lets +onlyGivenNames x; change State at x; refine Quiet.cut (s0 := s0) x ?_ ?_; (on_goal 1 => dsimp only [x]; clear x); (on_goal 2 => intro hx; clear_value x))
    | (extract_lets +onlyGivenNames x; change _ × State at x; refine Quiet.cut2 (s0 := s0) x ?_ ?_; (on_goal 1 => dsimp only [x]; clear x); (on_goal 2 => intro hx; clear_value x))
    | (extract_lets +onlyGivenNames x; clear_value x) | with_reducible apply State.tailBack_quiet
    | with_reducible apply State.wake_quiet | with_reducible apply State.insertBlock_quiet
    | with_reducible apply State.modSlot_quiet | with_reducible apply Quiet.ite | with_reducible apply Quiet.foldl
    | fail_if_no_progress intros | fail_if_no_progress with_reducible apply Quiet.upd
    | (with_reducible apply Quiet.snd; with_reducible assumption) | dsimp only | split)

theorem State.setReplay_quiet {s0 : State} (s : State) (p i : Nat) (hs : Quiet s0 s) : Quiet s0 (State.setReplay s p i) := by
  unfold State.setReplay
  repeat' (first
    | with_reducible assumption | with_reducible apply State.voidNext_quiet | with_reducible apply State.modSlot_quiet
    | fail_if_no_progress intros | fail_if_no_progress with_reducible apply Quiet.upd)

theorem State.replayRan_quiet {s0 : State} (s : State) (i : Nat) (hs : Quiet s0 s) : Quiet s0 (State.replayRan s i) := by
  unfold State.replayRan
  repeat' (first
    | with_reducible assumption | with_reducible apply State.modSlot_quiet | with_reducible apply State.bump_quiet
    | with_reducible apply Quiet.ite | fail_if_no_progress intros | fail_if_no_progress with_reducible apply Quiet.upd | split)

theorem State.commitCancels_quiet {s0 : State} (s : State) (p : Nat) (hs : Quiet s0 s) : Quiet s0 (State.commitCancels s p) := by
  unfold State.commitCancels
  repeat' (first
    | with_reducible assumption
    | (extract_lets +onlyGivenNames x; change State at x; refine Quiet.cut (s0 := s0) x ?_ ?_; (on_goal 1 => dsimp only [x]; clear x); (on_goal 2 => intro hx; clear_value x))
    | (extract_lets +onlyGivenNames x; change _ × State at x; refine Quiet.cut2 (s0 := s0) x ?_ ?_; (on_goal 1 => dsimp only [x]; clear x); (on_goal 2 => intro hx; clear_value x))
    | (extract_lets +onlyGivenNames x; clear_value x) | with_reducible apply State.endRequest_quiet
    | with_reducible apply Quiet.ite | with_reducible apply Quiet.foldl | fail_if_no_progress intros
    | fail_if_no_progress with_reducible apply Quiet.upd | (with_reducible apply Quiet.snd; with_reducible assumption)
    | dsimp only | split)

theorem State.commitNorms_quiet {s0 : State} (s : State) (p : Nat) (slots : List Nat) (hs : Quiet s0 s) : Quiet s0 (State.commitNorms s p slots) := by
  unfold State.commitNorms
  repeat' (first
    | with_reducible assumption
    | (extract_lets +onlyGivenNames x; change State at x; refine Quiet.cut (s0 := s0) x ?_ ?_; (on_goal 1 => dsimp only [x]; clear x); (on_goal 2 => intro hx; clear_value x))
    | (extract_lets +onlyGivenNames x; change _ × State at x; refine Quiet.cut2 (s0 := s0) x ?_ ?_; (on_goal 1 => dsimp only [x]; clear x); (on_goal 2 => intro hx; clear_value x))
    | (extract_lets +onlyGivenNames x; clear_value x) | with_reducible apply State.setTile_quiet
    | with_reducible apply Quiet.ite | with_reducible apply Quiet.foldl | fail_if_no_progress intros
    | fail_if_no_progress with_reducible apply Quiet.upd | dsimp only | split)

theorem State.commitDeadlines_quiet {s0 : State} (s : State) (p : Nat) (hs : Quiet s0 s) : Quiet s0 (State.commitDeadlines s p) := by
  unfold State.commitDeadlines
  repeat' (first
    | with_reducible assumption
    | (extract_lets +onlyGivenNames x; change State at x; refine Quiet.cut (s0 := s0) x ?_ ?_; (on_goal 1 => dsimp only [x]; clear x); (on_goal 2 => intro hx; clear_value x))
    | (extract_lets +onlyGivenNames x; change _ × State at x; refine Quiet.cut2 (s0 := s0) x ?_ ?_; (on_goal 1 => dsimp only [x]; clear x); (on_goal 2 => intro hx; clear_value x))
    | (extract_lets +onlyGivenNames x; clear_value x) | with_reducible apply State.modSlot_quiet
    | with_reducible apply State.bump_quiet | with_reducible apply Quiet.ite | with_reducible apply Quiet.foldl
    | fail_if_no_progress intros | fail_if_no_progress with_reducible apply Quiet.upd | dsimp only | split)

theorem State.commitAdapters_quiet {s0 : State} (s : State) (p : Nat) (hs : Quiet s0 s) : Quiet s0 (State.commitAdapters s p) := by
  unfold State.commitAdapters
  repeat' (first
    | with_reducible assumption
    | (extract_lets +onlyGivenNames x; change State at x; refine Quiet.cut (s0 := s0) x ?_ ?_; (on_goal 1 => dsimp only [x]; clear x); (on_goal 2 => intro hx; clear_value x))
    | (extract_lets +onlyGivenNames x; change _ × State at x; refine Quiet.cut2 (s0 := s0) x ?_ ?_; (on_goal 1 => dsimp only [x]; clear x); (on_goal 2 => intro hx; clear_value x))
    | (extract_lets +onlyGivenNames x; clear_value x) | with_reducible apply State.setPage_quiet
    | with_reducible apply State.modPart_quiet | with_reducible apply Quiet.ite | with_reducible apply Quiet.foldl
    | fail_if_no_progress intros | fail_if_no_progress with_reducible apply Quiet.upd | dsimp only | split)

theorem State.commitParks_quiet {s0 : State} (s : State) (p : Nat) (hs : Quiet s0 s) : Quiet s0 (State.commitParks s p) := by
  unfold State.commitParks
  repeat' (first
    | with_reducible assumption
    | (extract_lets +onlyGivenNames x; change State at x; refine Quiet.cut (s0 := s0) x ?_ ?_; (on_goal 1 => dsimp only [x]; clear x); (on_goal 2 => intro hx; clear_value x))
    | (extract_lets +onlyGivenNames x; change _ × State at x; refine Quiet.cut2 (s0 := s0) x ?_ ?_; (on_goal 1 => dsimp only [x]; clear x); (on_goal 2 => intro hx; clear_value x))
    | (extract_lets +onlyGivenNames x; clear_value x) | with_reducible apply State.voidNext_quiet
    | with_reducible apply State.setSlot_quiet | with_reducible apply State.modPart_quiet | with_reducible apply Quiet.ite
    | with_reducible apply Quiet.foldl | fail_if_no_progress intros | fail_if_no_progress with_reducible apply Quiet.upd
    | dsimp only | split)

theorem State.lowater_quiet {s0 : State} (s : State) (p : Nat) (hs : Quiet s0 s) : Quiet s0 (State.lowater s p) := by
  unfold State.lowater
  repeat' (first
    | with_reducible assumption
    | (extract_lets +onlyGivenNames x; change State at x; refine Quiet.cut (s0 := s0) x ?_ ?_; (on_goal 1 => dsimp only [x]; clear x); (on_goal 2 => intro hx; clear_value x))
    | (extract_lets +onlyGivenNames x; change _ × State at x; refine Quiet.cut2 (s0 := s0) x ?_ ?_; (on_goal 1 => dsimp only [x]; clear x); (on_goal 2 => intro hx; clear_value x))
    | (extract_lets +onlyGivenNames x; clear_value x) | with_reducible apply State.dropIndexed_quiet
    | with_reducible apply Quiet.ite | with_reducible apply Quiet.foldl | fail_if_no_progress intros | dsimp only | split)

theorem State.publishAll_quiet {s0 : State} (s : State) (p : Nat) (hs : Quiet s0 s) : Quiet s0 (State.publishAll s p) := by
  unfold State.publishAll
  repeat' (first
    | with_reducible assumption
    | (extract_lets +onlyGivenNames x; change State at x; refine Quiet.cut (s0 := s0) x ?_ ?_; (on_goal 1 => dsimp only [x]; clear x); (on_goal 2 => intro hx; clear_value x))
    | (extract_lets +onlyGivenNames x; change _ × State at x; refine Quiet.cut2 (s0 := s0) x ?_ ?_; (on_goal 1 => dsimp only [x]; clear x); (on_goal 2 => intro hx; clear_value x))
    | (extract_lets +onlyGivenNames x; clear_value x) | with_reducible apply State.publish_quiet
    | with_reducible apply Quiet.foldl | fail_if_no_progress intros | fail_if_no_progress with_reducible apply Quiet.upd
    | dsimp only)

theorem State.commitRest_quiet {s0 : State} (s : State) (p : Nat) (hs : Quiet s0 s) : Quiet s0 (State.commitRest s p) := by
  unfold State.commitRest
  repeat' (first
    | with_reducible assumption | with_reducible apply State.publishAll_quiet | with_reducible apply State.lowater_quiet
    | with_reducible apply State.commitParks_quiet | with_reducible apply State.commitAdapters_quiet
    | with_reducible apply State.commitDeadlines_quiet | with_reducible apply State.releaseHeld_quiet
    | with_reducible apply State.demote_quiet | fail_if_no_progress intros)

theorem State.commitStep_quiet {s0 : State} (s : State) (p : Nat) (hs : Quiet s0 s) : Quiet s0 (State.commitStep s p) := by
  unfold State.commitStep
  repeat' (first
    | with_reducible assumption
    | (extract_lets +onlyGivenNames x; change State at x; refine Quiet.cut (s0 := s0) x ?_ ?_; (on_goal 1 => dsimp only [x]; clear x); (on_goal 2 => intro hx; clear_value x))
    | (extract_lets +onlyGivenNames x; change _ × State at x; refine Quiet.cut2 (s0 := s0) x ?_ ?_; (on_goal 1 => dsimp only [x]; clear x); (on_goal 2 => intro hx; clear_value x))
    | (extract_lets +onlyGivenNames x; clear_value x) | with_reducible apply State.commitRest_quiet
    | with_reducible apply State.commitNorms_quiet | with_reducible apply State.commitCancels_quiet
    | with_reducible apply State.replayRan_quiet | with_reducible apply State.setReplay_quiet
    | with_reducible apply State.setBack_quiet | with_reducible apply State.commitSlot_quiet | with_reducible apply Quiet.foldl
    | fail_if_no_progress intros | dsimp only)

theorem State.commit_quiet {s0 : State} (s : State) (p : Nat) (hs : Quiet s0 s) : Quiet s0 (State.commit s p) := by
  unfold State.commit
  repeat' (first
    | with_reducible assumption | with_reducible apply State.commitStep_quiet | with_reducible apply State.jobFault_quiet
    | with_reducible apply State.bump_quiet | with_reducible apply Quiet.ite | fail_if_no_progress intros
    | fail_if_no_progress with_reducible apply Quiet.upd | (with_reducible apply Quiet.snd; with_reducible assumption) | split)

theorem State.commit_kept {s0 : State} (s : State) (p : Nat) (hs : Kept s0 s) : Kept s0 (State.commit s p) :=
  (State.commit_quiet s p (Quiet.refl _)).keeps hs

theorem State.idleCommit_quiet {s0 : State} (s : State) (p : Nat) (hs : Quiet s0 s) : Quiet s0 (State.idleCommit s p) := by
  unfold State.idleCommit
  repeat' (first
    | with_reducible assumption | with_reducible apply State.commit_quiet | with_reducible apply State.modPart_quiet
    | fail_if_no_progress intros | fail_if_no_progress with_reducible apply Quiet.upd)

theorem State.idleCommit_kept {s0 : State} (s : State) (p : Nat) (hs : Kept s0 s) : Kept s0 (State.idleCommit s p) :=
  (State.idleCommit_quiet s p (Quiet.refl _)).keeps hs

/-! ## Symbols -/

theorem State.queueSymbol_quiet {s0 : State} (s : State) (l n : Nat) (code : Byte) (arg : BitVec 24) (hs : Quiet s0 s) : Quiet s0 (State.queueSymbol s l n code arg) := by
  unfold State.queueSymbol
  repeat' (first
    | with_reducible assumption | with_reducible apply State.modLane_quiet | fail_if_no_progress intros
    | fail_if_no_progress with_reducible apply Quiet.upd)

theorem State.queueOnLink_quiet {s0 : State} (s : State) (code : Byte) (arg : BitVec 24) (l : Nat) (hs : Quiet s0 s) : Quiet s0 (State.queueOnLink s code arg l) := by
  unfold State.queueOnLink
  repeat' (first
    | with_reducible assumption | with_reducible apply State.queueSymbol_quiet | with_reducible apply Quiet.foldl
    | fail_if_no_progress intros)

theorem State.sendFlit_quiet {s0 : State} (s : State) (l n : Nat) (when : Nat) (hs : Quiet s0 s) : Quiet s0 (State.sendFlit s l n when) := by
  unfold State.sendFlit
  repeat' (first
    | with_reducible assumption
    | (extract_lets +onlyGivenNames x; change State at x; refine Quiet.cut (s0 := s0) x ?_ ?_; (on_goal 1 => dsimp only [x]; clear x); (on_goal 2 => intro hx; clear_value x))
    | (extract_lets +onlyGivenNames x; change _ × State at x; refine Quiet.cut2 (s0 := s0) x ?_ ?_; (on_goal 1 => dsimp only [x]; clear x); (on_goal 2 => intro hx; clear_value x))
    | (extract_lets +onlyGivenNames x; clear_value x) | with_reducible apply State.event_quiet
    | with_reducible apply State.emit_quiet | with_reducible apply State.setLane_quiet | with_reducible apply Quiet.ite
    | fail_if_no_progress intros | dsimp only | split)

theorem State.sendFlits_quiet {s0 : State} (s : State) (hs : Quiet s0 s) : Quiet s0 (State.sendFlits s) := by
  unfold State.sendFlits
  repeat' (first
    | with_reducible assumption | with_reducible apply State.sendFlit_quiet | with_reducible apply Quiet.foldl
    | fail_if_no_progress intros)

theorem State.sendFlits_kept {s0 : State} (s : State) (hs : Kept s0 s) : Kept s0 (State.sendFlits s) :=
  (State.sendFlits_quiet s (Quiet.refl _)).keeps hs

end Sys2Proof.Machine
end

