-- ==== Sys2Proof/Laws/Kept3.lean ====
section
/-!
SUPPORT. What every operation and every command's effect keeps, for the files: Bowstring, Flash, Links, ServicePorts, Lasers, Reset, Limits, Corrections, Sensors.
-/

set_option Elab.async false
set_option linter.unusedTactic false
set_option linter.unreachableTactic false
set_option linter.tactic.unusedName false

namespace Sys2Proof.Machine

/-! ## Bowstring -/

theorem State.bowSend_quiet {s0 : State} (s : State) (c : BowCmd) (hs : Quiet s0 s) : Quiet s0 (State.bowSend s c) := by
  unfold State.bowSend
  repeat' (first
    | with_reducible assumption | fail_if_no_progress intros | fail_if_no_progress with_reducible apply Quiet.upd)

theorem State.bowSend_kept {s0 : State} (s : State) (c : BowCmd) (hs : Kept s0 s) : Kept s0 (State.bowSend s c) :=
  (State.bowSend_quiet s c (Quiet.refl _)).keeps hs

theorem State.bowSendNow_quiet {s0 : State} (s : State) (c : BowCmd) (hs : Quiet s0 s) : Quiet s0 (State.bowSendNow s c) := by
  unfold State.bowSendNow
  repeat' (first
    | with_reducible assumption | fail_if_no_progress intros | fail_if_no_progress with_reducible apply Quiet.upd)

theorem State.bowSent_quiet {s0 : State} (s : State) (c : BowCmd) (hs : Quiet s0 s) : Quiet s0 (State.bowSent s c) := by
  unfold State.bowSent
  repeat' (first
    | with_reducible assumption
    | (extract_lets +onlyGivenNames x; change State at x; refine Quiet.cut (s0 := s0) x ?_ ?_; (on_goal 1 => dsimp only [x]; clear x); (on_goal 2 => intro hx; clear_value x))
    | (extract_lets +onlyGivenNames x; change _ × State at x; refine Quiet.cut2 (s0 := s0) x ?_ ?_; (on_goal 1 => dsimp only [x]; clear x); (on_goal 2 => intro hx; clear_value x))
    | (extract_lets +onlyGivenNames x; clear_value x) | with_reducible apply State.event_quiet
    | with_reducible apply State.bump_quiet | with_reducible apply Quiet.ite | fail_if_no_progress intros
    | fail_if_no_progress with_reducible apply Quiet.upd | dsimp only | split)

theorem State.bowSent_kept {s0 : State} (s : State) (c : BowCmd) (hs : Kept s0 s) : Kept s0 (State.bowSent s c) :=
  (State.bowSent_quiet s c (Quiet.refl _)).keeps hs

theorem State.dropHold_quiet {s0 : State} (s : State) (p : Nat) (hs : Quiet s0 s) : Quiet s0 (State.dropHold s p) := by
  unfold State.dropHold
  repeat' (first
    | with_reducible assumption | fail_if_no_progress intros | fail_if_no_progress with_reducible apply Quiet.upd)

theorem State.dropHold_kept {s0 : State} (s : State) (p : Nat) (hs : Kept s0 s) : Kept s0 (State.dropHold s p) :=
  (State.dropHold_quiet s p (Quiet.refl _)).keeps hs

theorem State.countSkipped_quiet {s0 : State} (s : State) (hs : Quiet s0 s) : Quiet s0 (State.countSkipped s) := by
  unfold State.countSkipped
  repeat' (first
    | with_reducible assumption
    | (extract_lets +onlyGivenNames x; change State at x; refine Quiet.cut (s0 := s0) x ?_ ?_; (on_goal 1 => dsimp only [x]; clear x); (on_goal 2 => intro hx; clear_value x))
    | (extract_lets +onlyGivenNames x; change _ × State at x; refine Quiet.cut2 (s0 := s0) x ?_ ?_; (on_goal 1 => dsimp only [x]; clear x); (on_goal 2 => intro hx; clear_value x))
    | (extract_lets +onlyGivenNames x; clear_value x) | with_reducible apply State.ctrAdd_quiet
    | with_reducible apply Quiet.ite | with_reducible apply Quiet.foldl | fail_if_no_progress intros | dsimp only | split)

theorem State.countSkipped_kept {s0 : State} (s : State) (hs : Kept s0 s) : Kept s0 (State.countSkipped s) :=
  (State.countSkipped_quiet s (Quiet.refl _)).keeps hs

theorem State.stepCycles_quiet {s0 : State} (s : State) (hs : Quiet s0 s) : Quiet s0 (State.stepCycles s) := by
  unfold State.stepCycles
  repeat' (first
    | with_reducible assumption
    | (extract_lets +onlyGivenNames x; change State at x; refine Quiet.cut (s0 := s0) x ?_ ?_; (on_goal 1 => dsimp only [x]; clear x); (on_goal 2 => intro hx; clear_value x))
    | (extract_lets +onlyGivenNames x; change _ × State at x; refine Quiet.cut2 (s0 := s0) x ?_ ?_; (on_goal 1 => dsimp only [x]; clear x); (on_goal 2 => intro hx; clear_value x))
    | (extract_lets +onlyGivenNames x; clear_value x) | with_reducible apply Quiet.ite | fail_if_no_progress intros
    | fail_if_no_progress with_reducible apply Quiet.upd | dsimp only | split)

theorem State.stepCycles_kept {s0 : State} (s : State) (hs : Kept s0 s) : Kept s0 (State.stepCycles s) :=
  (State.stepCycles_quiet s (Quiet.refl _)).keeps hs

theorem State.serveDeferred_kept {s0 : State} (s : State) (hs : Kept s0 s) : Kept s0 (State.serveDeferred s) := by
  unfold State.serveDeferred
  repeat' (first
    | with_reducible assumption | with_reducible apply runDmaLanding_kept | with_reducible apply runCrownPoolAccess_kept
    | with_reducible apply runAdapterWindowRead_kept | with_reducible apply runCrownAppendWrite_kept
    | with_reducible apply runCrownStreamRead_kept | with_reducible apply Kept.foldl | fail_if_no_progress intros
    | fail_if_no_progress with_reducible apply Kept.upd | (with_reducible apply Kept.snd; with_reducible assumption) | split)

theorem State.slotEnd_kept {s0 : State} (s : State) (hs : Kept s0 s) : Kept s0 (State.slotEnd s) := by
  unfold State.slotEnd
  repeat' (first
    | with_reducible assumption
    | (extract_lets +onlyGivenNames x; change State at x; refine Kept.cut (s0 := s0) x ?_ ?_; (on_goal 1 => dsimp only [x]; clear x); (on_goal 2 => intro hx; clear_value x))
    | (extract_lets +onlyGivenNames x; change _ × State at x; refine Kept.cut2 (s0 := s0) x ?_ ?_; (on_goal 1 => dsimp only [x]; clear x); (on_goal 2 => intro hx; clear_value x))
    | (extract_lets +onlyGivenNames x; clear_value x) | with_reducible apply State.serveDeferred_kept
    | with_reducible apply State.stepCycles_kept | with_reducible apply State.countSkipped_kept
    | with_reducible apply State.sendFlits_kept | with_reducible apply State.idleCommit_kept
    | with_reducible apply State.event_kept | with_reducible apply Kept.ite | with_reducible apply Kept.foldl
    | fail_if_no_progress intros | fail_if_no_progress with_reducible apply Kept.upd | dsimp only | split)

theorem State.refuseReleases_quiet {s0 : State} (s : State) (hs : Quiet s0 s) : Quiet s0 (State.refuseReleases s) := by
  unfold State.refuseReleases
  repeat' (first
    | with_reducible assumption
    | (extract_lets +onlyGivenNames x; change State at x; refine Quiet.cut (s0 := s0) x ?_ ?_; (on_goal 1 => dsimp only [x]; clear x); (on_goal 2 => intro hx; clear_value x))
    | (extract_lets +onlyGivenNames x; change _ × State at x; refine Quiet.cut2 (s0 := s0) x ?_ ?_; (on_goal 1 => dsimp only [x]; clear x); (on_goal 2 => intro hx; clear_value x))
    | (extract_lets +onlyGivenNames x; clear_value x) | with_reducible apply State.fwFault_quiet
    | with_reducible apply Quiet.ite | fail_if_no_progress intros | fail_if_no_progress with_reducible apply Quiet.upd
    | (with_reducible apply Quiet.snd; with_reducible assumption) | dsimp only | split)

theorem runFreezeTimeReached_quiet {s0 : State} (s : State) (hs : Quiet s0 s) : Quiet s0 (runFreezeTimeReached s) := by
  unfold runFreezeTimeReached
  repeat' (first
    | with_reducible assumption | with_reducible apply State.bowSendNow_quiet | with_reducible apply Quiet.ite
    | fail_if_no_progress intros | split)

theorem State.seenReady_quiet {s0 : State} (s : State) (p : Nat) (hs : Quiet s0 s) : Quiet s0 (State.seenReady s p).2 := by
  unfold State.seenReady
  repeat' (first
    | with_reducible assumption | with_reducible apply State.drawB_quiet | with_reducible apply Quiet.ite
    | with_reducible apply Quiet.ite2 | fail_if_no_progress intros | fail_if_no_progress with_reducible apply Quiet.upd
    | (with_reducible apply Quiet.snd; with_reducible assumption) | dsimp only | split)

theorem runStepBarrier_quiet {s0 : State} (p : PartIdx) (s : State) (hs : Quiet s0 s) : Quiet s0 (runStepBarrier p s) := by
  unfold runStepBarrier
  repeat' (first
    | with_reducible assumption
    | (extract_lets +onlyGivenNames x; change State at x; refine Quiet.cut (s0 := s0) x ?_ ?_; (on_goal 1 => dsimp only [x]; clear x); (on_goal 2 => intro hx; clear_value x))
    | (extract_lets +onlyGivenNames x; change _ × State at x; refine Quiet.cut2 (s0 := s0) x ?_ ?_; (on_goal 1 => dsimp only [x]; clear x); (on_goal 2 => intro hx; clear_value x))
    | (extract_lets +onlyGivenNames x; clear_value x) | with_reducible apply State.seenReady_quiet
    | with_reducible apply State.bowSendNow_quiet | with_reducible apply State.modPart_quiet
    | with_reducible apply State.setBit_quiet | with_reducible apply Quiet.ite | fail_if_no_progress intros
    | fail_if_no_progress with_reducible apply Quiet.upd | (with_reducible apply Quiet.snd; with_reducible assumption)
    | dsimp only | split)

theorem State.fallDue_quiet {s0 : State} (s : State) (hs : Quiet s0 s) : Quiet s0 (State.fallDue s) := by
  unfold State.fallDue
  repeat' (first
    | with_reducible assumption
    | (extract_lets +onlyGivenNames x; change State at x; refine Quiet.cut (s0 := s0) x ?_ ?_; (on_goal 1 => dsimp only [x]; clear x); (on_goal 2 => intro hx; clear_value x))
    | (extract_lets +onlyGivenNames x; change _ × State at x; refine Quiet.cut2 (s0 := s0) x ?_ ?_; (on_goal 1 => dsimp only [x]; clear x); (on_goal 2 => intro hx; clear_value x))
    | (extract_lets +onlyGivenNames x; clear_value x) | with_reducible apply runStepBarrier_quiet
    | with_reducible apply runFreezeTimeReached_quiet | with_reducible apply State.refuseReleases_quiet
    | with_reducible apply Quiet.ite | with_reducible apply Quiet.foldl | fail_if_no_progress intros | dsimp only | split)

theorem State.fallDue_kept {s0 : State} (s : State) (hs : Kept s0 s) : Kept s0 (State.fallDue s) :=
  (State.fallDue_quiet s (Quiet.refl _)).keeps hs

theorem State.sendFrame_quiet {s0 : State} (s : State) (code : Nat) (hs : Quiet s0 s) : Quiet s0 (State.sendFrame s code) := by
  unfold State.sendFrame
  repeat' (first
    | with_reducible assumption | fail_if_no_progress intros | fail_if_no_progress with_reducible apply Quiet.upd)

theorem State.sendFrame_kept {s0 : State} (s : State) (code : Nat) (hs : Kept s0 s) : Kept s0 (State.sendFrame s code) :=
  (State.sendFrame_quiet s code (Quiet.refl _)).keeps hs

theorem State.hearAgain_quiet {s0 : State} (s : State) (hs : Quiet s0 s) : Quiet s0 (State.hearAgain s) := by
  unfold State.hearAgain
  repeat' (first
    | with_reducible assumption | fail_if_no_progress intros | fail_if_no_progress with_reducible apply Quiet.upd)

theorem State.hearAgain_kept {s0 : State} (s : State) (hs : Kept s0 s) : Kept s0 (State.hearAgain s) :=
  (State.hearAgain_quiet s (Quiet.refl _)).keeps hs

theorem State.applySymbol_kept {s0 : State} (s : State) (c : BowCmd) (f : State → State) (hs : Kept s0 s) (hf : ∀ (a0 : State), Kept s0 a0 → Kept s0 (f a0)) : Kept s0 (State.applySymbol s c f) := by
  unfold State.applySymbol
  repeat' (first
    | with_reducible assumption
    | (extract_lets +onlyGivenNames x; change State at x; refine Kept.cut (s0 := s0) x ?_ ?_; (on_goal 1 => dsimp only [x]; clear x); (on_goal 2 => intro hx; clear_value x))
    | (extract_lets +onlyGivenNames x; change _ × State at x; refine Kept.cut2 (s0 := s0) x ?_ ?_; (on_goal 1 => dsimp only [x]; clear x); (on_goal 2 => intro hx; clear_value x))
    | (extract_lets +onlyGivenNames x; clear_value x) | with_reducible apply hf | with_reducible apply State.hearAgain_kept
    | with_reducible apply State.sendFrame_kept | with_reducible apply State.fallDue_kept
    | with_reducible apply State.slotEnd_kept | with_reducible apply State.bowSent_kept | with_reducible apply Kept.ite
    | fail_if_no_progress intros | dsimp only | split)

theorem State.eachDie_quiet {s0 : State} (s : State) (f : Die → Die) (hs : Quiet s0 s) : Quiet s0 (State.eachDie s f) := by
  unfold State.eachDie
  repeat' (first
    | with_reducible assumption | with_reducible apply Quiet.ite | fail_if_no_progress intros
    | fail_if_no_progress with_reducible apply Quiet.upd | split)

theorem State.eachDie_kept {s0 : State} (s : State) (f : Die → Die) (hs : Kept s0 s) : Kept s0 (State.eachDie s f) :=
  (State.eachDie_quiet s f (Quiet.refl _)).keeps hs

theorem State.slotFixed_quiet {s0 : State} (s : State) (d : Nat) (hs : Quiet s0 s) : Quiet s0 (State.slotFixed s d) := by
  unfold State.slotFixed
  repeat' (first
    | with_reducible assumption | with_reducible apply State.bump_quiet | with_reducible apply Quiet.ite
    | fail_if_no_progress intros | split)

theorem State.slotFixed_kept {s0 : State} (s : State) (d : Nat) (hs : Kept s0 s) : Kept s0 (State.slotFixed s d) :=
  (State.slotFixed_quiet s d (Quiet.refl _)).keeps hs

theorem runIdle_kept {s0 : State} (corrected : Option DieIdx) (s : State) (hs : Kept s0 s) : Kept s0 (runIdle corrected s) := by
  unfold runIdle
  repeat' (first
    | with_reducible assumption
    | (extract_lets +onlyGivenNames x; change State at x; refine Kept.cut (s0 := s0) x ?_ ?_; (on_goal 1 => dsimp only [x]; clear x); (on_goal 2 => intro hx; clear_value x))
    | (extract_lets +onlyGivenNames x; change _ × State at x; refine Kept.cut2 (s0 := s0) x ?_ ?_; (on_goal 1 => dsimp only [x]; clear x); (on_goal 2 => intro hx; clear_value x))
    | (extract_lets +onlyGivenNames x; clear_value x) | with_reducible apply State.slotFixed_kept
    | with_reducible apply State.hearAgain_kept | with_reducible apply State.sendFrame_kept
    | with_reducible apply State.fallDue_kept | with_reducible apply State.slotEnd_kept | with_reducible apply Kept.ite
    | fail_if_no_progress intros | fail_if_no_progress with_reducible apply Kept.upd
    | (with_reducible apply Kept.snd; with_reducible assumption) | dsimp only | split)

theorem State.latchShadows_quiet {s0 : State} (s : State) (hs : Quiet s0 s) : Quiet s0 (State.latchShadows s) := by
  unfold State.latchShadows
  repeat' (first
    | with_reducible assumption
    | (extract_lets +onlyGivenNames x; change State at x; refine Quiet.cut (s0 := s0) x ?_ ?_; (on_goal 1 => dsimp only [x]; clear x); (on_goal 2 => intro hx; clear_value x))
    | (extract_lets +onlyGivenNames x; change _ × State at x; refine Quiet.cut2 (s0 := s0) x ?_ ?_; (on_goal 1 => dsimp only [x]; clear x); (on_goal 2 => intro hx; clear_value x))
    | (extract_lets +onlyGivenNames x; clear_value x) | with_reducible apply State.eachDie_quiet
    | with_reducible apply State.setFld_quiet | with_reducible apply Quiet.ite | with_reducible apply Quiet.foldl
    | fail_if_no_progress intros | fail_if_no_progress with_reducible apply Quiet.upd | dsimp only | split)

theorem State.latchShadows_kept {s0 : State} (s : State) (hs : Kept s0 s) : Kept s0 (State.latchShadows s) :=
  (State.latchShadows_quiet s (Quiet.refl _)).keeps hs

theorem State.readerCapture_quiet {s0 : State} (s : State) (hs : Quiet s0 s) : Quiet s0 (State.readerCapture s) := by
  unfold State.readerCapture
  repeat' (first
    | with_reducible assumption
    | (extract_lets +onlyGivenNames x; change State at x; refine Quiet.cut (s0 := s0) x ?_ ?_; (on_goal 1 => dsimp only [x]; clear x); (on_goal 2 => intro hx; clear_value x))
    | (extract_lets +onlyGivenNames x; change _ × State at x; refine Quiet.cut2 (s0 := s0) x ?_ ?_; (on_goal 1 => dsimp only [x]; clear x); (on_goal 2 => intro hx; clear_value x))
    | (extract_lets +onlyGivenNames x; clear_value x) | with_reducible apply State.setFld_quiet
    | with_reducible apply State.setReg_quiet | with_reducible apply Quiet.ite | fail_if_no_progress intros | dsimp only
    | split)

theorem State.readerCapture_kept {s0 : State} (s : State) (hs : Kept s0 s) : Kept s0 (State.readerCapture s) :=
  (State.readerCapture_quiet s (Quiet.refl _)).keeps hs

theorem State.showFreeze_quiet {s0 : State} (s : State) (hs : Quiet s0 s) : Quiet s0 (State.showFreeze s) := by
  unfold State.showFreeze
  repeat' (first
    | with_reducible assumption | with_reducible apply State.setPair_quiet | with_reducible apply Quiet.ite
    | with_reducible apply Quiet.foldl | fail_if_no_progress intros | split)

theorem State.showFreeze_kept {s0 : State} (s : State) (hs : Kept s0 s) : Kept s0 (State.showFreeze s) :=
  (State.showFreeze_quiet s (Quiet.refl _)).keeps hs

theorem runFreeze_kept {s0 : State} (s : State) (hs : Kept s0 s) : Kept s0 (runFreeze s) := by
  unfold runFreeze
  repeat' (first
    | with_reducible assumption
    | (extract_lets +onlyGivenNames x; change State at x; refine Kept.cut (s0 := s0) x ?_ ?_; (on_goal 1 => dsimp only [x]; clear x); (on_goal 2 => intro hx; clear_value x))
    | (extract_lets +onlyGivenNames x; change _ × State at x; refine Kept.cut2 (s0 := s0) x ?_ ?_; (on_goal 1 => dsimp only [x]; clear x); (on_goal 2 => intro hx; clear_value x))
    | (extract_lets +onlyGivenNames x; clear_value x) | with_reducible apply State.showFreeze_kept
    | with_reducible apply State.readerCapture_kept | with_reducible apply State.latchShadows_kept
    | with_reducible apply State.applySymbol_kept | with_reducible apply State.setFld_kept | with_reducible apply Kept.ite
    | fail_if_no_progress intros | dsimp only | split)

theorem runThaw_kept {s0 : State} (s : State) (hs : Kept s0 s) : Kept s0 (runThaw s) := by
  unfold runThaw
  repeat' (first
    | with_reducible assumption | with_reducible apply State.eachDie_kept | with_reducible apply State.applySymbol_kept
    | fail_if_no_progress intros | fail_if_no_progress with_reducible apply Kept.upd)

theorem State.sendThaw_quiet {s0 : State} (s : State) (hs : Quiet s0 s) : Quiet s0 (State.sendThaw s) := by
  unfold State.sendThaw
  repeat' (first
    | with_reducible assumption | with_reducible apply State.bowSend_quiet | with_reducible apply Quiet.ite
    | fail_if_no_progress intros | fail_if_no_progress with_reducible apply Quiet.upd | split)

theorem State.freezeCmdWrite_quiet {s0 : State} (s : State) (port : Port) (data : W32) (hs : Quiet s0 s) : Quiet s0 (State.freezeCmdWrite s port data) := by
  unfold State.freezeCmdWrite
  repeat' (first
    | with_reducible assumption
    | (extract_lets +onlyGivenNames x; change State at x; refine Quiet.cut (s0 := s0) x ?_ ?_; (on_goal 1 => dsimp only [x]; clear x); (on_goal 2 => intro hx; clear_value x))
    | (extract_lets +onlyGivenNames x; change _ × State at x; refine Quiet.cut2 (s0 := s0) x ?_ ?_; (on_goal 1 => dsimp only [x]; clear x); (on_goal 2 => intro hx; clear_value x))
    | (extract_lets +onlyGivenNames x; clear_value x) | with_reducible apply State.sendThaw_quiet
    | with_reducible apply State.guardedWrite_quiet | with_reducible apply State.storeReg_quiet
    | with_reducible apply Quiet.ite | fail_if_no_progress intros | fail_if_no_progress with_reducible apply Quiet.upd
    | dsimp only | split)

theorem runFreezeArm_quiet {s0 : State} (port : Port) (data : W32) (s : State) (hs : Quiet s0 s) : Quiet s0 (runFreezeArm port data s) := by
  unfold runFreezeArm
  repeat' (first
    | with_reducible assumption | with_reducible apply State.freezeCmdWrite_quiet | fail_if_no_progress intros)

theorem runFreezeArm_kept {s0 : State} (port : Port) (data : W32) (s : State) (hs : Kept s0 s) : Kept s0 (runFreezeArm port data s) :=
  (runFreezeArm_quiet port data s (Quiet.refl _)).keeps hs

theorem runThawIssue_quiet {s0 : State} (port : Port) (data : W32) (s : State) (hs : Quiet s0 s) : Quiet s0 (runThawIssue port data s) := by
  unfold runThawIssue
  repeat' (first
    | with_reducible assumption | with_reducible apply State.freezeCmdWrite_quiet | fail_if_no_progress intros)

theorem State.showActive_quiet {s0 : State} (s : State) (hs : Quiet s0 s) : Quiet s0 (State.showActive s) := by
  unfold State.showActive
  repeat' (first
    | with_reducible assumption
    | (extract_lets +onlyGivenNames x; change State at x; refine Quiet.cut (s0 := s0) x ?_ ?_; (on_goal 1 => dsimp only [x]; clear x); (on_goal 2 => intro hx; clear_value x))
    | (extract_lets +onlyGivenNames x; change _ × State at x; refine Quiet.cut2 (s0 := s0) x ?_ ?_; (on_goal 1 => dsimp only [x]; clear x); (on_goal 2 => intro hx; clear_value x))
    | (extract_lets +onlyGivenNames x; clear_value x) | with_reducible apply State.setFld_quiet
    | with_reducible apply Quiet.ite | fail_if_no_progress intros | fail_if_no_progress with_reducible apply Quiet.upd
    | dsimp only | split)

theorem State.raiseEmergency_quiet {s0 : State} (s : State) (i : Nat) (hs : Quiet s0 s) : Quiet s0 (State.raiseEmergency s i) := by
  unfold State.raiseEmergency
  repeat' (first
    | with_reducible assumption
    | (extract_lets +onlyGivenNames x; change State at x; refine Quiet.cut (s0 := s0) x ?_ ?_; (on_goal 1 => dsimp only [x]; clear x); (on_goal 2 => intro hx; clear_value x))
    | (extract_lets +onlyGivenNames x; change _ × State at x; refine Quiet.cut2 (s0 := s0) x ?_ ?_; (on_goal 1 => dsimp only [x]; clear x); (on_goal 2 => intro hx; clear_value x))
    | (extract_lets +onlyGivenNames x; clear_value x) | with_reducible apply State.showActive_quiet
    | with_reducible apply State.refuseReleases_quiet | with_reducible apply State.bowSend_quiet
    | with_reducible apply State.setBit_quiet | with_reducible apply Quiet.ite | fail_if_no_progress intros
    | fail_if_no_progress with_reducible apply Quiet.upd | dsimp only | split)

theorem runEmergency_kept {s0 : State} (s : State) (hs : Kept s0 s) : Kept s0 (runEmergency s) := by
  unfold runEmergency
  repeat' (first
    | with_reducible assumption
    | (extract_lets +onlyGivenNames x; change State at x; refine Kept.cut (s0 := s0) x ?_ ?_; (on_goal 1 => dsimp only [x]; clear x); (on_goal 2 => intro hx; clear_value x))
    | (extract_lets +onlyGivenNames x; change _ × State at x; refine Kept.cut2 (s0 := s0) x ?_ ?_; (on_goal 1 => dsimp only [x]; clear x); (on_goal 2 => intro hx; clear_value x))
    | (extract_lets +onlyGivenNames x; clear_value x) | with_reducible apply State.eachDie_kept
    | with_reducible apply State.applySymbol_kept | with_reducible apply State.setFld_kept | fail_if_no_progress intros
    | fail_if_no_progress with_reducible apply Kept.upd | dsimp only)

theorem runEmergencyForce_quiet {s0 : State} (port : Port) (data : W32) (s : State) (hs : Quiet s0 s) : Quiet s0 (runEmergencyForce port data s) := by
  unfold runEmergencyForce
  repeat' (first
    | with_reducible assumption
    | (extract_lets +onlyGivenNames x; change State at x; refine Quiet.cut (s0 := s0) x ?_ ?_; (on_goal 1 => dsimp only [x]; clear x); (on_goal 2 => intro hx; clear_value x))
    | (extract_lets +onlyGivenNames x; change _ × State at x; refine Quiet.cut2 (s0 := s0) x ?_ ?_; (on_goal 1 => dsimp only [x]; clear x); (on_goal 2 => intro hx; clear_value x))
    | (extract_lets +onlyGivenNames x; clear_value x) | with_reducible apply State.raiseEmergency_quiet
    | with_reducible apply State.guardedWrite_quiet | with_reducible apply State.storeReg_quiet
    | with_reducible apply Quiet.ite | fail_if_no_progress intros | dsimp only | split)

theorem runEmergencyForce_kept {s0 : State} (port : Port) (data : W32) (s : State) (hs : Kept s0 s) : Kept s0 (runEmergencyForce port data s) :=
  (runEmergencyForce_quiet port data s (Quiet.refl _)).keeps hs

theorem runBowEmergWrite_quiet {s0 : State} (port : Port) (data : W32) (s : State) (hs : Quiet s0 s) : Quiet s0 (runBowEmergWrite port data s) := by
  unfold runBowEmergWrite
  repeat' (first
    | with_reducible assumption
    | (extract_lets +onlyGivenNames x; change State at x; refine Quiet.cut (s0 := s0) x ?_ ?_; (on_goal 1 => dsimp only [x]; clear x); (on_goal 2 => intro hx; clear_value x))
    | (extract_lets +onlyGivenNames x; change _ × State at x; refine Quiet.cut2 (s0 := s0) x ?_ ?_; (on_goal 1 => dsimp only [x]; clear x); (on_goal 2 => intro hx; clear_value x))
    | (extract_lets +onlyGivenNames x; clear_value x) | with_reducible apply State.guardedWrite_quiet
    | with_reducible apply State.storeReg_quiet | with_reducible apply State.fwFault_quiet | with_reducible apply Quiet.ite
    | with_reducible apply Quiet.foldl | fail_if_no_progress intros | dsimp only | split)

theorem runBowEmergWrite_kept {s0 : State} (port : Port) (data : W32) (s : State) (hs : Kept s0 s) : Kept s0 (runBowEmergWrite port data s) :=
  (runBowEmergWrite_quiet port data s (Quiet.refl _)).keeps hs

theorem runSkip_kept {s0 : State} (release : Bool) (div : BitVec 2) (m : BitVec 4) (s : State) (hs : Kept s0 s) : Kept s0 (runSkip release div m s) := by
  unfold runSkip
  repeat' (first
    | with_reducible assumption
    | (extract_lets +onlyGivenNames x; change State at x; refine Kept.cut (s0 := s0) x ?_ ?_; (on_goal 1 => dsimp only [x]; clear x); (on_goal 2 => intro hx; clear_value x))
    | (extract_lets +onlyGivenNames x; change _ × State at x; refine Kept.cut2 (s0 := s0) x ?_ ?_; (on_goal 1 => dsimp only [x]; clear x); (on_goal 2 => intro hx; clear_value x))
    | (extract_lets +onlyGivenNames x; clear_value x) | with_reducible apply State.eachDie_kept
    | with_reducible apply State.applySymbol_kept | with_reducible apply State.release_kept | with_reducible apply Kept.ite
    | fail_if_no_progress intros | fail_if_no_progress with_reducible apply Kept.upd | dsimp only | split)

theorem State.skipCmdWrite_quiet {s0 : State} (s : State) (port : Port) (data : W32) (hs : Quiet s0 s) : Quiet s0 (State.skipCmdWrite s port data) := by
  unfold State.skipCmdWrite
  repeat' (first
    | with_reducible assumption
    | (extract_lets +onlyGivenNames x; change State at x; refine Quiet.cut (s0 := s0) x ?_ ?_; (on_goal 1 => dsimp only [x]; clear x); (on_goal 2 => intro hx; clear_value x))
    | (extract_lets +onlyGivenNames x; change _ × State at x; refine Quiet.cut2 (s0 := s0) x ?_ ?_; (on_goal 1 => dsimp only [x]; clear x); (on_goal 2 => intro hx; clear_value x))
    | (extract_lets +onlyGivenNames x; clear_value x) | with_reducible apply State.bowSend_quiet
    | with_reducible apply State.guardedWrite_quiet | with_reducible apply State.fwFault_quiet | with_reducible apply Quiet.ite
    | fail_if_no_progress intros | dsimp only | split)

theorem runSkipIssue_quiet {s0 : State} (port : Port) (data : W32) (s : State) (hs : Quiet s0 s) : Quiet s0 (runSkipIssue port data s) := by
  unfold runSkipIssue
  repeat' (first
    | with_reducible assumption | with_reducible apply State.skipCmdWrite_quiet | fail_if_no_progress intros)

theorem runSkipIssue_kept {s0 : State} (port : Port) (data : W32) (s : State) (hs : Kept s0 s) : Kept s0 (runSkipIssue port data s) :=
  (runSkipIssue_quiet port data s (Quiet.refl _)).keeps hs

theorem runReleaseIssue_quiet {s0 : State} (port : Port) (data : W32) (s : State) (hs : Quiet s0 s) : Quiet s0 (runReleaseIssue port data s) := by
  unfold runReleaseIssue
  repeat' (first
    | with_reducible assumption | with_reducible apply State.skipCmdWrite_quiet | fail_if_no_progress intros)

theorem State.symbolLost_quiet {s0 : State} (s : State) (d symbol : Nat) (hs : Quiet s0 s) : Quiet s0 (State.symbolLost s d symbol) := by
  unfold State.symbolLost
  repeat' (first
    | with_reducible assumption | with_reducible apply State.jobFault_quiet | with_reducible apply State.modDie_quiet
    | with_reducible apply Quiet.ite | fail_if_no_progress intros | fail_if_no_progress with_reducible apply Quiet.upd | split)

theorem runBowSymbolUncorrectable_quiet {s0 : State} (d : DieIdx) (frame : BitVec 26) (s : State) (hs : Quiet s0 s) : Quiet s0 (runBowSymbolUncorrectable d frame s) := by
  unfold runBowSymbolUncorrectable
  repeat' (first
    | with_reducible assumption
    | (extract_lets +onlyGivenNames x; change State at x; refine Quiet.cut (s0 := s0) x ?_ ?_; (on_goal 1 => dsimp only [x]; clear x); (on_goal 2 => intro hx; clear_value x))
    | (extract_lets +onlyGivenNames x; change _ × State at x; refine Quiet.cut2 (s0 := s0) x ?_ ?_; (on_goal 1 => dsimp only [x]; clear x); (on_goal 2 => intro hx; clear_value x))
    | (extract_lets +onlyGivenNames x; clear_value x) | with_reducible apply State.symbolLost_quiet
    | with_reducible apply State.slotFixed_quiet | with_reducible apply Quiet.ite | fail_if_no_progress intros
    | fail_if_no_progress with_reducible apply Quiet.upd | (with_reducible apply Quiet.snd; with_reducible assumption)
    | dsimp only | split)

theorem runBowTimeFrame_quiet {s0 : State} (d : DieIdx) (frame : W64) (s : State) (hs : Quiet s0 s) : Quiet s0 (runBowTimeFrame d frame s) := by
  unfold runBowTimeFrame
  repeat' (first
    | with_reducible assumption
    | (extract_lets +onlyGivenNames x; change State at x; refine Quiet.cut (s0 := s0) x ?_ ?_; (on_goal 1 => dsimp only [x]; clear x); (on_goal 2 => intro hx; clear_value x))
    | (extract_lets +onlyGivenNames x; change _ × State at x; refine Quiet.cut2 (s0 := s0) x ?_ ?_; (on_goal 1 => dsimp only [x]; clear x); (on_goal 2 => intro hx; clear_value x))
    | (extract_lets +onlyGivenNames x; clear_value x) | with_reducible apply State.fault_quiet
    | with_reducible apply State.modDie_quiet | with_reducible apply Quiet.ite | fail_if_no_progress intros
    | fail_if_no_progress with_reducible apply Quiet.upd | dsimp only | split)

theorem State.toPeers_quiet {s0 : State} (s : State) (p : Nat) (code : Byte) (arg : Nat) (hs : Quiet s0 s) : Quiet s0 (State.toPeers s p code arg) := by
  unfold State.toPeers
  repeat' (first
    | with_reducible assumption | with_reducible apply State.queueOnLink_quiet | with_reducible apply Quiet.foldl
    | fail_if_no_progress intros)

theorem State.toPeers_kept {s0 : State} (s : State) (p : Nat) (code : Byte) (arg : Nat) (hs : Kept s0 s) : Kept s0 (State.toPeers s p code arg) :=
  (State.toPeers_quiet s p code arg (Quiet.refl _)).keeps hs

theorem State.barrierSend_quiet {s0 : State} (s : State) (p : Nat) (hs : Quiet s0 s) : Quiet s0 (State.barrierSend s p) := by
  unfold State.barrierSend
  repeat' (first
    | with_reducible assumption
    | (extract_lets +onlyGivenNames x; change State at x; refine Quiet.cut (s0 := s0) x ?_ ?_; (on_goal 1 => dsimp only [x]; clear x); (on_goal 2 => intro hx; clear_value x))
    | (extract_lets +onlyGivenNames x; change _ × State at x; refine Quiet.cut2 (s0 := s0) x ?_ ?_; (on_goal 1 => dsimp only [x]; clear x); (on_goal 2 => intro hx; clear_value x))
    | (extract_lets +onlyGivenNames x; clear_value x) | with_reducible apply State.toPeers_quiet
    | with_reducible apply State.modPart_quiet | with_reducible apply Quiet.ite | fail_if_no_progress intros
    | fail_if_no_progress with_reducible apply Quiet.upd | dsimp only | split)

theorem State.readyCheck_quiet {s0 : State} (s : State) (p : Nat) (hs : Quiet s0 s) : Quiet s0 (State.readyCheck s p) := by
  unfold State.readyCheck
  repeat' (first
    | with_reducible assumption
    | (extract_lets +onlyGivenNames x; change State at x; refine Quiet.cut (s0 := s0) x ?_ ?_; (on_goal 1 => dsimp only [x]; clear x); (on_goal 2 => intro hx; clear_value x))
    | (extract_lets +onlyGivenNames x; change _ × State at x; refine Quiet.cut2 (s0 := s0) x ?_ ?_; (on_goal 1 => dsimp only [x]; clear x); (on_goal 2 => intro hx; clear_value x))
    | (extract_lets +onlyGivenNames x; clear_value x) | with_reducible apply State.barrierSend_quiet
    | with_reducible apply State.modPart_quiet | with_reducible apply Quiet.ite | fail_if_no_progress intros
    | fail_if_no_progress with_reducible apply Quiet.upd | dsimp only | split)

theorem runDieReady_quiet {s0 : State} (p : PartIdx) (u : ReadyUnit) (s : State) (hs : Quiet s0 s) : Quiet s0 (runDieReady p u s) := by
  unfold runDieReady
  repeat' (first
    | with_reducible assumption | with_reducible apply State.readyCheck_quiet | with_reducible apply State.modPart_quiet
    | with_reducible apply Quiet.ite | fail_if_no_progress intros | fail_if_no_progress with_reducible apply Quiet.upd
    | (with_reducible apply Quiet.snd; with_reducible assumption) | split)

theorem runHold_kept {s0 : State} (p : PartIdx) (s : State) (hs : Kept s0 s) : Kept s0 (runHold p s) := by
  unfold runHold
  repeat' (first
    | with_reducible assumption
    | (extract_lets +onlyGivenNames x; change State at x; refine Kept.cut (s0 := s0) x ?_ ?_; (on_goal 1 => dsimp only [x]; clear x); (on_goal 2 => intro hx; clear_value x))
    | (extract_lets +onlyGivenNames x; change _ × State at x; refine Kept.cut2 (s0 := s0) x ?_ ?_; (on_goal 1 => dsimp only [x]; clear x); (on_goal 2 => intro hx; clear_value x))
    | (extract_lets +onlyGivenNames x; clear_value x) | with_reducible apply State.toPeers_kept
    | with_reducible apply State.applySymbol_kept | with_reducible apply State.modPart_kept
    | with_reducible apply State.setFld_kept | with_reducible apply Kept.ite | with_reducible apply Kept.foldl
    | fail_if_no_progress intros | fail_if_no_progress with_reducible apply Kept.upd
    | (with_reducible apply Kept.snd; with_reducible assumption) | dsimp only | split)

theorem State.jobEndPeers_quiet {s0 : State} (s : State) (p cls : Nat) (hs : Quiet s0 s) : Quiet s0 (State.jobEndPeers s p cls) := by
  unfold State.jobEndPeers
  repeat' (first
    | with_reducible assumption
    | (extract_lets +onlyGivenNames x; change State at x; refine Quiet.cut (s0 := s0) x ?_ ?_; (on_goal 1 => dsimp only [x]; clear x); (on_goal 2 => intro hx; clear_value x))
    | (extract_lets +onlyGivenNames x; change _ × State at x; refine Quiet.cut2 (s0 := s0) x ?_ ?_; (on_goal 1 => dsimp only [x]; clear x); (on_goal 2 => intro hx; clear_value x))
    | (extract_lets +onlyGivenNames x; clear_value x) | with_reducible apply State.toPeers_quiet
    | with_reducible apply State.jobEnd_quiet | with_reducible apply Quiet.ite | fail_if_no_progress intros | dsimp only
    | split)

theorem runHoldLimitExpiry_quiet {s0 : State} (p : PartIdx) (s : State) (hs : Quiet s0 s) : Quiet s0 (runHoldLimitExpiry p s) := by
  unfold runHoldLimitExpiry
  repeat' (first
    | with_reducible assumption
    | (extract_lets +onlyGivenNames x; change State at x; refine Quiet.cut (s0 := s0) x ?_ ?_; (on_goal 1 => dsimp only [x]; clear x); (on_goal 2 => intro hx; clear_value x))
    | (extract_lets +onlyGivenNames x; change _ × State at x; refine Quiet.cut2 (s0 := s0) x ?_ ?_; (on_goal 1 => dsimp only [x]; clear x); (on_goal 2 => intro hx; clear_value x))
    | (extract_lets +onlyGivenNames x; clear_value x) | with_reducible apply State.jobEndPeers_quiet
    | with_reducible apply State.fault_quiet | with_reducible apply Quiet.ite | fail_if_no_progress intros
    | fail_if_no_progress with_reducible apply Quiet.upd | (with_reducible apply Quiet.snd; with_reducible assumption)
    | dsimp only | split)

/-! ## Flash -/

theorem State.flashPut_quiet {s0 : State} (s : State) (off : Nat) (b : List Byte) (hs : Quiet s0 s) : Quiet s0 (State.flashPut s off b) := by
  unfold State.flashPut
  repeat' (first
    | with_reducible assumption | with_reducible apply Quiet.foldl | fail_if_no_progress intros
    | fail_if_no_progress with_reducible apply Quiet.upd)

theorem State.writeDir_quiet {s0 : State} (s : State) (d : Dir) (hs : Quiet s0 s) : Quiet s0 (State.writeDir s d) := by
  unfold State.writeDir
  repeat' (first
    | with_reducible assumption
    | (extract_lets +onlyGivenNames x; change State at x; refine Quiet.cut (s0 := s0) x ?_ ?_; (on_goal 1 => dsimp only [x]; clear x); (on_goal 2 => intro hx; clear_value x))
    | (extract_lets +onlyGivenNames x; change _ × State at x; refine Quiet.cut2 (s0 := s0) x ?_ ?_; (on_goal 1 => dsimp only [x]; clear x); (on_goal 2 => intro hx; clear_value x))
    | (extract_lets +onlyGivenNames x; clear_value x) | with_reducible apply State.flashPut_quiet | fail_if_no_progress intros
    | fail_if_no_progress with_reducible apply Quiet.upd | (with_reducible apply Quiet.snd; with_reducible assumption)
    | dsimp only | split)

theorem State.writeFences_quiet {s0 : State} (s : State) (hs : Quiet s0 s) : Quiet s0 (State.writeFences s) := by
  unfold State.writeFences
  repeat' (first
    | with_reducible assumption
    | (extract_lets +onlyGivenNames x; change State at x; refine Quiet.cut (s0 := s0) x ?_ ?_; (on_goal 1 => dsimp only [x]; clear x); (on_goal 2 => intro hx; clear_value x))
    | (extract_lets +onlyGivenNames x; change _ × State at x; refine Quiet.cut2 (s0 := s0) x ?_ ?_; (on_goal 1 => dsimp only [x]; clear x); (on_goal 2 => intro hx; clear_value x))
    | (extract_lets +onlyGivenNames x; clear_value x) | with_reducible apply State.flashPut_quiet
    | with_reducible apply Quiet.foldl | fail_if_no_progress intros | fail_if_no_progress with_reducible apply Quiet.upd
    | (with_reducible apply Quiet.snd; with_reducible assumption) | dsimp only | split)

theorem State.writeCal_quiet {s0 : State} (s : State) (l : List DiodeEntry) (hs : Quiet s0 s) : Quiet s0 (State.writeCal s l) := by
  unfold State.writeCal
  repeat' (first
    | with_reducible assumption
    | (extract_lets +onlyGivenNames x; change State at x; refine Quiet.cut (s0 := s0) x ?_ ?_; (on_goal 1 => dsimp only [x]; clear x); (on_goal 2 => intro hx; clear_value x))
    | (extract_lets +onlyGivenNames x; change _ × State at x; refine Quiet.cut2 (s0 := s0) x ?_ ?_; (on_goal 1 => dsimp only [x]; clear x); (on_goal 2 => intro hx; clear_value x))
    | (extract_lets +onlyGivenNames x; clear_value x) | with_reducible apply State.flashPut_quiet
    | with_reducible apply Quiet.foldl | fail_if_no_progress intros | fail_if_no_progress with_reducible apply Quiet.upd
    | (with_reducible apply Quiet.snd; with_reducible assumption) | dsimp only | split)

/-! ## Links -/

theorem State.showLink_quiet {s0 : State} (s : State) (l : Nat) (hs : Quiet s0 s) : Quiet s0 (State.showLink s l) := by
  unfold State.showLink
  repeat' (first
    | with_reducible assumption
    | (extract_lets +onlyGivenNames x; change State at x; refine Quiet.cut (s0 := s0) x ?_ ?_; (on_goal 1 => dsimp only [x]; clear x); (on_goal 2 => intro hx; clear_value x))
    | (extract_lets +onlyGivenNames x; change _ × State at x; refine Quiet.cut2 (s0 := s0) x ?_ ?_; (on_goal 1 => dsimp only [x]; clear x); (on_goal 2 => intro hx; clear_value x))
    | (extract_lets +onlyGivenNames x; clear_value x) | with_reducible apply State.setFld_quiet
    | with_reducible apply Quiet.ite | with_reducible apply Quiet.foldl | fail_if_no_progress intros | dsimp only | split)

theorem State.regroup_quiet {s0 : State} (s : State) (g : LGroup) (hs : Quiet s0 s) : Quiet s0 (State.regroup s g) := by
  unfold State.regroup
  repeat' (first
    | with_reducible assumption
    | (extract_lets +onlyGivenNames x; change State at x; refine Quiet.cut (s0 := s0) x ?_ ?_; (on_goal 1 => dsimp only [x]; clear x); (on_goal 2 => intro hx; clear_value x))
    | (extract_lets +onlyGivenNames x; change _ × State at x; refine Quiet.cut2 (s0 := s0) x ?_ ?_; (on_goal 1 => dsimp only [x]; clear x); (on_goal 2 => intro hx; clear_value x))
    | (extract_lets +onlyGivenNames x; clear_value x) | with_reducible apply State.modLane_quiet
    | with_reducible apply State.setLane_quiet | with_reducible apply Quiet.ite | with_reducible apply Quiet.foldl
    | fail_if_no_progress intros | fail_if_no_progress with_reducible apply Quiet.upd
    | (with_reducible apply Quiet.snd; with_reducible assumption) | dsimp only | split)

theorem State.sendPacket_quiet {s0 : State} (s : State) (g : Nat × LGroup) (i vc : Nat) (h : LinkHdr) (data : List Byte) (bad : List Nat) (hs : Quiet s0 s) : Quiet s0 (State.sendPacket s g i vc h data bad) := by
  unfold State.sendPacket
  repeat' (first
    | with_reducible assumption
    | (extract_lets +onlyGivenNames x; change State at x; refine Quiet.cut (s0 := s0) x ?_ ?_; (on_goal 1 => dsimp only [x]; clear x); (on_goal 2 => intro hx; clear_value x))
    | (extract_lets +onlyGivenNames x; change _ × State at x; refine Quiet.cut2 (s0 := s0) x ?_ ?_; (on_goal 1 => dsimp only [x]; clear x); (on_goal 2 => intro hx; clear_value x))
    | (extract_lets +onlyGivenNames x; clear_value x) | with_reducible apply State.regroup_quiet
    | with_reducible apply State.emit_quiet | with_reducible apply State.modLane_quiet | with_reducible apply Quiet.ite
    | fail_if_no_progress intros | fail_if_no_progress with_reducible apply Quiet.upd
    | (with_reducible apply Quiet.snd; with_reducible assumption) | dsimp only | split)

theorem State.sendPacket_kept {s0 : State} (s : State) (g : Nat × LGroup) (i vc : Nat) (h : LinkHdr) (data : List Byte) (bad : List Nat) (hs : Kept s0 s) : Kept s0 (State.sendPacket s g i vc h data bad) :=
  (State.sendPacket_quiet s g i vc h data bad (Quiet.refl _)).keeps hs

theorem State.trainLane_quiet {s0 : State} (s : State) (l n : Nat) (hs : Quiet s0 s) : Quiet s0 (State.trainLane s l n) := by
  unfold State.trainLane
  repeat' (first
    | with_reducible assumption | with_reducible apply State.showLink_quiet | with_reducible apply State.emit_quiet
    | with_reducible apply State.modLane_quiet | with_reducible apply Quiet.ite | fail_if_no_progress intros
    | fail_if_no_progress with_reducible apply Quiet.upd | split)

theorem State.laneFail_quiet {s0 : State} (s : State) (l n : Nat) (hs : Quiet s0 s) : Quiet s0 (State.laneFail s l n) := by
  unfold State.laneFail
  repeat' (first
    | with_reducible assumption
    | (extract_lets +onlyGivenNames x; change State at x; refine Quiet.cut (s0 := s0) x ?_ ?_; (on_goal 1 => dsimp only [x]; clear x); (on_goal 2 => intro hx; clear_value x))
    | (extract_lets +onlyGivenNames x; change _ × State at x; refine Quiet.cut2 (s0 := s0) x ?_ ?_; (on_goal 1 => dsimp only [x]; clear x); (on_goal 2 => intro hx; clear_value x))
    | (extract_lets +onlyGivenNames x; clear_value x) | with_reducible apply State.trainLane_quiet
    | with_reducible apply State.regroup_quiet | with_reducible apply State.showLink_quiet
    | with_reducible apply State.fault_quiet | with_reducible apply State.setLane_quiet | with_reducible apply State.bump_quiet
    | with_reducible apply State.setBit_quiet | with_reducible apply Quiet.ite | fail_if_no_progress intros
    | fail_if_no_progress with_reducible apply Quiet.upd | (with_reducible apply Quiet.snd; with_reducible assumption)
    | dsimp only | split)

theorem State.laneDark_quiet {s0 : State} (s : State) (l n : Nat) (hs : Quiet s0 s) : Quiet s0 (State.laneDark s l n) := by
  unfold State.laneDark
  repeat' (first
    | with_reducible assumption | with_reducible apply State.laneFail_quiet | with_reducible apply State.showLink_quiet
    | with_reducible apply State.modLane_quiet | fail_if_no_progress intros
    | fail_if_no_progress with_reducible apply Quiet.upd)

theorem runLaneSignalLoss_quiet {s0 : State} (l : LinkIdx) (n : LaneIdx) (s : State) (hs : Quiet s0 s) : Quiet s0 (runLaneSignalLoss l n s) := by
  unfold runLaneSignalLoss
  repeat' (first
    | with_reducible assumption | with_reducible apply State.laneFail_quiet | fail_if_no_progress intros)

theorem State.resendFrom_quiet {s0 : State} (s : State) (l n i : Nat) (hs : Quiet s0 s) : Quiet s0 (State.resendFrom s l n i) := by
  unfold State.resendFrom
  repeat' (first
    | with_reducible assumption
    | (extract_lets +onlyGivenNames x; change State at x; refine Quiet.cut (s0 := s0) x ?_ ?_; (on_goal 1 => dsimp only [x]; clear x); (on_goal 2 => intro hx; clear_value x))
    | (extract_lets +onlyGivenNames x; change _ × State at x; refine Quiet.cut2 (s0 := s0) x ?_ ?_; (on_goal 1 => dsimp only [x]; clear x); (on_goal 2 => intro hx; clear_value x))
    | (extract_lets +onlyGivenNames x; clear_value x) | with_reducible apply State.laneFail_quiet
    | with_reducible apply State.event_quiet | with_reducible apply State.setLane_quiet | with_reducible apply State.bump_quiet
    | with_reducible apply Quiet.ite | fail_if_no_progress intros | fail_if_no_progress with_reducible apply Quiet.upd
    | dsimp only | split)

theorem runLinkNak_quiet {s0 : State} (l : LinkIdx) (n : LaneIdx) (seq : BitVec 16) (s : State) (hs : Quiet s0 s) : Quiet s0 (runLinkNak l n seq s) := by
  unfold runLinkNak
  repeat' (first
    | with_reducible assumption
    | (extract_lets +onlyGivenNames x; change State at x; refine Quiet.cut (s0 := s0) x ?_ ?_; (on_goal 1 => dsimp only [x]; clear x); (on_goal 2 => intro hx; clear_value x))
    | (extract_lets +onlyGivenNames x; change _ × State at x; refine Quiet.cut2 (s0 := s0) x ?_ ?_; (on_goal 1 => dsimp only [x]; clear x); (on_goal 2 => intro hx; clear_value x))
    | (extract_lets +onlyGivenNames x; clear_value x) | with_reducible apply State.resendFrom_quiet
    | with_reducible apply Quiet.ite | fail_if_no_progress intros | fail_if_no_progress with_reducible apply Quiet.upd
    | (with_reducible apply Quiet.snd; with_reducible assumption) | dsimp only | split)

theorem runRetryTimeout_quiet {s0 : State} (l : LinkIdx) (n : LaneIdx) (s : State) (hs : Quiet s0 s) : Quiet s0 (runRetryTimeout l n s) := by
  unfold runRetryTimeout
  repeat' (first
    | with_reducible assumption
    | (extract_lets +onlyGivenNames x; change State at x; refine Quiet.cut (s0 := s0) x ?_ ?_; (on_goal 1 => dsimp only [x]; clear x); (on_goal 2 => intro hx; clear_value x))
    | (extract_lets +onlyGivenNames x; change _ × State at x; refine Quiet.cut2 (s0 := s0) x ?_ ?_; (on_goal 1 => dsimp only [x]; clear x); (on_goal 2 => intro hx; clear_value x))
    | (extract_lets +onlyGivenNames x; clear_value x) | with_reducible apply State.resendFrom_quiet
    | with_reducible apply Quiet.ite | fail_if_no_progress intros | dsimp only | split)

theorem State.nak_quiet {s0 : State} (s : State) (l n : Nat) (hs : Quiet s0 s) : Quiet s0 (State.nak s l n) := by
  unfold State.nak
  repeat' (first
    | with_reducible assumption
    | (extract_lets +onlyGivenNames x; change State at x; refine Quiet.cut (s0 := s0) x ?_ ?_; (on_goal 1 => dsimp only [x]; clear x); (on_goal 2 => intro hx; clear_value x))
    | (extract_lets +onlyGivenNames x; change _ × State at x; refine Quiet.cut2 (s0 := s0) x ?_ ?_; (on_goal 1 => dsimp only [x]; clear x); (on_goal 2 => intro hx; clear_value x))
    | (extract_lets +onlyGivenNames x; clear_value x) | with_reducible apply State.queueSymbol_quiet
    | with_reducible apply State.setLane_quiet | with_reducible apply Quiet.ite | fail_if_no_progress intros
    | fail_if_no_progress with_reducible apply Quiet.upd | (with_reducible apply Quiet.snd; with_reducible assumption)
    | dsimp only | split)

theorem runFlitReceive_quiet {s0 : State} (l : LinkIdx) (n : LaneIdx) (f : Flit) (s : State) (hs : Quiet s0 s) : Quiet s0 (runFlitReceive l n f s) := by
  unfold runFlitReceive
  repeat' (first
    | with_reducible assumption
    | (extract_lets +onlyGivenNames x; change State at x; refine Quiet.cut (s0 := s0) x ?_ ?_; (on_goal 1 => dsimp only [x]; clear x); (on_goal 2 => intro hx; clear_value x))
    | (extract_lets +onlyGivenNames x; change _ × State at x; refine Quiet.cut2 (s0 := s0) x ?_ ?_; (on_goal 1 => dsimp only [x]; clear x); (on_goal 2 => intro hx; clear_value x))
    | (extract_lets +onlyGivenNames x; clear_value x) | with_reducible apply State.nak_quiet
    | with_reducible apply State.event_quiet | with_reducible apply State.modLane_quiet | with_reducible apply State.bump_quiet
    | with_reducible apply State.setBit_quiet | with_reducible apply Quiet.ite | fail_if_no_progress intros
    | fail_if_no_progress with_reducible apply Quiet.upd | dsimp only | split)

theorem runLaneRetrainTimer_quiet {s0 : State} (l : LinkIdx) (n : LaneIdx) (s : State) (hs : Quiet s0 s) : Quiet s0 (runLaneRetrainTimer l n s) := by
  unfold runLaneRetrainTimer
  repeat' (first
    | with_reducible assumption
    | (extract_lets +onlyGivenNames x; change State at x; refine Quiet.cut (s0 := s0) x ?_ ?_; (on_goal 1 => dsimp only [x]; clear x); (on_goal 2 => intro hx; clear_value x))
    | (extract_lets +onlyGivenNames x; change _ × State at x; refine Quiet.cut2 (s0 := s0) x ?_ ?_; (on_goal 1 => dsimp only [x]; clear x); (on_goal 2 => intro hx; clear_value x))
    | (extract_lets +onlyGivenNames x; clear_value x) | with_reducible apply State.trainLane_quiet
    | with_reducible apply Quiet.ite | fail_if_no_progress intros | dsimp only | split)

theorem runLaneTrainingTimeout_quiet {s0 : State} (l : LinkIdx) (n : LaneIdx) (s : State) (hs : Quiet s0 s) : Quiet s0 (runLaneTrainingTimeout l n s) := by
  unfold runLaneTrainingTimeout
  repeat' (first
    | with_reducible assumption
    | (extract_lets +onlyGivenNames x; change State at x; refine Quiet.cut (s0 := s0) x ?_ ?_; (on_goal 1 => dsimp only [x]; clear x); (on_goal 2 => intro hx; clear_value x))
    | (extract_lets +onlyGivenNames x; change _ × State at x; refine Quiet.cut2 (s0 := s0) x ?_ ?_; (on_goal 1 => dsimp only [x]; clear x); (on_goal 2 => intro hx; clear_value x))
    | (extract_lets +onlyGivenNames x; clear_value x) | with_reducible apply State.showLink_quiet
    | with_reducible apply State.setLane_quiet | with_reducible apply Quiet.ite | fail_if_no_progress intros
    | fail_if_no_progress with_reducible apply Quiet.upd | dsimp only | split)

theorem runLinkTrainingComplete_quiet {s0 : State} (l : LinkIdx) (n : LaneIdx) (s : State) (hs : Quiet s0 s) : Quiet s0 (runLinkTrainingComplete l n s) := by
  unfold runLinkTrainingComplete
  repeat' (first
    | with_reducible assumption
    | (extract_lets +onlyGivenNames x; change State at x; refine Quiet.cut (s0 := s0) x ?_ ?_; (on_goal 1 => dsimp only [x]; clear x); (on_goal 2 => intro hx; clear_value x))
    | (extract_lets +onlyGivenNames x; change _ × State at x; refine Quiet.cut2 (s0 := s0) x ?_ ?_; (on_goal 1 => dsimp only [x]; clear x); (on_goal 2 => intro hx; clear_value x))
    | (extract_lets +onlyGivenNames x; clear_value x) | with_reducible apply State.regroup_quiet
    | with_reducible apply State.showLink_quiet | with_reducible apply State.armTimer_quiet
    | with_reducible apply State.setLane_quiet | with_reducible apply Quiet.ite | fail_if_no_progress intros
    | fail_if_no_progress with_reducible apply Quiet.upd | (with_reducible apply Quiet.snd; with_reducible assumption)
    | dsimp only | split)

theorem runIdentityRecord_quiet {s0 : State} (l : LinkIdx) (n : LaneIdx) (id : Identity) (s : State) (hs : Quiet s0 s) : Quiet s0 (runIdentityRecord l n id s) := by
  unfold runIdentityRecord
  repeat' (first
    | with_reducible assumption
    | (extract_lets +onlyGivenNames x; change State at x; refine Quiet.cut (s0 := s0) x ?_ ?_; (on_goal 1 => dsimp only [x]; clear x); (on_goal 2 => intro hx; clear_value x))
    | (extract_lets +onlyGivenNames x; change _ × State at x; refine Quiet.cut2 (s0 := s0) x ?_ ?_; (on_goal 1 => dsimp only [x]; clear x); (on_goal 2 => intro hx; clear_value x))
    | (extract_lets +onlyGivenNames x; clear_value x) | with_reducible apply State.regroup_quiet
    | with_reducible apply State.showLink_quiet | with_reducible apply State.fault_quiet
    | with_reducible apply State.setLane_quiet | with_reducible apply State.setPair_quiet
    | with_reducible apply State.setBit_quiet | with_reducible apply State.setReg_quiet | with_reducible apply Quiet.ite
    | fail_if_no_progress intros | fail_if_no_progress with_reducible apply Quiet.upd
    | (with_reducible apply Quiet.snd; with_reducible assumption) | dsimp only | split)

theorem runTimePing_quiet {s0 : State} (l : LinkIdx) (n : LaneIdx) (value : BitVec 24) (s : State) (hs : Quiet s0 s) : Quiet s0 (runTimePing l n value s) := by
  unfold runTimePing
  repeat' (first
    | with_reducible assumption
    | (extract_lets +onlyGivenNames x; change State at x; refine Quiet.cut (s0 := s0) x ?_ ?_; (on_goal 1 => dsimp only [x]; clear x); (on_goal 2 => intro hx; clear_value x))
    | (extract_lets +onlyGivenNames x; change _ × State at x; refine Quiet.cut2 (s0 := s0) x ?_ ?_; (on_goal 1 => dsimp only [x]; clear x); (on_goal 2 => intro hx; clear_value x))
    | (extract_lets +onlyGivenNames x; clear_value x) | with_reducible apply State.queueSymbol_quiet
    | with_reducible apply Quiet.ite | fail_if_no_progress intros | dsimp only | split)

theorem State.latencyDone_quiet {s0 : State} (s : State) (l n : Nat) (hs : Quiet s0 s) : Quiet s0 (State.latencyDone s l n) := by
  unfold State.latencyDone
  repeat' (first
    | with_reducible assumption
    | (extract_lets +onlyGivenNames x; change State at x; refine Quiet.cut (s0 := s0) x ?_ ?_; (on_goal 1 => dsimp only [x]; clear x); (on_goal 2 => intro hx; clear_value x))
    | (extract_lets +onlyGivenNames x; change _ × State at x; refine Quiet.cut2 (s0 := s0) x ?_ ?_; (on_goal 1 => dsimp only [x]; clear x); (on_goal 2 => intro hx; clear_value x))
    | (extract_lets +onlyGivenNames x; clear_value x) | with_reducible apply State.modLane_quiet
    | with_reducible apply State.setBit_quiet | with_reducible apply State.setFld_quiet
    | with_reducible apply State.setReg_quiet | with_reducible apply Quiet.ite | with_reducible apply Quiet.foldl
    | fail_if_no_progress intros | fail_if_no_progress with_reducible apply Quiet.upd
    | (with_reducible apply Quiet.snd; with_reducible assumption) | dsimp only | split)

theorem runTimeEcho_quiet {s0 : State} (l : LinkIdx) (n : LaneIdx) (value arrival : BitVec 24) (turnaround : Nat) (s : State) (hs : Quiet s0 s) : Quiet s0 (runTimeEcho l n value arrival turnaround s) := by
  unfold runTimeEcho
  repeat' (first
    | with_reducible assumption
    | (extract_lets +onlyGivenNames x; change State at x; refine Quiet.cut (s0 := s0) x ?_ ?_; (on_goal 1 => dsimp only [x]; clear x); (on_goal 2 => intro hx; clear_value x))
    | (extract_lets +onlyGivenNames x; change _ × State at x; refine Quiet.cut2 (s0 := s0) x ?_ ?_; (on_goal 1 => dsimp only [x]; clear x); (on_goal 2 => intro hx; clear_value x))
    | (extract_lets +onlyGivenNames x; clear_value x) | with_reducible apply State.latencyDone_quiet
    | with_reducible apply State.setLane_quiet | with_reducible apply State.drawB_quiet | with_reducible apply Quiet.ite
    | fail_if_no_progress intros | fail_if_no_progress with_reducible apply Quiet.upd | dsimp only | split)

theorem runLatencyMeasureTimer_quiet {s0 : State} (l : LinkIdx) (n : LaneIdx) (s : State) (hs : Quiet s0 s) : Quiet s0 (runLatencyMeasureTimer l n s) := by
  unfold runLatencyMeasureTimer
  repeat' (first
    | with_reducible assumption
    | (extract_lets +onlyGivenNames x; change State at x; refine Quiet.cut (s0 := s0) x ?_ ?_; (on_goal 1 => dsimp only [x]; clear x); (on_goal 2 => intro hx; clear_value x))
    | (extract_lets +onlyGivenNames x; change _ × State at x; refine Quiet.cut2 (s0 := s0) x ?_ ?_; (on_goal 1 => dsimp only [x]; clear x); (on_goal 2 => intro hx; clear_value x))
    | (extract_lets +onlyGivenNames x; clear_value x) | with_reducible apply State.armTimer_quiet
    | with_reducible apply State.setLane_quiet | with_reducible apply Quiet.ite | fail_if_no_progress intros
    | fail_if_no_progress with_reducible apply Quiet.upd | dsimp only | split)

theorem State.firstCopy_quiet {s0 : State} (s : State) (l code arg : Nat) (f : Nat × LGroup → State → State) (hs : Quiet s0 s) (hf : ∀ (a0 : Nat × LGroup) (a1 : State), Quiet s0 a1 → Quiet s0 (f a0 a1)) : Quiet s0 (State.firstCopy s l code arg f) := by
  unfold State.firstCopy
  repeat' (first
    | with_reducible assumption
    | (extract_lets +onlyGivenNames x; change State at x; refine Quiet.cut (s0 := s0) x ?_ ?_; (on_goal 1 => dsimp only [x]; clear x); (on_goal 2 => intro hx; clear_value x))
    | (extract_lets +onlyGivenNames x; change _ × State at x; refine Quiet.cut2 (s0 := s0) x ?_ ?_; (on_goal 1 => dsimp only [x]; clear x); (on_goal 2 => intro hx; clear_value x))
    | (extract_lets +onlyGivenNames x; clear_value x) | with_reducible apply hf | with_reducible apply State.modLane_quiet
    | with_reducible apply Quiet.ite | fail_if_no_progress intros | fail_if_no_progress with_reducible apply Quiet.upd
    | (with_reducible apply Quiet.snd; with_reducible assumption) | dsimp only | split)

theorem State.firstCopy_kept {s0 : State} (s : State) (l code arg : Nat) (f : Nat × LGroup → State → State) (hs : Kept s0 s) (hf : ∀ (a0 : Nat × LGroup) (a1 : State), Kept s0 a1 → Kept s0 (f a0 a1)) : Kept s0 (State.firstCopy s l code arg f) := by
  unfold State.firstCopy
  repeat' (first
    | with_reducible assumption
    | (extract_lets +onlyGivenNames x; change State at x; refine Kept.cut (s0 := s0) x ?_ ?_; (on_goal 1 => dsimp only [x]; clear x); (on_goal 2 => intro hx; clear_value x))
    | (extract_lets +onlyGivenNames x; change _ × State at x; refine Kept.cut2 (s0 := s0) x ?_ ?_; (on_goal 1 => dsimp only [x]; clear x); (on_goal 2 => intro hx; clear_value x))
    | (extract_lets +onlyGivenNames x; clear_value x) | with_reducible apply hf | with_reducible apply State.modLane_kept
    | with_reducible apply Kept.ite | fail_if_no_progress intros | fail_if_no_progress with_reducible apply Kept.upd
    | (with_reducible apply Kept.snd; with_reducible assumption) | dsimp only | split)

theorem runLinkBarrier_quiet {s0 : State} (l : LinkIdx) (arg : BitVec 24) (s : State) (hs : Quiet s0 s) : Quiet s0 (runLinkBarrier l arg s) := by
  unfold runLinkBarrier
  repeat' (first
    | with_reducible assumption
    | (extract_lets +onlyGivenNames x; change State at x; refine Quiet.cut (s0 := s0) x ?_ ?_; (on_goal 1 => dsimp only [x]; clear x); (on_goal 2 => intro hx; clear_value x))
    | (extract_lets +onlyGivenNames x; change _ × State at x; refine Quiet.cut2 (s0 := s0) x ?_ ?_; (on_goal 1 => dsimp only [x]; clear x); (on_goal 2 => intro hx; clear_value x))
    | (extract_lets +onlyGivenNames x; clear_value x) | with_reducible apply State.firstCopy_quiet
    | with_reducible apply State.modPart_quiet | with_reducible apply Quiet.ite | fail_if_no_progress intros
    | fail_if_no_progress with_reducible apply Quiet.upd | dsimp only | split)

theorem runLinkHold_quiet {s0 : State} (l : LinkIdx) (arg : BitVec 24) (s : State) (hs : Quiet s0 s) : Quiet s0 (runLinkHold l arg s) := by
  unfold runLinkHold
  repeat' (first
    | with_reducible assumption | with_reducible apply State.firstCopy_quiet | with_reducible apply State.modLane_quiet
    | fail_if_no_progress intros | fail_if_no_progress with_reducible apply Quiet.upd)

theorem runLinkJobEnd_quiet {s0 : State} (l : LinkIdx) (arg : BitVec 24) (s : State) (hs : Quiet s0 s) : Quiet s0 (runLinkJobEnd l arg s) := by
  unfold runLinkJobEnd
  repeat' (first
    | with_reducible assumption | with_reducible apply State.firstCopy_quiet | with_reducible apply State.jobFault_quiet
    | with_reducible apply Quiet.ite | fail_if_no_progress intros | split)

theorem runLinkTransferStart_quiet {s0 : State} (p : PartIdx) (xfer : Nat) (s : State) (hs : Quiet s0 s) : Quiet s0 (runLinkTransferStart p xfer s) := by
  unfold runLinkTransferStart
  repeat' (first
    | with_reducible assumption
    | (extract_lets +onlyGivenNames x; change State at x; refine Quiet.cut (s0 := s0) x ?_ ?_; (on_goal 1 => dsimp only [x]; clear x); (on_goal 2 => intro hx; clear_value x))
    | (extract_lets +onlyGivenNames x; change _ × State at x; refine Quiet.cut2 (s0 := s0) x ?_ ?_; (on_goal 1 => dsimp only [x]; clear x); (on_goal 2 => intro hx; clear_value x))
    | (extract_lets +onlyGivenNames x; clear_value x) | with_reducible apply State.sendPacket_quiet
    | with_reducible apply State.modPart_quiet | with_reducible apply Quiet.ite | with_reducible apply Quiet.foldl
    | fail_if_no_progress intros | fail_if_no_progress with_reducible apply Quiet.upd
    | (with_reducible apply Quiet.snd; with_reducible assumption) | dsimp only | split)

theorem State.sendAck_quiet {s0 : State} (s : State) (g : Nat) (channel xfer : Nat) (hs : Quiet s0 s) : Quiet s0 (State.sendAck s g channel xfer) := by
  unfold State.sendAck
  repeat' (first
    | with_reducible assumption | with_reducible apply State.sendPacket_quiet | fail_if_no_progress intros
    | fail_if_no_progress with_reducible apply Quiet.upd | (with_reducible apply Quiet.snd; with_reducible assumption) | split)

theorem State.sendAck_kept {s0 : State} (s : State) (g : Nat) (channel xfer : Nat) (hs : Kept s0 s) : Kept s0 (State.sendAck s g channel xfer) :=
  (State.sendAck_quiet s g channel xfer (Quiet.refl _)).keeps hs

theorem State.notify_quiet {s0 : State} (s : State) (t : TileId) (n : Nat) (hs : Quiet s0 s) : Quiet s0 (State.notify s t n) := by
  unfold State.notify
  repeat' (first
    | with_reducible assumption | with_reducible apply State.landOne_quiet | with_reducible apply Quiet.ite
    | fail_if_no_progress intros | split)

theorem State.notify_kept {s0 : State} (s : State) (t : TileId) (n : Nat) (hs : Kept s0 s) : Kept s0 (State.notify s t n) :=
  (State.notify_quiet s t n (Quiet.refl _)).keeps hs

theorem State.transferDone_quiet {s0 : State} (s : State) (p g : Nat) (h : LinkHdr) (hs : Quiet s0 s) : Quiet s0 (State.transferDone s p g h) := by
  unfold State.transferDone
  repeat' (first
    | with_reducible assumption
    | (extract_lets +onlyGivenNames x; change State at x; refine Quiet.cut (s0 := s0) x ?_ ?_; (on_goal 1 => dsimp only [x]; clear x); (on_goal 2 => intro hx; clear_value x))
    | (extract_lets +onlyGivenNames x; change _ × State at x; refine Quiet.cut2 (s0 := s0) x ?_ ?_; (on_goal 1 => dsimp only [x]; clear x); (on_goal 2 => intro hx; clear_value x))
    | (extract_lets +onlyGivenNames x; clear_value x) | with_reducible apply State.notify_quiet
    | with_reducible apply State.sendAck_quiet | with_reducible apply State.modPart_quiet | with_reducible apply Quiet.ite
    | fail_if_no_progress intros | fail_if_no_progress with_reducible apply Quiet.upd | dsimp only | split)

theorem State.transferDone_kept {s0 : State} (s : State) (p g : Nat) (h : LinkHdr) (hs : Kept s0 s) : Kept s0 (State.transferDone s p g h) :=
  (State.transferDone_quiet s p g h (Quiet.refl _)).keeps hs

theorem State.setPacket_kept {s0 : State} (s : State) (a : Nat) (data : List Byte) (bad : List Nat) (hs : Kept s0 s) : Kept s0 (State.setPacket s a data bad) := by
  unfold State.setPacket
  repeat' (first
    | with_reducible assumption
    | (extract_lets +onlyGivenNames x; change State at x; refine Kept.cut (s0 := s0) x ?_ ?_; (on_goal 1 => dsimp only [x]; clear x); (on_goal 2 => intro hx; clear_value x))
    | (extract_lets +onlyGivenNames x; change _ × State at x; refine Kept.cut2 (s0 := s0) x ?_ ?_; (on_goal 1 => dsimp only [x]; clear x); (on_goal 2 => intro hx; clear_value x))
    | (extract_lets +onlyGivenNames x; clear_value x) | with_reducible apply State.setBytesP_kept
    | with_reducible apply Kept.foldl | fail_if_no_progress intros | dsimp only)

theorem runLinkJobWrite_kept {s0 : State} (l : LinkIdx) (h : LinkHdr) (data : List Byte) (bad : List Nat) (s : State) (hs : Kept s0 s) : Kept s0 (runLinkJobWrite l h data bad s) := by
  unfold runLinkJobWrite
  repeat' (first
    | with_reducible assumption
    | (extract_lets +onlyGivenNames x; change State at x; refine Kept.cut (s0 := s0) x ?_ ?_; (on_goal 1 => dsimp only [x]; clear x); (on_goal 2 => intro hx; clear_value x))
    | (extract_lets +onlyGivenNames x; change _ × State at x; refine Kept.cut2 (s0 := s0) x ?_ ?_; (on_goal 1 => dsimp only [x]; clear x); (on_goal 2 => intro hx; clear_value x))
    | (extract_lets +onlyGivenNames x; clear_value x) | with_reducible apply State.setPacket_kept
    | with_reducible apply State.transferDone_kept | with_reducible apply State.jobFault_kept
    | with_reducible apply State.setPart_kept | with_reducible apply Kept.ite | fail_if_no_progress intros
    | fail_if_no_progress with_reducible apply Kept.upd | (with_reducible apply Kept.snd; with_reducible assumption)
    | dsimp only | split)

theorem runLinkJobAck_quiet {s0 : State} (l : LinkIdx) (h : LinkHdr) (s : State) (hs : Quiet s0 s) : Quiet s0 (runLinkJobAck l h s) := by
  unfold runLinkJobAck
  repeat' (first
    | with_reducible assumption
    | (extract_lets +onlyGivenNames x; change State at x; refine Quiet.cut (s0 := s0) x ?_ ?_; (on_goal 1 => dsimp only [x]; clear x); (on_goal 2 => intro hx; clear_value x))
    | (extract_lets +onlyGivenNames x; change _ × State at x; refine Quiet.cut2 (s0 := s0) x ?_ ?_; (on_goal 1 => dsimp only [x]; clear x); (on_goal 2 => intro hx; clear_value x))
    | (extract_lets +onlyGivenNames x; clear_value x) | with_reducible apply State.barrierSend_quiet
    | with_reducible apply State.modPart_quiet | fail_if_no_progress intros
    | fail_if_no_progress with_reducible apply Quiet.upd | (with_reducible apply Quiet.snd; with_reducible assumption)
    | dsimp only | split)

theorem State.storeRequest_quiet {s0 : State} (s : State) (l : Nat) (h : LinkHdr) (f : Nat × LGroup → Nat → State → State) (hs : Quiet s0 s) (hf : ∀ (a0 : Nat × LGroup) (a1 : Nat) (a2 : State), Quiet s0 a2 → Quiet s0 (f a0 a1 a2)) : Quiet s0 (State.storeRequest s l h f) := by
  unfold State.storeRequest
  repeat' (first
    | with_reducible assumption | with_reducible apply hf | with_reducible apply State.sendPacket_quiet
    | with_reducible apply State.setBit_quiet | with_reducible apply Quiet.ite | fail_if_no_progress intros
    | fail_if_no_progress with_reducible apply Quiet.upd | (with_reducible apply Quiet.snd; with_reducible assumption) | split)

theorem State.storeRequest_kept {s0 : State} (s : State) (l : Nat) (h : LinkHdr) (f : Nat × LGroup → Nat → State → State) (hs : Kept s0 s) (hf : ∀ (a0 : Nat × LGroup) (a1 : Nat) (a2 : State), Kept s0 a2 → Kept s0 (f a0 a1 a2)) : Kept s0 (State.storeRequest s l h f) := by
  unfold State.storeRequest
  repeat' (first
    | with_reducible assumption | with_reducible apply hf | with_reducible apply State.sendPacket_kept
    | with_reducible apply State.setBit_kept | with_reducible apply Kept.ite | fail_if_no_progress intros
    | fail_if_no_progress with_reducible apply Kept.upd | (with_reducible apply Kept.snd; with_reducible assumption) | split)

theorem runLinkStoreWrite_kept {s0 : State} (l : LinkIdx) (h : LinkHdr) (data : List Byte) (s : State) (hs : Kept s0 s) : Kept s0 (runLinkStoreWrite l h data s) := by
  unfold runLinkStoreWrite
  repeat' (first
    | with_reducible assumption | with_reducible apply State.storeRequest_kept | with_reducible apply State.setBytes_kept
    | fail_if_no_progress intros)

theorem runLinkStoreReadReq_quiet {s0 : State} (l : LinkIdx) (h : LinkHdr) (s : State) (hs : Quiet s0 s) : Quiet s0 (runLinkStoreReadReq l h s) := by
  unfold runLinkStoreReadReq
  repeat' (first
    | with_reducible assumption | with_reducible apply State.storeRequest_quiet | with_reducible apply State.sendPacket_quiet
    | with_reducible apply State.childAsk_quiet | fail_if_no_progress intros
    | fail_if_no_progress with_reducible apply Quiet.upd | (with_reducible apply Quiet.snd; with_reducible assumption) | split)

theorem runLinkStoreRefusal_quiet {s0 : State} (l : LinkIdx) (_h : LinkHdr) (s : State) (hs : Quiet s0 s) : Quiet s0 (runLinkStoreRefusal l _h s) := by
  unfold runLinkStoreRefusal
  repeat' (first
    | with_reducible assumption | with_reducible apply State.setBit_quiet | with_reducible apply Quiet.ite
    | fail_if_no_progress intros | fail_if_no_progress with_reducible apply Quiet.upd
    | (with_reducible apply Quiet.snd; with_reducible assumption) | split)

theorem State.chanWrite_quiet {s0 : State} (s : State) (port : Port) (k : RegKey) (d : Nat) (hs : Quiet s0 s) : Quiet s0 (State.chanWrite s port k d) := by
  unfold State.chanWrite
  repeat' (first
    | with_reducible assumption
    | (extract_lets +onlyGivenNames x; change State at x; refine Quiet.cut (s0 := s0) x ?_ ?_; (on_goal 1 => dsimp only [x]; clear x); (on_goal 2 => intro hx; clear_value x))
    | (extract_lets +onlyGivenNames x; change _ × State at x; refine Quiet.cut2 (s0 := s0) x ?_ ?_; (on_goal 1 => dsimp only [x]; clear x); (on_goal 2 => intro hx; clear_value x))
    | (extract_lets +onlyGivenNames x; clear_value x) | with_reducible apply State.guardedWrite_quiet
    | with_reducible apply State.storeReg_quiet | with_reducible apply State.fwFault_quiet | with_reducible apply Quiet.ite
    | fail_if_no_progress intros | dsimp only | split)

theorem runLinkChannelWrite_quiet {s0 : State} (port : Port) (c : Fin 64) (word : Fin 3) (data : W32) (s : State) (hs : Quiet s0 s) : Quiet s0 (runLinkChannelWrite port c word data s) := by
  unfold runLinkChannelWrite
  repeat' (first
    | with_reducible assumption
    | (extract_lets +onlyGivenNames x; change State at x; refine Quiet.cut (s0 := s0) x ?_ ?_; (on_goal 1 => dsimp only [x]; clear x); (on_goal 2 => intro hx; clear_value x))
    | (extract_lets +onlyGivenNames x; change _ × State at x; refine Quiet.cut2 (s0 := s0) x ?_ ?_; (on_goal 1 => dsimp only [x]; clear x); (on_goal 2 => intro hx; clear_value x))
    | (extract_lets +onlyGivenNames x; clear_value x) | with_reducible apply State.chanWrite_quiet | fail_if_no_progress intros
    | fail_if_no_progress with_reducible apply Quiet.upd | (with_reducible apply Quiet.snd; with_reducible assumption)
    | dsimp only | split)

theorem runLinkChannelWrite_kept {s0 : State} (port : Port) (c : Fin 64) (word : Fin 3) (data : W32) (s : State) (hs : Kept s0 s) : Kept s0 (runLinkChannelWrite port c word data s) :=
  (runLinkChannelWrite_quiet port c word data s (Quiet.refl _)).keeps hs

/-! ## ServicePorts -/

theorem State.ethViolation_quiet {s0 : State} (s : State) (port : Nat) (hs : Quiet s0 s) : Quiet s0 (State.ethViolation s port) := by
  unfold State.ethViolation
  repeat' (first
    | with_reducible assumption | with_reducible apply State.bump_quiet | fail_if_no_progress intros)

theorem State.ethViolation_kept {s0 : State} (s : State) (port : Nat) (hs : Kept s0 s) : Kept s0 (State.ethViolation s port) :=
  (State.ethViolation_quiet s port (Quiet.refl _)).keeps hs

theorem State.dropFrame_quiet {s0 : State} (s : State) (port lo : Nat) (hs : Quiet s0 s) : Quiet s0 (State.dropFrame s port lo) := by
  unfold State.dropFrame
  repeat' (first
    | with_reducible assumption | with_reducible apply State.event_quiet | with_reducible apply State.bump_quiet
    | fail_if_no_progress intros)

theorem runEthFrameReceive_quiet {s0 : State} (port : BrimDie) (f : EthFrame) (s : State) (hs : Quiet s0 s) : Quiet s0 (runEthFrameReceive port f s) := by
  unfold runEthFrameReceive
  repeat' (first
    | with_reducible assumption
    | (extract_lets +onlyGivenNames x; change State at x; refine Quiet.cut (s0 := s0) x ?_ ?_; (on_goal 1 => dsimp only [x]; clear x); (on_goal 2 => intro hx; clear_value x))
    | (extract_lets +onlyGivenNames x; change _ × State at x; refine Quiet.cut2 (s0 := s0) x ?_ ?_; (on_goal 1 => dsimp only [x]; clear x); (on_goal 2 => intro hx; clear_value x))
    | (extract_lets +onlyGivenNames x; clear_value x) | with_reducible apply State.dropFrame_quiet
    | with_reducible apply State.ethViolation_quiet | with_reducible apply State.event_quiet
    | with_reducible apply State.setBit_quiet | with_reducible apply Quiet.ite | fail_if_no_progress intros | dsimp only
    | split)

theorem runArpRequest_quiet {s0 : State} (port : BrimDie) (target : BitVec 32) (src : PeerAddr) (s : State) (hs : Quiet s0 s) : Quiet s0 (runArpRequest port target src s) := by
  unfold runArpRequest
  repeat' (first
    | with_reducible assumption
    | (extract_lets +onlyGivenNames x; change State at x; refine Quiet.cut (s0 := s0) x ?_ ?_; (on_goal 1 => dsimp only [x]; clear x); (on_goal 2 => intro hx; clear_value x))
    | (extract_lets +onlyGivenNames x; change _ × State at x; refine Quiet.cut2 (s0 := s0) x ?_ ?_; (on_goal 1 => dsimp only [x]; clear x); (on_goal 2 => intro hx; clear_value x))
    | (extract_lets +onlyGivenNames x; clear_value x) | with_reducible apply State.emit_quiet | with_reducible apply Quiet.ite
    | fail_if_no_progress intros | dsimp only | split)

theorem runNeighbourSolicitation_quiet {s0 : State} (port : BrimDie) (target : BitVec 128) (src : PeerAddr) (s : State) (hs : Quiet s0 s) : Quiet s0 (runNeighbourSolicitation port target src s) := by
  unfold runNeighbourSolicitation
  repeat' (first
    | with_reducible assumption
    | (extract_lets +onlyGivenNames x; change State at x; refine Quiet.cut (s0 := s0) x ?_ ?_; (on_goal 1 => dsimp only [x]; clear x); (on_goal 2 => intro hx; clear_value x))
    | (extract_lets +onlyGivenNames x; change _ × State at x; refine Quiet.cut2 (s0 := s0) x ?_ ?_; (on_goal 1 => dsimp only [x]; clear x); (on_goal 2 => intro hx; clear_value x))
    | (extract_lets +onlyGivenNames x; clear_value x) | with_reducible apply State.emit_quiet | with_reducible apply Quiet.ite
    | fail_if_no_progress intros | dsimp only | split)

theorem State.replayTrim_quiet {s0 : State} (n port : Nat) (s : State) (hs : Quiet s0 s) : Quiet s0 (State.replayTrim n port s) := by
  induction n generalizing s with
  | zero => exact hs
  | succ n ih =>
    unfold State.replayTrim
    repeat' (first | exact hs | exact ih _ (State.setChan_quiet _ _ _ _ (Quiet.upd hs)) | split | dsimp only)

theorem State.ospSend_quiet {s0 : State} (s : State) (port c : Nat) (m : Msg) (hs : Quiet s0 s) : Quiet s0 (State.ospSend s port c m) := by
  unfold State.ospSend
  repeat' (first
    | with_reducible assumption
    | (extract_lets +onlyGivenNames x; change State at x; refine Quiet.cut (s0 := s0) x ?_ ?_; (on_goal 1 => dsimp only [x]; clear x); (on_goal 2 => intro hx; clear_value x))
    | (extract_lets +onlyGivenNames x; change _ × State at x; refine Quiet.cut2 (s0 := s0) x ?_ ?_; (on_goal 1 => dsimp only [x]; clear x); (on_goal 2 => intro hx; clear_value x))
    | (extract_lets +onlyGivenNames x; clear_value x) | with_reducible apply State.replayTrim_quiet
    | with_reducible apply State.emit_quiet | with_reducible apply State.setChan_quiet | with_reducible apply Quiet.ite
    | fail_if_no_progress intros | fail_if_no_progress with_reducible apply Quiet.upd | dsimp only | split)

theorem State.ospAck_quiet {s0 : State} (s : State) (port c ack : Nat) (hs : Quiet s0 s) : Quiet s0 (State.ospAck s port c ack) := by
  unfold State.ospAck
  repeat' (first
    | with_reducible assumption | with_reducible apply Quiet.ite | fail_if_no_progress intros
    | fail_if_no_progress with_reducible apply Quiet.upd | split)

theorem State.ospAck_kept {s0 : State} (s : State) (port c ack : Nat) (hs : Kept s0 s) : Kept s0 (State.ospAck s port c ack) :=
  (State.ospAck_quiet s port c ack (Quiet.refl _)).keeps hs

theorem State.dropSubmit_quiet {s0 : State} (s : State) (port c : Nat) (hs : Quiet s0 s) : Quiet s0 (State.dropSubmit s port c) := by
  unfold State.dropSubmit
  repeat' (first
    | with_reducible assumption
    | (extract_lets +onlyGivenNames x; change State at x; refine Quiet.cut (s0 := s0) x ?_ ?_; (on_goal 1 => dsimp only [x]; clear x); (on_goal 2 => intro hx; clear_value x))
    | (extract_lets +onlyGivenNames x; change _ × State at x; refine Quiet.cut2 (s0 := s0) x ?_ ?_; (on_goal 1 => dsimp only [x]; clear x); (on_goal 2 => intro hx; clear_value x))
    | (extract_lets +onlyGivenNames x; clear_value x) | with_reducible apply State.ethViolation_quiet
    | with_reducible apply State.setChan_quiet | with_reducible apply State.setBit_quiet | with_reducible apply Quiet.ite
    | fail_if_no_progress intros | fail_if_no_progress with_reducible apply Quiet.upd | dsimp only | split)

theorem State.ospAccept_quiet {s0 : State} (s : State) (port : Nat) (src : PeerAddr) (h : OspHdr) (f : State → State) (hs : Quiet s0 s) (hf : ∀ (a0 : State), Quiet s0 a0 → Quiet s0 (f a0)) : Quiet s0 (State.ospAccept s port src h f) := by
  unfold State.ospAccept
  repeat' (first
    | with_reducible assumption
    | (extract_lets +onlyGivenNames x; change State at x; refine Quiet.cut (s0 := s0) x ?_ ?_; (on_goal 1 => dsimp only [x]; clear x); (on_goal 2 => intro hx; clear_value x))
    | (extract_lets +onlyGivenNames x; change _ × State at x; refine Quiet.cut2 (s0 := s0) x ?_ ?_; (on_goal 1 => dsimp only [x]; clear x); (on_goal 2 => intro hx; clear_value x))
    | (extract_lets +onlyGivenNames x; clear_value x) | with_reducible apply hf | with_reducible apply State.ospAck_quiet
    | with_reducible apply State.ethViolation_quiet | with_reducible apply State.setChan_quiet
    | with_reducible apply State.bump_quiet | with_reducible apply Quiet.ite | fail_if_no_progress intros
    | fail_if_no_progress with_reducible apply Quiet.upd | dsimp only | split)

theorem State.ospAccept_kept {s0 : State} (s : State) (port : Nat) (src : PeerAddr) (h : OspHdr) (f : State → State) (hs : Kept s0 s) (hf : ∀ (a0 : State), Kept s0 a0 → Kept s0 (f a0)) : Kept s0 (State.ospAccept s port src h f) := by
  unfold State.ospAccept
  repeat' (first
    | with_reducible assumption
    | (extract_lets +onlyGivenNames x; change State at x; refine Kept.cut (s0 := s0) x ?_ ?_; (on_goal 1 => dsimp only [x]; clear x); (on_goal 2 => intro hx; clear_value x))
    | (extract_lets +onlyGivenNames x; change _ × State at x; refine Kept.cut2 (s0 := s0) x ?_ ?_; (on_goal 1 => dsimp only [x]; clear x); (on_goal 2 => intro hx; clear_value x))
    | (extract_lets +onlyGivenNames x; clear_value x) | with_reducible apply hf | with_reducible apply State.ospAck_kept
    | with_reducible apply State.ethViolation_kept | with_reducible apply State.setChan_kept
    | with_reducible apply State.bump_kept | with_reducible apply Kept.ite | fail_if_no_progress intros
    | fail_if_no_progress with_reducible apply Kept.upd | dsimp only | split)

theorem runStatusRequest_quiet {s0 : State} (port : BrimDie) (src : PeerAddr) (hdr : OspHdr) (subSeq : W32) (s : State) (hs : Quiet s0 s) : Quiet s0 (runStatusRequest port src hdr subSeq s) := by
  unfold runStatusRequest
  repeat' (first
    | with_reducible assumption
    | (extract_lets +onlyGivenNames x; change State at x; refine Quiet.cut (s0 := s0) x ?_ ?_; (on_goal 1 => dsimp only [x]; clear x); (on_goal 2 => intro hx; clear_value x))
    | (extract_lets +onlyGivenNames x; change _ × State at x; refine Quiet.cut2 (s0 := s0) x ?_ ?_; (on_goal 1 => dsimp only [x]; clear x); (on_goal 2 => intro hx; clear_value x))
    | (extract_lets +onlyGivenNames x; clear_value x) | with_reducible apply State.ospAccept_quiet
    | with_reducible apply State.dropSubmit_quiet | with_reducible apply State.ospSend_quiet | with_reducible apply Quiet.ite
    | fail_if_no_progress intros | dsimp only | split)

theorem runResync_quiet {s0 : State} (port : BrimDie) (src : PeerAddr) (hdr : OspHdr) (replayFrom flags : W32) (s : State) (hs : Quiet s0 s) : Quiet s0 (runResync port src hdr replayFrom flags s) := by
  unfold runResync
  repeat' (first
    | with_reducible assumption
    | (extract_lets +onlyGivenNames x; change State at x; refine Quiet.cut (s0 := s0) x ?_ ?_; (on_goal 1 => dsimp only [x]; clear x); (on_goal 2 => intro hx; clear_value x))
    | (extract_lets +onlyGivenNames x; change _ × State at x; refine Quiet.cut2 (s0 := s0) x ?_ ?_; (on_goal 1 => dsimp only [x]; clear x); (on_goal 2 => intro hx; clear_value x))
    | (extract_lets +onlyGivenNames x; clear_value x) | with_reducible apply State.dropSubmit_quiet
    | with_reducible apply State.ospAck_quiet | with_reducible apply State.ospSend_quiet
    | with_reducible apply State.ethViolation_quiet | with_reducible apply State.emit_quiet
    | with_reducible apply State.setChan_quiet | with_reducible apply State.setBit_quiet
    | with_reducible apply State.setFld_quiet | with_reducible apply Quiet.ite | with_reducible apply Quiet.foldl
    | fail_if_no_progress intros | fail_if_no_progress with_reducible apply Quiet.upd | dsimp only | split)

/-! ## Lasers -/

theorem State.laserLogWrite_quiet {s0 : State} (s : State) (m : Nat) (hs : Quiet s0 s) : Quiet s0 (State.laserLogWrite s m) := by
  unfold State.laserLogWrite
  repeat' (first
    | with_reducible assumption
    | (extract_lets +onlyGivenNames x; change State at x; refine Quiet.cut (s0 := s0) x ?_ ?_; (on_goal 1 => dsimp only [x]; clear x); (on_goal 2 => intro hx; clear_value x))
    | (extract_lets +onlyGivenNames x; change _ × State at x; refine Quiet.cut2 (s0 := s0) x ?_ ?_; (on_goal 1 => dsimp only [x]; clear x); (on_goal 2 => intro hx; clear_value x))
    | (extract_lets +onlyGivenNames x; clear_value x) | with_reducible apply State.setLaser_quiet | fail_if_no_progress intros
    | fail_if_no_progress with_reducible apply Quiet.upd | dsimp only)

theorem State.lasSet_quiet {s0 : State} (s : State) (m v : Nat) (hs : Quiet s0 s) : Quiet s0 (State.lasSet s m v) := by
  unfold State.lasSet
  repeat' (first
    | with_reducible assumption | with_reducible apply State.setFld_quiet | fail_if_no_progress intros)

theorem State.showPort_quiet {s0 : State} (s : State) (b : Nat) (hs : Quiet s0 s) : Quiet s0 (State.showPort s b) := by
  unfold State.showPort
  repeat' (first
    | with_reducible assumption
    | (extract_lets +onlyGivenNames x; change State at x; refine Quiet.cut (s0 := s0) x ?_ ?_; (on_goal 1 => dsimp only [x]; clear x); (on_goal 2 => intro hx; clear_value x))
    | (extract_lets +onlyGivenNames x; change _ × State at x; refine Quiet.cut2 (s0 := s0) x ?_ ?_; (on_goal 1 => dsimp only [x]; clear x); (on_goal 2 => intro hx; clear_value x))
    | (extract_lets +onlyGivenNames x; clear_value x) | with_reducible apply State.setFld_quiet | fail_if_no_progress intros
    | dsimp only)

theorem State.lasBringUp_quiet {s0 : State} (s : State) (m : Nat) (hs : Quiet s0 s) : Quiet s0 (State.lasBringUp s m) := by
  unfold State.lasBringUp
  repeat' (first
    | with_reducible assumption
    | (extract_lets +onlyGivenNames x; change State at x; refine Quiet.cut (s0 := s0) x ?_ ?_; (on_goal 1 => dsimp only [x]; clear x); (on_goal 2 => intro hx; clear_value x))
    | (extract_lets +onlyGivenNames x; change _ × State at x; refine Quiet.cut2 (s0 := s0) x ?_ ?_; (on_goal 1 => dsimp only [x]; clear x); (on_goal 2 => intro hx; clear_value x))
    | (extract_lets +onlyGivenNames x; clear_value x) | with_reducible apply State.lasSet_quiet
    | with_reducible apply State.setLaser_quiet | with_reducible apply Quiet.ite | fail_if_no_progress intros
    | fail_if_no_progress with_reducible apply Quiet.upd | dsimp only | split)

theorem State.lightsOut_quiet {s0 : State} (s : State) (m : Nat) (hs : Quiet s0 s) : Quiet s0 (State.lightsOut s m) := by
  unfold State.lightsOut
  repeat' (first
    | with_reducible assumption | with_reducible apply State.laneDark_quiet | with_reducible apply Quiet.foldl
    | fail_if_no_progress intros)

theorem State.lasDown_quiet {s0 : State} (s : State) (m v : Nat) (hs : Quiet s0 s) : Quiet s0 (State.lasDown s m v) := by
  unfold State.lasDown
  repeat' (first
    | with_reducible assumption
    | (extract_lets +onlyGivenNames x; change State at x; refine Quiet.cut (s0 := s0) x ?_ ?_; (on_goal 1 => dsimp only [x]; clear x); (on_goal 2 => intro hx; clear_value x))
    | (extract_lets +onlyGivenNames x; change _ × State at x; refine Quiet.cut2 (s0 := s0) x ?_ ?_; (on_goal 1 => dsimp only [x]; clear x); (on_goal 2 => intro hx; clear_value x))
    | (extract_lets +onlyGivenNames x; clear_value x) | with_reducible apply State.lightsOut_quiet
    | with_reducible apply State.lasSet_quiet | with_reducible apply State.setLaser_quiet | fail_if_no_progress intros
    | fail_if_no_progress with_reducible apply Quiet.upd | dsimp only)

theorem State.lasKeepOff_quiet {s0 : State} (s : State) (m : Nat) (hs : Quiet s0 s) : Quiet s0 (State.lasKeepOff s m) := by
  unfold State.lasKeepOff
  repeat' (first
    | with_reducible assumption | with_reducible apply State.lasDown_quiet | with_reducible apply State.laserLogWrite_quiet
    | with_reducible apply Quiet.ite | fail_if_no_progress intros | split)

theorem State.spSwitch_quiet {s0 : State} (s : State) (m : Nat) (hs : Quiet s0 s) : Quiet s0 (State.spSwitch s m) := by
  unfold State.spSwitch
  repeat' (first
    | with_reducible assumption
    | (extract_lets +onlyGivenNames x; change State at x; refine Quiet.cut (s0 := s0) x ?_ ?_; (on_goal 1 => dsimp only [x]; clear x); (on_goal 2 => intro hx; clear_value x))
    | (extract_lets +onlyGivenNames x; change _ × State at x; refine Quiet.cut2 (s0 := s0) x ?_ ?_; (on_goal 1 => dsimp only [x]; clear x); (on_goal 2 => intro hx; clear_value x))
    | (extract_lets +onlyGivenNames x; clear_value x) | with_reducible apply State.showPort_quiet
    | with_reducible apply State.setBit_quiet | with_reducible apply State.setFld_quiet | with_reducible apply Quiet.ite
    | fail_if_no_progress intros | dsimp only | split)

theorem runModuleInserted_quiet {s0 : State} (m : ModuleIdx) (eeprom : List Byte) (s : State) (hs : Quiet s0 s) : Quiet s0 (runModuleInserted m eeprom s) := by
  unfold runModuleInserted
  repeat' (first
    | with_reducible assumption | with_reducible apply State.setLaser_quiet | with_reducible apply State.setBit_quiet
    | with_reducible apply Quiet.ite | fail_if_no_progress intros | fail_if_no_progress with_reducible apply Quiet.upd | split)

theorem runPresenceDebounced_quiet {s0 : State} (m : ModuleIdx) (s : State) (hs : Quiet s0 s) : Quiet s0 (runPresenceDebounced m s) := by
  unfold runPresenceDebounced
  repeat' (first
    | with_reducible assumption
    | (extract_lets +onlyGivenNames x; change State at x; refine Quiet.cut (s0 := s0) x ?_ ?_; (on_goal 1 => dsimp only [x]; clear x); (on_goal 2 => intro hx; clear_value x))
    | (extract_lets +onlyGivenNames x; change _ × State at x; refine Quiet.cut2 (s0 := s0) x ?_ ?_; (on_goal 1 => dsimp only [x]; clear x); (on_goal 2 => intro hx; clear_value x))
    | (extract_lets +onlyGivenNames x; clear_value x) | with_reducible apply State.lasBringUp_quiet
    | with_reducible apply State.lasSet_quiet | with_reducible apply State.setLaser_quiet
    | with_reducible apply State.setBit_quiet | with_reducible apply State.setFld_quiet
    | with_reducible apply State.setReg_quiet | with_reducible apply Quiet.ite | fail_if_no_progress intros
    | fail_if_no_progress with_reducible apply Quiet.upd | dsimp only | split)

theorem runLaserOutputReached_quiet {s0 : State} (m : ModuleIdx) (s : State) (hs : Quiet s0 s) : Quiet s0 (runLaserOutputReached m s) := by
  unfold runLaserOutputReached
  repeat' (first
    | with_reducible assumption
    | (extract_lets +onlyGivenNames x; change State at x; refine Quiet.cut (s0 := s0) x ?_ ?_; (on_goal 1 => dsimp only [x]; clear x); (on_goal 2 => intro hx; clear_value x))
    | (extract_lets +onlyGivenNames x; change _ × State at x; refine Quiet.cut2 (s0 := s0) x ?_ ?_; (on_goal 1 => dsimp only [x]; clear x); (on_goal 2 => intro hx; clear_value x))
    | (extract_lets +onlyGivenNames x; clear_value x) | with_reducible apply State.setLaser_quiet
    | with_reducible apply Quiet.ite | fail_if_no_progress intros | fail_if_no_progress with_reducible apply Quiet.upd
    | dsimp only | split)

theorem runLaserLocked_quiet {s0 : State} (m : ModuleIdx) (s : State) (hs : Quiet s0 s) : Quiet s0 (runLaserLocked m s) := by
  unfold runLaserLocked
  repeat' (first
    | with_reducible assumption
    | (extract_lets +onlyGivenNames x; change State at x; refine Quiet.cut (s0 := s0) x ?_ ?_; (on_goal 1 => dsimp only [x]; clear x); (on_goal 2 => intro hx; clear_value x))
    | (extract_lets +onlyGivenNames x; change _ × State at x; refine Quiet.cut2 (s0 := s0) x ?_ ?_; (on_goal 1 => dsimp only [x]; clear x); (on_goal 2 => intro hx; clear_value x))
    | (extract_lets +onlyGivenNames x; clear_value x) | with_reducible apply State.showPort_quiet
    | with_reducible apply State.lasSet_quiet | with_reducible apply State.trainLane_quiet | with_reducible apply Quiet.ite
    | with_reducible apply Quiet.foldl | fail_if_no_progress intros | dsimp only | split)

theorem State.lasGone_quiet {s0 : State} (s : State) (m : Nat) (inCage : Bool) (hs : Quiet s0 s) : Quiet s0 (State.lasGone s m inCage) := by
  unfold State.lasGone
  repeat' (first
    | with_reducible assumption
    | (extract_lets +onlyGivenNames x; change State at x; refine Quiet.cut (s0 := s0) x ?_ ?_; (on_goal 1 => dsimp only [x]; clear x); (on_goal 2 => intro hx; clear_value x))
    | (extract_lets +onlyGivenNames x; change _ × State at x; refine Quiet.cut2 (s0 := s0) x ?_ ?_; (on_goal 1 => dsimp only [x]; clear x); (on_goal 2 => intro hx; clear_value x))
    | (extract_lets +onlyGivenNames x; clear_value x) | with_reducible apply State.spSwitch_quiet
    | with_reducible apply State.lightsOut_quiet | with_reducible apply State.calAborted_quiet
    | with_reducible apply State.setLaser_quiet | with_reducible apply State.setBit_quiet
    | with_reducible apply State.setReg_quiet | with_reducible apply Quiet.ite | fail_if_no_progress intros
    | fail_if_no_progress with_reducible apply Quiet.upd | dsimp only | split)

theorem runModuleRemoved_quiet {s0 : State} (m : ModuleIdx) (s : State) (hs : Quiet s0 s) : Quiet s0 (runModuleRemoved m s) := by
  unfold runModuleRemoved
  repeat' (first
    | with_reducible assumption | with_reducible apply State.lasGone_quiet | fail_if_no_progress intros)

theorem runVlasOutOfRange_quiet {s0 : State} (b : BrimDie) (s : State) (hs : Quiet s0 s) : Quiet s0 (runVlasOutOfRange b s) := by
  unfold runVlasOutOfRange
  repeat' (first
    | with_reducible assumption
    | (extract_lets +onlyGivenNames x; change State at x; refine Quiet.cut (s0 := s0) x ?_ ?_; (on_goal 1 => dsimp only [x]; clear x); (on_goal 2 => intro hx; clear_value x))
    | (extract_lets +onlyGivenNames x; change _ × State at x; refine Quiet.cut2 (s0 := s0) x ?_ ?_; (on_goal 1 => dsimp only [x]; clear x); (on_goal 2 => intro hx; clear_value x))
    | (extract_lets +onlyGivenNames x; clear_value x) | with_reducible apply State.lasGone_quiet | fail_if_no_progress intros
    | fail_if_no_progress with_reducible apply Quiet.upd | dsimp only)

theorem runVlasInRange_quiet {s0 : State} (b : BrimDie) (s : State) (hs : Quiet s0 s) : Quiet s0 (runVlasInRange b s) := by
  unfold runVlasInRange
  repeat' (first
    | with_reducible assumption | with_reducible apply State.setLaser_quiet | with_reducible apply Quiet.ite
    | with_reducible apply Quiet.foldl | fail_if_no_progress intros | fail_if_no_progress with_reducible apply Quiet.upd
    | split)

theorem State.lasFault_quiet {s0 : State} (s : State) (m : Nat) (hs : Quiet s0 s) : Quiet s0 (State.lasFault s m) := by
  unfold State.lasFault
  repeat' (first
    | with_reducible assumption
    | (extract_lets +onlyGivenNames x; change State at x; refine Quiet.cut (s0 := s0) x ?_ ?_; (on_goal 1 => dsimp only [x]; clear x); (on_goal 2 => intro hx; clear_value x))
    | (extract_lets +onlyGivenNames x; change _ × State at x; refine Quiet.cut2 (s0 := s0) x ?_ ?_; (on_goal 1 => dsimp only [x]; clear x); (on_goal 2 => intro hx; clear_value x))
    | (extract_lets +onlyGivenNames x; clear_value x) | with_reducible apply State.spSwitch_quiet
    | with_reducible apply State.lasDown_quiet | with_reducible apply State.calAborted_quiet
    | with_reducible apply State.fault_quiet | with_reducible apply State.setBit_quiet | with_reducible apply Quiet.ite
    | fail_if_no_progress intros | dsimp only | split)

theorem runLaserMonitorPoll_quiet {s0 : State} (m : ModuleIdx) (r : LaserReading) (s : State) (hs : Quiet s0 s) : Quiet s0 (runLaserMonitorPoll m r s) := by
  unfold runLaserMonitorPoll
  repeat' (first
    | with_reducible assumption
    | (extract_lets +onlyGivenNames x; change State at x; refine Quiet.cut (s0 := s0) x ?_ ?_; (on_goal 1 => dsimp only [x]; clear x); (on_goal 2 => intro hx; clear_value x))
    | (extract_lets +onlyGivenNames x; change _ × State at x; refine Quiet.cut2 (s0 := s0) x ?_ ?_; (on_goal 1 => dsimp only [x]; clear x); (on_goal 2 => intro hx; clear_value x))
    | (extract_lets +onlyGivenNames x; clear_value x) | with_reducible apply State.lasFault_quiet
    | with_reducible apply State.every_quiet | with_reducible apply State.setLaser_quiet
    | with_reducible apply State.setReg_quiet | with_reducible apply Quiet.ite | with_reducible apply Quiet.foldl
    | fail_if_no_progress intros | fail_if_no_progress with_reducible apply Quiet.upd | dsimp only | split)

theorem State.biasRise_quiet {s0 : State} (s : State) (x : Laser) (w : Nat) (hs : Quiet s0 s) : Quiet s0 (State.biasRise s x w).2 := by
  unfold State.biasRise
  repeat' (first
    | with_reducible assumption
    | (extract_lets +onlyGivenNames x; change State at x; refine Quiet.cut (s0 := s0) x ?_ ?_; (on_goal 1 => dsimp only [x]; clear x); (on_goal 2 => intro hx; clear_value x))
    | (extract_lets +onlyGivenNames x; change _ × State at x; refine Quiet.cut2 (s0 := s0) x ?_ ?_; (on_goal 1 => dsimp only [x]; clear x); (on_goal 2 => intro hx; clear_value x))
    | (extract_lets +onlyGivenNames x; clear_value x) | with_reducible apply State.drawB_quiet
    | with_reducible apply State.draw_quiet | with_reducible apply Quiet.ite | with_reducible apply Quiet.ite2
    | fail_if_no_progress intros | dsimp only | split)

theorem State.worstRise_quiet {s0 : State} (s : State) (x : Laser) (hs : Quiet s0 s) : Quiet s0 (State.worstRise s x).2 := by
  unfold State.worstRise
  exact Quiet.foldlOn (fun (a : (Nat × Nat) × State) => a.2) hs (fun b w hb => State.biasRise_quiet _ _ _ hb)

theorem runLaserHourTick_quiet {s0 : State} (m : ModuleIdx) (s : State) (hs : Quiet s0 s) : Quiet s0 (runLaserHourTick m s) := by
  unfold runLaserHourTick
  repeat' (first
    | with_reducible assumption
    | (extract_lets +onlyGivenNames x; change State at x; refine Quiet.cut (s0 := s0) x ?_ ?_; (on_goal 1 => dsimp only [x]; clear x); (on_goal 2 => intro hx; clear_value x))
    | (extract_lets +onlyGivenNames x; change _ × State at x; refine Quiet.cut2 (s0 := s0) x ?_ ?_; (on_goal 1 => dsimp only [x]; clear x); (on_goal 2 => intro hx; clear_value x))
    | (extract_lets +onlyGivenNames x; clear_value x) | with_reducible apply State.worstRise_quiet
    | with_reducible apply State.laserLogWrite_quiet | with_reducible apply State.fault_quiet
    | with_reducible apply State.setLaser_quiet | with_reducible apply State.setBit_quiet
    | with_reducible apply State.setReg_quiet | with_reducible apply Quiet.ite | fail_if_no_progress intros
    | fail_if_no_progress with_reducible apply Quiet.upd | dsimp only | split)

theorem State.lasCtrlWrite_quiet {s0 : State} (s : State) (port : Port) (m : Nat) (data : W32) (hs : Quiet s0 s) : Quiet s0 (State.lasCtrlWrite s port m data) := by
  unfold State.lasCtrlWrite
  repeat' (first
    | with_reducible assumption
    | (extract_lets +onlyGivenNames x; change State at x; refine Quiet.cut (s0 := s0) x ?_ ?_; (on_goal 1 => dsimp only [x]; clear x); (on_goal 2 => intro hx; clear_value x))
    | (extract_lets +onlyGivenNames x; change _ × State at x; refine Quiet.cut2 (s0 := s0) x ?_ ?_; (on_goal 1 => dsimp only [x]; clear x); (on_goal 2 => intro hx; clear_value x))
    | (extract_lets +onlyGivenNames x; clear_value x) | with_reducible apply State.spSwitch_quiet
    | with_reducible apply State.lasDown_quiet | with_reducible apply State.lasBringUp_quiet
    | with_reducible apply State.laserLogWrite_quiet | with_reducible apply State.guardedWrite_quiet
    | with_reducible apply State.storeReg_quiet | with_reducible apply Quiet.ite | fail_if_no_progress intros | dsimp only
    | split)

theorem runLaserOff_quiet {s0 : State} (port : Port) (m : ModuleIdx) (data : W32) (s : State) (hs : Quiet s0 s) : Quiet s0 (runLaserOff port m data s) := by
  unfold runLaserOff
  repeat' (first
    | with_reducible assumption | with_reducible apply State.lasCtrlWrite_quiet | fail_if_no_progress intros)

theorem runLaserOn_quiet {s0 : State} (port : Port) (m : ModuleIdx) (data : W32) (s : State) (hs : Quiet s0 s) : Quiet s0 (runLaserOn port m data s) := by
  unfold runLaserOn
  repeat' (first
    | with_reducible assumption | with_reducible apply State.lasCtrlWrite_quiet | fail_if_no_progress intros)

theorem runLaserOn_kept {s0 : State} (port : Port) (m : ModuleIdx) (data : W32) (s : State) (hs : Kept s0 s) : Kept s0 (runLaserOn port m data s) :=
  (runLaserOn_quiet port m data s (Quiet.refl _)).keeps hs

theorem runLasSpsrcWrite_quiet {s0 : State} (port : Port) (b : BrimDie) (data : W32) (s : State) (hs : Quiet s0 s) : Quiet s0 (runLasSpsrcWrite port b data s) := by
  unfold runLasSpsrcWrite
  repeat' (first
    | with_reducible assumption
    | (extract_lets +onlyGivenNames x; change State at x; refine Quiet.cut (s0 := s0) x ?_ ?_; (on_goal 1 => dsimp only [x]; clear x); (on_goal 2 => intro hx; clear_value x))
    | (extract_lets +onlyGivenNames x; change _ × State at x; refine Quiet.cut2 (s0 := s0) x ?_ ?_; (on_goal 1 => dsimp only [x]; clear x); (on_goal 2 => intro hx; clear_value x))
    | (extract_lets +onlyGivenNames x; clear_value x) | with_reducible apply State.lasKeepOff_quiet
    | with_reducible apply State.showPort_quiet | with_reducible apply State.guardedWrite_quiet
    | with_reducible apply State.storeReg_quiet | fail_if_no_progress intros | dsimp only)

theorem runLasSpsrcWrite_kept {s0 : State} (port : Port) (b : BrimDie) (data : W32) (s : State) (hs : Kept s0 s) : Kept s0 (runLasSpsrcWrite port b data s) :=
  (runLasSpsrcWrite_quiet port b data s (Quiet.refl _)).keeps hs

/-! ## Reset -/

theorem State.deviceReset_kept {s0 : State} (s : State) (hs : Kept s0 s) : Kept s0 (State.deviceReset s) :=
  ⟨hs.pending, fun _ => rfl, hs.outputs, hs.fresh⟩

theorem State.calFail_quiet {s0 : State} (s : State) (b target die unit count : Nat) (hs : Quiet s0 s) : Quiet s0 (State.calFail s b target die unit count) := by
  unfold State.calFail
  repeat' (first
    | with_reducible assumption
    | (extract_lets +onlyGivenNames x; change State at x; refine Quiet.cut (s0 := s0) x ?_ ?_; (on_goal 1 => dsimp only [x]; clear x); (on_goal 2 => intro hx; clear_value x))
    | (extract_lets +onlyGivenNames x; change _ × State at x; refine Quiet.cut2 (s0 := s0) x ?_ ?_; (on_goal 1 => dsimp only [x]; clear x); (on_goal 2 => intro hx; clear_value x))
    | (extract_lets +onlyGivenNames x; clear_value x) | with_reducible apply State.bump_quiet
    | with_reducible apply State.setBit_quiet | with_reducible apply State.setReg_quiet | with_reducible apply Quiet.ite
    | fail_if_no_progress intros | dsimp only | split)

/-! ## Limits -/

theorem State.eitherWay_quiet {s0 : State} (s : State) (num den : Int) (hs : Quiet s0 s) : Quiet s0 (State.eitherWay s num den).2 := by
  unfold State.eitherWay
  repeat' (first
    | with_reducible assumption
    | (extract_lets +onlyGivenNames x; change State at x; refine Quiet.cut (s0 := s0) x ?_ ?_; (on_goal 1 => dsimp only [x]; clear x); (on_goal 2 => intro hx; clear_value x))
    | (extract_lets +onlyGivenNames x; change _ × State at x; refine Quiet.cut2 (s0 := s0) x ?_ ?_; (on_goal 1 => dsimp only [x]; clear x); (on_goal 2 => intro hx; clear_value x))
    | (extract_lets +onlyGivenNames x; clear_value x) | with_reducible apply State.drawB_quiet | with_reducible apply Quiet.ite
    | with_reducible apply Quiet.ite2 | fail_if_no_progress intros | dsimp only | split)

theorem State.diodeReading_quiet {s0 : State} (s : State) (b k gain code : Nat) (hs : Quiet s0 s) : Quiet s0 (State.diodeReading s b k gain code).2 := by
  unfold State.diodeReading
  repeat' (first
    | with_reducible assumption
    | (extract_lets +onlyGivenNames x; change State at x; refine Quiet.cut (s0 := s0) x ?_ ?_; (on_goal 1 => dsimp only [x]; clear x); (on_goal 2 => intro hx; clear_value x))
    | (extract_lets +onlyGivenNames x; change _ × State at x; refine Quiet.cut2 (s0 := s0) x ?_ ?_; (on_goal 1 => dsimp only [x]; clear x); (on_goal 2 => intro hx; clear_value x))
    | (extract_lets +onlyGivenNames x; clear_value x) | with_reducible apply State.eitherWay_quiet
    | with_reducible apply State.draw_quiet | with_reducible apply Quiet.ite | with_reducible apply Quiet.ite2
    | fail_if_no_progress intros | dsimp only | split)

theorem State.thermistorReading_quiet {s0 : State} (s : State) (code : Nat) (hs : Quiet s0 s) : Quiet s0 (State.thermistorReading s code).2 := by
  unfold State.thermistorReading
  repeat' (first
    | with_reducible assumption
    | (extract_lets +onlyGivenNames x; change State at x; refine Quiet.cut (s0 := s0) x ?_ ?_; (on_goal 1 => dsimp only [x]; clear x); (on_goal 2 => intro hx; clear_value x))
    | (extract_lets +onlyGivenNames x; change _ × State at x; refine Quiet.cut2 (s0 := s0) x ?_ ?_; (on_goal 1 => dsimp only [x]; clear x); (on_goal 2 => intro hx; clear_value x))
    | (extract_lets +onlyGivenNames x; clear_value x) | with_reducible apply State.eitherWay_quiet
    | with_reducible apply State.draw_quiet | with_reducible apply Quiet.ite | with_reducible apply Quiet.ite2
    | fail_if_no_progress intros | dsimp only | split)

theorem State.programEntry_quiet {s0 : State} (s : State) (b e : Nat) (hs : Quiet s0 s) : Quiet s0 (State.programEntry s b e) := by
  unfold State.programEntry
  repeat' (first
    | with_reducible assumption
    | (extract_lets +onlyGivenNames x; change State at x; refine Quiet.cut (s0 := s0) x ?_ ?_; (on_goal 1 => dsimp only [x]; clear x); (on_goal 2 => intro hx; clear_value x))
    | (extract_lets +onlyGivenNames x; change _ × State at x; refine Quiet.cut2 (s0 := s0) x ?_ ?_; (on_goal 1 => dsimp only [x]; clear x); (on_goal 2 => intro hx; clear_value x))
    | (extract_lets +onlyGivenNames x; clear_value x) | with_reducible apply State.setReg_quiet
    | with_reducible apply Quiet.ite | fail_if_no_progress intros | dsimp only | split)

theorem State.programLimits_quiet {s0 : State} (s : State) (hs : Quiet s0 s) : Quiet s0 (State.programLimits s) := by
  unfold State.programLimits
  repeat' (first
    | with_reducible assumption | with_reducible apply State.programEntry_quiet | with_reducible apply Quiet.ite
    | with_reducible apply Quiet.foldl | fail_if_no_progress intros | split)

/-! ## Corrections -/

theorem State.setCal_quiet {s0 : State} (s : State) (u : CalUnit) (x : CalState) (hs : Quiet s0 s) : Quiet s0 (State.setCal s u x) := by
  unfold State.setCal
  repeat' (first
    | with_reducible assumption | fail_if_no_progress intros | fail_if_no_progress with_reducible apply Quiet.upd)

theorem State.modCal_quiet {s0 : State} (s : State) (u : CalUnit) (f : CalState → CalState) (hs : Quiet s0 s) : Quiet s0 (State.modCal s u f) := by
  unfold State.modCal
  repeat' (first
    | with_reducible assumption | with_reducible apply State.setCal_quiet | fail_if_no_progress intros)

theorem State.showTrim_quiet {s0 : State} (s : State) (d v : Nat) (gliding : Bool) (hs : Quiet s0 s) : Quiet s0 (State.showTrim s d v gliding) := by
  unfold State.showTrim
  repeat' (first
    | with_reducible assumption
    | (extract_lets +onlyGivenNames x; change State at x; refine Quiet.cut (s0 := s0) x ?_ ?_; (on_goal 1 => dsimp only [x]; clear x); (on_goal 2 => intro hx; clear_value x))
    | (extract_lets +onlyGivenNames x; change _ × State at x; refine Quiet.cut2 (s0 := s0) x ?_ ?_; (on_goal 1 => dsimp only [x]; clear x); (on_goal 2 => intro hx; clear_value x))
    | (extract_lets +onlyGivenNames x; clear_value x) | with_reducible apply State.setReg_quiet
    | with_reducible apply Quiet.ite | fail_if_no_progress intros | dsimp only | split)

theorem State.apply_quiet {s0 : State} (s : State) (u : CalUnit) (v : List Int) (hs : Quiet s0 s) : Quiet s0 (State.apply s u v) := by
  unfold State.apply
  repeat' (first
    | with_reducible assumption | with_reducible apply State.showTrim_quiet | with_reducible apply State.modCal_quiet
    | with_reducible apply State.setFld_quiet | fail_if_no_progress intros | fail_if_no_progress with_reducible apply Quiet.upd
    | (with_reducible apply Quiet.snd; with_reducible assumption) | split)

theorem State.applyWhole_quiet {s0 : State} (s : State) (u : CalUnit) (hs : Quiet s0 s) : Quiet s0 (State.applyWhole s u) := by
  unfold State.applyWhole
  repeat' (first
    | with_reducible assumption | with_reducible apply State.apply_quiet | with_reducible apply State.modCal_quiet
    | fail_if_no_progress intros | fail_if_no_progress with_reducible apply Quiet.upd)

theorem State.calAccept_quiet {s0 : State} (s : State) (u : CalUnit) (v : List Int) (hs : Quiet s0 s) : Quiet s0 (State.calAccept s u v) := by
  unfold State.calAccept
  repeat' (first
    | with_reducible assumption
    | (extract_lets +onlyGivenNames x; change State at x; refine Quiet.cut (s0 := s0) x ?_ ?_; (on_goal 1 => dsimp only [x]; clear x); (on_goal 2 => intro hx; clear_value x))
    | (extract_lets +onlyGivenNames x; change _ × State at x; refine Quiet.cut2 (s0 := s0) x ?_ ?_; (on_goal 1 => dsimp only [x]; clear x); (on_goal 2 => intro hx; clear_value x))
    | (extract_lets +onlyGivenNames x; clear_value x) | with_reducible apply State.applyWhole_quiet
    | with_reducible apply State.apply_quiet | with_reducible apply State.modCal_quiet | with_reducible apply Quiet.ite
    | fail_if_no_progress intros | fail_if_no_progress with_reducible apply Quiet.upd | dsimp only | split)

theorem State.calReject_quiet {s0 : State} (s : State) (u : CalUnit) (hs : Quiet s0 s) : Quiet s0 (State.calReject s u).2 := by
  unfold State.calReject
  repeat' (first
    | with_reducible assumption
    | (extract_lets +onlyGivenNames x; change State at x; refine Quiet.cut (s0 := s0) x ?_ ?_; (on_goal 1 => dsimp only [x]; clear x); (on_goal 2 => intro hx; clear_value x))
    | (extract_lets +onlyGivenNames x; change _ × State at x; refine Quiet.cut2 (s0 := s0) x ?_ ?_; (on_goal 1 => dsimp only [x]; clear x); (on_goal 2 => intro hx; clear_value x))
    | (extract_lets +onlyGivenNames x; clear_value x) | with_reducible apply State.modCal_quiet
    | with_reducible apply State.calFail_quiet | fail_if_no_progress intros
    | fail_if_no_progress with_reducible apply Quiet.upd | dsimp only)

theorem State.applyAtLaunch_quiet {s0 : State} (s : State) (p : Nat) (hs : Quiet s0 s) : Quiet s0 (State.applyAtLaunch s p) := by
  unfold State.applyAtLaunch
  repeat' (first
    | with_reducible assumption | with_reducible apply State.applyWhole_quiet | with_reducible apply Quiet.ite
    | with_reducible apply Quiet.foldl | fail_if_no_progress intros | split)

theorem State.sensorPassEnd_quiet {s0 : State} (s : State) (b : BrimDie) (hs : Quiet s0 s) : Quiet s0 (State.sensorPassEnd s b) := by
  unfold State.sensorPassEnd
  repeat' (first
    | with_reducible assumption | with_reducible apply State.applyWhole_quiet | with_reducible apply Quiet.ite
    | fail_if_no_progress intros | split)

theorem State.halved_quiet {s0 : State} (s : State) (n : Nat) (hs : Quiet s0 s) : Quiet s0 (State.halved s n).2 := by
  unfold State.halved
  repeat' (first
    | with_reducible assumption
    | (extract_lets +onlyGivenNames x; change State at x; refine Quiet.cut (s0 := s0) x ?_ ?_; (on_goal 1 => dsimp only [x]; clear x); (on_goal 2 => intro hx; clear_value x))
    | (extract_lets +onlyGivenNames x; change _ × State at x; refine Quiet.cut2 (s0 := s0) x ?_ ?_; (on_goal 1 => dsimp only [x]; clear x); (on_goal 2 => intro hx; clear_value x))
    | (extract_lets +onlyGivenNames x; clear_value x) | with_reducible apply State.drawB_quiet | with_reducible apply Quiet.ite
    | with_reducible apply Quiet.ite2 | fail_if_no_progress intros | dsimp only | split)

theorem State.bowTrims_quiet {s0 : State} (s : State) (l : List (DieIdx × Nat)) (hs : Quiet s0 s) : Quiet s0 (State.bowTrims s l) := by
  unfold State.bowTrims
  repeat' (first
    | with_reducible assumption
    | (extract_lets +onlyGivenNames x; change State at x; refine Quiet.cut (s0 := s0) x ?_ ?_; (on_goal 1 => dsimp only [x]; clear x); (on_goal 2 => intro hx; clear_value x))
    | (extract_lets +onlyGivenNames x; change _ × State at x; refine Quiet.cut2 (s0 := s0) x ?_ ?_; (on_goal 1 => dsimp only [x]; clear x); (on_goal 2 => intro hx; clear_value x))
    | (extract_lets +onlyGivenNames x; clear_value x) | with_reducible apply State.halved_quiet
    | with_reducible apply State.calReject_quiet | with_reducible apply State.calAccept_quiet
    | with_reducible apply State.modCal_quiet | with_reducible apply State.fault_quiet | with_reducible apply Quiet.ite
    | with_reducible apply Quiet.foldl | fail_if_no_progress intros | fail_if_no_progress with_reducible apply Quiet.upd
    | dsimp only | split)

/-! ## Sensors -/

theorem State.modSensor_quiet {s0 : State} (s : State) (b : Nat) (f : Sensor → Sensor) (hs : Quiet s0 s) : Quiet s0 (State.modSensor s b f) := by
  unfold State.modSensor
  repeat' (first
    | with_reducible assumption | with_reducible apply State.setSensor_quiet | fail_if_no_progress intros)

theorem State.showSns_quiet {s0 : State} (s : State) (b : Nat) (hs : Quiet s0 s) : Quiet s0 (State.showSns s b) := by
  unfold State.showSns
  repeat' (first
    | with_reducible assumption | with_reducible apply State.setFld_quiet | fail_if_no_progress intros)

theorem State.snsLine_quiet {s0 : State} (s : State) (b code : Nat) (hs : Quiet s0 s) : Quiet s0 (State.snsLine s b code) := by
  unfold State.snsLine
  repeat' (first
    | with_reducible assumption
    | (extract_lets +onlyGivenNames x; change State at x; refine Quiet.cut (s0 := s0) x ?_ ?_; (on_goal 1 => dsimp only [x]; clear x); (on_goal 2 => intro hx; clear_value x))
    | (extract_lets +onlyGivenNames x; change _ × State at x; refine Quiet.cut2 (s0 := s0) x ?_ ?_; (on_goal 1 => dsimp only [x]; clear x); (on_goal 2 => intro hx; clear_value x))
    | (extract_lets +onlyGivenNames x; clear_value x) | with_reducible apply State.modSensor_quiet
    | with_reducible apply State.raiseEmergency_quiet | with_reducible apply State.showActive_quiet
    | with_reducible apply State.fault_quiet | with_reducible apply Quiet.ite | fail_if_no_progress intros
    | fail_if_no_progress with_reducible apply Quiet.upd | dsimp only | split)

theorem State.showThermal_quiet {s0 : State} (s : State) (hs : Quiet s0 s) : Quiet s0 (State.showThermal s) := by
  unfold State.showThermal
  repeat' (first
    | with_reducible assumption
    | (extract_lets +onlyGivenNames x; change State at x; refine Quiet.cut (s0 := s0) x ?_ ?_; (on_goal 1 => dsimp only [x]; clear x); (on_goal 2 => intro hx; clear_value x))
    | (extract_lets +onlyGivenNames x; change _ × State at x; refine Quiet.cut2 (s0 := s0) x ?_ ?_; (on_goal 1 => dsimp only [x]; clear x); (on_goal 2 => intro hx; clear_value x))
    | (extract_lets +onlyGivenNames x; clear_value x) | with_reducible apply State.setReg_quiet
    | with_reducible apply Quiet.foldl | fail_if_no_progress intros | dsimp only)

theorem State.showFast_quiet {s0 : State} (s : State) (b : Nat) (hs : Quiet s0 s) : Quiet s0 (State.showFast s b) := by
  unfold State.showFast
  repeat' (first
    | with_reducible assumption
    | (extract_lets +onlyGivenNames x; change State at x; refine Quiet.cut (s0 := s0) x ?_ ?_; (on_goal 1 => dsimp only [x]; clear x); (on_goal 2 => intro hx; clear_value x))
    | (extract_lets +onlyGivenNames x; change _ × State at x; refine Quiet.cut2 (s0 := s0) x ?_ ?_; (on_goal 1 => dsimp only [x]; clear x); (on_goal 2 => intro hx; clear_value x))
    | (extract_lets +onlyGivenNames x; clear_value x) | with_reducible apply State.setFld_quiet
    | with_reducible apply Quiet.ite | with_reducible apply Quiet.foldl | fail_if_no_progress intros | dsimp only | split)

theorem State.noteAbove_quiet {s0 : State} (s : State) (hs : Quiet s0 s) : Quiet s0 (State.noteAbove s) := by
  unfold State.noteAbove
  repeat' (first
    | with_reducible assumption | with_reducible apply Quiet.ite | fail_if_no_progress intros
    | fail_if_no_progress with_reducible apply Quiet.upd | split)

theorem State.telemetry_quiet {s0 : State} (s : State) (b w code : Nat) (hs : Quiet s0 s) : Quiet s0 (State.telemetry s b w code) := by
  unfold State.telemetry
  repeat' (first
    | with_reducible assumption
    | (extract_lets +onlyGivenNames x; change State at x; refine Quiet.cut (s0 := s0) x ?_ ?_; (on_goal 1 => dsimp only [x]; clear x); (on_goal 2 => intro hx; clear_value x))
    | (extract_lets +onlyGivenNames x; change _ × State at x; refine Quiet.cut2 (s0 := s0) x ?_ ?_; (on_goal 1 => dsimp only [x]; clear x); (on_goal 2 => intro hx; clear_value x))
    | (extract_lets +onlyGivenNames x; clear_value x) | with_reducible apply State.noteAbove_quiet
    | with_reducible apply State.showThermal_quiet | with_reducible apply State.modSensor_quiet
    | with_reducible apply State.thermistorReading_quiet | with_reducible apply State.diodeReading_quiet
    | with_reducible apply State.eitherWay_quiet | with_reducible apply State.fault_quiet
    | with_reducible apply State.setFld_quiet | with_reducible apply Quiet.ite | fail_if_no_progress intros
    | fail_if_no_progress with_reducible apply Quiet.upd | dsimp only | split)

theorem State.seqDue_quiet {s0 : State} (s : State) (b q : Nat) (hs : Quiet s0 s) : Quiet s0 (State.seqDue s b q) := by
  unfold State.seqDue
  repeat' (first
    | with_reducible assumption
    | (extract_lets +onlyGivenNames x; change State at x; refine Quiet.cut (s0 := s0) x ?_ ?_; (on_goal 1 => dsimp only [x]; clear x); (on_goal 2 => intro hx; clear_value x))
    | (extract_lets +onlyGivenNames x; change _ × State at x; refine Quiet.cut2 (s0 := s0) x ?_ ?_; (on_goal 1 => dsimp only [x]; clear x); (on_goal 2 => intro hx; clear_value x))
    | (extract_lets +onlyGivenNames x; clear_value x) | with_reducible apply State.modSensor_quiet
    | with_reducible apply Quiet.ite | fail_if_no_progress intros | fail_if_no_progress with_reducible apply Quiet.upd
    | dsimp only | split)

theorem State.contDue_quiet {s0 : State} (s : State) (b : Nat) (hs : Quiet s0 s) : Quiet s0 (State.contDue s b) := by
  unfold State.contDue
  repeat' (first
    | with_reducible assumption | with_reducible apply State.seqDue_quiet | with_reducible apply Quiet.ite
    | with_reducible apply Quiet.foldl | fail_if_no_progress intros | split)

theorem runSensorFastTick_quiet {s0 : State} (b : BrimDie) (s : State) (hs : Quiet s0 s) : Quiet s0 (runSensorFastTick b s) := by
  unfold runSensorFastTick
  repeat' (first
    | with_reducible assumption
    | (extract_lets +onlyGivenNames x; change State at x; refine Quiet.cut (s0 := s0) x ?_ ?_; (on_goal 1 => dsimp only [x]; clear x); (on_goal 2 => intro hx; clear_value x))
    | (extract_lets +onlyGivenNames x; change _ × State at x; refine Quiet.cut2 (s0 := s0) x ?_ ?_; (on_goal 1 => dsimp only [x]; clear x); (on_goal 2 => intro hx; clear_value x))
    | (extract_lets +onlyGivenNames x; clear_value x) | with_reducible apply State.showFast_quiet
    | with_reducible apply State.showSns_quiet | with_reducible apply State.every_quiet
    | with_reducible apply State.setSensor_quiet | with_reducible apply State.setFld_quiet | with_reducible apply Quiet.ite
    | with_reducible apply Quiet.foldl | fail_if_no_progress intros | fail_if_no_progress with_reducible apply Quiet.upd
    | dsimp only | split)

theorem runSensorSlowTick_quiet {s0 : State} (b : BrimDie) (s : State) (hs : Quiet s0 s) : Quiet s0 (runSensorSlowTick b s) := by
  unfold runSensorSlowTick
  repeat' (first
    | with_reducible assumption
    | (extract_lets +onlyGivenNames x; change State at x; refine Quiet.cut (s0 := s0) x ?_ ?_; (on_goal 1 => dsimp only [x]; clear x); (on_goal 2 => intro hx; clear_value x))
    | (extract_lets +onlyGivenNames x; change _ × State at x; refine Quiet.cut2 (s0 := s0) x ?_ ?_; (on_goal 1 => dsimp only [x]; clear x); (on_goal 2 => intro hx; clear_value x))
    | (extract_lets +onlyGivenNames x; clear_value x) | with_reducible apply State.seqDue_quiet
    | with_reducible apply State.showFast_quiet | with_reducible apply State.showSns_quiet
    | with_reducible apply State.modSensor_quiet | with_reducible apply State.every_quiet
    | with_reducible apply State.setFld_quiet | with_reducible apply Quiet.ite | with_reducible apply Quiet.foldl
    | fail_if_no_progress intros | fail_if_no_progress with_reducible apply Quiet.upd | dsimp only | split)

theorem runSensorConversion_quiet {s0 : State} (b : BrimDie) (e : Fin 16) (raw : Nat) (s : State) (hs : Quiet s0 s) : Quiet s0 (runSensorConversion b e raw s) := by
  unfold runSensorConversion
  repeat' (first
    | with_reducible assumption
    | (extract_lets +onlyGivenNames x; change State at x; refine Quiet.cut (s0 := s0) x ?_ ?_; (on_goal 1 => dsimp only [x]; clear x); (on_goal 2 => intro hx; clear_value x))
    | (extract_lets +onlyGivenNames x; change _ × State at x; refine Quiet.cut2 (s0 := s0) x ?_ ?_; (on_goal 1 => dsimp only [x]; clear x); (on_goal 2 => intro hx; clear_value x))
    | (extract_lets +onlyGivenNames x; clear_value x) | with_reducible apply State.contDue_quiet
    | with_reducible apply State.telemetry_quiet | with_reducible apply State.snsLine_quiet
    | with_reducible apply State.showSns_quiet | with_reducible apply State.sensorPassEnd_quiet
    | with_reducible apply State.setSensor_quiet | with_reducible apply State.bump_quiet
    | with_reducible apply State.setBit_quiet | with_reducible apply State.setReg_quiet | with_reducible apply Quiet.ite
    | fail_if_no_progress intros | fail_if_no_progress with_reducible apply Quiet.upd | dsimp only | split)

theorem runSensorRefSelect_quiet {s0 : State} (port : Port) (b : BrimDie) (data : W32) (s : State) (hs : Quiet s0 s) : Quiet s0 (runSensorRefSelect port b data s) := by
  unfold runSensorRefSelect
  repeat' (first
    | with_reducible assumption
    | (extract_lets +onlyGivenNames x; change State at x; refine Quiet.cut (s0 := s0) x ?_ ?_; (on_goal 1 => dsimp only [x]; clear x); (on_goal 2 => intro hx; clear_value x))
    | (extract_lets +onlyGivenNames x; change _ × State at x; refine Quiet.cut2 (s0 := s0) x ?_ ?_; (on_goal 1 => dsimp only [x]; clear x); (on_goal 2 => intro hx; clear_value x))
    | (extract_lets +onlyGivenNames x; clear_value x) | with_reducible apply State.contDue_quiet
    | with_reducible apply State.showSns_quiet | with_reducible apply State.modSensor_quiet
    | with_reducible apply State.guardedWrite_quiet | with_reducible apply State.storeReg_quiet
    | with_reducible apply State.fwFault_quiet | with_reducible apply State.setFld_quiet | with_reducible apply Quiet.ite
    | fail_if_no_progress intros | fail_if_no_progress with_reducible apply Quiet.upd | dsimp only | split)

theorem runSensorRefSelect_kept {s0 : State} (port : Port) (b : BrimDie) (data : W32) (s : State) (hs : Kept s0 s) : Kept s0 (runSensorRefSelect port b data s) :=
  (runSensorRefSelect_quiet port b data s (Quiet.refl _)).keeps hs

theorem runSensorRefSettled_quiet {s0 : State} (b : BrimDie) (s : State) (hs : Quiet s0 s) : Quiet s0 (runSensorRefSettled b s) := by
  unfold runSensorRefSettled
  repeat' (first
    | with_reducible assumption | with_reducible apply State.setFld_quiet | with_reducible apply Quiet.ite
    | fail_if_no_progress intros | split)

theorem runSensorEntryWrite_quiet {s0 : State} (port : Port) (b : BrimDie) (t : SnsTarget) (data : W32) (s : State) (hs : Quiet s0 s) : Quiet s0 (runSensorEntryWrite port b t data s) := by
  unfold runSensorEntryWrite
  repeat' (first
    | with_reducible assumption
    | (extract_lets +onlyGivenNames x; change State at x; refine Quiet.cut (s0 := s0) x ?_ ?_; (on_goal 1 => dsimp only [x]; clear x); (on_goal 2 => intro hx; clear_value x))
    | (extract_lets +onlyGivenNames x; change _ × State at x; refine Quiet.cut2 (s0 := s0) x ?_ ?_; (on_goal 1 => dsimp only [x]; clear x); (on_goal 2 => intro hx; clear_value x))
    | (extract_lets +onlyGivenNames x; clear_value x) | with_reducible apply State.contDue_quiet
    | with_reducible apply State.snsLine_quiet | with_reducible apply State.showSns_quiet
    | with_reducible apply State.guardedWrite_quiet | with_reducible apply State.storeReg_quiet
    | with_reducible apply State.fwFault_quiet | with_reducible apply State.setBit_quiet | with_reducible apply Quiet.ite
    | fail_if_no_progress intros | fail_if_no_progress with_reducible apply Quiet.upd
    | (with_reducible apply Quiet.snd; with_reducible assumption) | dsimp only | split)

theorem runSensorEntryWrite_kept {s0 : State} (port : Port) (b : BrimDie) (t : SnsTarget) (data : W32) (s : State) (hs : Kept s0 s) : Kept s0 (runSensorEntryWrite port b t data s) :=
  (runSensorEntryWrite_quiet port b t data s (Quiet.refl _)).keeps hs

theorem runSensorLimitWrite_quiet {s0 : State} (port : Port) (b : BrimDie) (e : Fin 16) (data : W32) (s : State) (hs : Quiet s0 s) : Quiet s0 (runSensorLimitWrite port b e data s) := by
  unfold runSensorLimitWrite
  repeat' (first
    | with_reducible assumption | with_reducible apply State.regWrite_quiet | fail_if_no_progress intros)

end Sys2Proof.Machine
end

