-- ==== Sys2Proof/Laws/Kept4.lean ====
section
/-!
SUPPORT. What every operation and every command's effect keeps, for the files: ArrayCal, Boot, Power, Forms, Fulling, Bolts, Conformer, Counters.
-/

set_option Elab.async false
set_option linter.unusedTactic false
set_option linter.unreachableTactic false
set_option linter.tactic.unusedName false

namespace Sys2Proof.Machine

/-! ## ArrayCal -/

theorem State.calGood_quiet {s0 : State} (s : State) (a : ArrayId) (m : ArrayCalMeasure) (hs : Quiet s0 s) : Quiet s0 (State.calGood s a m) := by
  unfold State.calGood
  repeat' (first
    | with_reducible assumption | with_reducible apply State.modArr_quiet | fail_if_no_progress intros
    | fail_if_no_progress with_reducible apply Quiet.upd)

theorem State.calGood_kept {s0 : State} (s : State) (a : ArrayId) (m : ArrayCalMeasure) (hs : Kept s0 s) : Kept s0 (State.calGood s a m) :=
  (State.calGood_quiet s a m (Quiet.refl _)).keeps hs

theorem State.calBad_quiet {s0 : State} (s : State) (a : ArrayId) (m : ArrayCalMeasure) (hs : Quiet s0 s) : Quiet s0 (State.calBad s a m).2 := by
  unfold State.calBad
  repeat' (first
    | with_reducible assumption
    | (extract_lets +onlyGivenNames x; change State at x; refine Quiet.cut (s0 := s0) x ?_ ?_; (on_goal 1 => dsimp only [x]; clear x); (on_goal 2 => intro hx; clear_value x))
    | (extract_lets +onlyGivenNames x; change _ × State at x; refine Quiet.cut2 (s0 := s0) x ?_ ?_; (on_goal 1 => dsimp only [x]; clear x); (on_goal 2 => intro hx; clear_value x))
    | (extract_lets +onlyGivenNames x; clear_value x) | with_reducible apply State.calFail_quiet
    | with_reducible apply State.modArr_quiet | with_reducible apply State.bump_quiet | with_reducible apply Quiet.ite
    | with_reducible apply Quiet.ite2 | fail_if_no_progress intros | fail_if_no_progress with_reducible apply Quiet.upd
    | dsimp only | split)

theorem State.calSettle_quiet {s0 : State} (s : State) (t : TileId) (hs : Quiet s0 s) : Quiet s0 (State.calSettle s t) := by
  unfold State.calSettle
  repeat' (first
    | with_reducible assumption
    | (extract_lets +onlyGivenNames x; change State at x; refine Quiet.cut (s0 := s0) x ?_ ?_; (on_goal 1 => dsimp only [x]; clear x); (on_goal 2 => intro hx; clear_value x))
    | (extract_lets +onlyGivenNames x; change _ × State at x; refine Quiet.cut2 (s0 := s0) x ?_ ?_; (on_goal 1 => dsimp only [x]; clear x); (on_goal 2 => intro hx; clear_value x))
    | (extract_lets +onlyGivenNames x; clear_value x) | with_reducible apply State.drawFull_quiet
    | with_reducible apply State.modDie_quiet | with_reducible apply Quiet.ite | fail_if_no_progress intros
    | fail_if_no_progress with_reducible apply Quiet.upd | (with_reducible apply Quiet.snd; with_reducible assumption)
    | dsimp only | split)

theorem State.calSettle_kept {s0 : State} (s : State) (t : TileId) (hs : Kept s0 s) : Kept s0 (State.calSettle s t) :=
  (State.calSettle_quiet s t (Quiet.refl _)).keeps hs

/-! ## Boot -/

theorem State.dieUp_quiet {s0 : State} (s : State) (d : Nat) (hs : Quiet s0 s) : Quiet s0 (State.dieUp s d) := by
  unfold State.dieUp
  repeat' (first
    | with_reducible assumption | with_reducible apply State.modDie_quiet | with_reducible apply Quiet.ite
    | fail_if_no_progress intros | fail_if_no_progress with_reducible apply Quiet.upd | split)

theorem State.fenceDie_quiet {s0 : State} (s : State) (d cause : Nat) (hs : Quiet s0 s) : Quiet s0 (State.fenceDie s d cause) := by
  unfold State.fenceDie
  repeat' (first
    | with_reducible assumption
    | (extract_lets +onlyGivenNames x; change State at x; refine Quiet.cut (s0 := s0) x ?_ ?_; (on_goal 1 => dsimp only [x]; clear x); (on_goal 2 => intro hx; clear_value x))
    | (extract_lets +onlyGivenNames x; change _ × State at x; refine Quiet.cut2 (s0 := s0) x ?_ ?_; (on_goal 1 => dsimp only [x]; clear x); (on_goal 2 => intro hx; clear_value x))
    | (extract_lets +onlyGivenNames x; clear_value x) | with_reducible apply State.setReg_quiet
    | with_reducible apply Quiet.foldl | fail_if_no_progress intros | fail_if_no_progress with_reducible apply Quiet.upd
    | dsimp only)

theorem State.applyFence_quiet {s0 : State} (s : State) (e : FenceEntry) (hs : Quiet s0 s) : Quiet s0 (State.applyFence s e) := by
  unfold State.applyFence
  repeat' (first
    | with_reducible assumption
    | (extract_lets +onlyGivenNames x; change State at x; refine Quiet.cut (s0 := s0) x ?_ ?_; (on_goal 1 => dsimp only [x]; clear x); (on_goal 2 => intro hx; clear_value x))
    | (extract_lets +onlyGivenNames x; change _ × State at x; refine Quiet.cut2 (s0 := s0) x ?_ ?_; (on_goal 1 => dsimp only [x]; clear x); (on_goal 2 => intro hx; clear_value x))
    | (extract_lets +onlyGivenNames x; clear_value x) | with_reducible apply State.modArr_quiet
    | with_reducible apply State.modTile_quiet | with_reducible apply State.setFld_quiet | with_reducible apply Quiet.ite
    | with_reducible apply Quiet.foldl | fail_if_no_progress intros | fail_if_no_progress with_reducible apply Quiet.upd
    | dsimp only | split)

theorem State.bootBrims_quiet {s0 : State} (s : State) (env : BootEnv) (hs : Quiet s0 s) : Quiet s0 (State.bootBrims s env) := by
  unfold State.bootBrims
  repeat' (first
    | with_reducible assumption
    | (extract_lets +onlyGivenNames x; change State at x; refine Quiet.cut (s0 := s0) x ?_ ?_; (on_goal 1 => dsimp only [x]; clear x); (on_goal 2 => intro hx; clear_value x))
    | (extract_lets +onlyGivenNames x; change _ × State at x; refine Quiet.cut2 (s0 := s0) x ?_ ?_; (on_goal 1 => dsimp only [x]; clear x); (on_goal 2 => intro hx; clear_value x))
    | (extract_lets +onlyGivenNames x; clear_value x) | with_reducible apply State.dieUp_quiet
    | with_reducible apply State.fwFault_quiet | with_reducible apply Quiet.ite | with_reducible apply Quiet.foldl
    | fail_if_no_progress intros | fail_if_no_progress with_reducible apply Quiet.upd | dsimp only | split)

theorem State.bootDiodes_quiet {s0 : State} (s : State) (env : BootEnv) (hs : Quiet s0 s) : Quiet s0 (State.bootDiodes s env) := by
  unfold State.bootDiodes
  repeat' (first
    | with_reducible assumption
    | (extract_lets +onlyGivenNames x; change State at x; refine Quiet.cut (s0 := s0) x ?_ ?_; (on_goal 1 => dsimp only [x]; clear x); (on_goal 2 => intro hx; clear_value x))
    | (extract_lets +onlyGivenNames x; change _ × State at x; refine Quiet.cut2 (s0 := s0) x ?_ ?_; (on_goal 1 => dsimp only [x]; clear x); (on_goal 2 => intro hx; clear_value x))
    | (extract_lets +onlyGivenNames x; clear_value x) | with_reducible apply State.calFail_quiet
    | with_reducible apply State.writeCal_quiet | with_reducible apply State.setBit_quiet
    | with_reducible apply State.setReg_quiet | with_reducible apply Quiet.ite | with_reducible apply Quiet.foldl
    | fail_if_no_progress intros | fail_if_no_progress with_reducible apply Quiet.upd
    | (with_reducible apply Quiet.snd; with_reducible assumption) | dsimp only | split)

theorem State.bootDies_quiet {s0 : State} (s : State) (env : BootEnv) (hs : Quiet s0 s) : Quiet s0 (State.bootDies s env) := by
  unfold State.bootDies
  repeat' (first
    | with_reducible assumption
    | (extract_lets +onlyGivenNames x; change State at x; refine Quiet.cut (s0 := s0) x ?_ ?_; (on_goal 1 => dsimp only [x]; clear x); (on_goal 2 => intro hx; clear_value x))
    | (extract_lets +onlyGivenNames x; change _ × State at x; refine Quiet.cut2 (s0 := s0) x ?_ ?_; (on_goal 1 => dsimp only [x]; clear x); (on_goal 2 => intro hx; clear_value x))
    | (extract_lets +onlyGivenNames x; clear_value x) | with_reducible apply State.fenceDie_quiet
    | with_reducible apply State.dieUp_quiet | with_reducible apply State.bowTrims_quiet
    | with_reducible apply State.applyWhole_quiet | with_reducible apply State.fault_quiet
    | with_reducible apply State.setFld_quiet | with_reducible apply Quiet.ite | with_reducible apply Quiet.foldl
    | fail_if_no_progress intros | fail_if_no_progress with_reducible apply Quiet.upd
    | (with_reducible apply Quiet.snd; with_reducible assumption) | dsimp only | split)

theorem State.bootCensus_quiet {s0 : State} (s : State) (env : BootEnv) (hs : Quiet s0 s) : Quiet s0 (State.bootCensus s env) := by
  unfold State.bootCensus
  repeat' (first
    | with_reducible assumption
    | (extract_lets +onlyGivenNames x; change State at x; refine Quiet.cut (s0 := s0) x ?_ ?_; (on_goal 1 => dsimp only [x]; clear x); (on_goal 2 => intro hx; clear_value x))
    | (extract_lets +onlyGivenNames x; change _ × State at x; refine Quiet.cut2 (s0 := s0) x ?_ ?_; (on_goal 1 => dsimp only [x]; clear x); (on_goal 2 => intro hx; clear_value x))
    | (extract_lets +onlyGivenNames x; clear_value x) | with_reducible apply State.applyFence_quiet
    | with_reducible apply State.calBad_quiet | with_reducible apply State.calGood_quiet
    | with_reducible apply State.writeFences_quiet | with_reducible apply State.fenceTile_quiet
    | with_reducible apply State.fenceOne_quiet | with_reducible apply State.fault_quiet | with_reducible apply Quiet.ite
    | with_reducible apply Quiet.foldl | fail_if_no_progress intros | fail_if_no_progress with_reducible apply Quiet.upd
    | (with_reducible apply Quiet.snd; with_reducible assumption) | dsimp only | split)

theorem State.setupPart_quiet {s0 : State} (s : State) (b : List Byte) (dflt : Bool) (hs : Quiet s0 s) : Quiet s0 (State.setupPart s b dflt) := by
  unfold State.setupPart
  repeat' (first
    | with_reducible assumption
    | (extract_lets +onlyGivenNames x; change State at x; refine Quiet.cut (s0 := s0) x ?_ ?_; (on_goal 1 => dsimp only [x]; clear x); (on_goal 2 => intro hx; clear_value x))
    | (extract_lets +onlyGivenNames x; change _ × State at x; refine Quiet.cut2 (s0 := s0) x ?_ ?_; (on_goal 1 => dsimp only [x]; clear x); (on_goal 2 => intro hx; clear_value x))
    | (extract_lets +onlyGivenNames x; clear_value x) | with_reducible apply State.setPart_quiet
    | with_reducible apply State.setReg_quiet | with_reducible apply Quiet.ite | with_reducible apply Quiet.foldl
    | fail_if_no_progress intros | fail_if_no_progress with_reducible apply Quiet.upd | dsimp only | split)

theorem State.powerDownRest_quiet {s0 : State} (s : State) (hs : Quiet s0 s) : Quiet s0 (State.powerDownRest s) := by
  unfold State.powerDownRest
  repeat' (first
    | with_reducible assumption
    | (extract_lets +onlyGivenNames x; change State at x; refine Quiet.cut (s0 := s0) x ?_ ?_; (on_goal 1 => dsimp only [x]; clear x); (on_goal 2 => intro hx; clear_value x))
    | (extract_lets +onlyGivenNames x; change _ × State at x; refine Quiet.cut2 (s0 := s0) x ?_ ?_; (on_goal 1 => dsimp only [x]; clear x); (on_goal 2 => intro hx; clear_value x))
    | (extract_lets +onlyGivenNames x; clear_value x) | with_reducible apply State.modDie_quiet
    | with_reducible apply Quiet.ite | with_reducible apply Quiet.foldl | fail_if_no_progress intros
    | fail_if_no_progress with_reducible apply Quiet.upd | dsimp only | split)

theorem State.setupParts_quiet {s0 : State} (s : State) (es : List (Nat × List Byte)) (hs : Quiet s0 s) : Quiet s0 (State.setupParts s es) := by
  unfold State.setupParts
  repeat' (first
    | with_reducible assumption
    | (extract_lets +onlyGivenNames x; change State at x; refine Quiet.cut (s0 := s0) x ?_ ?_; (on_goal 1 => dsimp only [x]; clear x); (on_goal 2 => intro hx; clear_value x))
    | (extract_lets +onlyGivenNames x; change _ × State at x; refine Quiet.cut2 (s0 := s0) x ?_ ?_; (on_goal 1 => dsimp only [x]; clear x); (on_goal 2 => intro hx; clear_value x))
    | (extract_lets +onlyGivenNames x; clear_value x) | with_reducible apply State.powerDownRest_quiet
    | with_reducible apply State.setupPart_quiet | with_reducible apply State.setReg_quiet | with_reducible apply Quiet.foldl
    | fail_if_no_progress intros | fail_if_no_progress with_reducible apply Quiet.upd
    | (with_reducible apply Quiet.snd; with_reducible assumption) | dsimp only | split)

theorem State.setupDevice_quiet {s0 : State} (s : State) (es : List (Nat × List Byte)) (hs : Quiet s0 s) : Quiet s0 (State.setupDevice s es) := by
  unfold State.setupDevice
  repeat' (first
    | with_reducible assumption
    | (extract_lets +onlyGivenNames x; change State at x; refine Quiet.cut (s0 := s0) x ?_ ?_; (on_goal 1 => dsimp only [x]; clear x); (on_goal 2 => intro hx; clear_value x))
    | (extract_lets +onlyGivenNames x; change _ × State at x; refine Quiet.cut2 (s0 := s0) x ?_ ?_; (on_goal 1 => dsimp only [x]; clear x); (on_goal 2 => intro hx; clear_value x))
    | (extract_lets +onlyGivenNames x; clear_value x) | with_reducible apply State.setFld_quiet
    | with_reducible apply State.setReg_quiet | with_reducible apply Quiet.ite | with_reducible apply Quiet.foldl
    | fail_if_no_progress intros | dsimp only | split)

theorem State.setupPort_quiet {s0 : State} (s : State) (b : List Byte) (hs : Quiet s0 s) : Quiet s0 (State.setupPort s b) := by
  unfold State.setupPort
  repeat' (first
    | with_reducible assumption
    | (extract_lets +onlyGivenNames x; change State at x; refine Quiet.cut (s0 := s0) x ?_ ?_; (on_goal 1 => dsimp only [x]; clear x); (on_goal 2 => intro hx; clear_value x))
    | (extract_lets +onlyGivenNames x; change _ × State at x; refine Quiet.cut2 (s0 := s0) x ?_ ?_; (on_goal 1 => dsimp only [x]; clear x); (on_goal 2 => intro hx; clear_value x))
    | (extract_lets +onlyGivenNames x; clear_value x) | with_reducible apply State.setReg_quiet
    | with_reducible apply Quiet.ite | with_reducible apply Quiet.foldl | fail_if_no_progress intros | dsimp only | split)

theorem State.bootFld_quiet {s0 : State} (s : State) (lo len v : Nat) (hs : Quiet s0 s) : Quiet s0 (State.bootFld s lo len v) := by
  unfold State.bootFld
  repeat' (first
    | with_reducible assumption | with_reducible apply State.setFld_quiet | fail_if_no_progress intros)

theorem State.supervisorStart_quiet {s0 : State} (s : State) (env : BootEnv) (c : Cand) (trial : Bool) (hs : Quiet s0 s) : Quiet s0 (State.supervisorStart s env c trial).2 := by
  unfold State.supervisorStart
  repeat' (first
    | with_reducible assumption
    | (extract_lets +onlyGivenNames x; change State at x; refine Quiet.cut (s0 := s0) x ?_ ?_; (on_goal 1 => dsimp only [x]; clear x); (on_goal 2 => intro hx; clear_value x))
    | (extract_lets +onlyGivenNames x; change _ × State at x; refine Quiet.cut2 (s0 := s0) x ?_ ?_; (on_goal 1 => dsimp only [x]; clear x); (on_goal 2 => intro hx; clear_value x))
    | (extract_lets +onlyGivenNames x; clear_value x) | with_reducible apply State.bootFld_quiet
    | with_reducible apply State.setupPort_quiet | with_reducible apply State.setupDevice_quiet
    | with_reducible apply State.setupParts_quiet | with_reducible apply State.powerDownRest_quiet
    | with_reducible apply State.bootCensus_quiet | with_reducible apply State.bootDies_quiet
    | with_reducible apply State.bootDiodes_quiet | with_reducible apply State.bootBrims_quiet
    | with_reducible apply State.programLimits_quiet | with_reducible apply State.fwFault_quiet
    | with_reducible apply State.fault_quiet | with_reducible apply State.setFld_quiet
    | with_reducible apply State.setReg_quiet | with_reducible apply Quiet.ite | with_reducible apply Quiet.ite2
    | with_reducible apply Quiet.foldl | fail_if_no_progress intros | fail_if_no_progress with_reducible apply Quiet.upd
    | (with_reducible apply Quiet.snd; with_reducible assumption) | dsimp only | split)

theorem State.startPrincipal_quiet {s0 : State} (s : State) (env : BootEnv) (hs : Quiet s0 s) : Quiet s0 (State.startPrincipal s env) := by
  unfold State.startPrincipal
  repeat' (first
    | with_reducible assumption
    | (extract_lets +onlyGivenNames x; change State at x; refine Quiet.cut (s0 := s0) x ?_ ?_; (on_goal 1 => dsimp only [x]; clear x); (on_goal 2 => intro hx; clear_value x))
    | (extract_lets +onlyGivenNames x; change _ × State at x; refine Quiet.cut2 (s0 := s0) x ?_ ?_; (on_goal 1 => dsimp only [x]; clear x); (on_goal 2 => intro hx; clear_value x))
    | (extract_lets +onlyGivenNames x; clear_value x) | with_reducible apply State.setReg_quiet
    | with_reducible apply Quiet.ite | fail_if_no_progress intros | fail_if_no_progress with_reducible apply Quiet.upd
    | dsimp only | split)

theorem State.startTrial_quiet {s0 : State} (s : State) (dir : Dir) (hs : Quiet s0 s) : Quiet s0 (State.startTrial s dir) := by
  unfold State.startTrial
  repeat' (first
    | with_reducible assumption | with_reducible apply State.writeDir_quiet | with_reducible apply Quiet.ite
    | fail_if_no_progress intros | fail_if_no_progress with_reducible apply Quiet.upd | split)

theorem State.startOnce_quiet {s0 : State} (s : State) (env : BootEnv) (hs : Quiet s0 s) : Quiet s0 (State.startOnce s env).2 := by
  unfold State.startOnce
  repeat' (first
    | with_reducible assumption
    | (extract_lets +onlyGivenNames x; change State at x; refine Quiet.cut (s0 := s0) x ?_ ?_; (on_goal 1 => dsimp only [x]; clear x); (on_goal 2 => intro hx; clear_value x))
    | (extract_lets +onlyGivenNames x; change _ × State at x; refine Quiet.cut2 (s0 := s0) x ?_ ?_; (on_goal 1 => dsimp only [x]; clear x); (on_goal 2 => intro hx; clear_value x))
    | (extract_lets +onlyGivenNames x; clear_value x) | with_reducible apply State.startTrial_quiet
    | with_reducible apply State.startPrincipal_quiet | with_reducible apply State.supervisorStart_quiet
    | with_reducible apply State.bootFld_quiet | with_reducible apply Quiet.ite | with_reducible apply Quiet.ite2
    | fail_if_no_progress intros | fail_if_no_progress with_reducible apply Quiet.upd
    | (with_reducible apply Quiet.snd; with_reducible assumption) | dsimp only | split)

theorem State.startOnce_kept {s0 : State} (s : State) (env : BootEnv) (hs : Kept s0 s) : Kept s0 (State.startOnce s env).2 :=
  (State.startOnce_quiet s env (Quiet.refl _)).keeps hs

theorem State.startUp_kept {s0 : State} (n : Nat) (s : State) (env : BootEnv) (hs : Kept s0 s) : Kept s0 (State.startUp n s env) := by
  induction n generalizing s with
  | zero => exact hs
  | succ n ih =>
    have h1 := State.startOnce_kept s env hs
    exact Kept.ite (ih _ (State.deviceReset_kept _ h1)) h1

theorem runVin48Rise_quiet {s0 : State} (s : State) (hs : Quiet s0 s) : Quiet s0 (runVin48Rise s) := by
  unfold runVin48Rise
  repeat' (first
    | with_reducible assumption | fail_if_no_progress intros | fail_if_no_progress with_reducible apply Quiet.upd)

theorem runPgoodRise_kept {s0 : State} (env : BootEnv) (s : State) (hs : Kept s0 s) : Kept s0 (runPgoodRise env s) := by
  unfold runPgoodRise
  repeat' (first
    | with_reducible assumption
    | (extract_lets +onlyGivenNames x; change State at x; refine Kept.cut (s0 := s0) x ?_ ?_; (on_goal 1 => dsimp only [x]; clear x); (on_goal 2 => intro hx; clear_value x))
    | (extract_lets +onlyGivenNames x; change _ × State at x; refine Kept.cut2 (s0 := s0) x ?_ ?_; (on_goal 1 => dsimp only [x]; clear x); (on_goal 2 => intro hx; clear_value x))
    | (extract_lets +onlyGivenNames x; clear_value x) | with_reducible apply State.startUp_kept | with_reducible apply Kept.ite
    | fail_if_no_progress intros | fail_if_no_progress with_reducible apply Kept.upd | dsimp only | split)

theorem State.pgoodLow_kept {s0 : State} (s : State) (hs : Kept s0 s) : Kept s0 (State.pgoodLow s) := by
  unfold State.pgoodLow
  repeat' (first
    | with_reducible assumption
    | (extract_lets +onlyGivenNames x; change State at x; refine Kept.cut (s0 := s0) x ?_ ?_; (on_goal 1 => dsimp only [x]; clear x); (on_goal 2 => intro hx; clear_value x))
    | (extract_lets +onlyGivenNames x; change _ × State at x; refine Kept.cut2 (s0 := s0) x ?_ ?_; (on_goal 1 => dsimp only [x]; clear x); (on_goal 2 => intro hx; clear_value x))
    | (extract_lets +onlyGivenNames x; clear_value x) | with_reducible apply State.deviceReset_kept
    | fail_if_no_progress intros | fail_if_no_progress with_reducible apply Kept.upd | dsimp only)

theorem runPgoodFall_kept {s0 : State} (s : State) (hs : Kept s0 s) : Kept s0 (runPgoodFall s) := by
  unfold runPgoodFall
  repeat' (first
    | with_reducible assumption | with_reducible apply State.pgoodLow_kept | fail_if_no_progress intros)

theorem runResetNAssert_kept {s0 : State} (ns : Nat) (s : State) (hs : Kept s0 s) : Kept s0 (runResetNAssert ns s) := by
  unfold runResetNAssert
  repeat' (first
    | with_reducible assumption
    | (extract_lets +onlyGivenNames x; change State at x; refine Kept.cut (s0 := s0) x ?_ ?_; (on_goal 1 => dsimp only [x]; clear x); (on_goal 2 => intro hx; clear_value x))
    | (extract_lets +onlyGivenNames x; change _ × State at x; refine Kept.cut2 (s0 := s0) x ?_ ?_; (on_goal 1 => dsimp only [x]; clear x); (on_goal 2 => intro hx; clear_value x))
    | (extract_lets +onlyGivenNames x; clear_value x) | with_reducible apply State.deviceReset_kept
    | with_reducible apply Kept.ite | fail_if_no_progress intros | fail_if_no_progress with_reducible apply Kept.upd
    | dsimp only | split)

theorem runResetCommand_kept {s0 : State} (port : Port) (data : W32) (s : State) (hs : Kept s0 s) : Kept s0 (runResetCommand port data s) := by
  unfold runResetCommand
  repeat' (first
    | with_reducible assumption
    | (extract_lets +onlyGivenNames x; change State at x; refine Kept.cut (s0 := s0) x ?_ ?_; (on_goal 1 => dsimp only [x]; clear x); (on_goal 2 => intro hx; clear_value x))
    | (extract_lets +onlyGivenNames x; change _ × State at x; refine Kept.cut2 (s0 := s0) x ?_ ?_; (on_goal 1 => dsimp only [x]; clear x); (on_goal 2 => intro hx; clear_value x))
    | (extract_lets +onlyGivenNames x; clear_value x) | with_reducible apply State.deviceReset_kept
    | with_reducible apply State.guardedWrite_kept | fail_if_no_progress intros
    | fail_if_no_progress with_reducible apply Kept.upd | dsimp only)

theorem runResetNRelease_kept {s0 : State} (env : BootEnv) (s : State) (hs : Kept s0 s) : Kept s0 (runResetNRelease env s) := by
  unfold runResetNRelease
  repeat' (first
    | with_reducible assumption
    | (extract_lets +onlyGivenNames x; change State at x; refine Kept.cut (s0 := s0) x ?_ ?_; (on_goal 1 => dsimp only [x]; clear x); (on_goal 2 => intro hx; clear_value x))
    | (extract_lets +onlyGivenNames x; change _ × State at x; refine Kept.cut2 (s0 := s0) x ?_ ?_; (on_goal 1 => dsimp only [x]; clear x); (on_goal 2 => intro hx; clear_value x))
    | (extract_lets +onlyGivenNames x; clear_value x) | with_reducible apply State.startUp_kept | with_reducible apply Kept.ite
    | fail_if_no_progress intros | fail_if_no_progress with_reducible apply Kept.upd | dsimp only | split)

theorem runVin48Remove_kept {s0 : State} (s : State) (hs : Kept s0 s) : Kept s0 (runVin48Remove s) := by
  unfold runVin48Remove
  repeat' (first
    | with_reducible assumption
    | (extract_lets +onlyGivenNames x; change State at x; refine Kept.cut (s0 := s0) x ?_ ?_; (on_goal 1 => dsimp only [x]; clear x); (on_goal 2 => intro hx; clear_value x))
    | (extract_lets +onlyGivenNames x; change _ × State at x; refine Kept.cut2 (s0 := s0) x ?_ ?_; (on_goal 1 => dsimp only [x]; clear x); (on_goal 2 => intro hx; clear_value x))
    | (extract_lets +onlyGivenNames x; clear_value x) | with_reducible apply State.deviceReset_kept
    | fail_if_no_progress intros | fail_if_no_progress with_reducible apply Kept.upd | dsimp only)

/-! ## Power -/

theorem State.refillTile_quiet {s0 : State} (s : State) (t : TileId) (hs : Quiet s0 s) : Quiet s0 (State.refillTile s t) := by
  unfold State.refillTile
  repeat' (first
    | with_reducible assumption
    | (extract_lets +onlyGivenNames x; change State at x; refine Quiet.cut (s0 := s0) x ?_ ?_; (on_goal 1 => dsimp only [x]; clear x); (on_goal 2 => intro hx; clear_value x))
    | (extract_lets +onlyGivenNames x; change _ × State at x; refine Quiet.cut2 (s0 := s0) x ?_ ?_; (on_goal 1 => dsimp only [x]; clear x); (on_goal 2 => intro hx; clear_value x))
    | (extract_lets +onlyGivenNames x; clear_value x) | with_reducible apply State.modTile_quiet | fail_if_no_progress intros
    | fail_if_no_progress with_reducible apply Quiet.upd | dsimp only)

theorem runLeaveWindow_quiet {s0 : State} (s : State) (hs : Quiet s0 s) : Quiet s0 (runLeaveWindow s) := by
  unfold runLeaveWindow
  repeat' (first
    | with_reducible assumption
    | (extract_lets +onlyGivenNames x; change State at x; refine Quiet.cut (s0 := s0) x ?_ ?_; (on_goal 1 => dsimp only [x]; clear x); (on_goal 2 => intro hx; clear_value x))
    | (extract_lets +onlyGivenNames x; change _ × State at x; refine Quiet.cut2 (s0 := s0) x ?_ ?_; (on_goal 1 => dsimp only [x]; clear x); (on_goal 2 => intro hx; clear_value x))
    | (extract_lets +onlyGivenNames x; clear_value x) | with_reducible apply State.refillTile_quiet
    | with_reducible apply State.calSettle_quiet | with_reducible apply State.every_quiet
    | with_reducible apply State.setReg_quiet | with_reducible apply Quiet.ite | with_reducible apply Quiet.foldl
    | fail_if_no_progress intros | dsimp only | split)

theorem State.nextK_quiet {s0 : State} (s : State) (p k : Nat) (m : Nat × Nat) (hs : Quiet s0 s) : Quiet s0 (State.nextK s p k m).2 := by
  unfold State.nextK
  repeat' (first
    | with_reducible assumption
    | (extract_lets +onlyGivenNames x; change State at x; refine Quiet.cut (s0 := s0) x ?_ ?_; (on_goal 1 => dsimp only [x]; clear x); (on_goal 2 => intro hx; clear_value x))
    | (extract_lets +onlyGivenNames x; change _ × State at x; refine Quiet.cut2 (s0 := s0) x ?_ ?_; (on_goal 1 => dsimp only [x]; clear x); (on_goal 2 => intro hx; clear_value x))
    | (extract_lets +onlyGivenNames x; clear_value x) | with_reducible apply State.draw_quiet | with_reducible apply Quiet.ite
    | with_reducible apply Quiet.ite2 | fail_if_no_progress intros | dsimp only | split)

theorem State.stewardOne_quiet {s0 : State} (s : State) (unitW : List Nat) (edgeW p : Nat) (hs : Quiet s0 s) : Quiet s0 (State.stewardOne s unitW edgeW p) := by
  unfold State.stewardOne
  repeat' (first
    | with_reducible assumption
    | (extract_lets +onlyGivenNames x; change State at x; refine Quiet.cut (s0 := s0) x ?_ ?_; (on_goal 1 => dsimp only [x]; clear x); (on_goal 2 => intro hx; clear_value x))
    | (extract_lets +onlyGivenNames x; change _ × State at x; refine Quiet.cut2 (s0 := s0) x ?_ ?_; (on_goal 1 => dsimp only [x]; clear x); (on_goal 2 => intro hx; clear_value x))
    | (extract_lets +onlyGivenNames x; clear_value x) | with_reducible apply State.nextK_quiet
    | with_reducible apply State.setBit_quiet | with_reducible apply State.setReg_quiet
    | with_reducible apply State.drawB_quiet | with_reducible apply Quiet.ite | fail_if_no_progress intros | dsimp only | split)

theorem State.showPower_quiet {s0 : State} (s : State) (hs : Quiet s0 s) : Quiet s0 (State.showPower s) := by
  unfold State.showPower
  repeat' (first
    | with_reducible assumption
    | (extract_lets +onlyGivenNames x; change State at x; refine Quiet.cut (s0 := s0) x ?_ ?_; (on_goal 1 => dsimp only [x]; clear x); (on_goal 2 => intro hx; clear_value x))
    | (extract_lets +onlyGivenNames x; change _ × State at x; refine Quiet.cut2 (s0 := s0) x ?_ ?_; (on_goal 1 => dsimp only [x]; clear x); (on_goal 2 => intro hx; clear_value x))
    | (extract_lets +onlyGivenNames x; clear_value x) | with_reducible apply State.setFld_quiet | fail_if_no_progress intros
    | dsimp only)

theorem runStewardKUpdate_quiet {s0 : State} (unitW : List Nat) (edgeW : Nat) (s : State) (hs : Quiet s0 s) : Quiet s0 (runStewardKUpdate unitW edgeW s) := by
  unfold runStewardKUpdate
  repeat' (first
    | with_reducible assumption
    | (extract_lets +onlyGivenNames x; change State at x; refine Quiet.cut (s0 := s0) x ?_ ?_; (on_goal 1 => dsimp only [x]; clear x); (on_goal 2 => intro hx; clear_value x))
    | (extract_lets +onlyGivenNames x; change _ × State at x; refine Quiet.cut2 (s0 := s0) x ?_ ?_; (on_goal 1 => dsimp only [x]; clear x); (on_goal 2 => intro hx; clear_value x))
    | (extract_lets +onlyGivenNames x; clear_value x) | with_reducible apply State.showPower_quiet
    | with_reducible apply State.stewardOne_quiet | with_reducible apply State.every_quiet | with_reducible apply Quiet.ite
    | with_reducible apply Quiet.foldl | fail_if_no_progress intros | dsimp only | split)

theorem State.writeSkip_quiet {s0 : State} (s : State) (hs : Quiet s0 s) : Quiet s0 (State.writeSkip s) := by
  unfold State.writeSkip
  repeat' (first
    | with_reducible assumption
    | (extract_lets +onlyGivenNames x; change State at x; refine Quiet.cut (s0 := s0) x ?_ ?_; (on_goal 1 => dsimp only [x]; clear x); (on_goal 2 => intro hx; clear_value x))
    | (extract_lets +onlyGivenNames x; change _ × State at x; refine Quiet.cut2 (s0 := s0) x ?_ ?_; (on_goal 1 => dsimp only [x]; clear x); (on_goal 2 => intro hx; clear_value x))
    | (extract_lets +onlyGivenNames x; clear_value x) | with_reducible apply State.bowSend_quiet
    | with_reducible apply Quiet.ite | fail_if_no_progress intros | fail_if_no_progress with_reducible apply Quiet.upd
    | dsimp only | split)

theorem runPowerSkipUpdate_quiet {s0 : State} (inputW vin : Nat) (s : State) (hs : Quiet s0 s) : Quiet s0 (runPowerSkipUpdate inputW vin s) := by
  unfold runPowerSkipUpdate
  repeat' (first
    | with_reducible assumption
    | (extract_lets +onlyGivenNames x; change State at x; refine Quiet.cut (s0 := s0) x ?_ ?_; (on_goal 1 => dsimp only [x]; clear x); (on_goal 2 => intro hx; clear_value x))
    | (extract_lets +onlyGivenNames x; change _ × State at x; refine Quiet.cut2 (s0 := s0) x ?_ ?_; (on_goal 1 => dsimp only [x]; clear x); (on_goal 2 => intro hx; clear_value x))
    | (extract_lets +onlyGivenNames x; clear_value x) | with_reducible apply State.writeSkip_quiet
    | with_reducible apply State.showPower_quiet | with_reducible apply State.every_quiet
    | with_reducible apply State.setReg_quiet | with_reducible apply Quiet.ite | fail_if_no_progress intros
    | fail_if_no_progress with_reducible apply Quiet.upd | dsimp only | split)

theorem runThermalSkipUpdate_quiet {s0 : State} (s : State) (hs : Quiet s0 s) : Quiet s0 (runThermalSkipUpdate s) := by
  unfold runThermalSkipUpdate
  repeat' (first
    | with_reducible assumption
    | (extract_lets +onlyGivenNames x; change State at x; refine Quiet.cut (s0 := s0) x ?_ ?_; (on_goal 1 => dsimp only [x]; clear x); (on_goal 2 => intro hx; clear_value x))
    | (extract_lets +onlyGivenNames x; change _ × State at x; refine Quiet.cut2 (s0 := s0) x ?_ ?_; (on_goal 1 => dsimp only [x]; clear x); (on_goal 2 => intro hx; clear_value x))
    | (extract_lets +onlyGivenNames x; clear_value x) | with_reducible apply State.writeSkip_quiet
    | with_reducible apply State.showPower_quiet | with_reducible apply State.every_quiet | with_reducible apply Quiet.ite
    | fail_if_no_progress intros | fail_if_no_progress with_reducible apply Quiet.upd | dsimp only | split)

theorem runNormalDeclared_quiet {s0 : State} (s : State) (hs : Quiet s0 s) : Quiet s0 (runNormalDeclared s) := by
  unfold runNormalDeclared
  repeat' (first
    | with_reducible assumption
    | (extract_lets +onlyGivenNames x; change State at x; refine Quiet.cut (s0 := s0) x ?_ ?_; (on_goal 1 => dsimp only [x]; clear x); (on_goal 2 => intro hx; clear_value x))
    | (extract_lets +onlyGivenNames x; change _ × State at x; refine Quiet.cut2 (s0 := s0) x ?_ ?_; (on_goal 1 => dsimp only [x]; clear x); (on_goal 2 => intro hx; clear_value x))
    | (extract_lets +onlyGivenNames x; clear_value x) | with_reducible apply State.bowSend_quiet
    | with_reducible apply State.setFld_quiet | with_reducible apply Quiet.ite | with_reducible apply Quiet.foldl
    | fail_if_no_progress intros | fail_if_no_progress with_reducible apply Quiet.upd
    | (with_reducible apply Quiet.snd; with_reducible assumption) | dsimp only | split)

theorem State.showOc_quiet {s0 : State} (s : State) (d : Nat) (hs : Quiet s0 s) : Quiet s0 (State.showOc s d) := by
  unfold State.showOc
  repeat' (first
    | with_reducible assumption
    | (extract_lets +onlyGivenNames x; change State at x; refine Quiet.cut (s0 := s0) x ?_ ?_; (on_goal 1 => dsimp only [x]; clear x); (on_goal 2 => intro hx; clear_value x))
    | (extract_lets +onlyGivenNames x; change _ × State at x; refine Quiet.cut2 (s0 := s0) x ?_ ?_; (on_goal 1 => dsimp only [x]; clear x); (on_goal 2 => intro hx; clear_value x))
    | (extract_lets +onlyGivenNames x; clear_value x) | with_reducible apply State.setFld_quiet
    | with_reducible apply Quiet.ite | fail_if_no_progress intros | dsimp only | split)

theorem runOvercurrentTrip_quiet {s0 : State} (r : Rail) (s : State) (hs : Quiet s0 s) : Quiet s0 (runOvercurrentTrip r s) := by
  unfold runOvercurrentTrip
  repeat' (first
    | with_reducible assumption
    | (extract_lets +onlyGivenNames x; change State at x; refine Quiet.cut (s0 := s0) x ?_ ?_; (on_goal 1 => dsimp only [x]; clear x); (on_goal 2 => intro hx; clear_value x))
    | (extract_lets +onlyGivenNames x; change _ × State at x; refine Quiet.cut2 (s0 := s0) x ?_ ?_; (on_goal 1 => dsimp only [x]; clear x); (on_goal 2 => intro hx; clear_value x))
    | (extract_lets +onlyGivenNames x; clear_value x) | with_reducible apply State.showOc_quiet
    | with_reducible apply State.raiseEmergency_quiet | with_reducible apply State.fault_quiet
    | with_reducible apply State.bump_quiet | with_reducible apply State.setBit_quiet | with_reducible apply Quiet.ite
    | fail_if_no_progress intros | fail_if_no_progress with_reducible apply Quiet.upd | dsimp only | split)

theorem State.ocClear_quiet {s0 : State} (s : State) (r : Rail) (hs : Quiet s0 s) : Quiet s0 (State.ocClear s r) := by
  unfold State.ocClear
  repeat' (first
    | with_reducible assumption
    | (extract_lets +onlyGivenNames x; change State at x; refine Quiet.cut (s0 := s0) x ?_ ?_; (on_goal 1 => dsimp only [x]; clear x); (on_goal 2 => intro hx; clear_value x))
    | (extract_lets +onlyGivenNames x; change _ × State at x; refine Quiet.cut2 (s0 := s0) x ?_ ?_; (on_goal 1 => dsimp only [x]; clear x); (on_goal 2 => intro hx; clear_value x))
    | (extract_lets +onlyGivenNames x; clear_value x) | with_reducible apply State.showOc_quiet
    | with_reducible apply State.showActive_quiet | fail_if_no_progress intros
    | fail_if_no_progress with_reducible apply Quiet.upd | dsimp only)

theorem State.ocClear_kept {s0 : State} (s : State) (r : Rail) (hs : Kept s0 s) : Kept s0 (State.ocClear s r) :=
  (State.ocClear_quiet s r (Quiet.refl _)).keeps hs

theorem runOvercurrentComparatorClear_quiet {s0 : State} (r : Rail) (s : State) (hs : Quiet s0 s) : Quiet s0 (runOvercurrentComparatorClear r s) := by
  unfold runOvercurrentComparatorClear
  repeat' (first
    | with_reducible assumption | with_reducible apply State.ocClear_quiet | with_reducible apply Quiet.ite
    | fail_if_no_progress intros | split)

theorem State.loseDie_quiet {s0 : State} (s : State) (d code : Nat) (hs : Quiet s0 s) : Quiet s0 (State.loseDie s d code) := by
  unfold State.loseDie
  repeat' (first
    | with_reducible assumption
    | (extract_lets +onlyGivenNames x; change State at x; refine Quiet.cut (s0 := s0) x ?_ ?_; (on_goal 1 => dsimp only [x]; clear x); (on_goal 2 => intro hx; clear_value x))
    | (extract_lets +onlyGivenNames x; change _ × State at x; refine Quiet.cut2 (s0 := s0) x ?_ ?_; (on_goal 1 => dsimp only [x]; clear x); (on_goal 2 => intro hx; clear_value x))
    | (extract_lets +onlyGivenNames x; clear_value x) | with_reducible apply State.calDieLost_quiet
    | with_reducible apply State.jobEnd_quiet | with_reducible apply State.fault_quiet
    | with_reducible apply State.modDie_quiet | with_reducible apply Quiet.ite | with_reducible apply Quiet.foldl
    | fail_if_no_progress intros | fail_if_no_progress with_reducible apply Quiet.upd | dsimp only | split)

theorem State.loseDie_kept {s0 : State} (s : State) (d code : Nat) (hs : Kept s0 s) : Kept s0 (State.loseDie s d code) :=
  (State.loseDie_quiet s d code (Quiet.refl _)).keeps hs

theorem State.loseBrim_quiet {s0 : State} (s : State) (b code : Nat) (hs : Quiet s0 s) : Quiet s0 (State.loseBrim s b code) := by
  unfold State.loseBrim
  repeat' (first
    | with_reducible assumption
    | (extract_lets +onlyGivenNames x; change State at x; refine Quiet.cut (s0 := s0) x ?_ ?_; (on_goal 1 => dsimp only [x]; clear x); (on_goal 2 => intro hx; clear_value x))
    | (extract_lets +onlyGivenNames x; change _ × State at x; refine Quiet.cut2 (s0 := s0) x ?_ ?_; (on_goal 1 => dsimp only [x]; clear x); (on_goal 2 => intro hx; clear_value x))
    | (extract_lets +onlyGivenNames x; clear_value x) | with_reducible apply State.loseDie_quiet
    | with_reducible apply State.lasDown_quiet | with_reducible apply State.jobFault_quiet
    | with_reducible apply State.fault_quiet | with_reducible apply State.modDie_quiet
    | with_reducible apply State.setReg_quiet | with_reducible apply Quiet.ite | with_reducible apply Quiet.foldl
    | fail_if_no_progress intros | fail_if_no_progress with_reducible apply Quiet.upd | dsimp only | split)

theorem State.loseBrim_kept {s0 : State} (s : State) (b code : Nat) (hs : Kept s0 s) : Kept s0 (State.loseBrim s b code) :=
  (State.loseBrim_quiet s b code (Quiet.refl _)).keeps hs

theorem State.loseAny_kept {s0 : State} (s : State) (r : Rail) (hs : Kept s0 s) : Kept s0 (State.loseAny s r) := by
  unfold State.loseAny
  repeat' (first
    | with_reducible assumption
    | (extract_lets +onlyGivenNames x; change State at x; refine Kept.cut (s0 := s0) x ?_ ?_; (on_goal 1 => dsimp only [x]; clear x); (on_goal 2 => intro hx; clear_value x))
    | (extract_lets +onlyGivenNames x; change _ × State at x; refine Kept.cut2 (s0 := s0) x ?_ ?_; (on_goal 1 => dsimp only [x]; clear x); (on_goal 2 => intro hx; clear_value x))
    | (extract_lets +onlyGivenNames x; clear_value x) | with_reducible apply State.loseBrim_kept
    | with_reducible apply State.loseDie_kept | with_reducible apply State.pgoodLow_kept | with_reducible apply Kept.ite
    | fail_if_no_progress intros | fail_if_no_progress with_reducible apply Kept.upd | dsimp only | split)

theorem runRailShutdown_kept {s0 : State} (r : Rail) (s : State) (hs : Kept s0 s) : Kept s0 (runRailShutdown r s) := by
  unfold runRailShutdown
  repeat' (first
    | with_reducible assumption
    | (extract_lets +onlyGivenNames x; change State at x; refine Kept.cut (s0 := s0) x ?_ ?_; (on_goal 1 => dsimp only [x]; clear x); (on_goal 2 => intro hx; clear_value x))
    | (extract_lets +onlyGivenNames x; change _ × State at x; refine Kept.cut2 (s0 := s0) x ?_ ?_; (on_goal 1 => dsimp only [x]; clear x); (on_goal 2 => intro hx; clear_value x))
    | (extract_lets +onlyGivenNames x; clear_value x) | with_reducible apply State.loseAny_kept
    | with_reducible apply State.ocClear_kept | with_reducible apply State.setBit_kept | with_reducible apply State.setFld_kept
    | with_reducible apply Kept.ite | fail_if_no_progress intros | fail_if_no_progress with_reducible apply Kept.upd
    | dsimp only | split)

theorem runBusConverterUvlo_kept {s0 : State} (c : Fin 20) (s : State) (hs : Kept s0 s) : Kept s0 (runBusConverterUvlo c s) := by
  unfold runBusConverterUvlo
  repeat' (first
    | with_reducible assumption
    | (extract_lets +onlyGivenNames x; change State at x; refine Kept.cut (s0 := s0) x ?_ ?_; (on_goal 1 => dsimp only [x]; clear x); (on_goal 2 => intro hx; clear_value x))
    | (extract_lets +onlyGivenNames x; change _ × State at x; refine Kept.cut2 (s0 := s0) x ?_ ?_; (on_goal 1 => dsimp only [x]; clear x); (on_goal 2 => intro hx; clear_value x))
    | (extract_lets +onlyGivenNames x; clear_value x) | with_reducible apply State.loseAny_kept
    | with_reducible apply State.setBit_kept | with_reducible apply Kept.ite | with_reducible apply Kept.foldl
    | fail_if_no_progress intros | fail_if_no_progress with_reducible apply Kept.upd | dsimp only | split)

theorem runBusConverterRestart_quiet {s0 : State} (c : Fin 20) (s : State) (hs : Quiet s0 s) : Quiet s0 (runBusConverterRestart c s) := by
  unfold runBusConverterRestart
  repeat' (first
    | with_reducible assumption | fail_if_no_progress intros | fail_if_no_progress with_reducible apply Quiet.upd)

theorem runThermalTrip_quiet {s0 : State} (d : DieIdx) (s : State) (hs : Quiet s0 s) : Quiet s0 (runThermalTrip d s) := by
  unfold runThermalTrip
  repeat' (first
    | with_reducible assumption
    | (extract_lets +onlyGivenNames x; change State at x; refine Quiet.cut (s0 := s0) x ?_ ?_; (on_goal 1 => dsimp only [x]; clear x); (on_goal 2 => intro hx; clear_value x))
    | (extract_lets +onlyGivenNames x; change _ × State at x; refine Quiet.cut2 (s0 := s0) x ?_ ?_; (on_goal 1 => dsimp only [x]; clear x); (on_goal 2 => intro hx; clear_value x))
    | (extract_lets +onlyGivenNames x; clear_value x) | with_reducible apply State.showThermal_quiet
    | with_reducible apply State.raiseEmergency_quiet | with_reducible apply State.fault_quiet
    | with_reducible apply State.modDie_quiet | with_reducible apply State.setFld_quiet | with_reducible apply Quiet.ite
    | fail_if_no_progress intros | fail_if_no_progress with_reducible apply Quiet.upd | dsimp only | split)

theorem runThmLimitsWrite_quiet {s0 : State} (port : Port) (b : BrimDie) (data : W32) (s : State) (hs : Quiet s0 s) : Quiet s0 (runThmLimitsWrite port b data s) := by
  unfold runThmLimitsWrite
  repeat' (first
    | with_reducible assumption
    | (extract_lets +onlyGivenNames x; change State at x; refine Quiet.cut (s0 := s0) x ?_ ?_; (on_goal 1 => dsimp only [x]; clear x); (on_goal 2 => intro hx; clear_value x))
    | (extract_lets +onlyGivenNames x; change _ × State at x; refine Quiet.cut2 (s0 := s0) x ?_ ?_; (on_goal 1 => dsimp only [x]; clear x); (on_goal 2 => intro hx; clear_value x))
    | (extract_lets +onlyGivenNames x; clear_value x) | with_reducible apply State.programLimits_quiet
    | with_reducible apply State.guardedWrite_quiet | with_reducible apply State.storeReg_quiet
    | with_reducible apply State.fwFault_quiet | with_reducible apply Quiet.ite | fail_if_no_progress intros | dsimp only
    | split)

theorem runThmLimitsWrite_kept {s0 : State} (port : Port) (b : BrimDie) (data : W32) (s : State) (hs : Kept s0 s) : Kept s0 (runThmLimitsWrite port b data s) :=
  (runThmLimitsWrite_quiet port b data s (Quiet.refl _)).keeps hs

/-! ## Forms -/

theorem State.setWords_quiet {s0 : State} (s : State) (k : Nat → RegKey) (l : List Nat) (hs : Quiet s0 s) : Quiet s0 (State.setWords s k l) := by
  unfold State.setWords
  repeat' (first
    | with_reducible assumption | with_reducible apply State.setReg_quiet | with_reducible apply Quiet.foldl
    | fail_if_no_progress intros)

theorem State.loadTables_quiet {s0 : State} (s : State) (p lt : Nat) (hs : Quiet s0 s) : Quiet s0 (State.loadTables s p lt) := by
  unfold State.loadTables
  repeat' (first
    | with_reducible assumption
    | (extract_lets +onlyGivenNames x; change State at x; refine Quiet.cut (s0 := s0) x ?_ ?_; (on_goal 1 => dsimp only [x]; clear x); (on_goal 2 => intro hx; clear_value x))
    | (extract_lets +onlyGivenNames x; change _ × State at x; refine Quiet.cut2 (s0 := s0) x ?_ ?_; (on_goal 1 => dsimp only [x]; clear x); (on_goal 2 => intro hx; clear_value x))
    | (extract_lets +onlyGivenNames x; clear_value x) | with_reducible apply State.setWords_quiet
    | with_reducible apply State.setPair_quiet | with_reducible apply State.setReg_quiet | with_reducible apply Quiet.foldl
    | fail_if_no_progress intros | fail_if_no_progress with_reducible apply Quiet.upd
    | (with_reducible apply Quiet.snd; with_reducible assumption) | dsimp only | split)

theorem State.loadTables_kept {s0 : State} (s : State) (p lt : Nat) (hs : Kept s0 s) : Kept s0 (State.loadTables s p lt) :=
  (State.loadTables_quiet s p lt (Quiet.refl _)).keeps hs

theorem State.patchDesc_quiet {s0 : State} (s : State) (t : TileId) (p : Patch) (v : Int) (hs : Quiet s0 s) : Quiet s0 (State.patchDesc s t p v) := by
  unfold State.patchDesc
  repeat' (first
    | with_reducible assumption
    | (extract_lets +onlyGivenNames x; change State at x; refine Quiet.cut (s0 := s0) x ?_ ?_; (on_goal 1 => dsimp only [x]; clear x); (on_goal 2 => intro hx; clear_value x))
    | (extract_lets +onlyGivenNames x; change _ × State at x; refine Quiet.cut2 (s0 := s0) x ?_ ?_; (on_goal 1 => dsimp only [x]; clear x); (on_goal 2 => intro hx; clear_value x))
    | (extract_lets +onlyGivenNames x; clear_value x) | with_reducible apply State.setFld_quiet
    | with_reducible apply Quiet.ite | fail_if_no_progress intros | dsimp only | split)

theorem State.applyPatch_quiet {s0 : State} (s : State) (part : Nat) (p : Patch) (q : Nat) (hs : Quiet s0 s) : Quiet s0 (State.applyPatch s part p q) := by
  unfold State.applyPatch
  repeat' (first
    | with_reducible assumption
    | (extract_lets +onlyGivenNames x; change State at x; refine Quiet.cut (s0 := s0) x ?_ ?_; (on_goal 1 => dsimp only [x]; clear x); (on_goal 2 => intro hx; clear_value x))
    | (extract_lets +onlyGivenNames x; change _ × State at x; refine Quiet.cut2 (s0 := s0) x ?_ ?_; (on_goal 1 => dsimp only [x]; clear x); (on_goal 2 => intro hx; clear_value x))
    | (extract_lets +onlyGivenNames x; clear_value x) | with_reducible apply State.patchDesc_quiet
    | with_reducible apply State.modPart_quiet | with_reducible apply Quiet.ite | fail_if_no_progress intros
    | fail_if_no_progress with_reducible apply Quiet.upd | dsimp only | split)

theorem State.loadWindows_quiet {s0 : State} (s : State) (p lt : Nat) (hs : Quiet s0 s) : Quiet s0 (State.loadWindows s p lt) := by
  unfold State.loadWindows
  repeat' (first
    | with_reducible assumption
    | (extract_lets +onlyGivenNames x; change State at x; refine Quiet.cut (s0 := s0) x ?_ ?_; (on_goal 1 => dsimp only [x]; clear x); (on_goal 2 => intro hx; clear_value x))
    | (extract_lets +onlyGivenNames x; change _ × State at x; refine Quiet.cut2 (s0 := s0) x ?_ ?_; (on_goal 1 => dsimp only [x]; clear x); (on_goal 2 => intro hx; clear_value x))
    | (extract_lets +onlyGivenNames x; clear_value x) | with_reducible apply State.assignWindow_quiet
    | with_reducible apply Quiet.foldl | fail_if_no_progress intros | fail_if_no_progress with_reducible apply Quiet.upd
    | (with_reducible apply Quiet.snd; with_reducible assumption) | dsimp only | split)

theorem State.loadWindows_kept {s0 : State} (s : State) (p lt : Nat) (hs : Kept s0 s) : Kept s0 (State.loadWindows s p lt) :=
  (State.loadWindows_quiet s p lt (Quiet.refl _)).keeps hs

theorem State.loadPatches_quiet {s0 : State} (s : State) (p : Nat) (hs : Quiet s0 s) : Quiet s0 (State.loadPatches s p) := by
  unfold State.loadPatches
  repeat' (first
    | with_reducible assumption | with_reducible apply State.applyPatch_quiet | with_reducible apply Quiet.foldl
    | fail_if_no_progress intros | fail_if_no_progress with_reducible apply Quiet.upd
    | (with_reducible apply Quiet.snd; with_reducible assumption) | split)

theorem State.loadPatches_kept {s0 : State} (s : State) (p : Nat) (hs : Kept s0 s) : Kept s0 (State.loadPatches s p) :=
  (State.loadPatches_quiet s p (Quiet.refl _)).keeps hs

theorem State.clearTile_quiet {s0 : State} (s : State) (t : TileId) (hs : Quiet s0 s) : Quiet s0 (State.clearTile s t) := by
  unfold State.clearTile
  repeat' (first
    | with_reducible assumption
    | (extract_lets +onlyGivenNames x; change State at x; refine Quiet.cut (s0 := s0) x ?_ ?_; (on_goal 1 => dsimp only [x]; clear x); (on_goal 2 => intro hx; clear_value x))
    | (extract_lets +onlyGivenNames x; change _ × State at x; refine Quiet.cut2 (s0 := s0) x ?_ ?_; (on_goal 1 => dsimp only [x]; clear x); (on_goal 2 => intro hx; clear_value x))
    | (extract_lets +onlyGivenNames x; clear_value x) | with_reducible apply State.showStage_quiet
    | with_reducible apply State.showInflight_quiet | with_reducible apply State.setTileState_quiet
    | with_reducible apply State.modArr_quiet | with_reducible apply State.modTile_quiet | with_reducible apply Quiet.foldl
    | fail_if_no_progress intros | fail_if_no_progress with_reducible apply Quiet.upd | dsimp only)

theorem State.dropForm_quiet {s0 : State} (s : State) (p : Nat) (hs : Quiet s0 s) : Quiet s0 (State.dropForm s p) := by
  unfold State.dropForm
  repeat' (first
    | with_reducible assumption
    | (extract_lets +onlyGivenNames x; change State at x; refine Quiet.cut (s0 := s0) x ?_ ?_; (on_goal 1 => dsimp only [x]; clear x); (on_goal 2 => intro hx; clear_value x))
    | (extract_lets +onlyGivenNames x; change _ × State at x; refine Quiet.cut2 (s0 := s0) x ?_ ?_; (on_goal 1 => dsimp only [x]; clear x); (on_goal 2 => intro hx; clear_value x))
    | (extract_lets +onlyGivenNames x; clear_value x) | with_reducible apply State.clearTile_quiet
    | with_reducible apply State.loadFail_quiet | with_reducible apply State.showGen_quiet
    | with_reducible apply State.disarmCommit_quiet | with_reducible apply State.modPart_quiet
    | with_reducible apply State.setFld_quiet | with_reducible apply State.setReg_quiet | with_reducible apply Quiet.foldl
    | fail_if_no_progress intros | fail_if_no_progress with_reducible apply Quiet.upd | dsimp only)

theorem State.loadFault_quiet {s0 : State} (s : State) (p : Nat) (e : LoadErr) (formId : Nat) (hs : Quiet s0 s) : Quiet s0 (State.loadFault s p e formId) := by
  unfold State.loadFault
  repeat' (first
    | with_reducible assumption | with_reducible apply State.putFault_quiet | with_reducible apply Quiet.ite
    | fail_if_no_progress intros | split)

theorem State.installForm_quiet {s0 : State} (s : State) (p : Nat) (f : Form) (placed : Tbl Nat Nat) (hs : Quiet s0 s) : Quiet s0 (State.installForm s p f placed) := by
  unfold State.installForm
  repeat' (first
    | with_reducible assumption
    | (extract_lets +onlyGivenNames x; change State at x; refine Quiet.cut (s0 := s0) x ?_ ?_; (on_goal 1 => dsimp only [x]; clear x); (on_goal 2 => intro hx; clear_value x))
    | (extract_lets +onlyGivenNames x; change _ × State at x; refine Quiet.cut2 (s0 := s0) x ?_ ?_; (on_goal 1 => dsimp only [x]; clear x); (on_goal 2 => intro hx; clear_value x))
    | (extract_lets +onlyGivenNames x; clear_value x) | with_reducible apply State.loadPatches_quiet
    | with_reducible apply State.loadWindows_quiet | with_reducible apply State.loadTables_quiet
    | with_reducible apply State.setTileState_quiet | with_reducible apply State.setPage_quiet
    | with_reducible apply State.setPart_quiet | with_reducible apply State.modTile_quiet
    | with_reducible apply State.setFld_quiet | with_reducible apply State.setReg_quiet | with_reducible apply Quiet.foldl
    | fail_if_no_progress intros | fail_if_no_progress with_reducible apply Quiet.upd | dsimp only)

theorem State.healPlls_quiet {s0 : State} (s : State) (p : Nat) (hs : Quiet s0 s) : Quiet s0 (State.healPlls s p) := by
  unfold State.healPlls
  repeat' (first
    | with_reducible assumption
    | (extract_lets +onlyGivenNames x; change State at x; refine Quiet.cut (s0 := s0) x ?_ ?_; (on_goal 1 => dsimp only [x]; clear x); (on_goal 2 => intro hx; clear_value x))
    | (extract_lets +onlyGivenNames x; change _ × State at x; refine Quiet.cut2 (s0 := s0) x ?_ ?_; (on_goal 1 => dsimp only [x]; clear x); (on_goal 2 => intro hx; clear_value x))
    | (extract_lets +onlyGivenNames x; clear_value x) | fail_if_no_progress intros
    | fail_if_no_progress with_reducible apply Quiet.upd | (with_reducible apply Quiet.snd; with_reducible assumption)
    | dsimp only | split)

theorem runFormLoad_quiet {s0 : State} (p : PartIdx) (image : List Byte) (s : State) (hs : Quiet s0 s) : Quiet s0 (runFormLoad p image s) := by
  unfold runFormLoad
  repeat' (first
    | with_reducible assumption
    | (extract_lets +onlyGivenNames x; change State at x; refine Quiet.cut (s0 := s0) x ?_ ?_; (on_goal 1 => dsimp only [x]; clear x); (on_goal 2 => intro hx; clear_value x))
    | (extract_lets +onlyGivenNames x; change _ × State at x; refine Quiet.cut2 (s0 := s0) x ?_ ?_; (on_goal 1 => dsimp only [x]; clear x); (on_goal 2 => intro hx; clear_value x))
    | (extract_lets +onlyGivenNames x; clear_value x) | with_reducible apply State.healPlls_quiet
    | with_reducible apply State.installForm_quiet | with_reducible apply State.loadFault_quiet
    | with_reducible apply State.dropForm_quiet | with_reducible apply State.fwFault_quiet | with_reducible apply Quiet.ite
    | fail_if_no_progress intros | fail_if_no_progress with_reducible apply Quiet.upd
    | (with_reducible apply Quiet.snd; with_reducible assumption) | dsimp only | split)

theorem runOperatorEndsJob_quiet {s0 : State} (p : PartIdx) (s : State) (hs : Quiet s0 s) : Quiet s0 (runOperatorEndsJob p s) := by
  unfold runOperatorEndsJob
  repeat' (first
    | with_reducible assumption | with_reducible apply State.jobEnd_quiet | fail_if_no_progress intros)

/-! ## Fulling -/

theorem State.copyDone_quiet {s0 : State} (s : State) (a : ArrayId) (src : Nat) (hs : Quiet s0 s) : Quiet s0 (State.copyDone s a src) := by
  unfold State.copyDone
  repeat' (first
    | with_reducible assumption
    | (extract_lets +onlyGivenNames x; change State at x; refine Quiet.cut (s0 := s0) x ?_ ?_; (on_goal 1 => dsimp only [x]; clear x); (on_goal 2 => intro hx; clear_value x))
    | (extract_lets +onlyGivenNames x; change _ × State at x; refine Quiet.cut2 (s0 := s0) x ?_ ?_; (on_goal 1 => dsimp only [x]; clear x); (on_goal 2 => intro hx; clear_value x))
    | (extract_lets +onlyGivenNames x; clear_value x) | with_reducible apply State.stageCopy_quiet
    | with_reducible apply State.modArr_quiet | with_reducible apply Quiet.ite | fail_if_no_progress intros
    | fail_if_no_progress with_reducible apply Quiet.upd | (with_reducible apply Quiet.snd; with_reducible assumption)
    | dsimp only | split)

theorem State.rewriteNew_quiet {s0 : State} (s : State) (p : Nat) (t : TileId) (src copy : Nat) (hs : Quiet s0 s) : Quiet s0 (State.rewriteNew s p t src copy) := by
  unfold State.rewriteNew
  repeat' (first
    | with_reducible assumption
    | (extract_lets +onlyGivenNames x; change State at x; refine Quiet.cut (s0 := s0) x ?_ ?_; (on_goal 1 => dsimp only [x]; clear x); (on_goal 2 => intro hx; clear_value x))
    | (extract_lets +onlyGivenNames x; change _ × State at x; refine Quiet.cut2 (s0 := s0) x ?_ ?_; (on_goal 1 => dsimp only [x]; clear x); (on_goal 2 => intro hx; clear_value x))
    | (extract_lets +onlyGivenNames x; clear_value x) | with_reducible apply State.mapWrite_quiet
    | with_reducible apply Quiet.ite | with_reducible apply Quiet.foldl | fail_if_no_progress intros
    | fail_if_no_progress with_reducible apply Quiet.upd | (with_reducible apply Quiet.snd; with_reducible assumption)
    | dsimp only | split)

theorem State.repairDone_quiet {s0 : State} (s : State) (p : Nat) (a : ArrayId) (old : Nat) (hs : Quiet s0 s) : Quiet s0 (State.repairDone s p a old) := by
  unfold State.repairDone
  repeat' (first
    | with_reducible assumption | with_reducible apply State.rewriteNew_quiet | with_reducible apply State.copyDone_quiet
    | with_reducible apply State.armRepair_quiet | with_reducible apply State.disarmCommit_quiet | fail_if_no_progress intros)

theorem State.moveReady_quiet {s0 : State} (s : State) (p : Nat) (from' to' : TileId) (hs : Quiet s0 s) : Quiet s0 (State.moveReady s p from' to') := by
  unfold State.moveReady
  repeat' (first
    | with_reducible assumption
    | (extract_lets +onlyGivenNames x; change State at x; refine Quiet.cut (s0 := s0) x ?_ ?_; (on_goal 1 => dsimp only [x]; clear x); (on_goal 2 => intro hx; clear_value x))
    | (extract_lets +onlyGivenNames x; change _ × State at x; refine Quiet.cut2 (s0 := s0) x ?_ ?_; (on_goal 1 => dsimp only [x]; clear x); (on_goal 2 => intro hx; clear_value x))
    | (extract_lets +onlyGivenNames x; clear_value x) | with_reducible apply State.armRepair_quiet
    | with_reducible apply State.disarmCommit_quiet | with_reducible apply State.bankWrite_quiet
    | with_reducible apply Quiet.ite | with_reducible apply Quiet.foldl | fail_if_no_progress intros | dsimp only | split)

theorem State.moveReady_kept {s0 : State} (s : State) (p : Nat) (from' to' : TileId) (hs : Kept s0 s) : Kept s0 (State.moveReady s p from' to') :=
  (State.moveReady_quiet s p from' to' (Quiet.refl _)).keeps hs

theorem State.moveDone_quiet {s0 : State} (s : State) (p : Nat) (from' : TileId) (old : Nat) (a : ArrayId) (hs : Quiet s0 s) : Quiet s0 (State.moveDone s p from' old a) := by
  unfold State.moveDone
  repeat' (first
    | with_reducible assumption
    | (extract_lets +onlyGivenNames x; change State at x; refine Quiet.cut (s0 := s0) x ?_ ?_; (on_goal 1 => dsimp only [x]; clear x); (on_goal 2 => intro hx; clear_value x))
    | (extract_lets +onlyGivenNames x; change _ × State at x; refine Quiet.cut2 (s0 := s0) x ?_ ?_; (on_goal 1 => dsimp only [x]; clear x); (on_goal 2 => intro hx; clear_value x))
    | (extract_lets +onlyGivenNames x; clear_value x) | with_reducible apply State.moveReady_quiet
    | with_reducible apply State.mapWrite_quiet | with_reducible apply Quiet.foldl | fail_if_no_progress intros | dsimp only)

theorem State.fullDone_quiet {s0 : State} (s : State) (a : ArrayId) (j : FulJob) (hs : Quiet s0 s) : Quiet s0 (State.fullDone s a j) := by
  unfold State.fullDone
  repeat' (first
    | with_reducible assumption | with_reducible apply State.moveDone_quiet | with_reducible apply State.repairDone_quiet
    | with_reducible apply State.copyDone_quiet | with_reducible apply State.loadCheck_quiet
    | with_reducible apply State.modPart_quiet | with_reducible apply State.modArr_quiet | fail_if_no_progress intros
    | fail_if_no_progress with_reducible apply Quiet.upd | (with_reducible apply Quiet.snd; with_reducible assumption) | split)

theorem State.fullDone_kept {s0 : State} (s : State) (a : ArrayId) (j : FulJob) (hs : Kept s0 s) : Kept s0 (State.fullDone s a j) :=
  (State.fullDone_quiet s a j (Quiet.refl _)).keeps hs

theorem State.fullAgain_kept {s0 : State} (s : State) (d : Nat) (j : FulJob) (p chunk : Nat) (hs : Kept s0 s) : Kept s0 (State.fullAgain s d j p chunk) := by
  unfold State.fullAgain
  repeat' (first
    | with_reducible assumption
    | (extract_lets +onlyGivenNames x; change State at x; refine Kept.cut (s0 := s0) x ?_ ?_; (on_goal 1 => dsimp only [x]; clear x); (on_goal 2 => intro hx; clear_value x))
    | (extract_lets +onlyGivenNames x; change _ × State at x; refine Kept.cut2 (s0 := s0) x ?_ ?_; (on_goal 1 => dsimp only [x]; clear x); (on_goal 2 => intro hx; clear_value x))
    | (extract_lets +onlyGivenNames x; clear_value x) | with_reducible apply State.spareExhausted_kept
    | with_reducible apply State.submitJob_kept | with_reducible apply State.fetchStart_kept
    | with_reducible apply State.modPart_kept | with_reducible apply Kept.ite | fail_if_no_progress intros
    | fail_if_no_progress with_reducible apply Kept.upd | (with_reducible apply Kept.snd; with_reducible assumption)
    | dsimp only | split)

theorem State.fullLost_kept {s0 : State} (s : State) (d : Nat) (j : FulJob) (hs : Kept s0 s) : Kept s0 (State.fullLost s d j) := by
  unfold State.fullLost
  repeat' (first
    | with_reducible assumption | with_reducible apply State.fullAgain_kept | with_reducible apply State.submitJob_kept
    | with_reducible apply State.modDie_kept | fail_if_no_progress intros | fail_if_no_progress with_reducible apply Kept.upd
    | (with_reducible apply Kept.snd; with_reducible assumption) | split)

theorem State.fullFail_kept {s0 : State} (s : State) (d : Nat) (j : FulJob) (rounds : Nat) (weak : List Nat) (hs : Kept s0 s) : Kept s0 (State.fullFail s d j rounds weak) := by
  unfold State.fullFail
  repeat' (first
    | with_reducible assumption
    | (extract_lets +onlyGivenNames x; change State at x; refine Kept.cut (s0 := s0) x ?_ ?_; (on_goal 1 => dsimp only [x]; clear x); (on_goal 2 => intro hx; clear_value x))
    | (extract_lets +onlyGivenNames x; change _ × State at x; refine Kept.cut2 (s0 := s0) x ?_ ?_; (on_goal 1 => dsimp only [x]; clear x); (on_goal 2 => intro hx; clear_value x))
    | (extract_lets +onlyGivenNames x; clear_value x) | with_reducible apply State.fullLost_kept
    | with_reducible apply State.spoilRow_kept | with_reducible apply State.fenceArray_kept
    | with_reducible apply State.postResult_kept | with_reducible apply State.fault_kept
    | with_reducible apply State.setBit_kept | with_reducible apply Kept.foldl | fail_if_no_progress intros | dsimp only)

theorem runFullingJobPush_quiet {s0 : State} (port : Port) (d : BodyDie) (data : W32) (s : State) (hs : Quiet s0 s) : Quiet s0 (runFullingJobPush port d data s) := by
  unfold runFullingJobPush
  repeat' (first
    | with_reducible assumption
    | (extract_lets +onlyGivenNames x; change State at x; refine Quiet.cut (s0 := s0) x ?_ ?_; (on_goal 1 => dsimp only [x]; clear x); (on_goal 2 => intro hx; clear_value x))
    | (extract_lets +onlyGivenNames x; change _ × State at x; refine Quiet.cut2 (s0 := s0) x ?_ ?_; (on_goal 1 => dsimp only [x]; clear x); (on_goal 2 => intro hx; clear_value x))
    | (extract_lets +onlyGivenNames x; clear_value x) | with_reducible apply State.pushJob_quiet
    | with_reducible apply State.guardedWrite_quiet | with_reducible apply State.fwFault_quiet
    | with_reducible apply State.setBit_quiet | with_reducible apply Quiet.ite | fail_if_no_progress intros | dsimp only
    | split)

theorem runFullingJobPush_kept {s0 : State} (port : Port) (d : BodyDie) (data : W32) (s : State) (hs : Kept s0 s) : Kept s0 (runFullingJobPush port d data s) :=
  (runFullingJobPush_quiet port d data s (Quiet.refl _)).keeps hs

theorem runFullingJobStart_kept {s0 : State} (d : BodyDie) (s : State) (hs : Kept s0 s) : Kept s0 (runFullingJobStart d s) := by
  unfold runFullingJobStart
  repeat' (first
    | with_reducible assumption
    | (extract_lets +onlyGivenNames x; change State at x; refine Kept.cut (s0 := s0) x ?_ ?_; (on_goal 1 => dsimp only [x]; clear x); (on_goal 2 => intro hx; clear_value x))
    | (extract_lets +onlyGivenNames x; change _ × State at x; refine Kept.cut2 (s0 := s0) x ?_ ?_; (on_goal 1 => dsimp only [x]; clear x); (on_goal 2 => intro hx; clear_value x))
    | (extract_lets +onlyGivenNames x; clear_value x) | with_reducible apply State.startJob_kept
    | with_reducible apply State.fetchStart_kept | with_reducible apply Kept.ite | with_reducible apply Kept.foldl
    | fail_if_no_progress intros | fail_if_no_progress with_reducible apply Kept.upd
    | (with_reducible apply Kept.snd; with_reducible assumption) | dsimp only | split)

theorem State.fullEnd_kept {s0 : State} (s : State) (a : ArrayId) (j : FulJob) (rounds : List FullRound) (hs : Kept s0 s) : Kept s0 (State.fullEnd s a j rounds) := by
  unfold State.fullEnd
  repeat' (first
    | with_reducible assumption
    | (extract_lets +onlyGivenNames x; change State at x; refine Kept.cut (s0 := s0) x ?_ ?_; (on_goal 1 => dsimp only [x]; clear x); (on_goal 2 => intro hx; clear_value x))
    | (extract_lets +onlyGivenNames x; change _ × State at x; refine Kept.cut2 (s0 := s0) x ?_ ?_; (on_goal 1 => dsimp only [x]; clear x); (on_goal 2 => intro hx; clear_value x))
    | (extract_lets +onlyGivenNames x; clear_value x) | with_reducible apply State.fullFail_kept
    | with_reducible apply State.fullDone_kept | with_reducible apply State.postResult_kept
    | with_reducible apply State.showFul_kept | with_reducible apply State.event_kept | with_reducible apply State.modDie_kept
    | with_reducible apply State.modArr_kept | with_reducible apply State.bump_kept | with_reducible apply Kept.ite
    | fail_if_no_progress intros | fail_if_no_progress with_reducible apply Kept.upd | dsimp only | split)

theorem State.fullLate_kept {s0 : State} (s : State) (a : ArrayId) (j : FulJob) (hs : Kept s0 s) : Kept s0 (State.fullLate s a j) := by
  unfold State.fullLate
  repeat' (first
    | with_reducible assumption
    | (extract_lets +onlyGivenNames x; change State at x; refine Kept.cut (s0 := s0) x ?_ ?_; (on_goal 1 => dsimp only [x]; clear x); (on_goal 2 => intro hx; clear_value x))
    | (extract_lets +onlyGivenNames x; change _ × State at x; refine Kept.cut2 (s0 := s0) x ?_ ?_; (on_goal 1 => dsimp only [x]; clear x); (on_goal 2 => intro hx; clear_value x))
    | (extract_lets +onlyGivenNames x; clear_value x) | with_reducible apply State.fullFail_kept
    | with_reducible apply State.drawFull_kept | with_reducible apply State.showFul_kept
    | with_reducible apply State.modDie_kept | with_reducible apply State.draw_kept | fail_if_no_progress intros
    | fail_if_no_progress with_reducible apply Kept.upd | dsimp only)

theorem runFullingComplete_kept {s0 : State} (a : ArrayId) (rounds : List FullRound) (s : State) (hs : Kept s0 s) : Kept s0 (runFullingComplete a rounds s) := by
  unfold runFullingComplete
  repeat' (first
    | with_reducible assumption
    | (extract_lets +onlyGivenNames x; change State at x; refine Kept.cut (s0 := s0) x ?_ ?_; (on_goal 1 => dsimp only [x]; clear x); (on_goal 2 => intro hx; clear_value x))
    | (extract_lets +onlyGivenNames x; change _ × State at x; refine Kept.cut2 (s0 := s0) x ?_ ?_; (on_goal 1 => dsimp only [x]; clear x); (on_goal 2 => intro hx; clear_value x))
    | (extract_lets +onlyGivenNames x; clear_value x) | with_reducible apply State.fullLate_kept
    | with_reducible apply State.fullEnd_kept | with_reducible apply State.drawFull_kept
    | with_reducible apply State.modDie_kept | with_reducible apply Kept.ite | fail_if_no_progress intros
    | fail_if_no_progress with_reducible apply Kept.upd | (with_reducible apply Kept.snd; with_reducible assumption)
    | dsimp only | split)

theorem runFullingTimeout_kept {s0 : State} (a : ArrayId) (s : State) (hs : Kept s0 s) : Kept s0 (runFullingTimeout a s) := by
  unfold runFullingTimeout
  repeat' (first
    | with_reducible assumption | with_reducible apply State.fullLate_kept | with_reducible apply Kept.ite
    | fail_if_no_progress intros | fail_if_no_progress with_reducible apply Kept.upd
    | (with_reducible apply Kept.snd; with_reducible assumption) | split)

theorem State.answer_quiet {s0 : State} (s : State) (port : Port) (v : Nat) (hs : Quiet s0 s) : Quiet s0 (State.answer s port v) := by
  unfold State.answer
  repeat' (first
    | with_reducible assumption | fail_if_no_progress intros | fail_if_no_progress with_reducible apply Quiet.upd)

theorem State.fulPop_quiet {s0 : State} (s : State) (port : Port) (d : Nat) (hs : Quiet s0 s) : Quiet s0 (State.fulPop s port d) := by
  unfold State.fulPop
  repeat' (first
    | with_reducible assumption | with_reducible apply State.answer_quiet | with_reducible apply State.showFul_quiet
    | with_reducible apply State.modDie_quiet | fail_if_no_progress intros | fail_if_no_progress with_reducible apply Quiet.upd)

theorem runFulResultRead_quiet {s0 : State} (port : Port) (d : BodyDie) (s : State) (hs : Quiet s0 s) : Quiet s0 (runFulResultRead port d s) := by
  unfold runFulResultRead
  repeat' (first
    | with_reducible assumption | with_reducible apply State.fulPop_quiet | with_reducible apply Quiet.ite
    | fail_if_no_progress intros | split)

theorem State.commitWrite_quiet {s0 : State} (s : State) (port : Port) (d : Nat) (data : W32) (hs : Quiet s0 s) : Quiet s0 (State.commitWrite s port d data) := by
  unfold State.commitWrite
  repeat' (first
    | with_reducible assumption
    | (extract_lets +onlyGivenNames x; change State at x; refine Quiet.cut (s0 := s0) x ?_ ?_; (on_goal 1 => dsimp only [x]; clear x); (on_goal 2 => intro hx; clear_value x))
    | (extract_lets +onlyGivenNames x; change _ × State at x; refine Quiet.cut2 (s0 := s0) x ?_ ?_; (on_goal 1 => dsimp only [x]; clear x); (on_goal 2 => intro hx; clear_value x))
    | (extract_lets +onlyGivenNames x; clear_value x) | with_reducible apply State.loadCheck_quiet
    | with_reducible apply State.guardedWrite_quiet | with_reducible apply State.fwFault_quiet
    | with_reducible apply State.setBit_quiet | with_reducible apply State.setFld_quiet | with_reducible apply Quiet.ite
    | fail_if_no_progress intros | fail_if_no_progress with_reducible apply Quiet.upd
    | (with_reducible apply Quiet.snd; with_reducible assumption) | dsimp only | split)

theorem runFulCommitArm_quiet {s0 : State} (port : Port) (d : BodyDie) (data : W32) (s : State) (hs : Quiet s0 s) : Quiet s0 (runFulCommitArm port d data s) := by
  unfold runFulCommitArm
  repeat' (first
    | with_reducible assumption | with_reducible apply State.commitWrite_quiet | fail_if_no_progress intros)

theorem runFulCommitArm_kept {s0 : State} (port : Port) (d : BodyDie) (data : W32) (s : State) (hs : Kept s0 s) : Kept s0 (runFulCommitArm port d data s) :=
  (runFulCommitArm_quiet port d data s (Quiet.refl _)).keeps hs

theorem runFulCommitDisarm_quiet {s0 : State} (port : Port) (d : BodyDie) (data : W32) (s : State) (hs : Quiet s0 s) : Quiet s0 (runFulCommitDisarm port d data s) := by
  unfold runFulCommitDisarm
  repeat' (first
    | with_reducible assumption | with_reducible apply State.commitWrite_quiet | fail_if_no_progress intros)

theorem runArrayRelease_quiet {s0 : State} (a : ArrayId) (s : State) (hs : Quiet s0 s) : Quiet s0 (runArrayRelease a s) := by
  unfold runArrayRelease
  repeat' (first
    | with_reducible assumption | with_reducible apply State.modArr_quiet | with_reducible apply Quiet.ite
    | fail_if_no_progress intros | fail_if_no_progress with_reducible apply Quiet.upd | split)

theorem runMaintenanceStart_quiet {s0 : State} (a : ArrayId) (s : State) (hs : Quiet s0 s) : Quiet s0 (runMaintenanceStart a s) := by
  unfold runMaintenanceStart
  repeat' (first
    | with_reducible assumption | with_reducible apply State.fwFault_quiet | with_reducible apply State.modArr_quiet
    | fail_if_no_progress intros | fail_if_no_progress with_reducible apply Quiet.upd
    | (with_reducible apply Quiet.snd; with_reducible assumption) | split)

theorem State.remapStart_kept {s0 : State} (s : State) (a : ArrayId) (hs : Kept s0 s) : Kept s0 (State.remapStart s a) := by
  unfold State.remapStart
  repeat' (first
    | with_reducible assumption
    | (extract_lets +onlyGivenNames x; change State at x; refine Kept.cut (s0 := s0) x ?_ ?_; (on_goal 1 => dsimp only [x]; clear x); (on_goal 2 => intro hx; clear_value x))
    | (extract_lets +onlyGivenNames x; change _ × State at x; refine Kept.cut2 (s0 := s0) x ?_ ?_; (on_goal 1 => dsimp only [x]; clear x); (on_goal 2 => intro hx; clear_value x))
    | (extract_lets +onlyGivenNames x; clear_value x) | with_reducible apply State.submitJob_kept
    | with_reducible apply Kept.ite | fail_if_no_progress intros | fail_if_no_progress with_reducible apply Kept.upd
    | (with_reducible apply Kept.snd; with_reducible assumption) | dsimp only | split)

theorem State.remapOrWait_kept {s0 : State} (s : State) (a : ArrayId) (hs : Kept s0 s) : Kept s0 (State.remapOrWait s a) := by
  unfold State.remapOrWait
  repeat' (first
    | with_reducible assumption | with_reducible apply State.remapStart_kept | with_reducible apply State.modDie_kept
    | with_reducible apply Kept.ite | fail_if_no_progress intros | fail_if_no_progress with_reducible apply Kept.upd | split)

theorem State.refullStaged_kept {s0 : State} (s : State) (a : ArrayId) (hs : Kept s0 s) : Kept s0 (State.refullStaged s a) := by
  unfold State.refullStaged
  repeat' (first
    | with_reducible assumption
    | (extract_lets +onlyGivenNames x; change State at x; refine Kept.cut (s0 := s0) x ?_ ?_; (on_goal 1 => dsimp only [x]; clear x); (on_goal 2 => intro hx; clear_value x))
    | (extract_lets +onlyGivenNames x; change _ × State at x; refine Kept.cut2 (s0 := s0) x ?_ ?_; (on_goal 1 => dsimp only [x]; clear x); (on_goal 2 => intro hx; clear_value x))
    | (extract_lets +onlyGivenNames x; clear_value x) | with_reducible apply State.submitJob_kept
    | with_reducible apply State.modArr_kept | fail_if_no_progress intros | fail_if_no_progress with_reducible apply Kept.upd
    | (with_reducible apply Kept.snd; with_reducible assumption) | dsimp only | split)

theorem State.sweepFix_kept {s0 : State} (s : State) (a : ArrayId) (code row : Nat) (hs : Kept s0 s) : Kept s0 (State.sweepFix s a code row) := by
  unfold State.sweepFix
  repeat' (first
    | with_reducible assumption
    | (extract_lets +onlyGivenNames x; change State at x; refine Kept.cut (s0 := s0) x ?_ ?_; (on_goal 1 => dsimp only [x]; clear x); (on_goal 2 => intro hx; clear_value x))
    | (extract_lets +onlyGivenNames x; change _ × State at x; refine Kept.cut2 (s0 := s0) x ?_ ?_; (on_goal 1 => dsimp only [x]; clear x); (on_goal 2 => intro hx; clear_value x))
    | (extract_lets +onlyGivenNames x; clear_value x) | with_reducible apply State.refullStaged_kept
    | with_reducible apply State.remapOrWait_kept | with_reducible apply State.fault_kept
    | with_reducible apply State.bump_kept | with_reducible apply Kept.ite | fail_if_no_progress intros | dsimp only | split)

theorem State.sweepFinding_kept {s0 : State} (s : State) (a : ArrayId) (f : Finding) (hs : Kept s0 s) : Kept s0 (State.sweepFinding s a f) := by
  unfold State.sweepFinding
  repeat' (first
    | with_reducible assumption
    | (extract_lets +onlyGivenNames x; change State at x; refine Kept.cut (s0 := s0) x ?_ ?_; (on_goal 1 => dsimp only [x]; clear x); (on_goal 2 => intro hx; clear_value x))
    | (extract_lets +onlyGivenNames x; change _ × State at x; refine Kept.cut2 (s0 := s0) x ?_ ?_; (on_goal 1 => dsimp only [x]; clear x); (on_goal 2 => intro hx; clear_value x))
    | (extract_lets +onlyGivenNames x; clear_value x) | with_reducible apply State.sweepFix_kept
    | with_reducible apply State.fenceArray_kept | with_reducible apply State.fault_kept | with_reducible apply State.bump_kept
    | with_reducible apply State.setBit_kept | with_reducible apply Kept.ite | fail_if_no_progress intros
    | fail_if_no_progress with_reducible apply Kept.upd | (with_reducible apply Kept.snd; with_reducible assumption)
    | dsimp only | split)

theorem runPounceVisit_kept {s0 : State} (findings : List (ArrayId × Finding)) (s : State) (hs : Kept s0 s) : Kept s0 (runPounceVisit findings s) := by
  unfold runPounceVisit
  repeat' (first
    | with_reducible assumption | with_reducible apply State.sweepFinding_kept | with_reducible apply State.every_kept
    | with_reducible apply Kept.foldl | fail_if_no_progress intros)

/-! ## Bolts -/

theorem State.askChunks_quiet {s0 : State} (p n : Nat) (s : State) (hs : Quiet s0 s) : Quiet s0 (State.askChunks p n s) := by
  induction n generalizing s with
  | zero => exact hs
  | succ n ih =>
    unfold State.askChunks
    repeat' (first | exact hs | exact ih _ (State.modPart_quiet _ _ _ (State.fetchStart_quiet _ _ _ _ _ _ hs)) | split)

theorem State.askMore_quiet {s0 : State} (s : State) (hs : Quiet s0 s) : Quiet s0 (State.askMore s) := by
  unfold State.askMore
  repeat' (first
    | with_reducible assumption | with_reducible apply State.askChunks_quiet
    | with_reducible apply State.fetchForChildren_quiet | with_reducible apply Quiet.foldl | fail_if_no_progress intros)

theorem State.askMore_kept {s0 : State} (s : State) (hs : Kept s0 s) : Kept s0 (State.askMore s) :=
  (State.askMore_quiet s (Quiet.refl _)).keeps hs

theorem runBoltLoadRequest_quiet {s0 : State} (p : PartIdx) (boltId : W64) (s : State) (hs : Quiet s0 s) : Quiet s0 (runBoltLoadRequest p boltId s) := by
  unfold runBoltLoadRequest
  repeat' (first
    | with_reducible assumption
    | (extract_lets +onlyGivenNames x; change State at x; refine Quiet.cut (s0 := s0) x ?_ ?_; (on_goal 1 => dsimp only [x]; clear x); (on_goal 2 => intro hx; clear_value x))
    | (extract_lets +onlyGivenNames x; change _ × State at x; refine Quiet.cut2 (s0 := s0) x ?_ ?_; (on_goal 1 => dsimp only [x]; clear x); (on_goal 2 => intro hx; clear_value x))
    | (extract_lets +onlyGivenNames x; clear_value x) | with_reducible apply State.fetchStart_quiet
    | with_reducible apply State.draw_quiet | with_reducible apply Quiet.ite | fail_if_no_progress intros | dsimp only | split)

theorem State.boltFault_quiet {s0 : State} (s : State) (p code idx detail : Nat) (hs : Quiet s0 s) : Quiet s0 (State.boltFault s p code idx detail) := by
  unfold State.boltFault
  repeat' (first
    | with_reducible assumption | with_reducible apply State.putFault_quiet | fail_if_no_progress intros)

theorem State.boltFault_kept {s0 : State} (s : State) (p code idx detail : Nat) (hs : Kept s0 s) : Kept s0 (State.boltFault s p code idx detail) :=
  (State.boltFault_quiet s p code idx detail (Quiet.refl _)).keeps hs

theorem State.takeWeightPages_quiet {s0 : State} (s : State) (p : Nat) (b : Bolt) (hs : Quiet s0 s) : Quiet s0 (State.takeWeightPages s p b) := by
  unfold State.takeWeightPages
  repeat' (first
    | with_reducible assumption
    | (extract_lets +onlyGivenNames x; change State at x; refine Quiet.cut (s0 := s0) x ?_ ?_; (on_goal 1 => dsimp only [x]; clear x); (on_goal 2 => intro hx; clear_value x))
    | (extract_lets +onlyGivenNames x; change _ × State at x; refine Quiet.cut2 (s0 := s0) x ?_ ?_; (on_goal 1 => dsimp only [x]; clear x); (on_goal 2 => intro hx; clear_value x))
    | (extract_lets +onlyGivenNames x; clear_value x) | with_reducible apply State.setPage_quiet
    | with_reducible apply State.modPart_quiet | with_reducible apply Quiet.foldl | fail_if_no_progress intros
    | fail_if_no_progress with_reducible apply Quiet.upd | dsimp only)

theorem State.loadBegin_quiet {s0 : State} (s : State) (p : Nat) (b : Bolt) (hs : Quiet s0 s) : Quiet s0 (State.loadBegin s p b) := by
  unfold State.loadBegin
  repeat' (first
    | with_reducible assumption
    | (extract_lets +onlyGivenNames x; change State at x; refine Quiet.cut (s0 := s0) x ?_ ?_; (on_goal 1 => dsimp only [x]; clear x); (on_goal 2 => intro hx; clear_value x))
    | (extract_lets +onlyGivenNames x; change _ × State at x; refine Quiet.cut2 (s0 := s0) x ?_ ?_; (on_goal 1 => dsimp only [x]; clear x); (on_goal 2 => intro hx; clear_value x))
    | (extract_lets +onlyGivenNames x; clear_value x) | with_reducible apply State.takeWeightPages_quiet
    | with_reducible apply State.askChunks_quiet | with_reducible apply State.setPage_quiet
    | with_reducible apply State.modPart_quiet | with_reducible apply Quiet.foldl | fail_if_no_progress intros
    | fail_if_no_progress with_reducible apply Quiet.upd | (with_reducible apply Quiet.snd; with_reducible assumption)
    | dsimp only | split)

theorem State.manifestArrived_quiet {s0 : State} (s : State) (p : Nat) (boltId : W64) (data : List Byte) (hs : Quiet s0 s) : Quiet s0 (State.manifestArrived s p boltId data) := by
  unfold State.manifestArrived
  repeat' (first
    | with_reducible assumption
    | (extract_lets +onlyGivenNames x; change State at x; refine Quiet.cut (s0 := s0) x ?_ ?_; (on_goal 1 => dsimp only [x]; clear x); (on_goal 2 => intro hx; clear_value x))
    | (extract_lets +onlyGivenNames x; change _ × State at x; refine Quiet.cut2 (s0 := s0) x ?_ ?_; (on_goal 1 => dsimp only [x]; clear x); (on_goal 2 => intro hx; clear_value x))
    | (extract_lets +onlyGivenNames x; clear_value x) | with_reducible apply State.loadBegin_quiet
    | with_reducible apply State.boltFault_quiet | with_reducible apply State.toChildren_quiet
    | with_reducible apply State.cacheInsert_quiet | with_reducible apply Quiet.ite | fail_if_no_progress intros | dsimp only
    | split)

theorem State.manifestArrived_kept {s0 : State} (s : State) (p : Nat) (boltId : W64) (data : List Byte) (hs : Kept s0 s) : Kept s0 (State.manifestArrived s p boltId data) :=
  (State.manifestArrived_quiet s p boltId data (Quiet.refl _)).keeps hs

theorem State.putSlice_kept {s0 : State} (s : State) (p d j page : Nat) (data : List Byte) (hs : Kept s0 s) : Kept s0 (State.putSlice s p d j page data) := by
  unfold State.putSlice
  repeat' (first
    | with_reducible assumption | with_reducible apply State.setBytes_kept | fail_if_no_progress intros)

theorem State.chunkDone_quiet {s0 : State} (s : State) (p i : Nat) (hs : Quiet s0 s) : Quiet s0 (State.chunkDone s p i) := by
  unfold State.chunkDone
  repeat' (first
    | with_reducible assumption | with_reducible apply State.loadCheck_quiet | with_reducible apply State.modPart_quiet
    | fail_if_no_progress intros | fail_if_no_progress with_reducible apply Quiet.upd)

theorem State.chunkDone_kept {s0 : State} (s : State) (p i : Nat) (hs : Kept s0 s) : Kept s0 (State.chunkDone s p i) :=
  (State.chunkDone_quiet s p i (Quiet.refl _)).keeps hs

theorem State.stageChunk_quiet {s0 : State} (s : State) (boltId : W64) (i : Nat) (data : List Byte) (hs : Quiet s0 s) : Quiet s0 (State.stageChunk s boltId i data) := by
  unfold State.stageChunk
  repeat' (first
    | with_reducible assumption | fail_if_no_progress intros | fail_if_no_progress with_reducible apply Quiet.upd)

theorem State.stageChunk_kept {s0 : State} (s : State) (boltId : W64) (i : Nat) (data : List Byte) (hs : Kept s0 s) : Kept s0 (State.stageChunk s boltId i data) :=
  (State.stageChunk_quiet s boltId i data (Quiet.refl _)).keeps hs

theorem State.chunkPlace_kept {s0 : State} (s : State) (p i : Nat) (l : BoltLoad) (c : Chunk) (data : List Byte) (hs : Kept s0 s) : Kept s0 (State.chunkPlace s p i l c data) := by
  unfold State.chunkPlace
  repeat' (first
    | with_reducible assumption | with_reducible apply State.stageChunk_kept | with_reducible apply State.chunkDone_kept
    | with_reducible apply State.putSlice_kept | with_reducible apply State.submitJob_kept | fail_if_no_progress intros
    | fail_if_no_progress with_reducible apply Kept.upd | (with_reducible apply Kept.snd; with_reducible assumption) | split)

theorem State.chunkFailed_quiet {s0 : State} (s : State) (p i : Nat) (l : BoltLoad) (c : Chunk) (hs : Quiet s0 s) : Quiet s0 (State.chunkFailed s p i l c) := by
  unfold State.chunkFailed
  repeat' (first
    | with_reducible assumption
    | (extract_lets +onlyGivenNames x; change State at x; refine Quiet.cut (s0 := s0) x ?_ ?_; (on_goal 1 => dsimp only [x]; clear x); (on_goal 2 => intro hx; clear_value x))
    | (extract_lets +onlyGivenNames x; change _ × State at x; refine Quiet.cut2 (s0 := s0) x ?_ ?_; (on_goal 1 => dsimp only [x]; clear x); (on_goal 2 => intro hx; clear_value x))
    | (extract_lets +onlyGivenNames x; clear_value x) | with_reducible apply State.boltFault_quiet
    | with_reducible apply State.loadFail_quiet | with_reducible apply State.fetchStart_quiet
    | with_reducible apply State.modPart_quiet | with_reducible apply Quiet.ite | fail_if_no_progress intros
    | fail_if_no_progress with_reducible apply Quiet.upd | dsimp only | split)

theorem State.chunkFailed_kept {s0 : State} (s : State) (p i : Nat) (l : BoltLoad) (c : Chunk) (hs : Kept s0 s) : Kept s0 (State.chunkFailed s p i l c) :=
  (State.chunkFailed_quiet s p i l c (Quiet.refl _)).keeps hs

theorem State.chunkArrived_kept {s0 : State} (s : State) (p : Nat) (boltId : W64) (i : Nat) (data : List Byte) (hs : Kept s0 s) : Kept s0 (State.chunkArrived s p boltId i data) := by
  unfold State.chunkArrived
  repeat' (first
    | with_reducible assumption
    | (extract_lets +onlyGivenNames x; change State at x; refine Kept.cut (s0 := s0) x ?_ ?_; (on_goal 1 => dsimp only [x]; clear x); (on_goal 2 => intro hx; clear_value x))
    | (extract_lets +onlyGivenNames x; change _ × State at x; refine Kept.cut2 (s0 := s0) x ?_ ?_; (on_goal 1 => dsimp only [x]; clear x); (on_goal 2 => intro hx; clear_value x))
    | (extract_lets +onlyGivenNames x; clear_value x) | with_reducible apply State.chunkFailed_kept
    | with_reducible apply State.chunkPlace_kept | with_reducible apply State.boltFault_kept
    | with_reducible apply State.loadFail_kept | with_reducible apply State.toChildren_kept
    | with_reducible apply State.cacheInsert_kept | with_reducible apply State.modPart_kept | with_reducible apply Kept.ite
    | fail_if_no_progress intros | fail_if_no_progress with_reducible apply Kept.upd
    | (with_reducible apply Kept.snd; with_reducible assumption) | dsimp only | split)

theorem State.sliceRepaired_quiet {s0 : State} (s : State) (p : Nat) (hs : Quiet s0 s) : Quiet s0 (State.sliceRepaired s p) := by
  unfold State.sliceRepaired
  repeat' (first
    | with_reducible assumption
    | (extract_lets +onlyGivenNames x; change State at x; refine Quiet.cut (s0 := s0) x ?_ ?_; (on_goal 1 => dsimp only [x]; clear x); (on_goal 2 => intro hx; clear_value x))
    | (extract_lets +onlyGivenNames x; change _ × State at x; refine Quiet.cut2 (s0 := s0) x ?_ ?_; (on_goal 1 => dsimp only [x]; clear x); (on_goal 2 => intro hx; clear_value x))
    | (extract_lets +onlyGivenNames x; clear_value x) | with_reducible apply State.armCommit_quiet
    | with_reducible apply State.modPart_quiet | with_reducible apply Quiet.ite | fail_if_no_progress intros
    | fail_if_no_progress with_reducible apply Quiet.upd | dsimp only | split)

theorem State.sliceRepaired_kept {s0 : State} (s : State) (p : Nat) (hs : Kept s0 s) : Kept s0 (State.sliceRepaired s p) :=
  (State.sliceRepaired_quiet s p (Quiet.refl _)).keeps hs

theorem State.giveUp_quiet {s0 : State} (s : State) (p : Nat) (boltId : W64) (i : Nat) (hs : Quiet s0 s) : Quiet s0 (State.giveUp s p boltId i) := by
  unfold State.giveUp
  repeat' (first
    | with_reducible assumption
    | (extract_lets +onlyGivenNames x; change State at x; refine Quiet.cut (s0 := s0) x ?_ ?_; (on_goal 1 => dsimp only [x]; clear x); (on_goal 2 => intro hx; clear_value x))
    | (extract_lets +onlyGivenNames x; change _ × State at x; refine Quiet.cut2 (s0 := s0) x ?_ ?_; (on_goal 1 => dsimp only [x]; clear x); (on_goal 2 => intro hx; clear_value x))
    | (extract_lets +onlyGivenNames x; clear_value x) | with_reducible apply State.dropJobs_quiet
    | with_reducible apply State.modDie_quiet | with_reducible apply Quiet.foldl | fail_if_no_progress intros
    | fail_if_no_progress with_reducible apply Quiet.upd | (with_reducible apply Quiet.snd; with_reducible assumption)
    | dsimp only | split)

theorem State.giveUp_kept {s0 : State} (s : State) (p : Nat) (boltId : W64) (i : Nat) (hs : Kept s0 s) : Kept s0 (State.giveUp s p boltId i) :=
  (State.giveUp_quiet s p boltId i (Quiet.refl _)).keeps hs

theorem State.liveArrived_kept {s0 : State} (s : State) (p : Nat) (boltId : W64) (i fails : Nat) (data : List Byte) (hs : Kept s0 s) : Kept s0 (State.liveArrived s p boltId i fails data) := by
  unfold State.liveArrived
  repeat' (first
    | with_reducible assumption
    | (extract_lets +onlyGivenNames x; change State at x; refine Kept.cut (s0 := s0) x ?_ ?_; (on_goal 1 => dsimp only [x]; clear x); (on_goal 2 => intro hx; clear_value x))
    | (extract_lets +onlyGivenNames x; change _ × State at x; refine Kept.cut2 (s0 := s0) x ?_ ?_; (on_goal 1 => dsimp only [x]; clear x); (on_goal 2 => intro hx; clear_value x))
    | (extract_lets +onlyGivenNames x; clear_value x) | with_reducible apply State.giveUp_kept
    | with_reducible apply State.sliceRepaired_kept | with_reducible apply State.stageChunk_kept
    | with_reducible apply State.putSlice_kept | with_reducible apply State.boltFault_kept
    | with_reducible apply State.answerChildren_kept | with_reducible apply State.toChildren_kept
    | with_reducible apply State.fetchTry_kept | with_reducible apply State.cacheInsert_kept | with_reducible apply Kept.ite
    | fail_if_no_progress intros | fail_if_no_progress with_reducible apply Kept.upd
    | (with_reducible apply Kept.snd; with_reducible assumption) | dsimp only | split)

theorem State.objectArrived_kept {s0 : State} (s : State) (f : Fetch) (data : List Byte) (hs : Kept s0 s) : Kept s0 (State.objectArrived s f data) := by
  unfold State.objectArrived
  repeat' (first
    | with_reducible assumption
    | (extract_lets +onlyGivenNames x; change State at x; refine Kept.cut (s0 := s0) x ?_ ?_; (on_goal 1 => dsimp only [x]; clear x); (on_goal 2 => intro hx; clear_value x))
    | (extract_lets +onlyGivenNames x; change _ × State at x; refine Kept.cut2 (s0 := s0) x ?_ ?_; (on_goal 1 => dsimp only [x]; clear x); (on_goal 2 => intro hx; clear_value x))
    | (extract_lets +onlyGivenNames x; clear_value x) | with_reducible apply State.liveArrived_kept
    | with_reducible apply State.chunkArrived_kept | with_reducible apply State.manifestArrived_kept
    | with_reducible apply State.askMore_kept | with_reducible apply State.answerChildren_kept | with_reducible apply Kept.ite
    | fail_if_no_progress intros | fail_if_no_progress with_reducible apply Kept.upd | dsimp only | split)

theorem State.modFetch_quiet {s0 : State} (s : State) (f g : Fetch) (hs : Quiet s0 s) : Quiet s0 (State.modFetch s f g) := by
  unfold State.modFetch
  repeat' (first
    | with_reducible assumption | with_reducible apply Quiet.ite | fail_if_no_progress intros
    | fail_if_no_progress with_reducible apply Quiet.upd | split)

theorem State.modFetch_kept {s0 : State} (s : State) (f g : Fetch) (hs : Kept s0 s) : Kept s0 (State.modFetch s f g) :=
  (State.modFetch_quiet s f g (Quiet.refl _)).keeps hs

theorem runBoltData_kept {s0 : State} (port : BrimDie) (boltId : W64) (chunk : W32) (offset total : Nat) (data : List Byte) (s : State) (hs : Kept s0 s) : Kept s0 (runBoltData port boltId chunk offset total data s) := by
  unfold runBoltData
  repeat' (first
    | with_reducible assumption
    | (extract_lets +onlyGivenNames x; change State at x; refine Kept.cut (s0 := s0) x ?_ ?_; (on_goal 1 => dsimp only [x]; clear x); (on_goal 2 => intro hx; clear_value x))
    | (extract_lets +onlyGivenNames x; change _ × State at x; refine Kept.cut2 (s0 := s0) x ?_ ?_; (on_goal 1 => dsimp only [x]; clear x); (on_goal 2 => intro hx; clear_value x))
    | (extract_lets +onlyGivenNames x; clear_value x) | with_reducible apply State.modFetch_kept
    | with_reducible apply State.objectArrived_kept | with_reducible apply Kept.ite | fail_if_no_progress intros
    | fail_if_no_progress with_reducible apply Kept.upd | (with_reducible apply Kept.snd; with_reducible assumption)
    | dsimp only | split)

theorem runBoltPieceTimeout_quiet {s0 : State} (p : PartIdx) (chunk : W32) (s : State) (hs : Quiet s0 s) : Quiet s0 (runBoltPieceTimeout p chunk s) := by
  unfold runBoltPieceTimeout
  repeat' (first
    | with_reducible assumption | with_reducible apply State.modFetch_quiet | with_reducible apply State.sourceAsk_quiet
    | with_reducible apply Quiet.ite | with_reducible apply Quiet.foldl | fail_if_no_progress intros
    | fail_if_no_progress with_reducible apply Quiet.upd | (with_reducible apply Quiet.snd; with_reducible assumption) | split)

theorem runLinkStoreReadResp_kept {s0 : State} (l : LinkIdx) (h : LinkHdr) (boltId : W64) (chunk : W32) (data : List Byte) (s : State) (hs : Kept s0 s) : Kept s0 (runLinkStoreReadResp l h boltId chunk data s) := by
  unfold runLinkStoreReadResp
  repeat' (first
    | with_reducible assumption
    | (extract_lets +onlyGivenNames x; change State at x; refine Kept.cut (s0 := s0) x ?_ ?_; (on_goal 1 => dsimp only [x]; clear x); (on_goal 2 => intro hx; clear_value x))
    | (extract_lets +onlyGivenNames x; change _ × State at x; refine Kept.cut2 (s0 := s0) x ?_ ?_; (on_goal 1 => dsimp only [x]; clear x); (on_goal 2 => intro hx; clear_value x))
    | (extract_lets +onlyGivenNames x; clear_value x) | with_reducible apply State.modFetch_kept
    | with_reducible apply State.objectArrived_kept | with_reducible apply Kept.ite | fail_if_no_progress intros
    | fail_if_no_progress with_reducible apply Kept.upd | (with_reducible apply Kept.snd; with_reducible assumption)
    | dsimp only | split)

theorem runAdapterUnload_quiet {s0 : State} (p : PartIdx) (adapter : Fin 1024) (s : State) (hs : Quiet s0 s) : Quiet s0 (runAdapterUnload p adapter s) := by
  unfold runAdapterUnload
  repeat' (first
    | with_reducible assumption | with_reducible apply State.modPart_quiet | with_reducible apply Quiet.ite
    | fail_if_no_progress intros | fail_if_no_progress with_reducible apply Quiet.upd | split)

/-! ## Conformer -/

theorem State.calDefer_quiet {s0 : State} (s : State) (b : Nat) (hs : Quiet s0 s) : Quiet s0 (State.calDefer s b) := by
  unfold State.calDefer
  repeat' (first
    | with_reducible assumption | with_reducible apply State.setBit_quiet | with_reducible apply State.setFld_quiet
    | fail_if_no_progress intros)

theorem State.calDefer_kept {s0 : State} (s : State) (b : Nat) (hs : Kept s0 s) : Kept s0 (State.calDefer s b) :=
  (State.calDefer_quiet s b (Quiet.refl _)).keeps hs

theorem State.writeOnes_kept {s0 : State} (s : State) (a : ArrayId) (hs : Kept s0 s) : Kept s0 (State.writeOnes s a) := by
  unfold State.writeOnes
  repeat' (first
    | with_reducible assumption | with_reducible apply State.setBytes_kept | fail_if_no_progress intros)

theorem runArrayCalStart_kept {s0 : State} (a : ArrayId) (s : State) (hs : Kept s0 s) : Kept s0 (runArrayCalStart a s) := by
  unfold runArrayCalStart
  repeat' (first
    | with_reducible assumption
    | (extract_lets +onlyGivenNames x; change State at x; refine Kept.cut (s0 := s0) x ?_ ?_; (on_goal 1 => dsimp only [x]; clear x); (on_goal 2 => intro hx; clear_value x))
    | (extract_lets +onlyGivenNames x; change _ × State at x; refine Kept.cut2 (s0 := s0) x ?_ ?_; (on_goal 1 => dsimp only [x]; clear x); (on_goal 2 => intro hx; clear_value x))
    | (extract_lets +onlyGivenNames x; clear_value x) | with_reducible apply State.writeOnes_kept
    | with_reducible apply State.calDefer_kept | with_reducible apply State.showCal_kept
    | with_reducible apply State.fwFault_kept | with_reducible apply State.modDie_kept | with_reducible apply Kept.ite
    | fail_if_no_progress intros | fail_if_no_progress with_reducible apply Kept.upd
    | (with_reducible apply Kept.snd; with_reducible assumption) | dsimp only | split)

theorem State.showLastCal_quiet {s0 : State} (s : State) (a : ArrayId) (failed : Bool) (hs : Quiet s0 s) : Quiet s0 (State.showLastCal s a failed) := by
  unfold State.showLastCal
  repeat' (first
    | with_reducible assumption | with_reducible apply State.setFld_quiet | fail_if_no_progress intros)

theorem State.showLastCal_kept {s0 : State} (s : State) (a : ArrayId) (failed : Bool) (hs : Kept s0 s) : Kept s0 (State.showLastCal s a failed) :=
  (State.showLastCal_quiet s a failed (Quiet.refl _)).keeps hs

theorem State.arrayCalFail_quiet {s0 : State} (s : State) (a : ArrayId) (m : ArrayCalMeasure) (hs : Quiet s0 s) : Quiet s0 (State.arrayCalFail s a m) := by
  unfold State.arrayCalFail
  repeat' (first
    | with_reducible assumption
    | (extract_lets +onlyGivenNames x; change State at x; refine Quiet.cut (s0 := s0) x ?_ ?_; (on_goal 1 => dsimp only [x]; clear x); (on_goal 2 => intro hx; clear_value x))
    | (extract_lets +onlyGivenNames x; change _ × State at x; refine Quiet.cut2 (s0 := s0) x ?_ ?_; (on_goal 1 => dsimp only [x]; clear x); (on_goal 2 => intro hx; clear_value x))
    | (extract_lets +onlyGivenNames x; clear_value x) | with_reducible apply State.calBad_quiet
    | with_reducible apply State.fenceArray_quiet | with_reducible apply State.modArr_quiet | with_reducible apply Quiet.ite
    | fail_if_no_progress intros | fail_if_no_progress with_reducible apply Quiet.upd | dsimp only | split)

theorem State.arrayCalFail_kept {s0 : State} (s : State) (a : ArrayId) (m : ArrayCalMeasure) (hs : Kept s0 s) : Kept s0 (State.arrayCalFail s a m) :=
  (State.arrayCalFail_quiet s a m (Quiet.refl _)).keeps hs

theorem State.arrayCalEnd_kept {s0 : State} (s : State) (a : ArrayId) (c : CalRun) (m : ArrayCalMeasure) (refull : Bool) (hs : Kept s0 s) : Kept s0 (State.arrayCalEnd s a c m refull) := by
  unfold State.arrayCalEnd
  repeat' (first
    | with_reducible assumption
    | (extract_lets +onlyGivenNames x; change State at x; refine Kept.cut (s0 := s0) x ?_ ?_; (on_goal 1 => dsimp only [x]; clear x); (on_goal 2 => intro hx; clear_value x))
    | (extract_lets +onlyGivenNames x; change _ × State at x; refine Kept.cut2 (s0 := s0) x ?_ ?_; (on_goal 1 => dsimp only [x]; clear x); (on_goal 2 => intro hx; clear_value x))
    | (extract_lets +onlyGivenNames x; clear_value x) | with_reducible apply State.arrayCalFail_kept
    | with_reducible apply State.showLastCal_kept | with_reducible apply State.refullStaged_kept
    | with_reducible apply State.calGood_kept | with_reducible apply State.showCal_kept
    | with_reducible apply State.modDie_kept | with_reducible apply State.modArr_kept | with_reducible apply Kept.ite
    | fail_if_no_progress intros | fail_if_no_progress with_reducible apply Kept.upd | dsimp only | split)

theorem runArrayCalComplete_kept {s0 : State} (a : ArrayId) (m : ArrayCalMeasure) (refull : Bool) (s : State) (hs : Kept s0 s) : Kept s0 (runArrayCalComplete a m refull s) := by
  unfold runArrayCalComplete
  repeat' (first
    | with_reducible assumption
    | (extract_lets +onlyGivenNames x; change State at x; refine Kept.cut (s0 := s0) x ?_ ?_; (on_goal 1 => dsimp only [x]; clear x); (on_goal 2 => intro hx; clear_value x))
    | (extract_lets +onlyGivenNames x; change _ × State at x; refine Kept.cut2 (s0 := s0) x ?_ ?_; (on_goal 1 => dsimp only [x]; clear x); (on_goal 2 => intro hx; clear_value x))
    | (extract_lets +onlyGivenNames x; clear_value x) | with_reducible apply State.arrayCalEnd_kept
    | with_reducible apply State.calSettle_kept | with_reducible apply State.drawFull_kept | with_reducible apply Kept.ite
    | fail_if_no_progress intros | fail_if_no_progress with_reducible apply Kept.upd
    | (with_reducible apply Kept.snd; with_reducible assumption) | dsimp only | split)

theorem runCalQueueDispatch_kept {s0 : State} (d : BodyDie) (s : State) (hs : Kept s0 s) : Kept s0 (runCalQueueDispatch d s) := by
  unfold runCalQueueDispatch
  repeat' (first
    | with_reducible assumption | with_reducible apply State.calDefer_kept | with_reducible apply State.remapStart_kept
    | with_reducible apply State.modArr_kept | with_reducible apply Kept.ite | fail_if_no_progress intros
    | fail_if_no_progress with_reducible apply Kept.upd | (with_reducible apply Kept.snd; with_reducible assumption) | split)

theorem State.laneCalFail_quiet {s0 : State} (s : State) (u : CalUnit) (l n : Nat) (hs : Quiet s0 s) : Quiet s0 (State.laneCalFail s u l n) := by
  unfold State.laneCalFail
  repeat' (first
    | with_reducible assumption
    | (extract_lets +onlyGivenNames x; change State at x; refine Quiet.cut (s0 := s0) x ?_ ?_; (on_goal 1 => dsimp only [x]; clear x); (on_goal 2 => intro hx; clear_value x))
    | (extract_lets +onlyGivenNames x; change _ × State at x; refine Quiet.cut2 (s0 := s0) x ?_ ?_; (on_goal 1 => dsimp only [x]; clear x); (on_goal 2 => intro hx; clear_value x))
    | (extract_lets +onlyGivenNames x; clear_value x) | with_reducible apply State.calReject_quiet
    | with_reducible apply State.modCal_quiet | with_reducible apply State.laneDark_quiet
    | with_reducible apply State.trainLane_quiet | with_reducible apply Quiet.ite | fail_if_no_progress intros
    | fail_if_no_progress with_reducible apply Quiet.upd | dsimp only | split)

theorem runRingHeaterCal_quiet {s0 : State} (l : LinkIdx) (n : LaneIdx) (drive : Nat) (s : State) (hs : Quiet s0 s) : Quiet s0 (runRingHeaterCal l n drive s) := by
  unfold runRingHeaterCal
  repeat' (first
    | with_reducible assumption | with_reducible apply State.laneCalFail_quiet | with_reducible apply State.calAccept_quiet
    | with_reducible apply State.every_quiet | with_reducible apply Quiet.ite | fail_if_no_progress intros | split)

theorem runEqualiserCal_quiet {s0 : State} (l : LinkIdx) (n : LaneIdx) (eye : Nat) (taps : List Nat) (s : State) (hs : Quiet s0 s) : Quiet s0 (runEqualiserCal l n eye taps s) := by
  unfold runEqualiserCal
  repeat' (first
    | with_reducible assumption | with_reducible apply State.laneCalFail_quiet | with_reducible apply State.calDefer_quiet
    | with_reducible apply State.calAccept_quiet | with_reducible apply State.every_quiet | with_reducible apply Quiet.ite
    | fail_if_no_progress intros | split)

theorem State.showPll_quiet {s0 : State} (s : State) (pll : Pll) (ok : Bool) (hs : Quiet s0 s) : Quiet s0 (State.showPll s pll ok) := by
  unfold State.showPll
  repeat' (first
    | with_reducible assumption
    | (extract_lets +onlyGivenNames x; change State at x; refine Quiet.cut (s0 := s0) x ?_ ?_; (on_goal 1 => dsimp only [x]; clear x); (on_goal 2 => intro hx; clear_value x))
    | (extract_lets +onlyGivenNames x; change _ × State at x; refine Quiet.cut2 (s0 := s0) x ?_ ?_; (on_goal 1 => dsimp only [x]; clear x); (on_goal 2 => intro hx; clear_value x))
    | (extract_lets +onlyGivenNames x; (first | change _ → State at x | change _ → _ → State at x | change _ → _ → _ → State at x | change _ → _ × State at x | change Option State at x | change Option (_ × State) at x | change _ × State × _ at x | change Draw at x); subst x)
    | (extract_lets +onlyGivenNames x; clear_value x) | with_reducible apply State.bump_quiet
    | with_reducible apply State.setFld_quiet | with_reducible apply Quiet.ite | fail_if_no_progress intros
    | fail_if_no_progress with_reducible apply Quiet.upd | (with_reducible apply Quiet.snd; with_reducible assumption)
    | dsimp only | split)

theorem State.pllLost_quiet {s0 : State} (s : State) (pll : Pll) (hs : Quiet s0 s) : Quiet s0 (State.pllLost s pll) := by
  unfold State.pllLost
  extract_lets d c s1
  have h1 : Quiet s0 s1 := Quiet.ite hs (Quiet.upd hs)
  clear_value s1
  cases pll <;> first
    | exact State.jobEndOn_quiet _ _ (State.fwFault_quiet _ _ h1)
    | exact h1
    | exact State.showPort_quiet _ _ h1
    | exact Quiet.foldl h1 (fun s n hs => State.laneDark_quiet _ _ _ hs)

theorem State.pllChecked_quiet {s0 : State} (s : State) (pll : Pll) (count : Nat) (hs : Quiet s0 s) : Quiet s0 (State.pllChecked s pll count) := by
  unfold State.pllChecked
  repeat' (first
    | with_reducible assumption
    | (extract_lets +onlyGivenNames x; change State at x; refine Quiet.cut (s0 := s0) x ?_ ?_; (on_goal 1 => dsimp only [x]; clear x); (on_goal 2 => intro hx; clear_value x))
    | (extract_lets +onlyGivenNames x; change _ × State at x; refine Quiet.cut2 (s0 := s0) x ?_ ?_; (on_goal 1 => dsimp only [x]; clear x); (on_goal 2 => intro hx; clear_value x))
    | (extract_lets +onlyGivenNames x; clear_value x) | with_reducible apply State.pllLost_quiet
    | with_reducible apply State.showPll_quiet | with_reducible apply State.calFail_quiet | with_reducible apply Quiet.ite
    | fail_if_no_progress intros | fail_if_no_progress with_reducible apply Quiet.upd | dsimp only | split)

theorem runPllCountCheck_quiet {s0 : State} (pll : Pll) (count : Nat) (s : State) (hs : Quiet s0 s) : Quiet s0 (runPllCountCheck pll count s) := by
  unfold runPllCountCheck
  repeat' (first
    | with_reducible assumption | with_reducible apply State.pllChecked_quiet | with_reducible apply State.calDefer_quiet
    | with_reducible apply State.every_quiet | with_reducible apply Quiet.ite | fail_if_no_progress intros | split)

theorem runPllRecalibration_quiet {s0 : State} (pll : Pll) (s : State) (hs : Quiet s0 s) : Quiet s0 (runPllRecalibration pll s) := by
  unfold runPllRecalibration
  repeat' (first
    | with_reducible assumption
    | (extract_lets +onlyGivenNames x; change State at x; refine Quiet.cut (s0 := s0) x ?_ ?_; (on_goal 1 => dsimp only [x]; clear x); (on_goal 2 => intro hx; clear_value x))
    | (extract_lets +onlyGivenNames x; change _ × State at x; refine Quiet.cut2 (s0 := s0) x ?_ ?_; (on_goal 1 => dsimp only [x]; clear x); (on_goal 2 => intro hx; clear_value x))
    | (extract_lets +onlyGivenNames x; clear_value x) | with_reducible apply State.showPll_quiet
    | with_reducible apply State.calDefer_quiet | with_reducible apply State.showPort_quiet
    | with_reducible apply State.trainLane_quiet | with_reducible apply Quiet.ite | with_reducible apply Quiet.foldl
    | fail_if_no_progress intros | fail_if_no_progress with_reducible apply Quiet.upd
    | (with_reducible apply Quiet.snd; with_reducible assumption) | dsimp only | split)

theorem runSensorCal_quiet {s0 : State} (b : BrimDie) (rawOffset rawGain : Int) (s : State) (hs : Quiet s0 s) : Quiet s0 (runSensorCal b rawOffset rawGain s) := by
  unfold runSensorCal
  repeat' (first
    | with_reducible assumption
    | (extract_lets +onlyGivenNames x; change State at x; refine Quiet.cut (s0 := s0) x ?_ ?_; (on_goal 1 => dsimp only [x]; clear x); (on_goal 2 => intro hx; clear_value x))
    | (extract_lets +onlyGivenNames x; change _ × State at x; refine Quiet.cut2 (s0 := s0) x ?_ ?_; (on_goal 1 => dsimp only [x]; clear x); (on_goal 2 => intro hx; clear_value x))
    | (extract_lets +onlyGivenNames x; clear_value x) | with_reducible apply State.noteAbove_quiet
    | with_reducible apply State.showThermal_quiet | with_reducible apply State.modSensor_quiet
    | with_reducible apply State.calReject_quiet | with_reducible apply State.calAccept_quiet
    | with_reducible apply State.fwFault_quiet | with_reducible apply State.every_quiet | with_reducible apply Quiet.ite
    | fail_if_no_progress intros | fail_if_no_progress with_reducible apply Quiet.upd | dsimp only | split)

theorem runBowtrimCal_quiet {s0 : State} (rt : List Nat) (s : State) (hs : Quiet s0 s) : Quiet s0 (runBowtrimCal rt s) := by
  unfold runBowtrimCal
  repeat' (first
    | with_reducible assumption | with_reducible apply State.bowTrims_quiet | with_reducible apply State.every_quiet
    | fail_if_no_progress intros)

theorem runGlideStep_quiet {s0 : State} (u : CalUnit) (s : State) (hs : Quiet s0 s) : Quiet s0 (runGlideStep u s) := by
  unfold runGlideStep
  repeat' (first
    | with_reducible assumption | with_reducible apply State.apply_quiet | with_reducible apply State.every_quiet
    | with_reducible apply Quiet.ite | fail_if_no_progress intros | split)

/-! ## Counters -/

theorem runCounterSelectWrite_quiet {s0 : State} (port : Port) (addr : DevAddr) (data : W32) (s : State) (hs : Quiet s0 s) : Quiet s0 (runCounterSelectWrite port addr data s) := by
  unfold runCounterSelectWrite
  repeat' (first
    | with_reducible assumption | with_reducible apply State.regWriteAt_quiet | fail_if_no_progress intros)

theorem runCounterSelectWrite_kept {s0 : State} (port : Port) (addr : DevAddr) (data : W32) (s : State) (hs : Kept s0 s) : Kept s0 (runCounterSelectWrite port addr data s) :=
  (runCounterSelectWrite_quiet port addr data s (Quiet.refl _)).keeps hs

theorem runCounterWrap_quiet {s0 : State} (addr : DevAddr) (n : Fin 8) (events : Fin 11) (s : State) (hs : Quiet s0 s) : Quiet s0 (runCounterWrap addr n events s) := by
  unfold runCounterWrap
  repeat' (first
    | with_reducible assumption
    | (extract_lets +onlyGivenNames x; change State at x; refine Quiet.cut (s0 := s0) x ?_ ?_; (on_goal 1 => dsimp only [x]; clear x); (on_goal 2 => intro hx; clear_value x))
    | (extract_lets +onlyGivenNames x; change _ × State at x; refine Quiet.cut2 (s0 := s0) x ?_ ?_; (on_goal 1 => dsimp only [x]; clear x); (on_goal 2 => intro hx; clear_value x))
    | (extract_lets +onlyGivenNames x; clear_value x) | with_reducible apply State.ctrAdd_quiet
    | with_reducible apply Quiet.ite | fail_if_no_progress intros | dsimp only | split)

theorem runReaderArm_quiet {s0 : State} (port : Port) (data : W32) (s : State) (hs : Quiet s0 s) : Quiet s0 (runReaderArm port data s) := by
  unfold runReaderArm
  repeat' (first
    | with_reducible assumption
    | (extract_lets +onlyGivenNames x; change State at x; refine Quiet.cut (s0 := s0) x ?_ ?_; (on_goal 1 => dsimp only [x]; clear x); (on_goal 2 => intro hx; clear_value x))
    | (extract_lets +onlyGivenNames x; change _ × State at x; refine Quiet.cut2 (s0 := s0) x ?_ ?_; (on_goal 1 => dsimp only [x]; clear x); (on_goal 2 => intro hx; clear_value x))
    | (extract_lets +onlyGivenNames x; clear_value x) | with_reducible apply State.guardedWrite_quiet
    | with_reducible apply State.storeReg_quiet | with_reducible apply State.setFld_quiet | with_reducible apply Quiet.ite
    | fail_if_no_progress intros | dsimp only | split)

theorem runReaderArm_kept {s0 : State} (port : Port) (data : W32) (s : State) (hs : Kept s0 s) : Kept s0 (runReaderArm port data s) :=
  (runReaderArm_quiet port data s (Quiet.refl _)).keeps hs

theorem runReaderDone_kept {s0 : State} (s : State) (hs : Kept s0 s) : Kept s0 (runReaderDone s) := by
  unfold runReaderDone
  repeat' (first
    | with_reducible assumption
    | (extract_lets +onlyGivenNames x; change State at x; refine Kept.cut (s0 := s0) x ?_ ?_; (on_goal 1 => dsimp only [x]; clear x); (on_goal 2 => intro hx; clear_value x))
    | (extract_lets +onlyGivenNames x; change _ × State at x; refine Kept.cut2 (s0 := s0) x ?_ ?_; (on_goal 1 => dsimp only [x]; clear x); (on_goal 2 => intro hx; clear_value x))
    | (extract_lets +onlyGivenNames x; clear_value x) | with_reducible apply State.bowSend_kept
    | with_reducible apply State.setFld_kept | with_reducible apply State.setBytes_kept | with_reducible apply Kept.ite
    | fail_if_no_progress intros | fail_if_no_progress with_reducible apply Kept.upd | dsimp only | split)

end Sys2Proof.Machine
end

