-- ==== Sys2Proof/Laws/Kept5.lean ====
section
/-!
SUPPORT. What every operation and every command's effect keeps, for the files: Firmware, Requests, HostPort, Steps, Launch, RegView, Repairs, RegAccess.
-/

set_option Elab.async false
set_option linter.unusedTactic false
set_option linter.unreachableTactic false
set_option linter.tactic.unusedName false

namespace Sys2Proof.Machine

/-! ## Firmware -/

theorem State.updState_quiet {s0 : State} (s : State) (st reason : Nat) (hs : Quiet s0 s) : Quiet s0 (State.updState s st reason) := by
  unfold State.updState
  repeat' (first
    | with_reducible assumption | with_reducible apply State.setReg_quiet | fail_if_no_progress intros)

theorem State.rollBack_quiet {s0 : State} (s : State) (hs : Quiet s0 s) : Quiet s0 (State.rollBack s) := by
  unfold State.rollBack
  repeat' (first
    | with_reducible assumption
    | (extract_lets +onlyGivenNames x; change State at x; refine Quiet.cut (s0 := s0) x ?_ ?_; (on_goal 1 => dsimp only [x]; clear x); (on_goal 2 => intro hx; clear_value x))
    | (extract_lets +onlyGivenNames x; change _ × State at x; refine Quiet.cut2 (s0 := s0) x ?_ ?_; (on_goal 1 => dsimp only [x]; clear x); (on_goal 2 => intro hx; clear_value x))
    | (extract_lets +onlyGivenNames x; clear_value x) | with_reducible apply State.updState_quiet
    | with_reducible apply State.bootFld_quiet | with_reducible apply State.writeDir_quiet | with_reducible apply Quiet.ite
    | fail_if_no_progress intros | fail_if_no_progress with_reducible apply Quiet.upd | dsimp only | split)

theorem State.compDown_quiet {s0 : State} (s : State) (c : Nat) (hs : Quiet s0 s) : Quiet s0 (State.compDown s c) := by
  unfold State.compDown
  repeat' (first
    | with_reducible assumption
    | (extract_lets +onlyGivenNames x; change State at x; refine Quiet.cut (s0 := s0) x ?_ ?_; (on_goal 1 => dsimp only [x]; clear x); (on_goal 2 => intro hx; clear_value x))
    | (extract_lets +onlyGivenNames x; change _ × State at x; refine Quiet.cut2 (s0 := s0) x ?_ ?_; (on_goal 1 => dsimp only [x]; clear x); (on_goal 2 => intro hx; clear_value x))
    | (extract_lets +onlyGivenNames x; clear_value x) | with_reducible apply State.raiseEmergency_quiet
    | with_reducible apply State.setFld_quiet | with_reducible apply Quiet.ite | fail_if_no_progress intros | dsimp only
    | split)

theorem State.compRestart_quiet {s0 : State} (s : State) (c : Nat) (hs : Quiet s0 s) : Quiet s0 (State.compRestart s c) := by
  unfold State.compRestart
  repeat' (first
    | with_reducible assumption
    | (extract_lets +onlyGivenNames x; change State at x; refine Quiet.cut (s0 := s0) x ?_ ?_; (on_goal 1 => dsimp only [x]; clear x); (on_goal 2 => intro hx; clear_value x))
    | (extract_lets +onlyGivenNames x; change _ × State at x; refine Quiet.cut2 (s0 := s0) x ?_ ?_; (on_goal 1 => dsimp only [x]; clear x); (on_goal 2 => intro hx; clear_value x))
    | (extract_lets +onlyGivenNames x; clear_value x) | with_reducible apply State.compDown_quiet
    | with_reducible apply State.rollBack_quiet | with_reducible apply State.fault_quiet
    | with_reducible apply State.bump_quiet | with_reducible apply Quiet.ite | fail_if_no_progress intros
    | fail_if_no_progress with_reducible apply Quiet.upd | dsimp only | split)

theorem runWatchdogKick_quiet {s0 : State} (port : Port) (data : W32) (s : State) (hs : Quiet s0 s) : Quiet s0 (runWatchdogKick port data s) := by
  unfold runWatchdogKick
  repeat' (first
    | with_reducible assumption | with_reducible apply State.guardedWrite_quiet | with_reducible apply Quiet.ite
    | fail_if_no_progress intros | fail_if_no_progress with_reducible apply Quiet.upd | split)

theorem runWatchdogKick_kept {s0 : State} (port : Port) (data : W32) (s : State) (hs : Kept s0 s) : Kept s0 (runWatchdogKick port data s) :=
  (runWatchdogKick_quiet port data s (Quiet.refl _)).keeps hs

theorem runWatchdogExpiry_quiet {s0 : State} (s : State) (hs : Quiet s0 s) : Quiet s0 (runWatchdogExpiry s) := by
  unfold runWatchdogExpiry
  repeat' (first
    | with_reducible assumption
    | (extract_lets +onlyGivenNames x; change State at x; refine Quiet.cut (s0 := s0) x ?_ ?_; (on_goal 1 => dsimp only [x]; clear x); (on_goal 2 => intro hx; clear_value x))
    | (extract_lets +onlyGivenNames x; change _ × State at x; refine Quiet.cut2 (s0 := s0) x ?_ ?_; (on_goal 1 => dsimp only [x]; clear x); (on_goal 2 => intro hx; clear_value x))
    | (extract_lets +onlyGivenNames x; clear_value x) | with_reducible apply State.rollBack_quiet
    | with_reducible apply State.bootFld_quiet | with_reducible apply State.bump_quiet
    | with_reducible apply State.setFld_quiet | with_reducible apply Quiet.ite | fail_if_no_progress intros
    | fail_if_no_progress with_reducible apply Quiet.upd | dsimp only | split)

theorem runComponentFault_quiet {s0 : State} (c : Component) (s : State) (hs : Quiet s0 s) : Quiet s0 (runComponentFault c s) := by
  unfold runComponentFault
  repeat' (first
    | with_reducible assumption | with_reducible apply State.compRestart_quiet | fail_if_no_progress intros
    | fail_if_no_progress with_reducible apply Quiet.upd)

theorem runComponentHeartbeatStale_quiet {s0 : State} (c : Component) (s : State) (hs : Quiet s0 s) : Quiet s0 (runComponentHeartbeatStale c s) := by
  unfold runComponentHeartbeatStale
  repeat' (first
    | with_reducible assumption | with_reducible apply State.compRestart_quiet | fail_if_no_progress intros)

theorem State.updStage_quiet {s0 : State} (s : State) (d : Nat) (fetched : List Byte) (writeOk : Bool) (hs : Quiet s0 s) : Quiet s0 (State.updStage s d fetched writeOk) := by
  unfold State.updStage
  repeat' (first
    | with_reducible assumption
    | (extract_lets +onlyGivenNames x; change State at x; refine Quiet.cut (s0 := s0) x ?_ ?_; (on_goal 1 => dsimp only [x]; clear x); (on_goal 2 => intro hx; clear_value x))
    | (extract_lets +onlyGivenNames x; change _ × State at x; refine Quiet.cut2 (s0 := s0) x ?_ ?_; (on_goal 1 => dsimp only [x]; clear x); (on_goal 2 => intro hx; clear_value x))
    | (extract_lets +onlyGivenNames x; clear_value x) | with_reducible apply State.updState_quiet
    | with_reducible apply State.writeDir_quiet | with_reducible apply State.flashPut_quiet
    | with_reducible apply State.setFld_quiet | with_reducible apply Quiet.ite | fail_if_no_progress intros
    | fail_if_no_progress with_reducible apply Quiet.upd | dsimp only | split)

theorem State.updActivate_quiet {s0 : State} (s : State) (hs : Quiet s0 s) : Quiet s0 (State.updActivate s) := by
  unfold State.updActivate
  repeat' (first
    | with_reducible assumption | with_reducible apply State.updState_quiet | with_reducible apply State.setFld_quiet
    | with_reducible apply Quiet.ite | fail_if_no_progress intros | split)

theorem State.updAbort_quiet {s0 : State} (s : State) (hs : Quiet s0 s) : Quiet s0 (State.updAbort s) := by
  unfold State.updAbort
  repeat' (first
    | with_reducible assumption | with_reducible apply State.updState_quiet | with_reducible apply Quiet.ite
    | fail_if_no_progress intros | split)

theorem State.updCmd_quiet {s0 : State} (s : State) (port : Port) (data : W32) (fetched : List Byte) (writeOk : Bool) (hs : Quiet s0 s) : Quiet s0 (State.updCmd s port data fetched writeOk) := by
  unfold State.updCmd
  repeat' (first
    | with_reducible assumption
    | (extract_lets +onlyGivenNames x; change State at x; refine Quiet.cut (s0 := s0) x ?_ ?_; (on_goal 1 => dsimp only [x]; clear x); (on_goal 2 => intro hx; clear_value x))
    | (extract_lets +onlyGivenNames x; change _ × State at x; refine Quiet.cut2 (s0 := s0) x ?_ ?_; (on_goal 1 => dsimp only [x]; clear x); (on_goal 2 => intro hx; clear_value x))
    | (extract_lets +onlyGivenNames x; clear_value x) | with_reducible apply State.updAbort_quiet
    | with_reducible apply State.updActivate_quiet | with_reducible apply State.updStage_quiet
    | with_reducible apply State.guardedWrite_quiet | with_reducible apply Quiet.ite | fail_if_no_progress intros | dsimp only
    | split)

theorem runUpdateStage_quiet {s0 : State} (port : Port) (data : W32) (fetched : List Byte) (writeOk : Bool) (s : State) (hs : Quiet s0 s) : Quiet s0 (runUpdateStage port data fetched writeOk s) := by
  unfold runUpdateStage
  repeat' (first
    | with_reducible assumption | with_reducible apply State.updCmd_quiet | fail_if_no_progress intros)

theorem runUpdateStage_kept {s0 : State} (port : Port) (data : W32) (fetched : List Byte) (writeOk : Bool) (s : State) (hs : Kept s0 s) : Kept s0 (runUpdateStage port data fetched writeOk s) :=
  (runUpdateStage_quiet port data fetched writeOk s (Quiet.refl _)).keeps hs

theorem runUpdateActivate_quiet {s0 : State} (port : Port) (data : W32) (s : State) (hs : Quiet s0 s) : Quiet s0 (runUpdateActivate port data s) := by
  unfold runUpdateActivate
  repeat' (first
    | with_reducible assumption | with_reducible apply State.updCmd_quiet | fail_if_no_progress intros)

theorem runUpdateAbort_quiet {s0 : State} (port : Port) (data : W32) (s : State) (hs : Quiet s0 s) : Quiet s0 (runUpdateAbort port data s) := by
  unfold runUpdateAbort
  repeat' (first
    | with_reducible assumption | with_reducible apply State.updCmd_quiet | fail_if_no_progress intros)

theorem State.compReplace_quiet {s0 : State} (s : State) (c : Nat) (hs : Quiet s0 s) : Quiet s0 (State.compReplace s c) := by
  unfold State.compReplace
  repeat' (first
    | with_reducible assumption
    | (extract_lets +onlyGivenNames x; change State at x; refine Quiet.cut (s0 := s0) x ?_ ?_; (on_goal 1 => dsimp only [x]; clear x); (on_goal 2 => intro hx; clear_value x))
    | (extract_lets +onlyGivenNames x; change _ × State at x; refine Quiet.cut2 (s0 := s0) x ?_ ?_; (on_goal 1 => dsimp only [x]; clear x); (on_goal 2 => intro hx; clear_value x))
    | (extract_lets +onlyGivenNames x; clear_value x) | with_reducible apply State.fault_quiet
    | with_reducible apply State.bump_quiet | fail_if_no_progress intros | fail_if_no_progress with_reducible apply Quiet.upd
    | dsimp only)

theorem State.updDone_quiet {s0 : State} (s : State) (hs : Quiet s0 s) : Quiet s0 (State.updDone s) := by
  unfold State.updDone
  repeat' (first
    | with_reducible assumption
    | (extract_lets +onlyGivenNames x; change State at x; refine Quiet.cut (s0 := s0) x ?_ ?_; (on_goal 1 => dsimp only [x]; clear x); (on_goal 2 => intro hx; clear_value x))
    | (extract_lets +onlyGivenNames x; change _ × State at x; refine Quiet.cut2 (s0 := s0) x ?_ ?_; (on_goal 1 => dsimp only [x]; clear x); (on_goal 2 => intro hx; clear_value x))
    | (extract_lets +onlyGivenNames x; clear_value x) | with_reducible apply State.updState_quiet
    | with_reducible apply State.bootFld_quiet | with_reducible apply State.writeDir_quiet | fail_if_no_progress intros
    | fail_if_no_progress with_reducible apply Quiet.upd | dsimp only)

theorem runUpdateQuiescentPoint_quiet {s0 : State} (s : State) (hs : Quiet s0 s) : Quiet s0 (runUpdateQuiescentPoint s) := by
  unfold runUpdateQuiescentPoint
  repeat' (first
    | with_reducible assumption
    | (extract_lets +onlyGivenNames x; change State at x; refine Quiet.cut (s0 := s0) x ?_ ?_; (on_goal 1 => dsimp only [x]; clear x); (on_goal 2 => intro hx; clear_value x))
    | (extract_lets +onlyGivenNames x; change _ × State at x; refine Quiet.cut2 (s0 := s0) x ?_ ?_; (on_goal 1 => dsimp only [x]; clear x); (on_goal 2 => intro hx; clear_value x))
    | (extract_lets +onlyGivenNames x; clear_value x) | with_reducible apply State.updDone_quiet
    | with_reducible apply State.compReplace_quiet | with_reducible apply State.updState_quiet | with_reducible apply Quiet.ite
    | fail_if_no_progress intros | fail_if_no_progress with_reducible apply Quiet.upd
    | (with_reducible apply Quiet.snd; with_reducible assumption) | dsimp only | split)

theorem runUpdateHeartbeatTimeout_quiet {s0 : State} (c : Component) (s : State) (hs : Quiet s0 s) : Quiet s0 (runUpdateHeartbeatTimeout c s) := by
  unfold runUpdateHeartbeatTimeout
  repeat' (first
    | with_reducible assumption | with_reducible apply State.rollBack_quiet | with_reducible apply Quiet.ite
    | fail_if_no_progress intros | split)

theorem runFirmwareTrialConfirm_quiet {s0 : State} (s : State) (hs : Quiet s0 s) : Quiet s0 (runFirmwareTrialConfirm s) := by
  unfold runFirmwareTrialConfirm
  repeat' (first
    | with_reducible assumption
    | (extract_lets +onlyGivenNames x; change State at x; refine Quiet.cut (s0 := s0) x ?_ ?_; (on_goal 1 => dsimp only [x]; clear x); (on_goal 2 => intro hx; clear_value x))
    | (extract_lets +onlyGivenNames x; change _ × State at x; refine Quiet.cut2 (s0 := s0) x ?_ ?_; (on_goal 1 => dsimp only [x]; clear x); (on_goal 2 => intro hx; clear_value x))
    | (extract_lets +onlyGivenNames x; clear_value x) | with_reducible apply State.updState_quiet
    | with_reducible apply State.bootFld_quiet | with_reducible apply State.writeDir_quiet | with_reducible apply Quiet.ite
    | fail_if_no_progress intros | fail_if_no_progress with_reducible apply Quiet.upd | dsimp only | split)

theorem runStartRecordTrialConfirm_quiet {s0 : State} (s : State) (hs : Quiet s0 s) : Quiet s0 (runStartRecordTrialConfirm s) := by
  unfold runStartRecordTrialConfirm
  repeat' (first
    | with_reducible assumption
    | (extract_lets +onlyGivenNames x; change State at x; refine Quiet.cut (s0 := s0) x ?_ ?_; (on_goal 1 => dsimp only [x]; clear x); (on_goal 2 => intro hx; clear_value x))
    | (extract_lets +onlyGivenNames x; change _ × State at x; refine Quiet.cut2 (s0 := s0) x ?_ ?_; (on_goal 1 => dsimp only [x]; clear x); (on_goal 2 => intro hx; clear_value x))
    | (extract_lets +onlyGivenNames x; clear_value x) | with_reducible apply State.bootFld_quiet
    | with_reducible apply State.writeDir_quiet | with_reducible apply Quiet.ite | fail_if_no_progress intros
    | fail_if_no_progress with_reducible apply Quiet.upd | dsimp only | split)

theorem runOwnerHashWrite_quiet {s0 : State} (port : Port) (k : Fin 12) (data : W32) (s : State) (hs : Quiet s0 s) : Quiet s0 (runOwnerHashWrite port k data s) := by
  unfold runOwnerHashWrite
  repeat' (first
    | with_reducible assumption
    | (extract_lets +onlyGivenNames x; change State at x; refine Quiet.cut (s0 := s0) x ?_ ?_; (on_goal 1 => dsimp only [x]; clear x); (on_goal 2 => intro hx; clear_value x))
    | (extract_lets +onlyGivenNames x; change _ × State at x; refine Quiet.cut2 (s0 := s0) x ?_ ?_; (on_goal 1 => dsimp only [x]; clear x); (on_goal 2 => intro hx; clear_value x))
    | (extract_lets +onlyGivenNames x; clear_value x) | with_reducible apply State.guardedWrite_quiet
    | with_reducible apply State.storeReg_quiet | with_reducible apply State.fwFault_quiet | with_reducible apply Quiet.ite
    | fail_if_no_progress intros | dsimp only | split)

theorem runOwnerHashWrite_kept {s0 : State} (port : Port) (k : Fin 12) (data : W32) (s : State) (hs : Kept s0 s) : Kept s0 (runOwnerHashWrite port k data s) :=
  (runOwnerHashWrite_quiet port k data s (Quiet.refl _)).keeps hs

theorem runOwnerBurn_quiet {s0 : State} (port : Port) (data : W32) (s : State) (hs : Quiet s0 s) : Quiet s0 (runOwnerBurn port data s) := by
  unfold runOwnerBurn
  repeat' (first
    | with_reducible assumption
    | (extract_lets +onlyGivenNames x; change State at x; refine Quiet.cut (s0 := s0) x ?_ ?_; (on_goal 1 => dsimp only [x]; clear x); (on_goal 2 => intro hx; clear_value x))
    | (extract_lets +onlyGivenNames x; change _ × State at x; refine Quiet.cut2 (s0 := s0) x ?_ ?_; (on_goal 1 => dsimp only [x]; clear x); (on_goal 2 => intro hx; clear_value x))
    | (extract_lets +onlyGivenNames x; clear_value x) | with_reducible apply State.guardedWrite_quiet
    | with_reducible apply State.storeReg_quiet | with_reducible apply State.fwFault_quiet | with_reducible apply Quiet.ite
    | fail_if_no_progress intros | fail_if_no_progress with_reducible apply Quiet.upd | dsimp only | split)

theorem runOwnerBurn_kept {s0 : State} (port : Port) (data : W32) (s : State) (hs : Kept s0 s) : Kept s0 (runOwnerBurn port data s) :=
  (runOwnerBurn_quiet port data s (Quiet.refl _)).keeps hs

theorem runFenceMapWrite_quiet {s0 : State} (s : State) (hs : Quiet s0 s) : Quiet s0 (runFenceMapWrite s) := by
  unfold runFenceMapWrite
  repeat' (first
    | with_reducible assumption | with_reducible apply State.writeFences_quiet | with_reducible apply Quiet.ite
    | fail_if_no_progress intros | split)

/-! ## Requests -/

theorem State.hostDone_quiet {s0 : State} (s : State) (m : Msg) (hs : Quiet s0 s) : Quiet s0 (State.hostDone s m) := by
  unfold State.hostDone
  repeat' (first
    | with_reducible assumption
    | (extract_lets +onlyGivenNames x; change State at x; refine Quiet.cut (s0 := s0) x ?_ ?_; (on_goal 1 => dsimp only [x]; clear x); (on_goal 2 => intro hx; clear_value x))
    | (extract_lets +onlyGivenNames x; change _ × State at x; refine Quiet.cut2 (s0 := s0) x ?_ ?_; (on_goal 1 => dsimp only [x]; clear x); (on_goal 2 => intro hx; clear_value x))
    | (extract_lets +onlyGivenNames x; clear_value x) | with_reducible apply State.hostSay_quiet
    | with_reducible apply State.bump_quiet | with_reducible apply State.setBit_quiet | with_reducible apply Quiet.ite
    | fail_if_no_progress intros | fail_if_no_progress with_reducible apply Quiet.upd | dsimp only | split)

theorem State.say_quiet {s0 : State} (s : State) (host : Bool) (port c : Nat) (m : Msg) (hs : Quiet s0 s) : Quiet s0 (State.say s host port c m) := by
  unfold State.say
  repeat' (first
    | with_reducible assumption | with_reducible apply State.hostDone_quiet | with_reducible apply State.ospSend_quiet
    | with_reducible apply State.hostSay_quiet | with_reducible apply Quiet.ite | fail_if_no_progress intros | split)

theorem State.releaseOne_quiet {s0 : State} (s : State) (p : Nat) (o : Outgoing) (hs : Quiet s0 s) : Quiet s0 (State.releaseOne s p o) := by
  unfold State.releaseOne
  repeat' (first
    | with_reducible assumption
    | (extract_lets +onlyGivenNames x; change State at x; refine Quiet.cut (s0 := s0) x ?_ ?_; (on_goal 1 => dsimp only [x]; clear x); (on_goal 2 => intro hx; clear_value x))
    | (extract_lets +onlyGivenNames x; change _ × State at x; refine Quiet.cut2 (s0 := s0) x ?_ ?_; (on_goal 1 => dsimp only [x]; clear x); (on_goal 2 => intro hx; clear_value x))
    | (extract_lets +onlyGivenNames x; clear_value x) | with_reducible apply State.say_quiet
    | with_reducible apply State.freeSlot_quiet | with_reducible apply Quiet.ite | fail_if_no_progress intros | dsimp only
    | split)

theorem State.releaseAll_quiet {s0 : State} (s : State) (p : Nat) (hs : Quiet s0 s) : Quiet s0 (State.releaseAll s p) := by
  unfold State.releaseAll
  repeat' (first
    | with_reducible assumption | with_reducible apply State.releaseOne_quiet | with_reducible apply State.modPart_quiet
    | with_reducible apply Quiet.foldl | fail_if_no_progress intros | fail_if_no_progress with_reducible apply Quiet.upd)

theorem State.releaseSlot_quiet {s0 : State} (s : State) (p i : Nat) (hs : Quiet s0 s) : Quiet s0 (State.releaseSlot s p i) := by
  unfold State.releaseSlot
  repeat' (first
    | with_reducible assumption | with_reducible apply State.releaseOne_quiet | with_reducible apply State.modPart_quiet
    | with_reducible apply Quiet.foldl | fail_if_no_progress intros | fail_if_no_progress with_reducible apply Quiet.upd)

theorem runMessageRelease_quiet {s0 : State} (p : PartIdx) (s : State) (hs : Quiet s0 s) : Quiet s0 (runMessageRelease p s) := by
  unfold runMessageRelease
  repeat' (first
    | with_reducible assumption
    | (extract_lets +onlyGivenNames x; change State at x; refine Quiet.cut (s0 := s0) x ?_ ?_; (on_goal 1 => dsimp only [x]; clear x); (on_goal 2 => intro hx; clear_value x))
    | (extract_lets +onlyGivenNames x; change _ × State at x; refine Quiet.cut2 (s0 := s0) x ?_ ?_; (on_goal 1 => dsimp only [x]; clear x); (on_goal 2 => intro hx; clear_value x))
    | (extract_lets +onlyGivenNames x; clear_value x) | with_reducible apply State.releaseAll_quiet
    | with_reducible apply Quiet.ite | fail_if_no_progress intros | dsimp only | split)

theorem State.admitOne_quiet {s0 : State} (s : State) (p i : Nat) (b : SubmitBody) (toks : List W32) (subSeq : W32) (host : Bool) (port c tenant : Nat) (hs : Quiet s0 s) : Quiet s0 (State.admitOne s p i b toks subSeq host port c tenant) := by
  unfold State.admitOne
  repeat' (first
    | with_reducible assumption
    | (extract_lets +onlyGivenNames x; change State at x; refine Quiet.cut (s0 := s0) x ?_ ?_; (on_goal 1 => dsimp only [x]; clear x); (on_goal 2 => intro hx; clear_value x))
    | (extract_lets +onlyGivenNames x; change _ × State at x; refine Quiet.cut2 (s0 := s0) x ?_ ?_; (on_goal 1 => dsimp only [x]; clear x); (on_goal 2 => intro hx; clear_value x))
    | (extract_lets +onlyGivenNames x; clear_value x) | with_reducible apply State.earmarkAll_quiet
    | with_reducible apply State.event_quiet | with_reducible apply State.setSlot_quiet | fail_if_no_progress intros
    | fail_if_no_progress with_reducible apply Quiet.upd | dsimp only)

theorem State.admitTwin_quiet {s0 : State} (s : State) (i q : Nat) (b : SubmitBody) (toks : List W32) (subSeq : W32) (host : Bool) (port c tenant : Nat) (hs : Quiet s0 s) : Quiet s0 (State.admitTwin s i q b toks subSeq host port c tenant) := by
  unfold State.admitTwin
  repeat' (first
    | with_reducible assumption
    | (extract_lets +onlyGivenNames x; change State at x; refine Quiet.cut (s0 := s0) x ?_ ?_; (on_goal 1 => dsimp only [x]; clear x); (on_goal 2 => intro hx; clear_value x))
    | (extract_lets +onlyGivenNames x; change _ × State at x; refine Quiet.cut2 (s0 := s0) x ?_ ?_; (on_goal 1 => dsimp only [x]; clear x); (on_goal 2 => intro hx; clear_value x))
    | (extract_lets +onlyGivenNames x; clear_value x) | with_reducible apply State.admitOne_quiet
    | with_reducible apply State.modSlot_quiet | fail_if_no_progress intros
    | fail_if_no_progress with_reducible apply Quiet.upd | (with_reducible apply Quiet.snd; with_reducible assumption)
    | dsimp only | split)

theorem State.submit_quiet {s0 : State} (s : State) (b : SubmitBody) (toks : List W32) (subSeq : W32) (host : Bool) (port c tenant : Nat) (hs : Quiet s0 s) : Quiet s0 (State.submit s b toks subSeq host port c tenant) := by
  unfold State.submit
  repeat' (first
    | with_reducible assumption
    | (extract_lets +onlyGivenNames x; change State at x; refine Quiet.cut (s0 := s0) x ?_ ?_; (on_goal 1 => dsimp only [x]; clear x); (on_goal 2 => intro hx; clear_value x))
    | (extract_lets +onlyGivenNames x; change _ × State at x; refine Quiet.cut2 (s0 := s0) x ?_ ?_; (on_goal 1 => dsimp only [x]; clear x); (on_goal 2 => intro hx; clear_value x))
    | (extract_lets +onlyGivenNames x; clear_value x) | with_reducible apply State.admitTwin_quiet
    | with_reducible apply State.admitOne_quiet | with_reducible apply State.say_quiet
    | with_reducible apply State.lowater_quiet | with_reducible apply State.bump_quiet
    | with_reducible apply State.setFld_quiet | with_reducible apply Quiet.ite | fail_if_no_progress intros
    | fail_if_no_progress with_reducible apply Quiet.upd | (with_reducible apply Quiet.snd; with_reducible assumption)
    | dsimp only | split)

theorem State.badFragment_quiet {s0 : State} (s : State) (port c : Nat) (hs : Quiet s0 s) : Quiet s0 (State.badFragment s port c) := by
  unfold State.badFragment
  repeat' (first
    | with_reducible assumption | with_reducible apply State.dropSubmit_quiet | with_reducible apply State.ethViolation_quiet
    | with_reducible apply Quiet.ite | fail_if_no_progress intros | split)

theorem State.takeFragment_quiet {s0 : State} (s : State) (port c : Nat) (x : PendingSubmit) (hs : Quiet s0 s) : Quiet s0 (State.takeFragment s port c x) := by
  unfold State.takeFragment
  repeat' (first
    | with_reducible assumption
    | (extract_lets +onlyGivenNames x; change State at x; refine Quiet.cut (s0 := s0) x ?_ ?_; (on_goal 1 => dsimp only [x]; clear x); (on_goal 2 => intro hx; clear_value x))
    | (extract_lets +onlyGivenNames x; change _ × State at x; refine Quiet.cut2 (s0 := s0) x ?_ ?_; (on_goal 1 => dsimp only [x]; clear x); (on_goal 2 => intro hx; clear_value x))
    | (extract_lets +onlyGivenNames x; clear_value x) | with_reducible apply State.submit_quiet
    | with_reducible apply State.setChan_quiet | with_reducible apply Quiet.ite | fail_if_no_progress intros
    | fail_if_no_progress with_reducible apply Quiet.upd | dsimp only | split)

theorem runSubmit_quiet {s0 : State} (port : BrimDie) (src : PeerAddr) (hdr : OspHdr) (f : SubmitFrag) (s : State) (hs : Quiet s0 s) : Quiet s0 (runSubmit port src hdr f s) := by
  unfold runSubmit
  repeat' (first
    | with_reducible assumption
    | (extract_lets +onlyGivenNames x; change State at x; refine Quiet.cut (s0 := s0) x ?_ ?_; (on_goal 1 => dsimp only [x]; clear x); (on_goal 2 => intro hx; clear_value x))
    | (extract_lets +onlyGivenNames x; change _ × State at x; refine Quiet.cut2 (s0 := s0) x ?_ ?_; (on_goal 1 => dsimp only [x]; clear x); (on_goal 2 => intro hx; clear_value x))
    | (extract_lets +onlyGivenNames x; clear_value x) | with_reducible apply State.takeFragment_quiet
    | with_reducible apply State.badFragment_quiet | with_reducible apply State.ospAccept_quiet
    | with_reducible apply State.dropSubmit_quiet | with_reducible apply Quiet.ite | fail_if_no_progress intros
    | fail_if_no_progress with_reducible apply Quiet.upd | (with_reducible apply Quiet.snd; with_reducible assumption)
    | dsimp only | split)

theorem State.writePage_kept {s0 : State} (s : State) (p page : Nat) (l : List (List Byte)) (hs : Kept s0 s) : Kept s0 (State.writePage s p page l) := by
  unfold State.writePage
  repeat' (first
    | with_reducible assumption
    | (extract_lets +onlyGivenNames x; change State at x; refine Kept.cut (s0 := s0) x ?_ ?_; (on_goal 1 => dsimp only [x]; clear x); (on_goal 2 => intro hx; clear_value x))
    | (extract_lets +onlyGivenNames x; change _ × State at x; refine Kept.cut2 (s0 := s0) x ?_ ?_; (on_goal 1 => dsimp only [x]; clear x); (on_goal 2 => intro hx; clear_value x))
    | (extract_lets +onlyGivenNames x; clear_value x) | with_reducible apply State.setBytes_kept
    | with_reducible apply Kept.foldl | fail_if_no_progress intros | dsimp only)

theorem State.coldPackets_quiet {s0 : State} (s : State) (p slot kind n : Nat) (data : List Byte) (hs : Quiet s0 s) : Quiet s0 (State.coldPackets s p slot kind n data) := by
  unfold State.coldPackets
  repeat' (first
    | with_reducible assumption
    | (extract_lets +onlyGivenNames x; change State at x; refine Quiet.cut (s0 := s0) x ?_ ?_; (on_goal 1 => dsimp only [x]; clear x); (on_goal 2 => intro hx; clear_value x))
    | (extract_lets +onlyGivenNames x; change _ × State at x; refine Quiet.cut2 (s0 := s0) x ?_ ?_; (on_goal 1 => dsimp only [x]; clear x); (on_goal 2 => intro hx; clear_value x))
    | (extract_lets +onlyGivenNames x; clear_value x) | with_reducible apply State.sendPacket_quiet
    | with_reducible apply Quiet.foldl | fail_if_no_progress intros | fail_if_no_progress with_reducible apply Quiet.upd
    | (with_reducible apply Quiet.snd; with_reducible assumption) | dsimp only | split)

theorem State.coldWrite_quiet {s0 : State} (s : State) (p slot : Nat) (c : ColdPage) (hs : Quiet s0 s) : Quiet s0 (State.coldWrite s p slot c) := by
  unfold State.coldWrite
  repeat' (first
    | with_reducible assumption | with_reducible apply State.coldPackets_quiet | fail_if_no_progress intros)

theorem State.coldRead_quiet {s0 : State} (s : State) (p slot : Nat) (c : ColdPage) (hs : Quiet s0 s) : Quiet s0 (State.coldRead s p slot c) := by
  unfold State.coldRead
  repeat' (first
    | with_reducible assumption | with_reducible apply State.coldPackets_quiet | fail_if_no_progress intros)

theorem State.coldRead_kept {s0 : State} (s : State) (p slot : Nat) (c : ColdPage) (hs : Kept s0 s) : Kept s0 (State.coldRead s p slot c) :=
  (State.coldRead_quiet s p slot c (Quiet.refl _)).keeps hs

theorem State.fetchCold_kept {s0 : State} (s : State) (i b : Nat) (hs : Kept s0 s) : Kept s0 (State.fetchCold s i b) := by
  unfold State.fetchCold
  repeat' (first
    | with_reducible assumption
    | (extract_lets +onlyGivenNames x; change State at x; refine Kept.cut (s0 := s0) x ?_ ?_; (on_goal 1 => dsimp only [x]; clear x); (on_goal 2 => intro hx; clear_value x))
    | (extract_lets +onlyGivenNames x; change _ × State at x; refine Kept.cut2 (s0 := s0) x ?_ ?_; (on_goal 1 => dsimp only [x]; clear x); (on_goal 2 => intro hx; clear_value x))
    | (extract_lets +onlyGivenNames x; clear_value x) | with_reducible apply State.coldRead_kept
    | with_reducible apply State.writePage_kept | fail_if_no_progress intros
    | fail_if_no_progress with_reducible apply Kept.upd | (with_reducible apply Kept.snd; with_reducible assumption)
    | dsimp only | split)

theorem State.lookupDone_quiet {s0 : State} (s : State) (i : Nat) (hs : Quiet s0 s) : Quiet s0 (State.lookupDone s i) := by
  unfold State.lookupDone
  repeat' (first
    | with_reducible assumption
    | (extract_lets +onlyGivenNames x; change State at x; refine Quiet.cut (s0 := s0) x ?_ ?_; (on_goal 1 => dsimp only [x]; clear x); (on_goal 2 => intro hx; clear_value x))
    | (extract_lets +onlyGivenNames x; change _ × State at x; refine Quiet.cut2 (s0 := s0) x ?_ ?_; (on_goal 1 => dsimp only [x]; clear x); (on_goal 2 => intro hx; clear_value x))
    | (extract_lets +onlyGivenNames x; clear_value x) | with_reducible apply State.lowater_quiet
    | with_reducible apply State.wake_quiet | with_reducible apply State.unearmark_quiet
    | with_reducible apply State.modSlot_quiet | with_reducible apply Quiet.ite | fail_if_no_progress intros
    | fail_if_no_progress with_reducible apply Quiet.upd | dsimp only | split)

theorem State.lookupDone_kept {s0 : State} (s : State) (i : Nat) (hs : Kept s0 s) : Kept s0 (State.lookupDone s i) :=
  (State.lookupDone_quiet s i (Quiet.refl _)).keeps hs

theorem runPrefixLookupComplete_kept {s0 : State} (slot : SlotIdx) (s : State) (hs : Kept s0 s) : Kept s0 (runPrefixLookupComplete slot s) := by
  unfold runPrefixLookupComplete
  repeat' (first
    | with_reducible assumption
    | (extract_lets +onlyGivenNames x; change State at x; refine Kept.cut (s0 := s0) x ?_ ?_; (on_goal 1 => dsimp only [x]; clear x); (on_goal 2 => intro hx; clear_value x))
    | (extract_lets +onlyGivenNames x; change _ × State at x; refine Kept.cut2 (s0 := s0) x ?_ ?_; (on_goal 1 => dsimp only [x]; clear x); (on_goal 2 => intro hx; clear_value x))
    | (extract_lets +onlyGivenNames x; clear_value x) | with_reducible apply State.lookupDone_kept
    | with_reducible apply State.fetchCold_kept | with_reducible apply State.probe_kept | with_reducible apply State.event_kept
    | with_reducible apply State.modSlot_kept | with_reducible apply State.bumpPair_kept | with_reducible apply Kept.ite
    | with_reducible apply Kept.foldl | fail_if_no_progress intros | fail_if_no_progress with_reducible apply Kept.upd
    | dsimp only | split)

theorem runColdFetchComplete_quiet {s0 : State} (slot : SlotIdx) (block : Nat) (s : State) (hs : Quiet s0 s) : Quiet s0 (runColdFetchComplete slot block s) := by
  unfold runColdFetchComplete
  repeat' (first
    | with_reducible assumption
    | (extract_lets +onlyGivenNames x; change State at x; refine Quiet.cut (s0 := s0) x ?_ ?_; (on_goal 1 => dsimp only [x]; clear x); (on_goal 2 => intro hx; clear_value x))
    | (extract_lets +onlyGivenNames x; change _ × State at x; refine Quiet.cut2 (s0 := s0) x ?_ ?_; (on_goal 1 => dsimp only [x]; clear x); (on_goal 2 => intro hx; clear_value x))
    | (extract_lets +onlyGivenNames x; clear_value x) | with_reducible apply State.lookupDone_quiet
    | with_reducible apply State.setIdx_quiet | with_reducible apply State.modPage_quiet
    | with_reducible apply State.modSlot_quiet | with_reducible apply Quiet.ite | fail_if_no_progress intros
    | fail_if_no_progress with_reducible apply Quiet.upd | (with_reducible apply Quiet.snd; with_reducible assumption)
    | dsimp only | split)

theorem runHotPromotionComplete_kept {s0 : State} (p : PartIdx) (page hot : Nat) (s : State) (hs : Kept s0 s) : Kept s0 (runHotPromotionComplete p page hot s) := by
  unfold runHotPromotionComplete
  repeat' (first
    | with_reducible assumption
    | (extract_lets +onlyGivenNames x; change State at x; refine Kept.cut (s0 := s0) x ?_ ?_; (on_goal 1 => dsimp only [x]; clear x); (on_goal 2 => intro hx; clear_value x))
    | (extract_lets +onlyGivenNames x; change _ × State at x; refine Kept.cut2 (s0 := s0) x ?_ ?_; (on_goal 1 => dsimp only [x]; clear x); (on_goal 2 => intro hx; clear_value x))
    | (extract_lets +onlyGivenNames x; clear_value x) | with_reducible apply State.poisonPage_kept
    | with_reducible apply State.demote_kept | with_reducible apply State.modPage_kept
    | with_reducible apply State.setBytesP_kept | with_reducible apply Kept.ite | with_reducible apply Kept.foldl
    | fail_if_no_progress intros | fail_if_no_progress with_reducible apply Kept.upd
    | (with_reducible apply Kept.snd; with_reducible assumption) | dsimp only | split)

theorem State.coldRoom_quiet {s0 : State} {s : State} {p named : Nat} {n : Nat} {t : State} (e : State.coldRoom s p named = some (n, t)) (hs : Quiet s0 s) : Quiet s0 t := by
  revert e
  unfold State.coldRoom
  repeat' (first
    | with_reducible assumption
    | (extract_lets +onlyGivenNames x; change State at x; refine Quiet.cut (s0 := s0) x ?_ ?_; (on_goal 1 => dsimp only [x]; clear x); (on_goal 2 => intro hx; clear_value x))
    | (extract_lets +onlyGivenNames x; change _ × State at x; refine Quiet.cut2 (s0 := s0) x ?_ ?_; (on_goal 1 => dsimp only [x]; clear x); (on_goal 2 => intro hx; clear_value x))
    | (extract_lets +onlyGivenNames x; clear_value x) | with_reducible apply State.dropEntry_quiet
    | with_reducible apply State.setBit_quiet | with_reducible apply Quiet.ite | with_reducible apply Quiet.ite2
    | fail_if_no_progress with_reducible apply Quiet.upd | (with_reducible apply Quiet.snd; with_reducible assumption)
    | rintro ⟨⟩ | dsimp only | split)

theorem State.coldRoom_quiet' {s0 : State} {s : State} {p named : Nat} {r : Nat × State} (e : State.coldRoom s p named = some r) (hs : Quiet s0 s) : Quiet s0 r.2 := State.coldRoom_quiet e hs

theorem runColdCopyComplete_quiet {s0 : State} (p : PartIdx) (page coldSlot : Nat) (s : State) (hs : Quiet s0 s) : Quiet s0 (runColdCopyComplete p page coldSlot s) := by
  unfold runColdCopyComplete
  repeat' (first
    | with_reducible assumption
    | (extract_lets +onlyGivenNames x; change State at x; refine Quiet.cut (s0 := s0) x ?_ ?_; (on_goal 1 => dsimp only [x]; clear x); (on_goal 2 => intro hx; clear_value x))
    | (extract_lets +onlyGivenNames x; change _ × State at x; refine Quiet.cut2 (s0 := s0) x ?_ ?_; (on_goal 1 => dsimp only [x]; clear x); (on_goal 2 => intro hx; clear_value x))
    | (extract_lets +onlyGivenNames x; clear_value x) | (refine State.coldRoom_quiet (by assumption) ?_)
    | (refine State.coldRoom_quiet' (by assumption) ?_) | with_reducible apply State.coldWrite_quiet
    | with_reducible apply State.lowater_quiet | with_reducible apply State.poisonPage_quiet
    | with_reducible apply State.freePageSet_quiet | with_reducible apply State.setIdx_quiet | with_reducible apply Quiet.ite
    | fail_if_no_progress intros | fail_if_no_progress with_reducible apply Quiet.upd
    | (with_reducible apply Quiet.snd; with_reducible assumption) | dsimp only | split)

theorem State.cancelLive_quiet {s0 : State} (s : State) (i : Nat) (reason : Byte) (hs : Quiet s0 s) : Quiet s0 (State.cancelLive s i reason) := by
  unfold State.cancelLive
  repeat' (first
    | with_reducible assumption
    | (extract_lets +onlyGivenNames x; change State at x; refine Quiet.cut (s0 := s0) x ?_ ?_; (on_goal 1 => dsimp only [x]; clear x); (on_goal 2 => intro hx; clear_value x))
    | (extract_lets +onlyGivenNames x; change _ × State at x; refine Quiet.cut2 (s0 := s0) x ?_ ?_; (on_goal 1 => dsimp only [x]; clear x); (on_goal 2 => intro hx; clear_value x))
    | (extract_lets +onlyGivenNames x; clear_value x) | with_reducible apply State.releaseSlot_quiet
    | with_reducible apply State.releaseHeld_quiet | with_reducible apply State.endRequest_quiet
    | with_reducible apply State.modSlot_quiet | with_reducible apply Quiet.ite | fail_if_no_progress intros
    | fail_if_no_progress with_reducible apply Quiet.upd | dsimp only | split)

theorem State.cancel_quiet {s0 : State} (s : State) (host : Bool) (port c : Nat) (subSeq : W32) (slot : Option Nat) (hs : Quiet s0 s) : Quiet s0 (State.cancel s host port c subSeq slot) := by
  unfold State.cancel
  repeat' (first
    | with_reducible assumption
    | (extract_lets +onlyGivenNames x; change State at x; refine Quiet.cut (s0 := s0) x ?_ ?_; (on_goal 1 => dsimp only [x]; clear x); (on_goal 2 => intro hx; clear_value x))
    | (extract_lets +onlyGivenNames x; change _ × State at x; refine Quiet.cut2 (s0 := s0) x ?_ ?_; (on_goal 1 => dsimp only [x]; clear x); (on_goal 2 => intro hx; clear_value x))
    | (extract_lets +onlyGivenNames x; clear_value x) | with_reducible apply State.cancelLive_quiet
    | with_reducible apply State.say_quiet | with_reducible apply State.modSlot_quiet | with_reducible apply Quiet.ite
    | fail_if_no_progress intros | fail_if_no_progress with_reducible apply Quiet.upd
    | (with_reducible apply Quiet.snd; with_reducible assumption) | dsimp only | split)

theorem runCancel_quiet {s0 : State} (port : BrimDie) (src : PeerAddr) (hdr : OspHdr) (subSeq : W32) (s : State) (hs : Quiet s0 s) : Quiet s0 (runCancel port src hdr subSeq s) := by
  unfold runCancel
  repeat' (first
    | with_reducible assumption
    | (extract_lets +onlyGivenNames x; change State at x; refine Quiet.cut (s0 := s0) x ?_ ?_; (on_goal 1 => dsimp only [x]; clear x); (on_goal 2 => intro hx; clear_value x))
    | (extract_lets +onlyGivenNames x; change _ × State at x; refine Quiet.cut2 (s0 := s0) x ?_ ?_; (on_goal 1 => dsimp only [x]; clear x); (on_goal 2 => intro hx; clear_value x))
    | (extract_lets +onlyGivenNames x; clear_value x) | with_reducible apply State.cancel_quiet
    | with_reducible apply State.ospAccept_quiet | with_reducible apply State.dropSubmit_quiet | fail_if_no_progress intros
    | dsimp only)

theorem runReqKill_quiet {s0 : State} (port : Port) (data : W32) (s : State) (hs : Quiet s0 s) : Quiet s0 (runReqKill port data s) := by
  unfold runReqKill
  repeat' (first
    | with_reducible assumption
    | (extract_lets +onlyGivenNames x; change State at x; refine Quiet.cut (s0 := s0) x ?_ ?_; (on_goal 1 => dsimp only [x]; clear x); (on_goal 2 => intro hx; clear_value x))
    | (extract_lets +onlyGivenNames x; change _ × State at x; refine Quiet.cut2 (s0 := s0) x ?_ ?_; (on_goal 1 => dsimp only [x]; clear x); (on_goal 2 => intro hx; clear_value x))
    | (extract_lets +onlyGivenNames x; clear_value x) | with_reducible apply State.cancelLive_quiet
    | with_reducible apply State.guardedWrite_quiet | with_reducible apply Quiet.ite | fail_if_no_progress intros | dsimp only
    | split)

theorem runReqKill_kept {s0 : State} (port : Port) (data : W32) (s : State) (hs : Kept s0 s) : Kept s0 (runReqKill port data s) :=
  (runReqKill_quiet port data s (Quiet.refl _)).keeps hs

/-! ## HostPort -/

theorem State.setSession_quiet {s0 : State} (s : State) (v : Nat) (hs : Quiet s0 s) : Quiet s0 (State.setSession s v) := by
  unfold State.setSession
  repeat' (first
    | with_reducible assumption
    | (extract_lets +onlyGivenNames x; change State at x; refine Quiet.cut (s0 := s0) x ?_ ?_; (on_goal 1 => dsimp only [x]; clear x); (on_goal 2 => intro hx; clear_value x))
    | (extract_lets +onlyGivenNames x; change _ × State at x; refine Quiet.cut2 (s0 := s0) x ?_ ?_; (on_goal 1 => dsimp only [x]; clear x); (on_goal 2 => intro hx; clear_value x))
    | (extract_lets +onlyGivenNames x; clear_value x) | with_reducible apply State.setFld_quiet
    | with_reducible apply Quiet.ite | fail_if_no_progress intros | fail_if_no_progress with_reducible apply Quiet.upd
    | dsimp only | split)

theorem State.linkSeen_quiet {s0 : State} (s : State) (port : Port) (hs : Quiet s0 s) : Quiet s0 (State.linkSeen s port) := by
  unfold State.linkSeen
  repeat' (first
    | with_reducible assumption | fail_if_no_progress intros | fail_if_no_progress with_reducible apply Quiet.upd
    | (with_reducible apply Quiet.snd; with_reducible assumption) | split)

theorem State.linkSeen_kept {s0 : State} (s : State) (port : Port) (hs : Kept s0 s) : Kept s0 (State.linkSeen s port) :=
  (State.linkSeen_quiet s port (Quiet.refl _)).keeps hs

theorem runEndpointReset_quiet {s0 : State} (c : EndpointCause) (s : State) (hs : Quiet s0 s) : Quiet s0 (runEndpointReset c s) := by
  unfold runEndpointReset
  repeat' (first
    | with_reducible assumption
    | (extract_lets +onlyGivenNames x; change State at x; refine Quiet.cut (s0 := s0) x ?_ ?_; (on_goal 1 => dsimp only [x]; clear x); (on_goal 2 => intro hx; clear_value x))
    | (extract_lets +onlyGivenNames x; change _ × State at x; refine Quiet.cut2 (s0 := s0) x ?_ ?_; (on_goal 1 => dsimp only [x]; clear x); (on_goal 2 => intro hx; clear_value x))
    | (extract_lets +onlyGivenNames x; clear_value x) | with_reducible apply State.setSession_quiet
    | with_reducible apply State.hostFail_quiet | with_reducible apply Quiet.ite | fail_if_no_progress intros
    | fail_if_no_progress with_reducible apply Quiet.upd | dsimp only | split)

theorem runBar2OutOfRange_quiet {s0 : State} (offset : BitVec 30) (write : Bool) (s : State) (hs : Quiet s0 s) : Quiet s0 (runBar2OutOfRange offset write s) := by
  unfold runBar2OutOfRange
  repeat' (first
    | with_reducible assumption
    | (extract_lets +onlyGivenNames x; change State at x; refine Quiet.cut (s0 := s0) x ?_ ?_; (on_goal 1 => dsimp only [x]; clear x); (on_goal 2 => intro hx; clear_value x))
    | (extract_lets +onlyGivenNames x; change _ × State at x; refine Quiet.cut2 (s0 := s0) x ?_ ?_; (on_goal 1 => dsimp only [x]; clear x); (on_goal 2 => intro hx; clear_value x))
    | (extract_lets +onlyGivenNames x; clear_value x) | with_reducible apply State.linkSeen_quiet
    | with_reducible apply State.hostFail_quiet | with_reducible apply State.bump_quiet | with_reducible apply Quiet.ite
    | fail_if_no_progress intros | fail_if_no_progress with_reducible apply Quiet.upd | dsimp only | split)

theorem State.ringWrite_quiet {s0 : State} (s : State) (port : Port) (k : RegKey) (ring d : Nat) (f : State → State) (hs : Quiet s0 s) (hf : ∀ (a0 : State), Quiet s0 a0 → Quiet s0 (f a0)) : Quiet s0 (State.ringWrite s port k ring d f) := by
  unfold State.ringWrite
  repeat' (first
    | with_reducible assumption | with_reducible apply hf | with_reducible apply State.linkSeen_quiet
    | with_reducible apply State.guardedWrite_quiet | with_reducible apply State.hostDrop_quiet
    | with_reducible apply Quiet.ite | fail_if_no_progress intros | split)

theorem State.ringWrite_kept {s0 : State} (s : State) (port : Port) (k : RegKey) (ring d : Nat) (f : State → State) (hs : Kept s0 s) (hf : ∀ (a0 : State), Kept s0 a0 → Kept s0 (f a0)) : Kept s0 (State.ringWrite s port k ring d f) := by
  unfold State.ringWrite
  repeat' (first
    | with_reducible assumption | with_reducible apply hf | with_reducible apply State.linkSeen_kept
    | with_reducible apply State.guardedWrite_kept | with_reducible apply State.hostDrop_kept | with_reducible apply Kept.ite
    | fail_if_no_progress intros | split)

theorem runSq0TailWrite_quiet {s0 : State} (port : Port) (data : W32) (s : State) (hs : Quiet s0 s) : Quiet s0 (runSq0TailWrite port data s) := by
  unfold runSq0TailWrite
  repeat' (first
    | with_reducible assumption | with_reducible apply State.ringWrite_quiet | with_reducible apply State.storeReg_quiet
    | with_reducible apply Quiet.ite | fail_if_no_progress intros | split)

theorem runSq0TailWrite_kept {s0 : State} (port : Port) (data : W32) (s : State) (hs : Kept s0 s) : Kept s0 (runSq0TailWrite port data s) :=
  (runSq0TailWrite_quiet port data s (Quiet.refl _)).keeps hs

theorem runSq1TailWrite_quiet {s0 : State} (port : Port) (data : W32) (s : State) (hs : Quiet s0 s) : Quiet s0 (runSq1TailWrite port data s) := by
  unfold runSq1TailWrite
  repeat' (first
    | with_reducible assumption | with_reducible apply State.ringWrite_quiet | with_reducible apply State.storeReg_quiet
    | with_reducible apply Quiet.ite | fail_if_no_progress intros | split)

theorem runSq1TailWrite_kept {s0 : State} (port : Port) (data : W32) (s : State) (hs : Kept s0 s) : Kept s0 (runSq1TailWrite port data s) :=
  (runSq1TailWrite_quiet port data s (Quiet.refl _)).keeps hs

theorem State.sqConsume_quiet {s0 : State} (s : State) (ring : Nat) (hs : Quiet s0 s) : Quiet s0 (State.sqConsume s ring) := by
  unfold State.sqConsume
  repeat' (first
    | with_reducible assumption | with_reducible apply State.setFld_quiet | with_reducible apply Quiet.ite
    | fail_if_no_progress intros | split)

theorem State.sqConsume_kept {s0 : State} (s : State) (ring : Nat) (hs : Kept s0 s) : Kept s0 (State.sqConsume s ring) :=
  (State.sqConsume_quiet s ring (Quiet.refl _)).keeps hs

theorem State.badEntry_quiet {s0 : State} (s : State) (index : Nat) (seq : W32) (isSubmit : Bool) (hs : Quiet s0 s) : Quiet s0 (State.badEntry s index seq isSubmit) := by
  unfold State.badEntry
  repeat' (first
    | with_reducible assumption
    | (extract_lets +onlyGivenNames x; change State at x; refine Quiet.cut (s0 := s0) x ?_ ?_; (on_goal 1 => dsimp only [x]; clear x); (on_goal 2 => intro hx; clear_value x))
    | (extract_lets +onlyGivenNames x; change _ × State at x; refine Quiet.cut2 (s0 := s0) x ?_ ?_; (on_goal 1 => dsimp only [x]; clear x); (on_goal 2 => intro hx; clear_value x))
    | (extract_lets +onlyGivenNames x; clear_value x) | with_reducible apply State.hostDone_quiet
    | with_reducible apply State.hostDrop_quiet | with_reducible apply Quiet.ite | fail_if_no_progress intros | dsimp only
    | split)

theorem State.hostSubmit_quiet {s0 : State} (s : State) (e : SqEntry) (hs : Quiet s0 s) : Quiet s0 (State.hostSubmit s e) := by
  unfold State.hostSubmit
  repeat' (first
    | with_reducible assumption | with_reducible apply State.emit_quiet | fail_if_no_progress intros
    | fail_if_no_progress with_reducible apply Quiet.upd)

theorem State.hostStatus_quiet {s0 : State} (s : State) (subSeq : W32) (hs : Quiet s0 s) : Quiet s0 (State.hostStatus s subSeq) := by
  unfold State.hostStatus
  repeat' (first
    | with_reducible assumption | with_reducible apply State.hostSay_quiet | with_reducible apply Quiet.ite
    | fail_if_no_progress intros | split)

theorem State.hostSayAll_quiet {s0 : State} (s : State) (l : List Msg) (hs : Quiet s0 s) : Quiet s0 (State.hostSayAll s l) := by
  unfold State.hostSayAll
  repeat' (first
    | with_reducible assumption | with_reducible apply State.hostSay_quiet | with_reducible apply Quiet.foldl
    | fail_if_no_progress intros)

theorem State.resumeTwin_quiet {s0 : State} (s : State) (twin : Option Nat) (hs : Quiet s0 s) : Quiet s0 (State.resumeTwin s twin) := by
  unfold State.resumeTwin
  repeat' (first
    | with_reducible assumption
    | (extract_lets +onlyGivenNames x; change State at x; refine Quiet.cut (s0 := s0) x ?_ ?_; (on_goal 1 => dsimp only [x]; clear x); (on_goal 2 => intro hx; clear_value x))
    | (extract_lets +onlyGivenNames x; change _ × State at x; refine Quiet.cut2 (s0 := s0) x ?_ ?_; (on_goal 1 => dsimp only [x]; clear x); (on_goal 2 => intro hx; clear_value x))
    | (extract_lets +onlyGivenNames x; clear_value x) | with_reducible apply State.wake_quiet
    | with_reducible apply State.setSlot_quiet | with_reducible apply Quiet.ite | fail_if_no_progress intros
    | fail_if_no_progress with_reducible apply Quiet.upd | (with_reducible apply Quiet.snd; with_reducible assumption)
    | dsimp only | split)

theorem State.resumeOne_quiet {s0 : State} (s : State) (i : Nat) (fromPos : W32) (hs : Quiet s0 s) : Quiet s0 (State.resumeOne s i fromPos) := by
  unfold State.resumeOne
  repeat' (first
    | with_reducible assumption
    | (extract_lets +onlyGivenNames x; change State at x; refine Quiet.cut (s0 := s0) x ?_ ?_; (on_goal 1 => dsimp only [x]; clear x); (on_goal 2 => intro hx; clear_value x))
    | (extract_lets +onlyGivenNames x; change _ × State at x; refine Quiet.cut2 (s0 := s0) x ?_ ?_; (on_goal 1 => dsimp only [x]; clear x); (on_goal 2 => intro hx; clear_value x))
    | (extract_lets +onlyGivenNames x; clear_value x) | with_reducible apply State.resumeTwin_quiet
    | with_reducible apply State.hostSayAll_quiet | with_reducible apply State.wake_quiet
    | with_reducible apply State.setSlot_quiet | with_reducible apply Quiet.ite | fail_if_no_progress intros
    | fail_if_no_progress with_reducible apply Quiet.upd | dsimp only | split)

theorem State.resume_quiet {s0 : State} (s : State) (subSeq fromPos : W32) (hs : Quiet s0 s) : Quiet s0 (State.resume s subSeq fromPos) := by
  unfold State.resume
  repeat' (first
    | with_reducible assumption
    | (extract_lets +onlyGivenNames x; change State at x; refine Quiet.cut (s0 := s0) x ?_ ?_; (on_goal 1 => dsimp only [x]; clear x); (on_goal 2 => intro hx; clear_value x))
    | (extract_lets +onlyGivenNames x; change _ × State at x; refine Quiet.cut2 (s0 := s0) x ?_ ?_; (on_goal 1 => dsimp only [x]; clear x); (on_goal 2 => intro hx; clear_value x))
    | (extract_lets +onlyGivenNames x; clear_value x) | with_reducible apply State.resumeOne_quiet
    | with_reducible apply State.hostSay_quiet | with_reducible apply Quiet.ite | with_reducible apply Quiet.foldl
    | fail_if_no_progress intros | fail_if_no_progress with_reducible apply Quiet.upd
    | (with_reducible apply Quiet.snd; with_reducible assumption) | dsimp only | split)

theorem State.sq0Act_quiet {s0 : State} (s : State) (index : Nat) (e : SqEntry) (hs : Quiet s0 s) : Quiet s0 (State.sq0Act s index e) := by
  unfold State.sq0Act
  repeat' (first
    | with_reducible assumption | with_reducible apply State.resume_quiet | with_reducible apply State.hostStatus_quiet
    | with_reducible apply State.hostSubmit_quiet | with_reducible apply State.badEntry_quiet
    | with_reducible apply State.cancel_quiet | with_reducible apply Quiet.ite | fail_if_no_progress intros
    | fail_if_no_progress with_reducible apply Quiet.upd | (with_reducible apply Quiet.snd; with_reducible assumption) | split)

theorem State.sq0Read_quiet {s0 : State} (s : State) (e : SqEntry) (hs : Quiet s0 s) : Quiet s0 (State.sq0Read s e) := by
  unfold State.sq0Read
  repeat' (first
    | with_reducible assumption
    | (extract_lets +onlyGivenNames x; change State at x; refine Quiet.cut (s0 := s0) x ?_ ?_; (on_goal 1 => dsimp only [x]; clear x); (on_goal 2 => intro hx; clear_value x))
    | (extract_lets +onlyGivenNames x; change _ × State at x; refine Quiet.cut2 (s0 := s0) x ?_ ?_; (on_goal 1 => dsimp only [x]; clear x); (on_goal 2 => intro hx; clear_value x))
    | (extract_lets +onlyGivenNames x; clear_value x) | with_reducible apply State.sq0Act_quiet
    | with_reducible apply State.sqConsume_quiet | with_reducible apply State.hostDrop_quiet
    | with_reducible apply State.setReg_quiet | with_reducible apply Quiet.ite | fail_if_no_progress intros | dsimp only
    | split)

theorem runHostSubmit_quiet {s0 : State} (e : SqEntry) (s : State) (hs : Quiet s0 s) : Quiet s0 (runHostSubmit e s) := by
  unfold runHostSubmit
  repeat' (first
    | with_reducible assumption | with_reducible apply State.sq0Read_quiet | fail_if_no_progress intros)

theorem runHostSubmitBody_quiet {s0 : State} (seq : W32) (body : SubmitBody) (tokens : List W32) (s : State) (hs : Quiet s0 s) : Quiet s0 (runHostSubmitBody seq body tokens s) := by
  unfold runHostSubmitBody
  repeat' (first
    | with_reducible assumption
    | (extract_lets +onlyGivenNames x; change State at x; refine Quiet.cut (s0 := s0) x ?_ ?_; (on_goal 1 => dsimp only [x]; clear x); (on_goal 2 => intro hx; clear_value x))
    | (extract_lets +onlyGivenNames x; change _ × State at x; refine Quiet.cut2 (s0 := s0) x ?_ ?_; (on_goal 1 => dsimp only [x]; clear x); (on_goal 2 => intro hx; clear_value x))
    | (extract_lets +onlyGivenNames x; clear_value x) | with_reducible apply State.badEntry_quiet
    | with_reducible apply State.submit_quiet | with_reducible apply Quiet.ite | fail_if_no_progress intros
    | fail_if_no_progress with_reducible apply Quiet.upd | dsimp only | split)

theorem runHostCancel_quiet {s0 : State} (e : SqEntry) (s : State) (hs : Quiet s0 s) : Quiet s0 (runHostCancel e s) := by
  unfold runHostCancel
  repeat' (first
    | with_reducible assumption | with_reducible apply State.sq0Read_quiet | fail_if_no_progress intros)

theorem runHostStatus_quiet {s0 : State} (e : SqEntry) (s : State) (hs : Quiet s0 s) : Quiet s0 (runHostStatus e s) := by
  unfold runHostStatus
  repeat' (first
    | with_reducible assumption | with_reducible apply State.sq0Read_quiet | fail_if_no_progress intros)

theorem runHostResume_quiet {s0 : State} (e : SqEntry) (s : State) (hs : Quiet s0 s) : Quiet s0 (runHostResume e s) := by
  unfold runHostResume
  repeat' (first
    | with_reducible assumption | with_reducible apply State.sq0Read_quiet | fail_if_no_progress intros)

theorem runHostBoltData_kept {s0 : State} (e : SqEntry) (data : List Byte) (s : State) (hs : Kept s0 s) : Kept s0 (runHostBoltData e data s) := by
  unfold runHostBoltData
  repeat' (first
    | with_reducible assumption
    | (extract_lets +onlyGivenNames x; change State at x; refine Kept.cut (s0 := s0) x ?_ ?_; (on_goal 1 => dsimp only [x]; clear x); (on_goal 2 => intro hx; clear_value x))
    | (extract_lets +onlyGivenNames x; change _ × State at x; refine Kept.cut2 (s0 := s0) x ?_ ?_; (on_goal 1 => dsimp only [x]; clear x); (on_goal 2 => intro hx; clear_value x))
    | (extract_lets +onlyGivenNames x; clear_value x) | with_reducible apply State.sqConsume_kept
    | with_reducible apply State.objectArrived_kept | with_reducible apply State.hostDrop_kept
    | with_reducible apply State.emit_kept | with_reducible apply Kept.ite | fail_if_no_progress intros
    | fail_if_no_progress with_reducible apply Kept.upd | (with_reducible apply Kept.snd; with_reducible assumption)
    | dsimp only | split)

theorem runCqEntryWrite_quiet {s0 : State} (s : State) (hs : Quiet s0 s) : Quiet s0 (runCqEntryWrite s) := by
  unfold runCqEntryWrite
  repeat' (first
    | with_reducible assumption
    | (extract_lets +onlyGivenNames x; change State at x; refine Quiet.cut (s0 := s0) x ?_ ?_; (on_goal 1 => dsimp only [x]; clear x); (on_goal 2 => intro hx; clear_value x))
    | (extract_lets +onlyGivenNames x; change _ × State at x; refine Quiet.cut2 (s0 := s0) x ?_ ?_; (on_goal 1 => dsimp only [x]; clear x); (on_goal 2 => intro hx; clear_value x))
    | (extract_lets +onlyGivenNames x; clear_value x) | with_reducible apply State.emit_quiet
    | with_reducible apply State.setFld_quiet | with_reducible apply State.setReg_quiet | with_reducible apply Quiet.ite
    | fail_if_no_progress intros | fail_if_no_progress with_reducible apply Quiet.upd
    | (with_reducible apply Quiet.snd; with_reducible assumption) | dsimp only | split)

theorem State.cqPassed_quiet {s0 : State} (s : State) (m : Msg) (hs : Quiet s0 s) : Quiet s0 (State.cqPassed s m) := by
  unfold State.cqPassed
  repeat' (first
    | with_reducible assumption | with_reducible apply State.modSlot_quiet | fail_if_no_progress intros
    | fail_if_no_progress with_reducible apply Quiet.upd | (with_reducible apply Quiet.snd; with_reducible assumption) | split)

theorem State.wakeAll_quiet {s0 : State} (s : State) (hs : Quiet s0 s) : Quiet s0 (State.wakeAll s) := by
  unfold State.wakeAll
  repeat' (first
    | with_reducible assumption | with_reducible apply State.wake_quiet | with_reducible apply Quiet.ite
    | with_reducible apply Quiet.foldl | fail_if_no_progress intros | split)

theorem runCqHeadWrite_quiet {s0 : State} (port : Port) (data : W32) (s : State) (hs : Quiet s0 s) : Quiet s0 (runCqHeadWrite port data s) := by
  unfold runCqHeadWrite
  repeat' (first
    | with_reducible assumption
    | (extract_lets +onlyGivenNames x; change State at x; refine Quiet.cut (s0 := s0) x ?_ ?_; (on_goal 1 => dsimp only [x]; clear x); (on_goal 2 => intro hx; clear_value x))
    | (extract_lets +onlyGivenNames x; change _ × State at x; refine Quiet.cut2 (s0 := s0) x ?_ ?_; (on_goal 1 => dsimp only [x]; clear x); (on_goal 2 => intro hx; clear_value x))
    | (extract_lets +onlyGivenNames x; clear_value x) | with_reducible apply State.wakeAll_quiet
    | with_reducible apply State.cqPassed_quiet | with_reducible apply State.ringWrite_quiet
    | with_reducible apply State.storeReg_quiet | with_reducible apply Quiet.ite | with_reducible apply Quiet.foldl
    | fail_if_no_progress intros | fail_if_no_progress with_reducible apply Quiet.upd | dsimp only | split)

theorem runCqHeadWrite_kept {s0 : State} (port : Port) (data : W32) (s : State) (hs : Kept s0 s) : Kept s0 (runCqHeadWrite port data s) :=
  (runCqHeadWrite_quiet port data s (Quiet.refl _)).keeps hs

theorem runStatusBlockWrite_quiet {s0 : State} (s : State) (hs : Quiet s0 s) : Quiet s0 (runStatusBlockWrite s) := by
  unfold runStatusBlockWrite
  repeat' (first
    | with_reducible assumption
    | (extract_lets +onlyGivenNames x; change State at x; refine Quiet.cut (s0 := s0) x ?_ ?_; (on_goal 1 => dsimp only [x]; clear x); (on_goal 2 => intro hx; clear_value x))
    | (extract_lets +onlyGivenNames x; change _ × State at x; refine Quiet.cut2 (s0 := s0) x ?_ ?_; (on_goal 1 => dsimp only [x]; clear x); (on_goal 2 => intro hx; clear_value x))
    | (extract_lets +onlyGivenNames x; clear_value x) | with_reducible apply State.emit_quiet | with_reducible apply Quiet.ite
    | fail_if_no_progress intros | fail_if_no_progress with_reducible apply Quiet.upd | dsimp only | split)

theorem State.sessionOpens_quiet {s0 : State} (s : State) (hs : Quiet s0 s) : Quiet s0 (State.sessionOpens s) := by
  unfold State.sessionOpens
  repeat' (first
    | with_reducible assumption
    | (extract_lets +onlyGivenNames x; change State at x; refine Quiet.cut (s0 := s0) x ?_ ?_; (on_goal 1 => dsimp only [x]; clear x); (on_goal 2 => intro hx; clear_value x))
    | (extract_lets +onlyGivenNames x; change _ × State at x; refine Quiet.cut2 (s0 := s0) x ?_ ?_; (on_goal 1 => dsimp only [x]; clear x); (on_goal 2 => intro hx; clear_value x))
    | (extract_lets +onlyGivenNames x; clear_value x) | with_reducible apply State.setSession_quiet
    | with_reducible apply State.hostFail_quiet | with_reducible apply State.setFld_quiet
    | with_reducible apply State.setReg_quiet | with_reducible apply Quiet.ite | fail_if_no_progress intros
    | fail_if_no_progress with_reducible apply Quiet.upd | dsimp only | split)

theorem State.sessionCloses_quiet {s0 : State} (s : State) (hs : Quiet s0 s) : Quiet s0 (State.sessionCloses s) := by
  unfold State.sessionCloses
  repeat' (first
    | with_reducible assumption
    | (extract_lets +onlyGivenNames x; change State at x; refine Quiet.cut (s0 := s0) x ?_ ?_; (on_goal 1 => dsimp only [x]; clear x); (on_goal 2 => intro hx; clear_value x))
    | (extract_lets +onlyGivenNames x; change _ × State at x; refine Quiet.cut2 (s0 := s0) x ?_ ?_; (on_goal 1 => dsimp only [x]; clear x); (on_goal 2 => intro hx; clear_value x))
    | (extract_lets +onlyGivenNames x; clear_value x) | with_reducible apply State.setSession_quiet
    | fail_if_no_progress intros | fail_if_no_progress with_reducible apply Quiet.upd | dsimp only)

theorem State.sessionCmd_quiet {s0 : State} (s : State) (port : Port) (data : W32) (hs : Quiet s0 s) : Quiet s0 (State.sessionCmd s port data) := by
  unfold State.sessionCmd
  repeat' (first
    | with_reducible assumption
    | (extract_lets +onlyGivenNames x; change State at x; refine Quiet.cut (s0 := s0) x ?_ ?_; (on_goal 1 => dsimp only [x]; clear x); (on_goal 2 => intro hx; clear_value x))
    | (extract_lets +onlyGivenNames x; change _ × State at x; refine Quiet.cut2 (s0 := s0) x ?_ ?_; (on_goal 1 => dsimp only [x]; clear x); (on_goal 2 => intro hx; clear_value x))
    | (extract_lets +onlyGivenNames x; clear_value x) | with_reducible apply State.sessionCloses_quiet
    | with_reducible apply State.sessionOpens_quiet | with_reducible apply State.linkSeen_quiet
    | with_reducible apply State.guardedWrite_quiet | with_reducible apply Quiet.ite | fail_if_no_progress intros | dsimp only
    | split)

theorem runSessionOpen_quiet {s0 : State} (port : Port) (data : W32) (s : State) (hs : Quiet s0 s) : Quiet s0 (runSessionOpen port data s) := by
  unfold runSessionOpen
  repeat' (first
    | with_reducible assumption | with_reducible apply State.sessionCmd_quiet | fail_if_no_progress intros)

theorem runSessionOpen_kept {s0 : State} (port : Port) (data : W32) (s : State) (hs : Kept s0 s) : Kept s0 (runSessionOpen port data s) :=
  (runSessionOpen_quiet port data s (Quiet.refl _)).keeps hs

theorem runSessionClose_quiet {s0 : State} (port : Port) (data : W32) (s : State) (hs : Quiet s0 s) : Quiet s0 (runSessionClose port data s) := by
  unfold runSessionClose
  repeat' (first
    | with_reducible assumption | with_reducible apply State.sessionCmd_quiet | fail_if_no_progress intros)

theorem runHeartbeat_quiet {s0 : State} (port : Port) (data : W32) (s : State) (hs : Quiet s0 s) : Quiet s0 (runHeartbeat port data s) := by
  unfold runHeartbeat
  refine State.guardedWrite_quiet _ _ _ _ _ (State.linkSeen_quiet _ _ hs) (fun a ha => ?_)
  split
  · exact ha
  · exact Quiet.ite (State.setSession_quiet _ _ (Quiet.upd ha)) (Quiet.upd ha)

theorem runHeartbeat_kept {s0 : State} (port : Port) (data : W32) (s : State) (hs : Kept s0 s) : Kept s0 (runHeartbeat port data s) :=
  (runHeartbeat_quiet port data s (Quiet.refl _)).keeps hs

theorem runHeartbeatStale_quiet {s0 : State} (s : State) (hs : Quiet s0 s) : Quiet s0 (runHeartbeatStale s) := by
  unfold runHeartbeatStale
  repeat' (first
    | with_reducible assumption | with_reducible apply State.setSession_quiet | with_reducible apply State.hostFail_quiet
    | with_reducible apply Quiet.ite | fail_if_no_progress intros | split)

theorem runHostAccessError_quiet {s0 : State} (addr : W64) (status : Byte) (s : State) (hs : Quiet s0 s) : Quiet s0 (runHostAccessError addr status s) := by
  unfold runHostAccessError
  repeat' (first
    | with_reducible assumption
    | (extract_lets +onlyGivenNames x; change State at x; refine Quiet.cut (s0 := s0) x ?_ ?_; (on_goal 1 => dsimp only [x]; clear x); (on_goal 2 => intro hx; clear_value x))
    | (extract_lets +onlyGivenNames x; change _ × State at x; refine Quiet.cut2 (s0 := s0) x ?_ ?_; (on_goal 1 => dsimp only [x]; clear x); (on_goal 2 => intro hx; clear_value x))
    | (extract_lets +onlyGivenNames x; clear_value x) | with_reducible apply State.setSession_quiet
    | with_reducible apply State.hostFail_quiet | fail_if_no_progress intros
    | fail_if_no_progress with_reducible apply Quiet.upd | dsimp only)

theorem runOrphanHoldExpiry_quiet {s0 : State} (slot : SlotIdx) (s : State) (hs : Quiet s0 s) : Quiet s0 (runOrphanHoldExpiry slot s) := by
  unfold runOrphanHoldExpiry
  repeat' (first
    | with_reducible assumption
    | (extract_lets +onlyGivenNames x; change State at x; refine Quiet.cut (s0 := s0) x ?_ ?_; (on_goal 1 => dsimp only [x]; clear x); (on_goal 2 => intro hx; clear_value x))
    | (extract_lets +onlyGivenNames x; change _ × State at x; refine Quiet.cut2 (s0 := s0) x ?_ ?_; (on_goal 1 => dsimp only [x]; clear x); (on_goal 2 => intro hx; clear_value x))
    | (extract_lets +onlyGivenNames x; clear_value x) | with_reducible apply State.releaseSlot_quiet
    | with_reducible apply State.releaseHeld_quiet | with_reducible apply State.endRequest_quiet
    | with_reducible apply Quiet.ite | fail_if_no_progress intros | dsimp only | split)

/-! ## Steps -/

theorem runJobStart_quiet {s0 : State} (p : PartIdx) (s : State) (hs : Quiet s0 s) : Quiet s0 (runJobStart p s) := by
  unfold runJobStart
  repeat' (first
    | with_reducible assumption
    | (extract_lets +onlyGivenNames x; change State at x; refine Quiet.cut (s0 := s0) x ?_ ?_; (on_goal 1 => dsimp only [x]; clear x); (on_goal 2 => intro hx; clear_value x))
    | (extract_lets +onlyGivenNames x; change _ × State at x; refine Quiet.cut2 (s0 := s0) x ?_ ?_; (on_goal 1 => dsimp only [x]; clear x); (on_goal 2 => intro hx; clear_value x))
    | (extract_lets +onlyGivenNames x; clear_value x) | with_reducible apply State.wake_quiet
    | with_reducible apply State.modPart_quiet | with_reducible apply Quiet.ite | fail_if_no_progress intros
    | fail_if_no_progress with_reducible apply Quiet.upd | (with_reducible apply Quiet.snd; with_reducible assumption)
    | dsimp only | split)

theorem runStepCut_quiet {s0 : State} (p : PartIdx) (s : State) (hs : Quiet s0 s) : Quiet s0 (runStepCut p s) := by
  unfold runStepCut
  repeat' (first
    | with_reducible assumption
    | (extract_lets +onlyGivenNames x; change State at x; refine Quiet.cut (s0 := s0) x ?_ ?_; (on_goal 1 => dsimp only [x]; clear x); (on_goal 2 => intro hx; clear_value x))
    | (extract_lets +onlyGivenNames x; change _ × State at x; refine Quiet.cut2 (s0 := s0) x ?_ ?_; (on_goal 1 => dsimp only [x]; clear x); (on_goal 2 => intro hx; clear_value x))
    | (extract_lets +onlyGivenNames x; clear_value x) | with_reducible apply State.wake_quiet
    | with_reducible apply State.compose_quiet | with_reducible apply State.modPart_quiet | with_reducible apply Quiet.ite
    | fail_if_no_progress intros | fail_if_no_progress with_reducible apply Quiet.upd | dsimp only | split)

theorem State.chosenNow_quiet {s0 : State} (s : State) (p i pos t : Nat) (final : Bool) (hs : Quiet s0 s) : Quiet s0 (State.chosenNow s p i pos t final) := by
  unfold State.chosenNow
  repeat' (first
    | with_reducible assumption
    | (extract_lets +onlyGivenNames x; change State at x; refine Quiet.cut (s0 := s0) x ?_ ?_; (on_goal 1 => dsimp only [x]; clear x); (on_goal 2 => intro hx; clear_value x))
    | (extract_lets +onlyGivenNames x; change _ × State at x; refine Quiet.cut2 (s0 := s0) x ?_ ?_; (on_goal 1 => dsimp only [x]; clear x); (on_goal 2 => intro hx; clear_value x))
    | (extract_lets +onlyGivenNames x; clear_value x) | with_reducible apply State.event_quiet
    | with_reducible apply State.modPart_quiet | with_reducible apply State.bumpPair_quiet | fail_if_no_progress intros
    | fail_if_no_progress with_reducible apply Quiet.upd | dsimp only)

theorem State.verify_quiet {s0 : State} (p i : Nat) (d : DecodeSlot) (n : Nat) (s : State) (hs : Quiet s0 s) :
    Quiet s0 (State.verify p i d n s) := by
  induction n generalizing s with
  | zero => exact hs
  | succ n ih =>
    unfold State.verify
    dsimp only
    repeat' (first | exact hs | exact ih _ (State.chosenNow_quiet _ _ _ _ _ _ hs) | split)

theorem State.firstToken_quiet {s0 : State} (s : State) (p i : Nat) (hs : Quiet s0 s) : Quiet s0 (State.firstToken s p i) := by
  unfold State.firstToken
  repeat' (first
    | with_reducible assumption
    | (extract_lets +onlyGivenNames x; change State at x; refine Quiet.cut (s0 := s0) x ?_ ?_; (on_goal 1 => dsimp only [x]; clear x); (on_goal 2 => intro hx; clear_value x))
    | (extract_lets +onlyGivenNames x; change _ × State at x; refine Quiet.cut2 (s0 := s0) x ?_ ?_; (on_goal 1 => dsimp only [x]; clear x); (on_goal 2 => intro hx; clear_value x))
    | (extract_lets +onlyGivenNames x; clear_value x) | with_reducible apply State.chosenNow_quiet | fail_if_no_progress intros
    | fail_if_no_progress with_reducible apply Quiet.upd | (with_reducible apply Quiet.snd; with_reducible assumption)
    | dsimp only | split)

theorem State.chooseFor_quiet {s0 : State} (s : State) (p i : Nat) (hs : Quiet s0 s) : Quiet s0 (State.chooseFor s p i) := by
  unfold State.chooseFor
  repeat' (first
    | with_reducible assumption | with_reducible apply State.firstToken_quiet | with_reducible apply State.verify_quiet
    | with_reducible apply Quiet.ite | fail_if_no_progress intros | fail_if_no_progress with_reducible apply Quiet.upd
    | (with_reducible apply Quiet.snd; with_reducible assumption) | split)

theorem State.poisonToken_quiet {s0 : State} (s : State) (p i : Nat) (hs : Quiet s0 s) : Quiet s0 (State.poisonToken s p i) := by
  unfold State.poisonToken
  repeat' (first
    | with_reducible assumption | with_reducible apply State.poisonRequest_quiet | with_reducible apply State.modPart_quiet
    | with_reducible apply State.setBit_quiet | fail_if_no_progress intros)

theorem State.strayList_quiet {s0 : State} (s : State) (hs : Quiet s0 s) : Quiet s0 (State.strayList s) := by
  unfold State.strayList
  repeat' (first
    | with_reducible assumption | with_reducible apply State.setBit_quiet | fail_if_no_progress intros)

theorem State.lateMark_quiet {s0 : State} (s : State) (p : Nat) (hs : Quiet s0 s) : Quiet s0 (State.lateMark s p) := by
  unfold State.lateMark
  repeat' (first
    | with_reducible assumption
    | (extract_lets +onlyGivenNames x; change State at x; refine Quiet.cut (s0 := s0) x ?_ ?_; (on_goal 1 => dsimp only [x]; clear x); (on_goal 2 => intro hx; clear_value x))
    | (extract_lets +onlyGivenNames x; change _ × State at x; refine Quiet.cut2 (s0 := s0) x ?_ ?_; (on_goal 1 => dsimp only [x]; clear x); (on_goal 2 => intro hx; clear_value x))
    | (extract_lets +onlyGivenNames x; clear_value x) | with_reducible apply State.setBit_quiet
    | with_reducible apply State.drawB_quiet | with_reducible apply Quiet.ite | fail_if_no_progress intros | dsimp only | split)

theorem State.takeList_quiet {s0 : State} (s : State) (p : Nat) (l : PartialList) (hs : Quiet s0 s) : Quiet s0 (State.takeList s p l) := by
  unfold State.takeList
  repeat' (first
    | with_reducible assumption
    | (extract_lets +onlyGivenNames x; change State at x; refine Quiet.cut (s0 := s0) x ?_ ?_; (on_goal 1 => dsimp only [x]; clear x); (on_goal 2 => intro hx; clear_value x))
    | (extract_lets +onlyGivenNames x; change _ × State at x; refine Quiet.cut2 (s0 := s0) x ?_ ?_; (on_goal 1 => dsimp only [x]; clear x); (on_goal 2 => intro hx; clear_value x))
    | (extract_lets +onlyGivenNames x; clear_value x) | with_reducible apply State.lateMark_quiet
    | with_reducible apply State.poisonToken_quiet | with_reducible apply State.chooseFor_quiet
    | with_reducible apply State.modPart_quiet | with_reducible apply Quiet.ite | fail_if_no_progress intros
    | fail_if_no_progress with_reducible apply Quiet.upd | dsimp only | split)

theorem runPartialListArrive_quiet {s0 : State} (p : PartIdx) (l : PartialList) (s : State) (hs : Quiet s0 s) : Quiet s0 (runPartialListArrive p l s) := by
  unfold runPartialListArrive
  repeat' (first
    | with_reducible assumption
    | (extract_lets +onlyGivenNames x; change State at x; refine Quiet.cut (s0 := s0) x ?_ ?_; (on_goal 1 => dsimp only [x]; clear x); (on_goal 2 => intro hx; clear_value x))
    | (extract_lets +onlyGivenNames x; change _ × State at x; refine Quiet.cut2 (s0 := s0) x ?_ ?_; (on_goal 1 => dsimp only [x]; clear x); (on_goal 2 => intro hx; clear_value x))
    | (extract_lets +onlyGivenNames x; clear_value x) | with_reducible apply State.takeList_quiet
    | with_reducible apply State.strayList_quiet | with_reducible apply Quiet.ite | fail_if_no_progress intros | dsimp only
    | split)

theorem State.stampFlip_quiet {s0 : State} (s : State) (p : Nat) (hs : Quiet s0 s) : Quiet s0 (State.stampFlip s p) := by
  unfold State.stampFlip
  repeat' (first
    | with_reducible assumption
    | (extract_lets +onlyGivenNames x; change State at x; refine Quiet.cut (s0 := s0) x ?_ ?_; (on_goal 1 => dsimp only [x]; clear x); (on_goal 2 => intro hx; clear_value x))
    | (extract_lets +onlyGivenNames x; change _ × State at x; refine Quiet.cut2 (s0 := s0) x ?_ ?_; (on_goal 1 => dsimp only [x]; clear x); (on_goal 2 => intro hx; clear_value x))
    | (extract_lets +onlyGivenNames x; clear_value x) | with_reducible apply State.modSlot_quiet
    | with_reducible apply State.modPart_quiet | with_reducible apply Quiet.ite | with_reducible apply Quiet.foldl
    | fail_if_no_progress intros | fail_if_no_progress with_reducible apply Quiet.upd | dsimp only | split)

theorem State.needPage_quiet {s0 : State} (s : State) (i b : Nat) (hs : Quiet s0 s) : Quiet s0 (State.needPage s i b) := by
  unfold State.needPage
  repeat' (first
    | with_reducible assumption
    | (extract_lets +onlyGivenNames x; change State at x; refine Quiet.cut (s0 := s0) x ?_ ?_; (on_goal 1 => dsimp only [x]; clear x); (on_goal 2 => intro hx; clear_value x))
    | (extract_lets +onlyGivenNames x; change _ × State at x; refine Quiet.cut2 (s0 := s0) x ?_ ?_; (on_goal 1 => dsimp only [x]; clear x); (on_goal 2 => intro hx; clear_value x))
    | (extract_lets +onlyGivenNames x; clear_value x) | (refine State.allocPage_quiet (by assumption) ?_)
    | (refine State.allocPage_quiet' (by assumption) ?_) | with_reducible apply State.modSlot_quiet
    | with_reducible apply Quiet.ite | fail_if_no_progress intros | fail_if_no_progress with_reducible apply Quiet.upd
    | (with_reducible apply Quiet.snd; with_reducible assumption) | dsimp only | split)

theorem State.stepPages_quiet {s0 : State} (s : State) (st : Step) (hs : Quiet s0 s) : Quiet s0 (State.stepPages s st) := by
  unfold State.stepPages
  repeat' (first
    | with_reducible assumption
    | (extract_lets +onlyGivenNames x; change State at x; refine Quiet.cut (s0 := s0) x ?_ ?_; (on_goal 1 => dsimp only [x]; clear x); (on_goal 2 => intro hx; clear_value x))
    | (extract_lets +onlyGivenNames x; change _ × State at x; refine Quiet.cut2 (s0 := s0) x ?_ ?_; (on_goal 1 => dsimp only [x]; clear x); (on_goal 2 => intro hx; clear_value x))
    | (extract_lets +onlyGivenNames x; clear_value x) | with_reducible apply State.needPage_quiet
    | with_reducible apply Quiet.ite | with_reducible apply Quiet.foldl | fail_if_no_progress intros
    | fail_if_no_progress with_reducible apply Quiet.upd | (with_reducible apply Quiet.snd; with_reducible assumption)
    | dsimp only | split)

theorem runStepStaging_quiet {s0 : State} (p : PartIdx) (s : State) (hs : Quiet s0 s) : Quiet s0 (runStepStaging p s) := by
  unfold runStepStaging
  repeat' (first
    | with_reducible assumption
    | (extract_lets +onlyGivenNames x; change State at x; refine Quiet.cut (s0 := s0) x ?_ ?_; (on_goal 1 => dsimp only [x]; clear x); (on_goal 2 => intro hx; clear_value x))
    | (extract_lets +onlyGivenNames x; change _ × State at x; refine Quiet.cut2 (s0 := s0) x ?_ ?_; (on_goal 1 => dsimp only [x]; clear x); (on_goal 2 => intro hx; clear_value x))
    | (extract_lets +onlyGivenNames x; clear_value x) | with_reducible apply State.stepPages_quiet
    | with_reducible apply State.stampFlip_quiet | with_reducible apply State.lowater_quiet
    | with_reducible apply State.modPart_quiet | with_reducible apply State.bumpPair_quiet | with_reducible apply Quiet.ite
    | with_reducible apply Quiet.foldl | fail_if_no_progress intros | fail_if_no_progress with_reducible apply Quiet.upd
    | (with_reducible apply Quiet.snd; with_reducible assumption) | dsimp only | split)

theorem runStagingComplete_quiet {s0 : State} (p : PartIdx) (s : State) (hs : Quiet s0 s) : Quiet s0 (runStagingComplete p s) := by
  unfold runStagingComplete
  repeat' (first
    | with_reducible assumption
    | (extract_lets +onlyGivenNames x; change State at x; refine Quiet.cut (s0 := s0) x ?_ ?_; (on_goal 1 => dsimp only [x]; clear x); (on_goal 2 => intro hx; clear_value x))
    | (extract_lets +onlyGivenNames x; change _ × State at x; refine Quiet.cut2 (s0 := s0) x ?_ ?_; (on_goal 1 => dsimp only [x]; clear x); (on_goal 2 => intro hx; clear_value x))
    | (extract_lets +onlyGivenNames x; clear_value x) | with_reducible apply State.readyCheck_quiet
    | with_reducible apply State.modPart_quiet | with_reducible apply Quiet.ite | fail_if_no_progress intros
    | fail_if_no_progress with_reducible apply Quiet.upd | (with_reducible apply Quiet.snd; with_reducible assumption)
    | dsimp only | split)

/-! ## Launch -/

theorem State.endHold_quiet {s0 : State} (s : State) (p : Nat) (hs : Quiet s0 s) : Quiet s0 (State.endHold s p) := by
  unfold State.endHold
  repeat' (first
    | with_reducible assumption
    | (extract_lets +onlyGivenNames x; change State at x; refine Quiet.cut (s0 := s0) x ?_ ?_; (on_goal 1 => dsimp only [x]; clear x); (on_goal 2 => intro hx; clear_value x))
    | (extract_lets +onlyGivenNames x; change _ × State at x; refine Quiet.cut2 (s0 := s0) x ?_ ?_; (on_goal 1 => dsimp only [x]; clear x); (on_goal 2 => intro hx; clear_value x))
    | (extract_lets +onlyGivenNames x; clear_value x) | with_reducible apply State.setFld_quiet
    | with_reducible apply Quiet.foldl | fail_if_no_progress intros | fail_if_no_progress with_reducible apply Quiet.upd
    | (with_reducible apply Quiet.snd; with_reducible assumption) | dsimp only | split)

theorem State.endHold_kept {s0 : State} (s : State) (p : Nat) (hs : Kept s0 s) : Kept s0 (State.endHold s p) :=
  (State.endHold_quiet s p (Quiet.refl _)).keeps hs

theorem State.enterStep_quiet {s0 : State} (s : State) (st : Step) (void : Nat) (hs : Quiet s0 s) : Quiet s0 (State.enterStep s st void) := by
  unfold State.enterStep
  repeat' (first
    | with_reducible assumption | with_reducible apply State.modSlot_quiet | with_reducible apply Quiet.ite
    | with_reducible apply Quiet.foldl | fail_if_no_progress intros | fail_if_no_progress with_reducible apply Quiet.upd
    | split)

theorem State.enterStep_kept {s0 : State} (s : State) (st : Step) (void : Nat) (hs : Kept s0 s) : Kept s0 (State.enterStep s st void) :=
  (State.enterStep_quiet s st void (Quiet.refl _)).keeps hs

theorem State.stepPatches_quiet {s0 : State} (s : State) (p : Nat) (st : Step) (hs : Quiet s0 s) : Quiet s0 (State.stepPatches s p st) := by
  unfold State.stepPatches
  repeat' (first
    | with_reducible assumption | with_reducible apply State.applyPatch_quiet | with_reducible apply Quiet.ite
    | with_reducible apply Quiet.foldl | fail_if_no_progress intros | fail_if_no_progress with_reducible apply Quiet.upd
    | (with_reducible apply Quiet.snd; with_reducible assumption) | split)

theorem State.stepPatches_kept {s0 : State} (s : State) (p : Nat) (st : Step) (hs : Kept s0 s) : Kept s0 (State.stepPatches s p st) :=
  (State.stepPatches_quiet s p st (Quiet.refl _)).keeps hs

theorem State.launchTile_kept {s0 : State} (s : State) (shape : Nat) (t : TileId) (hs : Kept s0 s) : Kept s0 (State.launchTile s shape t) := by
  unfold State.launchTile
  repeat' (first
    | with_reducible assumption
    | (extract_lets +onlyGivenNames x; change State at x; refine Kept.cut (s0 := s0) x ?_ ?_; (on_goal 1 => dsimp only [x]; clear x); (on_goal 2 => intro hx; clear_value x))
    | (extract_lets +onlyGivenNames x; change _ × State at x; refine Kept.cut2 (s0 := s0) x ?_ ?_; (on_goal 1 => dsimp only [x]; clear x); (on_goal 2 => intro hx; clear_value x))
    | (extract_lets +onlyGivenNames x; clear_value x) | with_reducible apply State.showInflight_kept
    | with_reducible apply State.flushAll_kept | with_reducible apply State.setTileState_kept
    | with_reducible apply State.modTile_kept | fail_if_no_progress intros | fail_if_no_progress with_reducible apply Kept.upd
    | (with_reducible apply Kept.snd; with_reducible assumption) | dsimp only | split)

theorem State.clearLandings_quiet {s0 : State} (s : State) (p : Nat) (hs : Quiet s0 s) : Quiet s0 (State.clearLandings s p) := by
  unfold State.clearLandings
  repeat' (first
    | with_reducible assumption
    | (extract_lets +onlyGivenNames x; change State at x; refine Quiet.cut (s0 := s0) x ?_ ?_; (on_goal 1 => dsimp only [x]; clear x); (on_goal 2 => intro hx; clear_value x))
    | (extract_lets +onlyGivenNames x; change _ × State at x; refine Quiet.cut2 (s0 := s0) x ?_ ?_; (on_goal 1 => dsimp only [x]; clear x); (on_goal 2 => intro hx; clear_value x))
    | (extract_lets +onlyGivenNames x; clear_value x) | with_reducible apply Quiet.ite | fail_if_no_progress intros
    | fail_if_no_progress with_reducible apply Quiet.upd | dsimp only | split)

theorem State.clearLandings_kept {s0 : State} (s : State) (p : Nat) (hs : Kept s0 s) : Kept s0 (State.clearLandings s p) :=
  (State.clearLandings_quiet s p (Quiet.refl _)).keeps hs

theorem State.launchArrays_quiet {s0 : State} (s : State) (p : Nat) (hs : Quiet s0 s) : Quiet s0 (State.launchArrays s p) := by
  unfold State.launchArrays
  repeat' (first
    | with_reducible assumption
    | (extract_lets +onlyGivenNames x; change State at x; refine Quiet.cut (s0 := s0) x ?_ ?_; (on_goal 1 => dsimp only [x]; clear x); (on_goal 2 => intro hx; clear_value x))
    | (extract_lets +onlyGivenNames x; change _ × State at x; refine Quiet.cut2 (s0 := s0) x ?_ ?_; (on_goal 1 => dsimp only [x]; clear x); (on_goal 2 => intro hx; clear_value x))
    | (extract_lets +onlyGivenNames x; clear_value x) | with_reducible apply Quiet.ite | fail_if_no_progress intros
    | fail_if_no_progress with_reducible apply Quiet.upd | dsimp only | split)

theorem State.launchArrays_kept {s0 : State} (s : State) (p : Nat) (hs : Kept s0 s) : Kept s0 (State.launchArrays s p) :=
  (State.launchArrays_quiet s p (Quiet.refl _)).keeps hs

theorem State.endRepair_quiet {s0 : State} (s : State) (p : Nat) (hs : Quiet s0 s) : Quiet s0 (State.endRepair s p) := by
  unfold State.endRepair
  repeat' (first
    | with_reducible assumption
    | (extract_lets +onlyGivenNames x; change State at x; refine Quiet.cut (s0 := s0) x ?_ ?_; (on_goal 1 => dsimp only [x]; clear x); (on_goal 2 => intro hx; clear_value x))
    | (extract_lets +onlyGivenNames x; change _ × State at x; refine Quiet.cut2 (s0 := s0) x ?_ ?_; (on_goal 1 => dsimp only [x]; clear x); (on_goal 2 => intro hx; clear_value x))
    | (extract_lets +onlyGivenNames x; clear_value x) | with_reducible apply State.modPart_quiet
    | with_reducible apply State.setFld_quiet | with_reducible apply Quiet.ite | fail_if_no_progress intros
    | fail_if_no_progress with_reducible apply Quiet.upd | dsimp only | split)

theorem State.endRepair_kept {s0 : State} (s : State) (p : Nat) (hs : Kept s0 s) : Kept s0 (State.endRepair s p) :=
  (State.endRepair_quiet s p (Quiet.refl _)).keeps hs

theorem State.stillFenced_quiet {s0 : State} (s : State) (p : Nat) (hs : Quiet s0 s) : Quiet s0 (State.stillFenced s p) := by
  unfold State.stillFenced
  repeat' (first
    | with_reducible assumption | with_reducible apply State.repairEnter_quiet | with_reducible apply Quiet.ite
    | fail_if_no_progress intros | fail_if_no_progress with_reducible apply Quiet.upd
    | (with_reducible apply Quiet.snd; with_reducible assumption) | split)

theorem State.stillFenced_kept {s0 : State} (s : State) (p : Nat) (hs : Kept s0 s) : Kept s0 (State.stillFenced s p) :=
  (State.stillFenced_quiet s p (Quiet.refl _)).keeps hs

theorem State.startStep_kept {s0 : State} (s : State) (p : Nat) (st0 : Step) (hs : Kept s0 s) : Kept s0 (State.startStep s p st0) := by
  unfold State.startStep
  repeat' (first
    | with_reducible assumption
    | (extract_lets +onlyGivenNames x; change State at x; refine Kept.cut (s0 := s0) x ?_ ?_; (on_goal 1 => dsimp only [x]; clear x); (on_goal 2 => intro hx; clear_value x))
    | (extract_lets +onlyGivenNames x; change _ × State at x; refine Kept.cut2 (s0 := s0) x ?_ ?_; (on_goal 1 => dsimp only [x]; clear x); (on_goal 2 => intro hx; clear_value x))
    | (extract_lets +onlyGivenNames x; clear_value x) | with_reducible apply State.stillFenced_kept
    | with_reducible apply State.endRepair_kept | with_reducible apply State.launchArrays_kept
    | with_reducible apply State.clearLandings_kept | with_reducible apply State.launchTile_kept
    | with_reducible apply State.stepPatches_kept | with_reducible apply State.enterStep_kept
    | with_reducible apply State.notify_kept | with_reducible apply State.sendAck_kept
    | with_reducible apply State.dropHold_kept | with_reducible apply State.loadCheck_kept
    | with_reducible apply State.stageCopies_kept | with_reducible apply State.applyMaps_kept
    | with_reducible apply State.modPart_kept | with_reducible apply State.setPart_kept | with_reducible apply Kept.foldl
    | fail_if_no_progress intros | fail_if_no_progress with_reducible apply Kept.upd | dsimp only)

theorem State.servingNow_quiet {s0 : State} (s : State) (hs : Quiet s0 s) : Quiet s0 (State.servingNow s) := by
  unfold State.servingNow
  repeat' (first
    | with_reducible assumption | with_reducible apply State.bootFld_quiet | fail_if_no_progress intros)

theorem State.servingNow_kept {s0 : State} (s : State) (hs : Kept s0 s) : Kept s0 (State.servingNow s) :=
  (State.servingNow_quiet s (Quiet.refl _)).keeps hs

theorem State.launchStep_kept {s0 : State} (s : State) (p : Nat) (hs : Kept s0 s) : Kept s0 (State.launchStep s p) := by
  unfold State.launchStep
  repeat' (first
    | with_reducible assumption
    | (extract_lets +onlyGivenNames x; change State at x; refine Kept.cut (s0 := s0) x ?_ ?_; (on_goal 1 => dsimp only [x]; clear x); (on_goal 2 => intro hx; clear_value x))
    | (extract_lets +onlyGivenNames x; change _ × State at x; refine Kept.cut2 (s0 := s0) x ?_ ?_; (on_goal 1 => dsimp only [x]; clear x); (on_goal 2 => intro hx; clear_value x))
    | (extract_lets +onlyGivenNames x; clear_value x) | with_reducible apply State.servingNow_kept
    | with_reducible apply State.startStep_kept | with_reducible apply State.endHold_kept
    | with_reducible apply State.commit_kept | with_reducible apply Kept.ite | fail_if_no_progress intros
    | fail_if_no_progress with_reducible apply Kept.upd | (with_reducible apply Kept.snd; with_reducible assumption)
    | dsimp only | split)

theorem runLaunch_kept {s0 : State} (p : PartIdx) (s : State) (hs : Kept s0 s) : Kept s0 (runLaunch p s) := by
  unfold runLaunch
  repeat' (first
    | with_reducible assumption
    | (extract_lets +onlyGivenNames x; change State at x; refine Kept.cut (s0 := s0) x ?_ ?_; (on_goal 1 => dsimp only [x]; clear x); (on_goal 2 => intro hx; clear_value x))
    | (extract_lets +onlyGivenNames x; change _ × State at x; refine Kept.cut2 (s0 := s0) x ?_ ?_; (on_goal 1 => dsimp only [x]; clear x); (on_goal 2 => intro hx; clear_value x))
    | (extract_lets +onlyGivenNames x; clear_value x) | with_reducible apply State.launchStep_kept
    | with_reducible apply State.applySymbol_kept | with_reducible apply Kept.ite | fail_if_no_progress intros
    | fail_if_no_progress with_reducible apply Kept.upd | (with_reducible apply Kept.snd; with_reducible assumption)
    | dsimp only | split)

/-! ## RegView -/

theorem State.viewSmp_quiet {s0 : State} (s : State) (hs : Quiet s0 s) : Quiet s0 (State.viewSmp s).2 := by
  unfold State.viewSmp
  repeat' (first
    | with_reducible assumption
    | (extract_lets +onlyGivenNames x; change State at x; refine Quiet.cut (s0 := s0) x ?_ ?_; (on_goal 1 => dsimp only [x]; clear x); (on_goal 2 => intro hx; clear_value x))
    | (extract_lets +onlyGivenNames x; change _ × State at x; refine Quiet.cut2 (s0 := s0) x ?_ ?_; (on_goal 1 => dsimp only [x]; clear x); (on_goal 2 => intro hx; clear_value x))
    | (extract_lets +onlyGivenNames x; clear_value x) | with_reducible apply State.draw_quiet
    | with_reducible apply Quiet.foldl | fail_if_no_progress intros | dsimp only)

theorem State.viewHif_quiet {s0 : State} (s : State) (hs : Quiet s0 s) : Quiet s0 (State.viewHif s).2 := by
  unfold State.viewHif
  repeat' (first
    | with_reducible assumption
    | (extract_lets +onlyGivenNames x; change State at x; refine Quiet.cut (s0 := s0) x ?_ ?_; (on_goal 1 => dsimp only [x]; clear x); (on_goal 2 => intro hx; clear_value x))
    | (extract_lets +onlyGivenNames x; change _ × State at x; refine Quiet.cut2 (s0 := s0) x ?_ ?_; (on_goal 1 => dsimp only [x]; clear x); (on_goal 2 => intro hx; clear_value x))
    | (extract_lets +onlyGivenNames x; clear_value x) | with_reducible apply State.draw_quiet | with_reducible apply Quiet.ite
    | with_reducible apply Quiet.ite2 | fail_if_no_progress intros | dsimp only | split)

theorem State.viewRail_quiet {s0 : State} (s : State) (d : Nat) (hs : Quiet s0 s) : Quiet s0 (State.viewRail s d).2 := by
  unfold State.viewRail
  repeat' (first
    | with_reducible assumption
    | (extract_lets +onlyGivenNames x; change State at x; refine Quiet.cut (s0 := s0) x ?_ ?_; (on_goal 1 => dsimp only [x]; clear x); (on_goal 2 => intro hx; clear_value x))
    | (extract_lets +onlyGivenNames x; change _ × State at x; refine Quiet.cut2 (s0 := s0) x ?_ ?_; (on_goal 1 => dsimp only [x]; clear x); (on_goal 2 => intro hx; clear_value x))
    | (extract_lets +onlyGivenNames x; clear_value x) | with_reducible apply State.draw_quiet | with_reducible apply Quiet.ite
    | with_reducible apply Quiet.ite2 | fail_if_no_progress intros | dsimp only | split)

theorem State.view_quiet {s0 : State} (s : State) (k : RegKey) (hs : Quiet s0 s) : Quiet s0 (State.view s k).2 := by
  unfold State.view
  repeat' (first
    | with_reducible assumption
    | (extract_lets +onlyGivenNames x; change State at x; refine Quiet.cut (s0 := s0) x ?_ ?_; (on_goal 1 => dsimp only [x]; clear x); (on_goal 2 => intro hx; clear_value x))
    | (extract_lets +onlyGivenNames x; change _ × State at x; refine Quiet.cut2 (s0 := s0) x ?_ ?_; (on_goal 1 => dsimp only [x]; clear x); (on_goal 2 => intro hx; clear_value x))
    | (extract_lets +onlyGivenNames x; clear_value x) | with_reducible apply State.viewRail_quiet
    | with_reducible apply State.viewHif_quiet | with_reducible apply State.viewSmp_quiet | with_reducible apply Quiet.ite
    | with_reducible apply Quiet.ite2 | fail_if_no_progress intros | fail_if_no_progress with_reducible apply Quiet.upd
    | (with_reducible apply Quiet.snd; with_reducible assumption) | dsimp only | split)

/-! ## Repairs -/

theorem runPoisonReportArrive_quiet {s0 : State} (p : PartIdx) (slot : SlotIdx) (step : W32) (s : State) (hs : Quiet s0 s) : Quiet s0 (runPoisonReportArrive p slot step s) := by
  unfold runPoisonReportArrive
  repeat' (first
    | with_reducible assumption
    | (extract_lets +onlyGivenNames x; change State at x; refine Quiet.cut (s0 := s0) x ?_ ?_; (on_goal 1 => dsimp only [x]; clear x); (on_goal 2 => intro hx; clear_value x))
    | (extract_lets +onlyGivenNames x; change _ × State at x; refine Quiet.cut2 (s0 := s0) x ?_ ?_; (on_goal 1 => dsimp only [x]; clear x); (on_goal 2 => intro hx; clear_value x))
    | (extract_lets +onlyGivenNames x; clear_value x) | with_reducible apply State.poisonRequest_quiet
    | with_reducible apply State.modTile_quiet | with_reducible apply Quiet.ite | fail_if_no_progress intros
    | fail_if_no_progress with_reducible apply Quiet.upd | (with_reducible apply Quiet.snd; with_reducible assumption)
    | dsimp only | split)

theorem State.repairArray_kept {s0 : State} (s : State) (p : Nat) (old : ArrayId) (spare : Nat) (hs : Kept s0 s) : Kept s0 (State.repairArray s p old spare) := by
  unfold State.repairArray
  repeat' (first
    | with_reducible assumption
    | (extract_lets +onlyGivenNames x; change State at x; refine Kept.cut (s0 := s0) x ?_ ?_; (on_goal 1 => dsimp only [x]; clear x); (on_goal 2 => intro hx; clear_value x))
    | (extract_lets +onlyGivenNames x; change _ × State at x; refine Kept.cut2 (s0 := s0) x ?_ ?_; (on_goal 1 => dsimp only [x]; clear x); (on_goal 2 => intro hx; clear_value x))
    | (extract_lets +onlyGivenNames x; clear_value x) | with_reducible apply State.submitJob_kept
    | with_reducible apply State.fetchStart_kept | with_reducible apply Kept.ite | fail_if_no_progress intros
    | fail_if_no_progress with_reducible apply Kept.upd | (with_reducible apply Kept.snd; with_reducible assumption)
    | dsimp only | split)

theorem State.repairSlice_kept {s0 : State} (s : State) (p page d j : Nat) (hs : Kept s0 s) : Kept s0 (State.repairSlice s p page d j) := by
  unfold State.repairSlice
  repeat' (first
    | with_reducible assumption | with_reducible apply State.sliceRepaired_kept | with_reducible apply State.putSlice_kept
    | with_reducible apply State.fetchStart_kept | with_reducible apply State.touch_kept | with_reducible apply Kept.ite
    | fail_if_no_progress intros | fail_if_no_progress with_reducible apply Kept.upd
    | (with_reducible apply Kept.snd; with_reducible assumption) | split)

theorem State.dropHot_quiet {s0 : State} (s : State) (p : Nat) (hs : Quiet s0 s) : Quiet s0 (State.dropHot s p) := by
  unfold State.dropHot
  repeat' (first
    | with_reducible assumption | with_reducible apply Quiet.ite | fail_if_no_progress intros
    | fail_if_no_progress with_reducible apply Quiet.upd | split)

theorem State.dropHot_kept {s0 : State} (s : State) (p : Nat) (hs : Kept s0 s) : Kept s0 (State.dropHot s p) :=
  (State.dropHot_quiet s p (Quiet.refl _)).keeps hs

theorem State.moveTile_kept {s0 : State} (s : State) (p lt pos : Nat) (t : FormTile) (hs : Kept s0 s) : Kept s0 (State.moveTile s p lt pos t) := by
  unfold State.moveTile
  repeat' (first
    | with_reducible assumption
    | (extract_lets +onlyGivenNames x; change State at x; refine Kept.cut (s0 := s0) x ?_ ?_; (on_goal 1 => dsimp only [x]; clear x); (on_goal 2 => intro hx; clear_value x))
    | (extract_lets +onlyGivenNames x; change _ × State at x; refine Kept.cut2 (s0 := s0) x ?_ ?_; (on_goal 1 => dsimp only [x]; clear x); (on_goal 2 => intro hx; clear_value x))
    | (extract_lets +onlyGivenNames x; clear_value x) | with_reducible apply State.dropHot_kept
    | with_reducible apply State.moveReady_kept | with_reducible apply State.loadPatches_kept
    | with_reducible apply State.loadWindows_kept | with_reducible apply State.loadTables_kept
    | with_reducible apply State.submitJob_kept | with_reducible apply State.setTileState_kept
    | with_reducible apply State.modPart_kept | with_reducible apply State.modTile_kept | with_reducible apply Kept.ite
    | with_reducible apply Kept.foldl | fail_if_no_progress intros | fail_if_no_progress with_reducible apply Kept.upd
    | dsimp only | split)

theorem State.repairMove_kept {s0 : State} (s : State) (p lt : Nat) (hs : Kept s0 s) : Kept s0 (State.repairMove s p lt) := by
  unfold State.repairMove
  repeat' (first
    | with_reducible assumption
    | (extract_lets +onlyGivenNames x; change State at x; refine Kept.cut (s0 := s0) x ?_ ?_; (on_goal 1 => dsimp only [x]; clear x); (on_goal 2 => intro hx; clear_value x))
    | (extract_lets +onlyGivenNames x; change _ × State at x; refine Kept.cut2 (s0 := s0) x ?_ ?_; (on_goal 1 => dsimp only [x]; clear x); (on_goal 2 => intro hx; clear_value x))
    | (extract_lets +onlyGivenNames x; clear_value x) | with_reducible apply State.moveTile_kept
    | with_reducible apply State.jobFault_kept | with_reducible apply Kept.ite | fail_if_no_progress intros
    | fail_if_no_progress with_reducible apply Kept.upd | (with_reducible apply Kept.snd; with_reducible assumption)
    | dsimp only | split)

theorem runRepairBegin_kept {s0 : State} (p : PartIdx) (k : RepairKind) (s : State) (hs : Kept s0 s) : Kept s0 (runRepairBegin p k s) := by
  unfold runRepairBegin
  repeat' (first
    | with_reducible assumption | with_reducible apply State.repairMove_kept | with_reducible apply State.repairSlice_kept
    | with_reducible apply State.repairArray_kept | with_reducible apply Kept.ite | fail_if_no_progress intros
    | fail_if_no_progress with_reducible apply Kept.upd | (with_reducible apply Kept.snd; with_reducible assumption) | split)

theorem runRepairTimeout_quiet {s0 : State} (p : PartIdx) (s : State) (hs : Quiet s0 s) : Quiet s0 (runRepairTimeout p s) := by
  unfold runRepairTimeout
  repeat' (first
    | with_reducible assumption
    | (extract_lets +onlyGivenNames x; change State at x; refine Quiet.cut (s0 := s0) x ?_ ?_; (on_goal 1 => dsimp only [x]; clear x); (on_goal 2 => intro hx; clear_value x))
    | (extract_lets +onlyGivenNames x; change _ × State at x; refine Quiet.cut2 (s0 := s0) x ?_ ?_; (on_goal 1 => dsimp only [x]; clear x); (on_goal 2 => intro hx; clear_value x))
    | (extract_lets +onlyGivenNames x; clear_value x) | with_reducible apply State.jobFault_quiet
    | with_reducible apply Quiet.ite | fail_if_no_progress intros | fail_if_no_progress with_reducible apply Quiet.upd
    | (with_reducible apply Quiet.snd; with_reducible assumption) | dsimp only | split)

theorem runFaultLogAppend_quiet {s0 : State} (d : DieIdx) (s : State) (hs : Quiet s0 s) : Quiet s0 (runFaultLogAppend d s) := by
  unfold runFaultLogAppend
  repeat' (first
    | with_reducible assumption
    | (extract_lets +onlyGivenNames x; change State at x; refine Quiet.cut (s0 := s0) x ?_ ?_; (on_goal 1 => dsimp only [x]; clear x); (on_goal 2 => intro hx; clear_value x))
    | (extract_lets +onlyGivenNames x; change _ × State at x; refine Quiet.cut2 (s0 := s0) x ?_ ?_; (on_goal 1 => dsimp only [x]; clear x); (on_goal 2 => intro hx; clear_value x))
    | (extract_lets +onlyGivenNames x; clear_value x) | with_reducible apply State.modDie_quiet
    | with_reducible apply State.bump_quiet | with_reducible apply State.setFld_quiet | with_reducible apply Quiet.ite
    | fail_if_no_progress intros | fail_if_no_progress with_reducible apply Quiet.upd
    | (with_reducible apply Quiet.snd; with_reducible assumption) | dsimp only | split)

theorem State.replaceNew_kept {s0 : State} (s : State) (p i : Nat) (a : ArrayId) (l : BoltLoad) (c : Chunk) (hs : Kept s0 s) : Kept s0 (State.replaceNew s p i a l c) := by
  unfold State.replaceNew
  repeat' (first
    | with_reducible assumption
    | (extract_lets +onlyGivenNames x; change State at x; refine Kept.cut (s0 := s0) x ?_ ?_; (on_goal 1 => dsimp only [x]; clear x); (on_goal 2 => intro hx; clear_value x))
    | (extract_lets +onlyGivenNames x; change _ × State at x; refine Kept.cut2 (s0 := s0) x ?_ ?_; (on_goal 1 => dsimp only [x]; clear x); (on_goal 2 => intro hx; clear_value x))
    | (extract_lets +onlyGivenNames x; clear_value x) | with_reducible apply State.spareExhausted_kept
    | with_reducible apply State.unstageFlip_kept | with_reducible apply State.submitJob_kept
    | with_reducible apply State.fetchStart_kept | with_reducible apply State.modPart_kept | with_reducible apply Kept.ite
    | fail_if_no_progress intros | fail_if_no_progress with_reducible apply Kept.upd
    | (with_reducible apply Kept.snd; with_reducible assumption) | dsimp only | split)

theorem State.replaceOld_kept {s0 : State} (s : State) (p : Nat) (a : ArrayId) (l : BoltLoad) (hs : Kept s0 s) : Kept s0 (State.replaceOld s p a l) := by
  unfold State.replaceOld
  repeat' (first
    | with_reducible assumption
    | (extract_lets +onlyGivenNames x; change State at x; refine Kept.cut (s0 := s0) x ?_ ?_; (on_goal 1 => dsimp only [x]; clear x); (on_goal 2 => intro hx; clear_value x))
    | (extract_lets +onlyGivenNames x; change _ × State at x; refine Kept.cut2 (s0 := s0) x ?_ ?_; (on_goal 1 => dsimp only [x]; clear x); (on_goal 2 => intro hx; clear_value x))
    | (extract_lets +onlyGivenNames x; clear_value x) | with_reducible apply State.spareExhausted_kept
    | with_reducible apply State.disarmCommit_kept | with_reducible apply State.submitJob_kept
    | with_reducible apply State.fetchStart_kept | with_reducible apply State.modPart_kept | with_reducible apply Kept.ite
    | fail_if_no_progress intros | fail_if_no_progress with_reducible apply Kept.upd
    | (with_reducible apply Kept.snd; with_reducible assumption) | dsimp only | split)

theorem runFlipFenceResponse_kept {s0 : State} (p : PartIdx) (a : ArrayId) (s : State) (hs : Kept s0 s) : Kept s0 (runFlipFenceResponse p a s) := by
  unfold runFlipFenceResponse
  repeat' (first
    | with_reducible assumption
    | (extract_lets +onlyGivenNames x; change State at x; refine Kept.cut (s0 := s0) x ?_ ?_; (on_goal 1 => dsimp only [x]; clear x); (on_goal 2 => intro hx; clear_value x))
    | (extract_lets +onlyGivenNames x; change _ × State at x; refine Kept.cut2 (s0 := s0) x ?_ ?_; (on_goal 1 => dsimp only [x]; clear x); (on_goal 2 => intro hx; clear_value x))
    | (extract_lets +onlyGivenNames x; clear_value x) | with_reducible apply State.replaceOld_kept
    | with_reducible apply State.replaceNew_kept | with_reducible apply Kept.ite | fail_if_no_progress intros
    | fail_if_no_progress with_reducible apply Kept.upd | (with_reducible apply Kept.snd; with_reducible assumption)
    | dsimp only | split)

/-! ## RegAccess -/

theorem State.ownWrite_kept {s0 : State} {s : State} {port : Port} {k : RegKey} {data : W32} {t : State} (e : State.ownWrite s port k data = some t) (hs : Kept s0 s) : Kept s0 t := by
  revert e
  unfold State.ownWrite
  repeat' (first
    | with_reducible assumption
    | (extract_lets +onlyGivenNames x; change State at x; refine Kept.cut (s0 := s0) x ?_ ?_; (on_goal 1 => dsimp only [x]; clear x); (on_goal 2 => intro hx; clear_value x))
    | (extract_lets +onlyGivenNames x; change _ × State at x; refine Kept.cut2 (s0 := s0) x ?_ ?_; (on_goal 1 => dsimp only [x]; clear x); (on_goal 2 => intro hx; clear_value x))
    | (extract_lets +onlyGivenNames x; clear_value x) | with_reducible apply runHeartbeat_kept
    | with_reducible apply runSessionOpen_kept | with_reducible apply runCqHeadWrite_kept
    | with_reducible apply runSq1TailWrite_kept | with_reducible apply runSq0TailWrite_kept
    | with_reducible apply runReqKill_kept | with_reducible apply runOwnerBurn_kept
    | with_reducible apply runOwnerHashWrite_kept | with_reducible apply runUpdateStage_kept
    | with_reducible apply runWatchdogKick_kept | with_reducible apply runReaderArm_kept
    | with_reducible apply runCounterSelectWrite_kept | with_reducible apply runFulCommitArm_kept
    | with_reducible apply runFullingJobPush_kept | with_reducible apply runThmLimitsWrite_kept
    | with_reducible apply runResetCommand_kept | with_reducible apply runSensorEntryWrite_kept
    | with_reducible apply runSensorRefSelect_kept | with_reducible apply runLasSpsrcWrite_kept
    | with_reducible apply runLaserOn_kept | with_reducible apply runLinkChannelWrite_kept
    | with_reducible apply runSkipIssue_kept | with_reducible apply runBowEmergWrite_kept
    | with_reducible apply runEmergencyForce_kept | with_reducible apply runFreezeArm_kept
    | with_reducible apply runArrBankWrite_kept | with_reducible apply runArrMapWrite_kept
    | with_reducible apply runDescriptorWrite_kept | with_reducible apply runMshBorderWrite_kept
    | with_reducible apply runMshPartWrite_kept | with_reducible apply Kept.ite
    | fail_if_no_progress with_reducible apply Kept.upd | (with_reducible apply Kept.snd; with_reducible assumption)
    | rintro ⟨⟩ | dsimp only | split)

theorem State.epochWrite_quiet {s0 : State} (s : State) (port : Port) (k : RegKey) (d : Nat) (hs : Quiet s0 s) : Quiet s0 (State.epochWrite s port k d) := by
  unfold State.epochWrite
  repeat' (first
    | with_reducible assumption
    | (extract_lets +onlyGivenNames x; change State at x; refine Quiet.cut (s0 := s0) x ?_ ?_; (on_goal 1 => dsimp only [x]; clear x); (on_goal 2 => intro hx; clear_value x))
    | (extract_lets +onlyGivenNames x; change _ × State at x; refine Quiet.cut2 (s0 := s0) x ?_ ?_; (on_goal 1 => dsimp only [x]; clear x); (on_goal 2 => intro hx; clear_value x))
    | (extract_lets +onlyGivenNames x; clear_value x) | with_reducible apply State.regWrite_quiet
    | with_reducible apply State.modPart_quiet | with_reducible apply Quiet.ite | fail_if_no_progress intros
    | fail_if_no_progress with_reducible apply Quiet.upd | dsimp only | split)

theorem State.epochWrite_kept {s0 : State} (s : State) (port : Port) (k : RegKey) (d : Nat) (hs : Kept s0 s) : Kept s0 (State.epochWrite s port k d) :=
  (State.epochWrite_quiet s port k d (Quiet.refl _)).keeps hs

theorem State.writeReg_kept {s0 : State} (s : State) (port : Port) (k : RegKey) (data : W32) (hs : Kept s0 s) : Kept s0 (State.writeReg s port k data) := by
  unfold State.writeReg
  repeat' (first
    | with_reducible assumption | with_reducible apply State.epochWrite_kept | (refine State.ownWrite_kept (by assumption) ?_)
    | with_reducible apply State.regWrite_kept | with_reducible apply Kept.ite | fail_if_no_progress intros
    | fail_if_no_progress with_reducible apply Kept.upd | (with_reducible apply Kept.snd; with_reducible assumption) | split)

theorem State.writeMem_kept {s0 : State} (s : State) (a : Nat) (data : W32) (be : BitVec 4) (hs : Kept s0 s) : Kept s0 (State.writeMem s a data be) := by
  unfold State.writeMem
  repeat' (first
    | with_reducible assumption | with_reducible apply State.setBytes_kept | with_reducible apply Kept.ite
    | with_reducible apply Kept.foldl | fail_if_no_progress intros | split)

theorem State.storeMem_kept {s0 : State} (s : State) (a : Nat) (data : W32) (be : BitVec 4) (hs : Kept s0 s) : Kept s0 (State.storeMem s a data be) := by
  unfold State.storeMem
  repeat' (first
    | with_reducible assumption | with_reducible apply State.writeMem_kept | with_reducible apply State.setBytes_kept
    | with_reducible apply Kept.ite | fail_if_no_progress intros | split)

theorem State.storeDram_kept {s0 : State} (s : State) (a : Nat) (data : W32) (be : BitVec 4) (hs : Kept s0 s) : Kept s0 (State.storeDram s a data be) := by
  unfold State.storeDram
  repeat' (first
    | with_reducible assumption | with_reducible apply State.dramPut_kept | with_reducible apply Kept.ite
    | with_reducible apply Kept.foldl | fail_if_no_progress intros | split)

theorem State.busWrite_kept {s0 : State} (s : State) (port : Port) (a : Nat) (data : W32) (be : BitVec 4) (hs : Kept s0 s) : Kept s0 (State.busWrite s port a data be) := by
  unfold State.busWrite
  repeat' (first
    | with_reducible assumption | with_reducible apply State.storeDram_kept | with_reducible apply State.storeMem_kept
    | with_reducible apply State.writeReg_kept | with_reducible apply State.protFault_kept
    | with_reducible apply State.hostDrop_kept | with_reducible apply State.addrFault_kept | with_reducible apply Kept.ite
    | fail_if_no_progress intros | fail_if_no_progress with_reducible apply Kept.upd
    | (with_reducible apply Kept.snd; with_reducible assumption) | split)

theorem runRegisterWrite_kept {s0 : State} (port : Port) (addr : DevAddr) (data : W32) (be : BitVec 4) (s : State) (hs : Kept s0 s) : Kept s0 (runRegisterWrite port addr data be s) := by
  unfold runRegisterWrite
  repeat' (first
    | with_reducible assumption
    | (extract_lets +onlyGivenNames x; change State at x; refine Kept.cut (s0 := s0) x ?_ ?_; (on_goal 1 => dsimp only [x]; clear x); (on_goal 2 => intro hx; clear_value x))
    | (extract_lets +onlyGivenNames x; change _ × State at x; refine Kept.cut2 (s0 := s0) x ?_ ?_; (on_goal 1 => dsimp only [x]; clear x); (on_goal 2 => intro hx; clear_value x))
    | (extract_lets +onlyGivenNames x; clear_value x) | with_reducible apply State.busWrite_kept
    | with_reducible apply State.linkSeen_kept | with_reducible apply Kept.ite | fail_if_no_progress intros | dsimp only
    | split)

theorem runPairHiWrite_kept {s0 : State} (port : Port) (addr : DevAddr) (data : W32) (s : State) (hs : Kept s0 s) : Kept s0 (runPairHiWrite port addr data s) := by
  unfold runPairHiWrite
  repeat' (first
    | with_reducible assumption
    | (extract_lets +onlyGivenNames x; change State at x; refine Kept.cut (s0 := s0) x ?_ ?_; (on_goal 1 => dsimp only [x]; clear x); (on_goal 2 => intro hx; clear_value x))
    | (extract_lets +onlyGivenNames x; change _ × State at x; refine Kept.cut2 (s0 := s0) x ?_ ?_; (on_goal 1 => dsimp only [x]; clear x); (on_goal 2 => intro hx; clear_value x))
    | (extract_lets +onlyGivenNames x; clear_value x) | with_reducible apply State.busWrite_kept
    | with_reducible apply State.linkSeen_kept | with_reducible apply Kept.ite | fail_if_no_progress intros | dsimp only
    | split)

theorem State.readReg_quiet {s0 : State} (s : State) (port : Port) (k : RegKey) (hs : Quiet s0 s) : Quiet s0 (State.readReg s port k) := by
  unfold State.readReg
  repeat' (first
    | with_reducible assumption
    | (extract_lets +onlyGivenNames x; change State at x; refine Quiet.cut (s0 := s0) x ?_ ?_; (on_goal 1 => dsimp only [x]; clear x); (on_goal 2 => intro hx; clear_value x))
    | (extract_lets +onlyGivenNames x; change _ × State at x; refine Quiet.cut2 (s0 := s0) x ?_ ?_; (on_goal 1 => dsimp only [x]; clear x); (on_goal 2 => intro hx; clear_value x))
    | (extract_lets +onlyGivenNames x; clear_value x) | with_reducible apply State.view_quiet
    | with_reducible apply runFulResultRead_quiet | with_reducible apply State.answer_quiet
    | with_reducible apply State.setReg_quiet | with_reducible apply Quiet.ite | fail_if_no_progress intros
    | fail_if_no_progress with_reducible apply Quiet.upd | (with_reducible apply Quiet.snd; with_reducible assumption)
    | dsimp only | split)

theorem State.busRead_quiet {s0 : State} (s : State) (port : Port) (a : Nat) (hs : Quiet s0 s) : Quiet s0 (State.busRead s port a) := by
  unfold State.busRead
  repeat' (first
    | with_reducible assumption | with_reducible apply State.readReg_quiet | with_reducible apply State.answer_quiet
    | with_reducible apply State.addrFault_quiet | fail_if_no_progress intros
    | fail_if_no_progress with_reducible apply Quiet.upd | (with_reducible apply Quiet.snd; with_reducible assumption) | split)

theorem runRcFieldRead_quiet {s0 : State} (port : Port) (addr : DevAddr) (s : State) (hs : Quiet s0 s) : Quiet s0 (runRcFieldRead port addr s) := by
  unfold runRcFieldRead
  repeat' (first
    | with_reducible assumption
    | (extract_lets +onlyGivenNames x; change State at x; refine Quiet.cut (s0 := s0) x ?_ ?_; (on_goal 1 => dsimp only [x]; clear x); (on_goal 2 => intro hx; clear_value x))
    | (extract_lets +onlyGivenNames x; change _ × State at x; refine Quiet.cut2 (s0 := s0) x ?_ ?_; (on_goal 1 => dsimp only [x]; clear x); (on_goal 2 => intro hx; clear_value x))
    | (extract_lets +onlyGivenNames x; clear_value x) | with_reducible apply State.busRead_quiet
    | with_reducible apply State.linkSeen_quiet | with_reducible apply State.answer_quiet | with_reducible apply Quiet.ite
    | fail_if_no_progress intros | dsimp only | split)

theorem runPairLoRead_quiet {s0 : State} (port : Port) (addr : DevAddr) (s : State) (hs : Quiet s0 s) : Quiet s0 (runPairLoRead port addr s) := by
  unfold runPairLoRead
  repeat' (first
    | with_reducible assumption
    | (extract_lets +onlyGivenNames x; change State at x; refine Quiet.cut (s0 := s0) x ?_ ?_; (on_goal 1 => dsimp only [x]; clear x); (on_goal 2 => intro hx; clear_value x))
    | (extract_lets +onlyGivenNames x; change _ × State at x; refine Quiet.cut2 (s0 := s0) x ?_ ?_; (on_goal 1 => dsimp only [x]; clear x); (on_goal 2 => intro hx; clear_value x))
    | (extract_lets +onlyGivenNames x; clear_value x) | with_reducible apply State.busRead_quiet
    | with_reducible apply State.linkSeen_quiet | with_reducible apply State.answer_quiet | with_reducible apply Quiet.ite
    | fail_if_no_progress intros | dsimp only | split)

end Sys2Proof.Machine
end

