-- ==== Sys2Proof/WellFormed.lean ====
section
/-!
DEFINITION. Which commands are well formed: operands within the widths and lengths that the spec gives the fields they stand
for. The types of Syntax.lean hold most bounds already; these are the others. A meaning runs on every command, well formed or
not (log 46): what is checked here is only what an event of the device can carry.
-/

namespace Sys2Proof

/-- The cycle is 18 bits (R182), the operation index 24 (R167), words and rows are those of a scratchpad (R136). -/
def OpHdr.wf (h : OpHdr) : Bool :=
  decide (h.cycle < 2 ^ 18) && decide (h.opidx < 2 ^ 24) && h.env.ecc.all (fun e => decide (e.1 < 0xC000)) &&
  h.env.collide.all (fun c => decide (c.row < 0x1800))

/-- The same words and rows, of a transfer. -/
def OpEnv.wf (e : OpEnv) : Bool :=
  e.ecc.all (fun x => decide (x.1 < 0xC000)) && e.collide.all (fun c => decide (c.row < 0x1800))

/-- One to four swatches; the accumulator exponent from −18 to +8 (R194). -/
def PassOps.wf (o : PassOps) : Bool :=
  decide (1 ≤ o.swatches.length) && decide (o.swatches.length ≤ 4) && decide (-18 ≤ o.accExp) && decide (o.accExp ≤ 8)

/-- A converter is one of 544; a group one of 0 to 31, a half of a repeated group 64 to 127, a plane one of four (R92, R102). -/
def Glitch.wf (g : Glitch) : Bool :=
  decide (g.conv < 544) && decide (g.plane < 4) && (decide (g.group < 32) || (decide (64 ≤ g.group) && decide (g.group < 128)))

/-- Deviations of both runs, columns of the array (R421), and entries of its 2,048 weight scales (R89). -/
def PassEnv.wf (e : PassEnv) : Bool :=
  e.first.all Glitch.wf && e.again.all Glitch.wf && e.residue.all (fun c => decide (c < 512)) && e.parity.all (fun i => decide (i < 2048))

/-- A cell reads away at each of the six levels (R98). -/
def FullRound.wf (r : FullRound) : Bool := r.cells.all (fun c => decide (c.dev.length = 6))

/-- A packet carries 64 to 256 bytes of payload (R158). -/
def Packet.wf (p : Packet) : Bool := decide (64 ≤ p.payload.length) && decide (p.payload.length ≤ 256)

/-- The bowstring trims of start-up are one for each die (R409). -/
def BootEnv.wf (e : BootEnv) : Bool := decide (e.trips.length ≤ 40) && decide (e.diodes.length ≤ 36)

/-- The stop tokens fill at most the 16 bytes of R364. -/
def SubmitBody.wf (b : SubmitBody) : Bool := decide (b.stops.length ≤ 4)

/-- A fragment carries at most 2,048 tokens, and fragment 0 alone the body (R364). -/
def SubmitFrag.wf (f : SubmitFrag) : Bool :=
  decide (f.tokens.length ≤ 2048) && (f.body.isSome == decide (f.frag = 0)) && (f.body.all SubmitBody.wf)

/-- At most 256 entries of 16-bit local indices; the base is 17 bits and the position 24 (R157). -/
def PartialList.wf (l : PartialList) : Bool :=
  decide (l.entries.length ≤ 256) && l.entries.all (fun e => decide (e.2 < 2 ^ 16)) && decide (l.base < 2 ^ 17) && decide (l.pos < 2 ^ 24)

/-- The transaction header's channel is 6 bits, its kind a byte, its offset and length 32 bits
and its packet count 16 (R351). -/
def LinkHdr.wf (h : LinkHdr) : Bool :=
  decide (h.channel < 64) && decide (h.kind < 256) && decide (h.offset < 2 ^ 32) && decide (h.len < 2 ^ 32) && decide (h.packets < 2 ^ 16)

/-- A packet holds 1 to 4,064 data bytes (R351). -/
def dataWf (data : List Byte) : Bool := decide (1 ≤ data.length) && decide (data.length ≤ 4064)

/-- Four wavelengths are read (R377). -/
def LaserReading.wf (r : LaserReading) : Bool := decide (r.bias.length = 4) && decide (r.power.length = 4)

/-- Whether the command is one that an event of the device can carry. -/
def Instr.wf : Instr → Bool
  | .registerWrite _ addr _ _ => decide (addr.toNat % 4 = 0)
  | .rcFieldRead _ addr => decide (addr.toNat % 4 = 0)
  | .pairLoRead _ addr => decide (addr.toNat % 4 = 0)
  | .pairHiWrite _ addr _ => decide (addr.toNat % 4 = 0)
  | .vin48Rise => true
  | .pgoodRise env => env.wf
  | .pgoodFall => true
  | .resetNAssert _ => true
  | .resetCommand _ _ => true
  | .resetNRelease env => env.wf
  | .vin48Remove => true
  | .busConverterUvlo _ => true
  | .busConverterRestart _ => true
  | .vlasOutOfRange _ => true
  | .watchdogKick _ _ => true
  | .watchdogExpiry => true
  | .componentFault _ => true
  | .componentHeartbeatStale _ => true
  | .updateStage _ _ fetched _ => decide (fetched.length ≤ 2 ^ 26)
  | .updateActivate _ _ => true
  | .updateAbort _ _ => true
  | .updateQuiescentPoint => true
  | .updateHeartbeatTimeout _ => true
  | .firmwareTrialConfirm => true
  | .startRecordTrialConfirm => true
  | .ownerHashWrite _ _ _ => true
  | .ownerBurn _ _ => true
  | .fenceMapWrite => true
  | .idle _ => true
  | .freeze => true
  | .thaw => true
  | .emergency => true
  | .launch _ => true
  | .hold _ => true
  | .skip _ _ _ => true
  | .bowSymbolUncorrectable _ _ => true
  | .bowTimeFrame _ _ => true
  | .emergencyForce _ _ => true
  | .skipIssue _ _ => true
  | .releaseIssue _ _ => true
  | .bowEmergWrite _ _ => true
  | .freezeArm _ _ => true
  | .freezeTimeReached => true
  | .thawIssue _ _ => true
  | .stepBarrier _ => true
  | .dieReady _ _ => true
  | .holdLimitExpiry _ => true
  | .leaveWindow => true
  | .ticketDrawGranted _ _ => true
  | .stewardKUpdate _ _ => true
  | .powerSkipUpdate _ _ => true
  | .thermalSkipUpdate => true
  | .normalDeclared => true
  | .overcurrentTrip _ => true
  | .railShutdown _ => true
  | .thermalTrip _ => true
  | .thmLimitsWrite _ _ _ => true
  | .sensorFastTick _ => true
  | .sensorSlowTick _ => true
  | .sensorConversion _ _ raw => decide (raw < 4096)
  | .sensorRefSelect _ _ _ => true
  | .sensorRefSettled _ => true
  | .sensorEntryWrite _ _ _ _ => true
  | .sensorLimitWrite _ _ _ _ => true
  | .arrayCalStart _ => true
  | .arrayCalComplete _ _ _ => true
  | .calQueueDispatch _ => true
  | .ringHeaterCal _ _ drive => decide (drive ≤ 1000)
  | .equaliserCal _ _ eye taps => decide (eye ≤ 100) && decide (taps.length ≤ 64)
  | .pllCountCheck _ _ => true
  | .sensorCal _ _ _ => true
  | .bowtrimCal rt => decide (rt.length = 40)
  | .glideStep _ => true
  | .pass32 h o => h.wf && o.wf
  | .pass16 h o => h.wf && o.wf
  | .nap h o => h.wf && o.wf
  | .passOutputReady _ env => env.wf
  | .tileParityError _ => true
  | .aout h dst _ _ => h.wf && decide (dst.val ≤ 28)
  | .load h _ _ => h.wf
  | .eccWriteback _ addr => decide (addr.toNat < 0x60000)
  | .store h _ _ => h.wf
  | .swload h _ _ _ _ => h.wf
  | .gather h _ _ _ width _ => h.wf && decide (width.toNat < 3)
  | .transpose h dst _ width _ => h.wf && decide (dst.val ≤ 28) && decide (width.toNat < 3)
  | .add h _ _ _ _ => h.wf
  | .sub h _ _ _ _ => h.wf
  | .mul h _ _ _ _ => h.wf
  | .fma h _ _ _ _ _ => h.wf
  | .min h _ _ _ _ => h.wf
  | .max h _ _ _ _ => h.wf
  | .abs h _ _ _ => h.wf
  | .neg h _ _ _ => h.wf
  | .cmp h _ _ _ _ _ => h.wf
  | .sel h _ _ _ _ _ => h.wf
  | .i8add h _ _ _ => h.wf
  | .i8sub h _ _ _ => h.wf
  | .i8min h _ _ _ => h.wf
  | .i8max h _ _ _ => h.wf
  | .i8dot4 h _ _ _ => h.wf
  | .cvt h _ _ _ _ => h.wf
  | .exp2 h _ _ _ => h.wf
  | .log2 h _ _ _ => h.wf
  | .rcp h _ _ _ => h.wf
  | .rsqrt h _ _ _ => h.wf
  | .rsum h _ _ _ => h.wf
  | .rdot h _ _ _ _ => h.wf
  | .rsumsq h _ _ _ => h.wf
  | .rmax h _ _ _ => h.wf
  | .rargmax h _ _ _ => h.wf
  | .bcast h _ _ _ _ => h.wf
  | .rot h _ _ _ _ => h.wf
  | .gatherr h _ _ _ _ => h.wf
  | .tagset h _ _ _ _ => h.wf
  | .quant h _ _ _ _ => h.wf
  | .nsamp h _ _ => h.wf
  | .topk h _ _ _ _ _ _ => h.wf
  | .dma h _ => h.wf
  | .waitl h _ _ => h.wf
  | .endOp h => h.wf
  | .operationWaitEnd _ _ => true
  | .meshPacketArrival _ _ p => p.wf
  | .dmaLanding _ _ env => env.wf
  | .dmaRelease _ _ => true
  | .d2dCrcRetry _ _ => true
  | .d2dLinkDown _ _ => true
  | .mshPartWrite _ _ _ => true
  | .mshBorderWrite _ _ _ => true
  | .descriptorWrite _ _ offset _ => decide (0x8000 ≤ offset.toNat) && decide (offset.toNat % 4 = 0)
  | .arrMapWrite _ _ _ _ _ => true
  | .arrBankWrite _ _ _ => true
  | .crownStreamRead _ _ offset len _ => decide (1 ≤ len) && decide (offset + len ≤ 2 ^ 35)
  | .crownAppendWrite _ _ offset data _ => decide (1 ≤ data.length) && decide (offset + data.length ≤ 2 ^ 35)
  | .crownPoolAccess _ _ addr write len _ => decide (addr.toNat + len ≤ 2 ^ 35) && write.all (fun w => decide (w.1.length = len))
  | .adapterWindowRead _ _ addr len => decide (addr.toNat + len ≤ 2 ^ 35)
  | .crownRefreshWindow _ _ => true
  | .crownPatrolScrub _ _ _ _ => true
  | .fullingJobPush _ _ _ => true
  | .fullingJobStart _ => true
  | .fullingComplete _ rounds => decide (1 ≤ rounds.length) && decide (rounds.length ≤ 8) && rounds.all FullRound.wf
  | .fullingTimeout _ => true
  | .fulResultRead _ _ => true
  | .fulCommitArm _ _ _ => true
  | .fulCommitDisarm _ _ _ => true
  | .arrayRelease _ => true
  | .maintenanceStart _ => true
  | .pounceVisit _ => true
  | .poisonReportArrive _ _ _ => true
  | .repairBegin _ _ => true
  | .repairTimeout _ => true
  | .faultLogAppend _ => true
  | .flipFenceResponse _ _ => true
  | .formLoad _ image => decide (image.length < 2 ^ 32)
  | .boltLoadRequest _ _ => true
  | .boltData _ _ _ offset total data => decide (offset + data.length ≤ total) && decide (total < 2 ^ 32)
  | .boltPieceTimeout _ _ => true
  | .jobStart _ => true
  | .adapterUnload _ _ => true
  | .submit _ _ _ f => f.wf
  | .prefixLookupComplete _ => true
  | .coldFetchComplete _ _ => true
  | .stepCut _ => true
  | .partialListArrive _ l => l.wf
  | .stepStaging _ => true
  | .stagingComplete _ => true
  | .messageRelease _ => true
  | .cancel _ _ _ _ => true
  | .reqKill _ _ => true
  | .hotPromotionComplete _ _ _ => true
  | .coldCopyComplete _ _ _ => true
  | .flitReceive _ _ _ => true
  | .linkNak _ _ _ => true
  | .retryTimeout _ _ => true
  | .laneSignalLoss _ _ => true
  | .laneRetrainTimer _ _ => true
  | .linkTrainingComplete _ _ => true
  | .identityRecord _ _ id => decide (id.link < 48)
  | .timePing _ _ _ => true
  | .timeEcho _ _ _ _ _ => true
  | .latencyMeasureTimer _ _ => true
  | .linkBarrier _ _ => true
  | .linkHold _ _ => true
  | .linkJobEnd _ _ => true
  | .linkTransferStart _ _ => true
  | .linkJobWrite _ h data _ => h.wf && dataWf data
  | .linkJobAck _ h => h.wf
  | .linkStoreWrite _ h data => h.wf && dataWf data
  | .linkStoreReadReq _ h => h.wf
  | .linkStoreReadResp _ h _ _ data => h.wf && dataWf data
  | .linkStoreRefusal _ h => h.wf
  | .linkChannelWrite _ _ _ _ => true
  | .ethFrameReceive _ _ => true
  | .arpRequest _ _ _ => true
  | .neighbourSolicitation _ _ _ => true
  | .statusRequest _ _ _ _ => true
  | .resync _ _ _ _ _ => true
  | .moduleInserted _ eeprom => decide (eeprom.length = 8192)
  | .presenceDebounced _ => true
  | .laserOutputReached _ => true
  | .laserLocked _ => true
  | .moduleRemoved _ => true
  | .laserMonitorPoll _ r => r.wf
  | .laserHourTick _ => true
  | .laserOff _ _ _ => true
  | .laserOn _ _ _ => true
  | .lasSpsrcWrite _ _ _ => true
  | .endpointReset _ => true
  | .bar2OutOfRange _ _ => true
  | .sq0TailWrite _ _ => true
  | .sq1TailWrite _ _ => true
  | .hostSubmit _ => true
  | .hostSubmitBody _ body tokens => body.wf && decide (tokens.length < 2 ^ 24)
  | .hostCancel _ => true
  | .hostStatus _ => true
  | .hostResume _ => true
  | .hostBoltData e data => decide (data.length = e.len.toNat)
  | .cqEntryWrite => true
  | .cqHeadWrite _ _ => true
  | .statusBlockWrite => true
  | .sessionOpen _ _ => true
  | .sessionClose _ _ => true
  | .heartbeat _ _ => true
  | .heartbeatStale => true
  | .hostAccessError _ _ => true
  | .orphanHoldExpiry _ => true
  | .counterSelectWrite _ addr _ => decide (addr.toNat % 4 = 0)
  | .counterWrap addr _ _ => decide (addr.toNat % 4 = 0)
  | .readerArm _ _ => true
  | .readerDone => true
  | .laneTrainingTimeout _ _ => true
  | .overcurrentComparatorClear _ => true
  | .vlasInRange _ => true
  | .pllRecalibration _ => true
  | .operatorEndsJob _ => true

end Sys2Proof
end

