-- ==== Sys2Proof/Laws/PerInstr.lean ====
section
/-!
SUPPORT. Per command, as syntax: a well-formed command carries less data from outside than a 32-bit length field can count. The accesses
to a Crown die carry no length field and count as carrying nothing here.
-/

set_option Elab.async false

namespace Sys2Proof.Laws.Carried

/-- The bytes that a command brings into the device. -/
def bytes : Instr → Nat
  | .updateStage _ _ fetched _ => fetched.length
  | .meshPacketArrival _ _ p => p.payload.length
  | .formLoad _ image => image.length
  | .boltData _ _ _ _ _ data => data.length
  | .submit _ _ _ f => 4 * f.tokens.length
  | .partialListArrive _ l => 4 * l.entries.length
  | .linkJobWrite _ _ data _ => data.length
  | .linkStoreWrite _ _ data => data.length
  | .linkStoreReadResp _ _ _ _ data => data.length
  | .moduleInserted _ eeprom => eeprom.length
  | .hostSubmitBody _ _ tokens => 4 * tokens.length
  | .hostBoltData _ data => data.length
  | _ => 0

/-- A well-formed command carries fewer than 2³² bytes. -/
def Statement (i : Instr) : Prop := i.wf = true → bytes i < 2 ^ 32

theorem registerWrite (port : Port) (addr : DevAddr) (data : W32) (be : BitVec 4) : Statement (.registerWrite port addr data be) :=
  fun _ => (by decide : 0 < 2 ^ 32)

theorem rcFieldRead (port : Port) (addr : DevAddr) : Statement (.rcFieldRead port addr) :=
  fun _ => (by decide : 0 < 2 ^ 32)

theorem pairLoRead (port : Port) (addr : DevAddr) : Statement (.pairLoRead port addr) :=
  fun _ => (by decide : 0 < 2 ^ 32)

theorem pairHiWrite (port : Port) (addr : DevAddr) (data : W32) : Statement (.pairHiWrite port addr data) :=
  fun _ => (by decide : 0 < 2 ^ 32)

theorem vin48Rise : Statement .vin48Rise :=
  fun _ => (by decide : 0 < 2 ^ 32)

theorem pgoodRise (env : BootEnv) : Statement (.pgoodRise env) :=
  fun _ => (by decide : 0 < 2 ^ 32)

theorem pgoodFall : Statement .pgoodFall :=
  fun _ => (by decide : 0 < 2 ^ 32)

theorem resetNAssert (ns : Nat) : Statement (.resetNAssert ns) :=
  fun _ => (by decide : 0 < 2 ^ 32)

theorem resetCommand (port : Port) (data : W32) : Statement (.resetCommand port data) :=
  fun _ => (by decide : 0 < 2 ^ 32)

theorem resetNRelease (env : BootEnv) : Statement (.resetNRelease env) :=
  fun _ => (by decide : 0 < 2 ^ 32)

theorem vin48Remove : Statement .vin48Remove :=
  fun _ => (by decide : 0 < 2 ^ 32)

theorem busConverterUvlo (c : Fin 20) : Statement (.busConverterUvlo c) :=
  fun _ => (by decide : 0 < 2 ^ 32)

theorem busConverterRestart (c : Fin 20) : Statement (.busConverterRestart c) :=
  fun _ => (by decide : 0 < 2 ^ 32)

theorem vlasOutOfRange (b : BrimDie) : Statement (.vlasOutOfRange b) :=
  fun _ => (by decide : 0 < 2 ^ 32)

theorem watchdogKick (port : Port) (data : W32) : Statement (.watchdogKick port data) :=
  fun _ => (by decide : 0 < 2 ^ 32)

theorem watchdogExpiry : Statement .watchdogExpiry :=
  fun _ => (by decide : 0 < 2 ^ 32)

theorem componentFault (c : Component) : Statement (.componentFault c) :=
  fun _ => (by decide : 0 < 2 ^ 32)

theorem componentHeartbeatStale (c : Component) : Statement (.componentHeartbeatStale c) :=
  fun _ => (by decide : 0 < 2 ^ 32)

theorem updateStage (port : Port) (data : W32) (fetched : List Byte) (writeOk : Bool) : Statement (.updateStage port data fetched writeOk) := by
  simp only [Statement, Instr.wf, bytes, decide_eq_true_eq]
  omega

theorem updateActivate (port : Port) (data : W32) : Statement (.updateActivate port data) :=
  fun _ => (by decide : 0 < 2 ^ 32)

theorem updateAbort (port : Port) (data : W32) : Statement (.updateAbort port data) :=
  fun _ => (by decide : 0 < 2 ^ 32)

theorem updateQuiescentPoint : Statement .updateQuiescentPoint :=
  fun _ => (by decide : 0 < 2 ^ 32)

theorem updateHeartbeatTimeout (c : Component) : Statement (.updateHeartbeatTimeout c) :=
  fun _ => (by decide : 0 < 2 ^ 32)

theorem firmwareTrialConfirm : Statement .firmwareTrialConfirm :=
  fun _ => (by decide : 0 < 2 ^ 32)

theorem startRecordTrialConfirm : Statement .startRecordTrialConfirm :=
  fun _ => (by decide : 0 < 2 ^ 32)

theorem ownerHashWrite (port : Port) (k : Fin 12) (data : W32) : Statement (.ownerHashWrite port k data) :=
  fun _ => (by decide : 0 < 2 ^ 32)

theorem ownerBurn (port : Port) (data : W32) : Statement (.ownerBurn port data) :=
  fun _ => (by decide : 0 < 2 ^ 32)

theorem fenceMapWrite : Statement .fenceMapWrite :=
  fun _ => (by decide : 0 < 2 ^ 32)

theorem idle (corrected : Option DieIdx) : Statement (.idle corrected) :=
  fun _ => (by decide : 0 < 2 ^ 32)

theorem freeze : Statement .freeze :=
  fun _ => (by decide : 0 < 2 ^ 32)

theorem thaw : Statement .thaw :=
  fun _ => (by decide : 0 < 2 ^ 32)

theorem emergency : Statement .emergency :=
  fun _ => (by decide : 0 < 2 ^ 32)

theorem launch (p : PartIdx) : Statement (.launch p) :=
  fun _ => (by decide : 0 < 2 ^ 32)

theorem hold (p : PartIdx) : Statement (.hold p) :=
  fun _ => (by decide : 0 < 2 ^ 32)

theorem skip (release : Bool) (div : BitVec 2) (m : BitVec 4) : Statement (.skip release div m) :=
  fun _ => (by decide : 0 < 2 ^ 32)

theorem bowSymbolUncorrectable (d : DieIdx) (symbol : BitVec 26) : Statement (.bowSymbolUncorrectable d symbol) :=
  fun _ => (by decide : 0 < 2 ^ 32)

theorem bowTimeFrame (d : DieIdx) (frame : W64) : Statement (.bowTimeFrame d frame) :=
  fun _ => (by decide : 0 < 2 ^ 32)

theorem emergencyForce (port : Port) (data : W32) : Statement (.emergencyForce port data) :=
  fun _ => (by decide : 0 < 2 ^ 32)

theorem skipIssue (port : Port) (data : W32) : Statement (.skipIssue port data) :=
  fun _ => (by decide : 0 < 2 ^ 32)

theorem releaseIssue (port : Port) (data : W32) : Statement (.releaseIssue port data) :=
  fun _ => (by decide : 0 < 2 ^ 32)

theorem bowEmergWrite (port : Port) (data : W32) : Statement (.bowEmergWrite port data) :=
  fun _ => (by decide : 0 < 2 ^ 32)

theorem freezeArm (port : Port) (data : W32) : Statement (.freezeArm port data) :=
  fun _ => (by decide : 0 < 2 ^ 32)

theorem freezeTimeReached : Statement .freezeTimeReached :=
  fun _ => (by decide : 0 < 2 ^ 32)

theorem thawIssue (port : Port) (data : W32) : Statement (.thawIssue port data) :=
  fun _ => (by decide : 0 < 2 ^ 32)

theorem stepBarrier (p : PartIdx) : Statement (.stepBarrier p) :=
  fun _ => (by decide : 0 < 2 ^ 32)

theorem dieReady (p : PartIdx) (u : ReadyUnit) : Statement (.dieReady p u) :=
  fun _ => (by decide : 0 < 2 ^ 32)

theorem holdLimitExpiry (p : PartIdx) : Statement (.holdLimitExpiry p) :=
  fun _ => (by decide : 0 < 2 ^ 32)

theorem leaveWindow : Statement .leaveWindow :=
  fun _ => (by decide : 0 < 2 ^ 32)

theorem ticketDrawGranted (t : TileId) (cycles : Nat) : Statement (.ticketDrawGranted t cycles) :=
  fun _ => (by decide : 0 < 2 ^ 32)

theorem stewardKUpdate (unitW : List Nat) (edgeW : Nat) : Statement (.stewardKUpdate unitW edgeW) :=
  fun _ => (by decide : 0 < 2 ^ 32)

theorem powerSkipUpdate (inputW : Nat) (vin : Nat) : Statement (.powerSkipUpdate inputW vin) :=
  fun _ => (by decide : 0 < 2 ^ 32)

theorem thermalSkipUpdate : Statement .thermalSkipUpdate :=
  fun _ => (by decide : 0 < 2 ^ 32)

theorem normalDeclared : Statement .normalDeclared :=
  fun _ => (by decide : 0 < 2 ^ 32)

theorem overcurrentTrip (r : Rail) : Statement (.overcurrentTrip r) :=
  fun _ => (by decide : 0 < 2 ^ 32)

theorem railShutdown (r : Rail) : Statement (.railShutdown r) :=
  fun _ => (by decide : 0 < 2 ^ 32)

theorem thermalTrip (d : DieIdx) : Statement (.thermalTrip d) :=
  fun _ => (by decide : 0 < 2 ^ 32)

theorem thmLimitsWrite (port : Port) (b : BrimDie) (data : W32) : Statement (.thmLimitsWrite port b data) :=
  fun _ => (by decide : 0 < 2 ^ 32)

theorem sensorFastTick (b : BrimDie) : Statement (.sensorFastTick b) :=
  fun _ => (by decide : 0 < 2 ^ 32)

theorem sensorSlowTick (b : BrimDie) : Statement (.sensorSlowTick b) :=
  fun _ => (by decide : 0 < 2 ^ 32)

theorem sensorConversion (b : BrimDie) (e : Fin 16) (raw : Nat) : Statement (.sensorConversion b e raw) :=
  fun _ => (by decide : 0 < 2 ^ 32)

theorem sensorRefSelect (port : Port) (b : BrimDie) (data : W32) : Statement (.sensorRefSelect port b data) :=
  fun _ => (by decide : 0 < 2 ^ 32)

theorem sensorRefSettled (b : BrimDie) : Statement (.sensorRefSettled b) :=
  fun _ => (by decide : 0 < 2 ^ 32)

theorem sensorEntryWrite (port : Port) (b : BrimDie) (t : SnsTarget) (data : W32) : Statement (.sensorEntryWrite port b t data) :=
  fun _ => (by decide : 0 < 2 ^ 32)

theorem sensorLimitWrite (port : Port) (b : BrimDie) (e : Fin 16) (data : W32) : Statement (.sensorLimitWrite port b e data) :=
  fun _ => (by decide : 0 < 2 ^ 32)

theorem arrayCalStart (a : ArrayId) : Statement (.arrayCalStart a) :=
  fun _ => (by decide : 0 < 2 ^ 32)

theorem arrayCalComplete (a : ArrayId) (m : ArrayCalMeasure) (refull : Bool) : Statement (.arrayCalComplete a m refull) :=
  fun _ => (by decide : 0 < 2 ^ 32)

theorem calQueueDispatch (d : BodyDie) : Statement (.calQueueDispatch d) :=
  fun _ => (by decide : 0 < 2 ^ 32)

theorem ringHeaterCal (l : LinkIdx) (n : LaneIdx) (drive : Nat) : Statement (.ringHeaterCal l n drive) :=
  fun _ => (by decide : 0 < 2 ^ 32)

theorem equaliserCal (l : LinkIdx) (n : LaneIdx) (eye : Nat) (taps : List Nat) : Statement (.equaliserCal l n eye taps) :=
  fun _ => (by decide : 0 < 2 ^ 32)

theorem pllCountCheck (pll : Pll) (count : Nat) : Statement (.pllCountCheck pll count) :=
  fun _ => (by decide : 0 < 2 ^ 32)

theorem sensorCal (b : BrimDie) (rawOffset : Int) (rawGain : Int) : Statement (.sensorCal b rawOffset rawGain) :=
  fun _ => (by decide : 0 < 2 ^ 32)

theorem bowtrimCal (rt : List Nat) : Statement (.bowtrimCal rt) :=
  fun _ => (by decide : 0 < 2 ^ 32)

theorem glideStep (u : CalUnit) : Statement (.glideStep u) :=
  fun _ => (by decide : 0 < 2 ^ 32)

theorem pass32 (h : OpHdr) (o : PassOps) : Statement (.pass32 h o) :=
  fun _ => (by decide : 0 < 2 ^ 32)

theorem pass16 (h : OpHdr) (o : PassOps) : Statement (.pass16 h o) :=
  fun _ => (by decide : 0 < 2 ^ 32)

theorem nap (h : OpHdr) (o : PassOps) : Statement (.nap h o) :=
  fun _ => (by decide : 0 < 2 ^ 32)

theorem passOutputReady (a : ArrayId) (env : PassEnv) : Statement (.passOutputReady a env) :=
  fun _ => (by decide : 0 < 2 ^ 32)

theorem tileParityError (t : TileId) : Statement (.tileParityError t) :=
  fun _ => (by decide : 0 < 2 ^ 32)

theorem aout (h : OpHdr) (dst : VReg) (larray : Fin 64) (fmt : VFmt) : Statement (.aout h dst larray fmt) :=
  fun _ => (by decide : 0 < 2 ^ 32)

theorem load (h : OpHdr) (dst : VReg) (addr : BitVec 19) : Statement (.load h dst addr) :=
  fun _ => (by decide : 0 < 2 ^ 32)

theorem eccWriteback (t : TileId) (addr : BitVec 19) : Statement (.eccWriteback t addr) :=
  fun _ => (by decide : 0 < 2 ^ 32)

theorem store (h : OpHdr) (src : VReg) (addr : BitVec 19) : Statement (.store h src addr) :=
  fun _ => (by decide : 0 < 2 ^ 32)

theorem swload (h : OpHdr) (dst : VReg) (addr : BitVec 19) (layer : Fin 256) (fmt : VFmt) : Statement (.swload h dst addr layer fmt) :=
  fun _ => (by decide : 0 < 2 ^ 32)

theorem gather (h : OpHdr) (dst : VReg) (addr : BitVec 19) (n1 : Fin 256) (width : BitVec 2) (stride : BitVec 16) : Statement (.gather h dst addr n1 width stride) :=
  fun _ => (by decide : 0 < 2 ^ 32)

theorem transpose (h : OpHdr) (dst : VReg) (addr : BitVec 19) (width : BitVec 2) (stride : BitVec 16) : Statement (.transpose h dst addr width stride) :=
  fun _ => (by decide : 0 < 2 ^ 32)

theorem add (h : OpHdr) (dst : VReg) (a : VReg) (b : VReg) (fmt : VFmt) : Statement (.add h dst a b fmt) :=
  fun _ => (by decide : 0 < 2 ^ 32)

theorem sub (h : OpHdr) (dst : VReg) (a : VReg) (b : VReg) (fmt : VFmt) : Statement (.sub h dst a b fmt) :=
  fun _ => (by decide : 0 < 2 ^ 32)

theorem mul (h : OpHdr) (dst : VReg) (a : VReg) (b : VReg) (fmt : VFmt) : Statement (.mul h dst a b fmt) :=
  fun _ => (by decide : 0 < 2 ^ 32)

theorem fma (h : OpHdr) (dst : VReg) (a : VReg) (b : VReg) (c : VReg) (fmt : VFmt) : Statement (.fma h dst a b c fmt) :=
  fun _ => (by decide : 0 < 2 ^ 32)

theorem min (h : OpHdr) (dst : VReg) (a : VReg) (b : VReg) (fmt : VFmt) : Statement (.min h dst a b fmt) :=
  fun _ => (by decide : 0 < 2 ^ 32)

theorem max (h : OpHdr) (dst : VReg) (a : VReg) (b : VReg) (fmt : VFmt) : Statement (.max h dst a b fmt) :=
  fun _ => (by decide : 0 < 2 ^ 32)

theorem abs (h : OpHdr) (dst : VReg) (a : VReg) (fmt : VFmt) : Statement (.abs h dst a fmt) :=
  fun _ => (by decide : 0 < 2 ^ 32)

theorem neg (h : OpHdr) (dst : VReg) (a : VReg) (fmt : VFmt) : Statement (.neg h dst a fmt) :=
  fun _ => (by decide : 0 < 2 ^ 32)

theorem cmp (h : OpHdr) (dst : VReg) (a : VReg) (b : VReg) (fmt : VFmt) (pred : CmpPred) : Statement (.cmp h dst a b fmt pred) :=
  fun _ => (by decide : 0 < 2 ^ 32)

theorem sel (h : OpHdr) (dst : VReg) (a : VReg) (b : VReg) (c : VReg) (fmt : VFmt) : Statement (.sel h dst a b c fmt) :=
  fun _ => (by decide : 0 < 2 ^ 32)

theorem i8add (h : OpHdr) (dst : VReg) (a : VReg) (b : VReg) : Statement (.i8add h dst a b) :=
  fun _ => (by decide : 0 < 2 ^ 32)

theorem i8sub (h : OpHdr) (dst : VReg) (a : VReg) (b : VReg) : Statement (.i8sub h dst a b) :=
  fun _ => (by decide : 0 < 2 ^ 32)

theorem i8min (h : OpHdr) (dst : VReg) (a : VReg) (b : VReg) : Statement (.i8min h dst a b) :=
  fun _ => (by decide : 0 < 2 ^ 32)

theorem i8max (h : OpHdr) (dst : VReg) (a : VReg) (b : VReg) : Statement (.i8max h dst a b) :=
  fun _ => (by decide : 0 < 2 ^ 32)

theorem i8dot4 (h : OpHdr) (dst : VReg) (a : VReg) (b : VReg) : Statement (.i8dot4 h dst a b) :=
  fun _ => (by decide : 0 < 2 ^ 32)

theorem cvt (h : OpHdr) (dst : VReg) (a : VReg) (src : VFmt) (tgt : VFmt) : Statement (.cvt h dst a src tgt) :=
  fun _ => (by decide : 0 < 2 ^ 32)

theorem exp2 (h : OpHdr) (dst : VReg) (a : VReg) (fmt : VFmt) : Statement (.exp2 h dst a fmt) :=
  fun _ => (by decide : 0 < 2 ^ 32)

theorem log2 (h : OpHdr) (dst : VReg) (a : VReg) (fmt : VFmt) : Statement (.log2 h dst a fmt) :=
  fun _ => (by decide : 0 < 2 ^ 32)

theorem rcp (h : OpHdr) (dst : VReg) (a : VReg) (fmt : VFmt) : Statement (.rcp h dst a fmt) :=
  fun _ => (by decide : 0 < 2 ^ 32)

theorem rsqrt (h : OpHdr) (dst : VReg) (a : VReg) (fmt : VFmt) : Statement (.rsqrt h dst a fmt) :=
  fun _ => (by decide : 0 < 2 ^ 32)

theorem rsum (h : OpHdr) (dst : VReg) (a : VReg) (fmt : VFmt) : Statement (.rsum h dst a fmt) :=
  fun _ => (by decide : 0 < 2 ^ 32)

theorem rdot (h : OpHdr) (dst : VReg) (a : VReg) (b : VReg) (fmt : VFmt) : Statement (.rdot h dst a b fmt) :=
  fun _ => (by decide : 0 < 2 ^ 32)

theorem rsumsq (h : OpHdr) (dst : VReg) (a : VReg) (fmt : VFmt) : Statement (.rsumsq h dst a fmt) :=
  fun _ => (by decide : 0 < 2 ^ 32)

theorem rmax (h : OpHdr) (dst : VReg) (a : VReg) (fmt : VFmt) : Statement (.rmax h dst a fmt) :=
  fun _ => (by decide : 0 < 2 ^ 32)

theorem rargmax (h : OpHdr) (dst : VReg) (a : VReg) (fmt : VFmt) : Statement (.rargmax h dst a fmt) :=
  fun _ => (by decide : 0 < 2 ^ 32)

theorem bcast (h : OpHdr) (dst : VReg) (a : VReg) (fmt : VFmt) (elem : BitVec 16) : Statement (.bcast h dst a fmt elem) :=
  fun _ => (by decide : 0 < 2 ^ 32)

theorem rot (h : OpHdr) (dst : VReg) (a : VReg) (fmt : VFmt) (lanes : BitVec 16) : Statement (.rot h dst a fmt lanes) :=
  fun _ => (by decide : 0 < 2 ^ 32)

theorem gatherr (h : OpHdr) (dst : VReg) (a : VReg) (b : VReg) (fmt : VFmt) : Statement (.gatherr h dst a b fmt) :=
  fun _ => (by decide : 0 < 2 ^ 32)

theorem tagset (h : OpHdr) (dst : VReg) (slot : SlotIdx) (wgen : Byte) (pos : BitVec 24) : Statement (.tagset h dst slot wgen pos) :=
  fun _ => (by decide : 0 < 2 ^ 32)

theorem quant (h : OpHdr) (src : VReg) (addr : BitVec 19) (layer : Fin 256) (fmt : VFmt) : Statement (.quant h src addr layer fmt) :=
  fun _ => (by decide : 0 < 2 ^ 32)

theorem nsamp (h : OpHdr) (addr : BitVec 19) (window : Fin 8) : Statement (.nsamp h addr window) :=
  fun _ => (by decide : 0 < 2 ^ 32)

theorem topk (h : OpHdr) (src : VReg) (inp : BitVec 19) (n1 : Fin 8192) (out : BitVec 19) (k1 : Fin 256) (base : BitVec 17) : Statement (.topk h src inp n1 out k1 base) :=
  fun _ => (by decide : 0 < 2 ^ 32)

theorem dma (h : OpHdr) (desc : Fin 1024) : Statement (.dma h desc) :=
  fun _ => (by decide : 0 < 2 ^ 32)

theorem waitl (h : OpHdr) (counter : Fin 32) (target : BitVec 16) : Statement (.waitl h counter target) :=
  fun _ => (by decide : 0 < 2 ^ 32)

theorem endOp (h : OpHdr) : Statement (.endOp h) :=
  fun _ => (by decide : 0 < 2 ^ 32)

theorem operationWaitEnd (t : TileId) (cycles : Nat) : Statement (.operationWaitEnd t cycles) :=
  fun _ => (by decide : 0 < 2 ^ 32)

theorem meshPacketArrival (d : BodyDie) (region : Fin 512) (p : Packet) : Statement (.meshPacketArrival d region p) := by
  simp only [Statement, Instr.wf, bytes, Packet.wf, Bool.and_eq_true, decide_eq_true_eq]
  omega

theorem dmaLanding (t : TileId) (xfer : Nat) (env : OpEnv) : Statement (.dmaLanding t xfer env) :=
  fun _ => (by decide : 0 < 2 ^ 32)

theorem dmaRelease (t : TileId) (xfer : Nat) : Statement (.dmaRelease t xfer) :=
  fun _ => (by decide : 0 < 2 ^ 32)

theorem d2dCrcRetry (d : DieIdx) (edge : Fin 4) : Statement (.d2dCrcRetry d edge) :=
  fun _ => (by decide : 0 < 2 ^ 32)

theorem d2dLinkDown (d : DieIdx) (edge : Fin 4) : Statement (.d2dLinkDown d edge) :=
  fun _ => (by decide : 0 < 2 ^ 32)

theorem mshPartWrite (port : Port) (d : BodyDie) (data : W32) : Statement (.mshPartWrite port d data) :=
  fun _ => (by decide : 0 < 2 ^ 32)

theorem mshBorderWrite (port : Port) (d : BodyDie) (data : W32) : Statement (.mshBorderWrite port d data) :=
  fun _ => (by decide : 0 < 2 ^ 32)

theorem descriptorWrite (port : Port) (t : TileId) (offset : BitVec 16) (data : W32) : Statement (.descriptorWrite port t offset data) :=
  fun _ => (by decide : 0 < 2 ^ 32)

theorem arrMapWrite (port : Port) (t : TileId) (bank : Bool) (n : Fin 64) (data : W32) : Statement (.arrMapWrite port t bank n data) :=
  fun _ => (by decide : 0 < 2 ^ 32)

theorem arrBankWrite (port : Port) (t : TileId) (data : W32) : Statement (.arrBankWrite port t data) :=
  fun _ => (by decide : 0 < 2 ^ 32)

theorem crownStreamRead (c : CrownDie) (src : TileId) (offset : Nat) (len : Nat) (ecc : LineEcc) : Statement (.crownStreamRead c src offset len ecc) :=
  fun _ => (by decide : 0 < 2 ^ 32)

theorem crownAppendWrite (c : CrownDie) (src : TileId) (offset : Nat) (data : List Byte) (poison : Bool) : Statement (.crownAppendWrite c src offset data poison) :=
  fun _ => (by decide : 0 < 2 ^ 32)

theorem crownPoolAccess (c : CrownDie) (src : TileId) (addr : BitVec 35) (write : Option (List Byte × Bool)) (len : Nat) (ecc : LineEcc) : Statement (.crownPoolAccess c src addr write len ecc) :=
  fun _ => (by decide : 0 < 2 ^ 32)

theorem adapterWindowRead (c : CrownDie) (src : TileId) (addr : BitVec 35) (len : Nat) : Statement (.adapterWindowRead c src addr len) :=
  fun _ => (by decide : 0 < 2 ^ 32)

theorem crownRefreshWindow (c : CrownDie) (granule : Fin 32) : Statement (.crownRefreshWindow c granule) :=
  fun _ => (by decide : 0 < 2 ^ 32)

theorem crownPatrolScrub (c : CrownDie) (line : BitVec 29) (corrected uncorrectable : Bool) : Statement (.crownPatrolScrub c line corrected uncorrectable) :=
  fun _ => (by decide : 0 < 2 ^ 32)

theorem fullingJobPush (port : Port) (d : BodyDie) (data : W32) : Statement (.fullingJobPush port d data) :=
  fun _ => (by decide : 0 < 2 ^ 32)

theorem fullingJobStart (d : BodyDie) : Statement (.fullingJobStart d) :=
  fun _ => (by decide : 0 < 2 ^ 32)

theorem fullingComplete (a : ArrayId) (rounds : List FullRound) : Statement (.fullingComplete a rounds) :=
  fun _ => (by decide : 0 < 2 ^ 32)

theorem fullingTimeout (a : ArrayId) : Statement (.fullingTimeout a) :=
  fun _ => (by decide : 0 < 2 ^ 32)

theorem fulResultRead (port : Port) (d : BodyDie) : Statement (.fulResultRead port d) :=
  fun _ => (by decide : 0 < 2 ^ 32)

theorem fulCommitArm (port : Port) (d : BodyDie) (data : W32) : Statement (.fulCommitArm port d data) :=
  fun _ => (by decide : 0 < 2 ^ 32)

theorem fulCommitDisarm (port : Port) (d : BodyDie) (data : W32) : Statement (.fulCommitDisarm port d data) :=
  fun _ => (by decide : 0 < 2 ^ 32)

theorem arrayRelease (a : ArrayId) : Statement (.arrayRelease a) :=
  fun _ => (by decide : 0 < 2 ^ 32)

theorem maintenanceStart (a : ArrayId) : Statement (.maintenanceStart a) :=
  fun _ => (by decide : 0 < 2 ^ 32)

theorem pounceVisit (findings : List (ArrayId × Finding)) : Statement (.pounceVisit findings) :=
  fun _ => (by decide : 0 < 2 ^ 32)

theorem poisonReportArrive (p : PartIdx) (slot : SlotIdx) (step : W32) : Statement (.poisonReportArrive p slot step) :=
  fun _ => (by decide : 0 < 2 ^ 32)

theorem repairBegin (p : PartIdx) (k : RepairKind) : Statement (.repairBegin p k) :=
  fun _ => (by decide : 0 < 2 ^ 32)

theorem repairTimeout (p : PartIdx) : Statement (.repairTimeout p) :=
  fun _ => (by decide : 0 < 2 ^ 32)

theorem faultLogAppend (d : DieIdx) : Statement (.faultLogAppend d) :=
  fun _ => (by decide : 0 < 2 ^ 32)

theorem flipFenceResponse (p : PartIdx) (a : ArrayId) : Statement (.flipFenceResponse p a) :=
  fun _ => (by decide : 0 < 2 ^ 32)

theorem formLoad (p : PartIdx) (image : List Byte) : Statement (.formLoad p image) := by
  simp only [Statement, Instr.wf, bytes, decide_eq_true_eq]
  omega

theorem boltLoadRequest (p : PartIdx) (boltId : W64) : Statement (.boltLoadRequest p boltId) :=
  fun _ => (by decide : 0 < 2 ^ 32)

theorem boltData (port : BrimDie) (boltId : W64) (chunk : W32) (offset : Nat) (total : Nat) (data : List Byte) : Statement (.boltData port boltId chunk offset total data) := by
  simp only [Statement, Instr.wf, bytes, Bool.and_eq_true, decide_eq_true_eq]
  omega

theorem boltPieceTimeout (p : PartIdx) (chunk : W32) : Statement (.boltPieceTimeout p chunk) :=
  fun _ => (by decide : 0 < 2 ^ 32)

theorem jobStart (p : PartIdx) : Statement (.jobStart p) :=
  fun _ => (by decide : 0 < 2 ^ 32)

theorem adapterUnload (p : PartIdx) (adapter : Fin 1024) : Statement (.adapterUnload p adapter) :=
  fun _ => (by decide : 0 < 2 ^ 32)

theorem submit (port : BrimDie) (src : PeerAddr) (hdr : OspHdr) (f : SubmitFrag) : Statement (.submit port src hdr f) := by
  simp only [Statement, Instr.wf, bytes, SubmitFrag.wf, Bool.and_eq_true, decide_eq_true_eq]
  omega

theorem prefixLookupComplete (slot : SlotIdx) : Statement (.prefixLookupComplete slot) :=
  fun _ => (by decide : 0 < 2 ^ 32)

theorem coldFetchComplete (slot : SlotIdx) (block : Nat) : Statement (.coldFetchComplete slot block) :=
  fun _ => (by decide : 0 < 2 ^ 32)

theorem stepCut (p : PartIdx) : Statement (.stepCut p) :=
  fun _ => (by decide : 0 < 2 ^ 32)

theorem partialListArrive (p : PartIdx) (l : PartialList) : Statement (.partialListArrive p l) := by
  simp only [Statement, Instr.wf, bytes, PartialList.wf, Bool.and_eq_true, decide_eq_true_eq]
  omega

theorem stepStaging (p : PartIdx) : Statement (.stepStaging p) :=
  fun _ => (by decide : 0 < 2 ^ 32)

theorem stagingComplete (p : PartIdx) : Statement (.stagingComplete p) :=
  fun _ => (by decide : 0 < 2 ^ 32)

theorem messageRelease (p : PartIdx) : Statement (.messageRelease p) :=
  fun _ => (by decide : 0 < 2 ^ 32)

theorem cancel (port : BrimDie) (src : PeerAddr) (hdr : OspHdr) (subSeq : W32) : Statement (.cancel port src hdr subSeq) :=
  fun _ => (by decide : 0 < 2 ^ 32)

theorem reqKill (port : Port) (data : W32) : Statement (.reqKill port data) :=
  fun _ => (by decide : 0 < 2 ^ 32)

theorem hotPromotionComplete (p : PartIdx) (page : Nat) (hot : Nat) : Statement (.hotPromotionComplete p page hot) :=
  fun _ => (by decide : 0 < 2 ^ 32)

theorem coldCopyComplete (p : PartIdx) (page : Nat) (coldSlot : Nat) : Statement (.coldCopyComplete p page coldSlot) :=
  fun _ => (by decide : 0 < 2 ^ 32)

theorem flitReceive (l : LinkIdx) (n : LaneIdx) (f : Flit) : Statement (.flitReceive l n f) :=
  fun _ => (by decide : 0 < 2 ^ 32)

theorem linkNak (l : LinkIdx) (n : LaneIdx) (seq : BitVec 16) : Statement (.linkNak l n seq) :=
  fun _ => (by decide : 0 < 2 ^ 32)

theorem retryTimeout (l : LinkIdx) (n : LaneIdx) : Statement (.retryTimeout l n) :=
  fun _ => (by decide : 0 < 2 ^ 32)

theorem laneSignalLoss (l : LinkIdx) (n : LaneIdx) : Statement (.laneSignalLoss l n) :=
  fun _ => (by decide : 0 < 2 ^ 32)

theorem laneRetrainTimer (l : LinkIdx) (n : LaneIdx) : Statement (.laneRetrainTimer l n) :=
  fun _ => (by decide : 0 < 2 ^ 32)

theorem linkTrainingComplete (l : LinkIdx) (n : LaneIdx) : Statement (.linkTrainingComplete l n) :=
  fun _ => (by decide : 0 < 2 ^ 32)

theorem identityRecord (l : LinkIdx) (n : LaneIdx) (id : Identity) : Statement (.identityRecord l n id) :=
  fun _ => (by decide : 0 < 2 ^ 32)

theorem timePing (l : LinkIdx) (n : LaneIdx) (value : BitVec 24) : Statement (.timePing l n value) :=
  fun _ => (by decide : 0 < 2 ^ 32)

theorem timeEcho (l : LinkIdx) (n : LaneIdx) (value : BitVec 24) (arrival : BitVec 24) (turnaround : Nat) : Statement (.timeEcho l n value arrival turnaround) :=
  fun _ => (by decide : 0 < 2 ^ 32)

theorem latencyMeasureTimer (l : LinkIdx) (n : LaneIdx) : Statement (.latencyMeasureTimer l n) :=
  fun _ => (by decide : 0 < 2 ^ 32)

theorem linkBarrier (l : LinkIdx) (arg : BitVec 24) : Statement (.linkBarrier l arg) :=
  fun _ => (by decide : 0 < 2 ^ 32)

theorem linkHold (l : LinkIdx) (arg : BitVec 24) : Statement (.linkHold l arg) :=
  fun _ => (by decide : 0 < 2 ^ 32)

theorem linkJobEnd (l : LinkIdx) (arg : BitVec 24) : Statement (.linkJobEnd l arg) :=
  fun _ => (by decide : 0 < 2 ^ 32)

theorem linkTransferStart (p : PartIdx) (xfer : Nat) : Statement (.linkTransferStart p xfer) :=
  fun _ => (by decide : 0 < 2 ^ 32)

theorem linkJobWrite (l : LinkIdx) (h : LinkHdr) (data : List Byte) (bad : List Nat) : Statement (.linkJobWrite l h data bad) := by
  simp only [Statement, Instr.wf, bytes, dataWf, Bool.and_eq_true, decide_eq_true_eq]
  omega

theorem linkJobAck (l : LinkIdx) (h : LinkHdr) : Statement (.linkJobAck l h) :=
  fun _ => (by decide : 0 < 2 ^ 32)

theorem linkStoreWrite (l : LinkIdx) (h : LinkHdr) (data : List Byte) : Statement (.linkStoreWrite l h data) := by
  simp only [Statement, Instr.wf, bytes, dataWf, Bool.and_eq_true, decide_eq_true_eq]
  omega

theorem linkStoreReadReq (l : LinkIdx) (h : LinkHdr) : Statement (.linkStoreReadReq l h) :=
  fun _ => (by decide : 0 < 2 ^ 32)

theorem linkStoreReadResp (l : LinkIdx) (h : LinkHdr) (boltId : W64) (chunk : W32) (data : List Byte) : Statement (.linkStoreReadResp l h boltId chunk data) := by
  simp only [Statement, Instr.wf, bytes, dataWf, Bool.and_eq_true, decide_eq_true_eq]
  omega

theorem linkStoreRefusal (l : LinkIdx) (h : LinkHdr) : Statement (.linkStoreRefusal l h) :=
  fun _ => (by decide : 0 < 2 ^ 32)

theorem linkChannelWrite (port : Port) (c : Fin 64) (word : Fin 3) (data : W32) : Statement (.linkChannelWrite port c word data) :=
  fun _ => (by decide : 0 < 2 ^ 32)

theorem ethFrameReceive (port : BrimDie) (f : EthFrame) : Statement (.ethFrameReceive port f) :=
  fun _ => (by decide : 0 < 2 ^ 32)

theorem arpRequest (port : BrimDie) (target : BitVec 32) (src : PeerAddr) : Statement (.arpRequest port target src) :=
  fun _ => (by decide : 0 < 2 ^ 32)

theorem neighbourSolicitation (port : BrimDie) (target : BitVec 128) (src : PeerAddr) : Statement (.neighbourSolicitation port target src) :=
  fun _ => (by decide : 0 < 2 ^ 32)

theorem statusRequest (port : BrimDie) (src : PeerAddr) (hdr : OspHdr) (subSeq : W32) : Statement (.statusRequest port src hdr subSeq) :=
  fun _ => (by decide : 0 < 2 ^ 32)

theorem resync (port : BrimDie) (src : PeerAddr) (hdr : OspHdr) (replayFrom : W32) (flags : W32) : Statement (.resync port src hdr replayFrom flags) :=
  fun _ => (by decide : 0 < 2 ^ 32)

theorem moduleInserted (m : ModuleIdx) (eeprom : List Byte) : Statement (.moduleInserted m eeprom) := by
  simp only [Statement, Instr.wf, bytes, decide_eq_true_eq]
  omega

theorem presenceDebounced (m : ModuleIdx) : Statement (.presenceDebounced m) :=
  fun _ => (by decide : 0 < 2 ^ 32)

theorem laserOutputReached (m : ModuleIdx) : Statement (.laserOutputReached m) :=
  fun _ => (by decide : 0 < 2 ^ 32)

theorem laserLocked (m : ModuleIdx) : Statement (.laserLocked m) :=
  fun _ => (by decide : 0 < 2 ^ 32)

theorem moduleRemoved (m : ModuleIdx) : Statement (.moduleRemoved m) :=
  fun _ => (by decide : 0 < 2 ^ 32)

theorem laserMonitorPoll (m : ModuleIdx) (r : LaserReading) : Statement (.laserMonitorPoll m r) :=
  fun _ => (by decide : 0 < 2 ^ 32)

theorem laserHourTick (m : ModuleIdx) : Statement (.laserHourTick m) :=
  fun _ => (by decide : 0 < 2 ^ 32)

theorem laserOff (port : Port) (m : ModuleIdx) (data : W32) : Statement (.laserOff port m data) :=
  fun _ => (by decide : 0 < 2 ^ 32)

theorem laserOn (port : Port) (m : ModuleIdx) (data : W32) : Statement (.laserOn port m data) :=
  fun _ => (by decide : 0 < 2 ^ 32)

theorem lasSpsrcWrite (port : Port) (b : BrimDie) (data : W32) : Statement (.lasSpsrcWrite port b data) :=
  fun _ => (by decide : 0 < 2 ^ 32)

theorem endpointReset (c : EndpointCause) : Statement (.endpointReset c) :=
  fun _ => (by decide : 0 < 2 ^ 32)

theorem bar2OutOfRange (offset : BitVec 30) (write : Bool) : Statement (.bar2OutOfRange offset write) :=
  fun _ => (by decide : 0 < 2 ^ 32)

theorem sq0TailWrite (port : Port) (data : W32) : Statement (.sq0TailWrite port data) :=
  fun _ => (by decide : 0 < 2 ^ 32)

theorem sq1TailWrite (port : Port) (data : W32) : Statement (.sq1TailWrite port data) :=
  fun _ => (by decide : 0 < 2 ^ 32)

theorem hostSubmit (e : SqEntry) : Statement (.hostSubmit e) :=
  fun _ => (by decide : 0 < 2 ^ 32)

theorem hostSubmitBody (seq : W32) (body : SubmitBody) (tokens : List W32) : Statement (.hostSubmitBody seq body tokens) := by
  simp only [Statement, Instr.wf, bytes, Bool.and_eq_true, decide_eq_true_eq]
  omega

theorem hostCancel (e : SqEntry) : Statement (.hostCancel e) :=
  fun _ => (by decide : 0 < 2 ^ 32)

theorem hostStatus (e : SqEntry) : Statement (.hostStatus e) :=
  fun _ => (by decide : 0 < 2 ^ 32)

theorem hostResume (e : SqEntry) : Statement (.hostResume e) :=
  fun _ => (by decide : 0 < 2 ^ 32)

theorem hostBoltData (e : SqEntry) (data : List Byte) : Statement (.hostBoltData e data) := by
  simp only [Statement, Instr.wf, bytes, decide_eq_true_eq]
  have := e.len.isLt
  omega

theorem cqEntryWrite : Statement .cqEntryWrite :=
  fun _ => (by decide : 0 < 2 ^ 32)

theorem cqHeadWrite (port : Port) (data : W32) : Statement (.cqHeadWrite port data) :=
  fun _ => (by decide : 0 < 2 ^ 32)

theorem statusBlockWrite : Statement .statusBlockWrite :=
  fun _ => (by decide : 0 < 2 ^ 32)

theorem sessionOpen (port : Port) (data : W32) : Statement (.sessionOpen port data) :=
  fun _ => (by decide : 0 < 2 ^ 32)

theorem sessionClose (port : Port) (data : W32) : Statement (.sessionClose port data) :=
  fun _ => (by decide : 0 < 2 ^ 32)

theorem heartbeat (port : Port) (data : W32) : Statement (.heartbeat port data) :=
  fun _ => (by decide : 0 < 2 ^ 32)

theorem heartbeatStale : Statement .heartbeatStale :=
  fun _ => (by decide : 0 < 2 ^ 32)

theorem hostAccessError (addr : W64) (status : Byte) : Statement (.hostAccessError addr status) :=
  fun _ => (by decide : 0 < 2 ^ 32)

theorem orphanHoldExpiry (slot : SlotIdx) : Statement (.orphanHoldExpiry slot) :=
  fun _ => (by decide : 0 < 2 ^ 32)

theorem counterSelectWrite (port : Port) (addr : DevAddr) (data : W32) : Statement (.counterSelectWrite port addr data) :=
  fun _ => (by decide : 0 < 2 ^ 32)

theorem counterWrap (addr : DevAddr) (n : Fin 8) (events : Fin 11) : Statement (.counterWrap addr n events) :=
  fun _ => (by decide : 0 < 2 ^ 32)

theorem readerArm (port : Port) (data : W32) : Statement (.readerArm port data) :=
  fun _ => (by decide : 0 < 2 ^ 32)

theorem readerDone : Statement .readerDone :=
  fun _ => (by decide : 0 < 2 ^ 32)

theorem laneTrainingTimeout (l : LinkIdx) (n : LaneIdx) : Statement (.laneTrainingTimeout l n) :=
  fun _ => (by decide : 0 < 2 ^ 32)

theorem overcurrentComparatorClear (r : Rail) : Statement (.overcurrentComparatorClear r) :=
  fun _ => (by decide : 0 < 2 ^ 32)

theorem vlasInRange (b : BrimDie) : Statement (.vlasInRange b) :=
  fun _ => (by decide : 0 < 2 ^ 32)

theorem pllRecalibration (pll : Pll) : Statement (.pllRecalibration pll) :=
  fun _ => (by decide : 0 < 2 ^ 32)

theorem operatorEndsJob (p : PartIdx) : Statement (.operatorEndsJob p) :=
  fun _ => (by decide : 0 < 2 ^ 32)

end Sys2Proof.Laws.Carried
end

