-- ==== Sys2Proof/Laws/Places.lean ====
section
/-!
SUPPORT. Frames (Safety.lean): what each shared operation of the state can change. Every lemma carries a frame through one operation,
so that the frame of a command is read off its definition from the outside in.
-/

set_option Elab.async false

namespace Sys2Proof

open Machine

variable {P : Place → Prop} {s0 s t : State}

theorem Place.same_refl (s : State) (x : Place) : x.same s s := by
  cases x <;> first | exact rfl | exact Iff.rfl | exact ⟨rfl, rfl⟩

theorem Place.same_trans {s t u : State} {x : Place} (h : x.same s t) (h' : x.same t u) : x.same s u := by
  cases x <;> first | exact Eq.trans h' h | exact Iff.trans h' h | exact ⟨h'.1.trans h.1, h'.2.trans h.2⟩

theorem OnlyIn.refl (P : Place → Prop) (s : State) : OnlyIn P s s := fun x _ => Place.same_refl s x

theorem OnlyIn.trans {s t u : State} (h : OnlyIn P s t) (h' : OnlyIn P t u) : OnlyIn P s u :=
  fun x hx => Place.same_trans (h x hx) (h' x hx)

theorem OnlyIn.mono {Q : Place → Prop} (h : OnlyIn P s t) (hpq : ∀ x, P x → Q x) : OnlyIn Q s t :=
  fun x hx => h x (fun hp => hx (hpq x hp))

theorem Only.refl (l : List Place) (s : State) : Only l s s := OnlyIn.refl _ s

theorem Only.mono {l l' : List Place} (h : Only l s t) (hl : ∀ x ∈ l, x ∈ l') : Only l' s t := OnlyIn.mono h hl

theorem Only.trans {l : List Place} {s t u : State} (h : Only l s t) (h' : Only l t u) : Only l s u := OnlyIn.trans h h'

/-- A frame is kept by a branch whichever way it goes. -/
theorem OnlyIn.ite {c : Prop} {_ : Decidable c} {a b : State} (ha : OnlyIn P s0 a) (hb : OnlyIn P s0 b) :
    OnlyIn P s0 (if c then a else b) := by split <;> assumption

/-- A frame is kept over a list when it is kept by each of its elements. -/
theorem OnlyIn.foldl {α : Type} (f : State → α → State) (l : List α) (hs : OnlyIn P s0 s)
    (h : ∀ u a, a ∈ l → OnlyIn P s0 u → OnlyIn P s0 (f u a)) : OnlyIn P s0 (l.foldl f s) := by
  induction l generalizing s with
  | nil => exact hs
  | cons a r ih => exact ih (h s a (List.mem_cons_self ..) hs) (fun u b hb => h u b (List.mem_cons_of_mem a hb))

theorem OnlyIn.setReg {k : RegKey} (v : W32) (hs : OnlyIn P s0 s) (hp : P (.reg k)) : OnlyIn P s0 (s.setReg k v) := by
  refine hs.trans (fun x hx => ?_)
  cases x with
  | reg k2 =>
    show (s.setReg k v).reg k2 = s.reg k2
    rw [State.reg_setReg, if_neg]; rintro rfl; exact hx hp
  | _ => first | exact rfl | exact Iff.rfl | exact ⟨rfl, rfl⟩

theorem OnlyIn.setTile {u : TileId} (v : Tile) (hs : OnlyIn P s0 s) (hp : P (.tile u)) : OnlyIn P s0 (s.setTile u v) := by
  refine hs.trans (fun x hx => ?_)
  cases x with
  | tile k2 =>
    show (s.setTile u v).tile k2 = s.tile k2
    rw [State.tile_setTile, if_neg]; rintro rfl; exact hx hp
  | _ => first | exact rfl | exact Iff.rfl | exact ⟨rfl, rfl⟩

theorem OnlyIn.setArr {u : ArrayId} (v : Arr) (hs : OnlyIn P s0 s) (hp : P (.arr u)) : OnlyIn P s0 (s.setArr u v) := by
  refine hs.trans (fun x hx => ?_)
  cases x with
  | arr k2 =>
    show (s.setArr u v).arr k2 = s.arr k2
    rw [State.arr_setArr, if_neg]; rintro rfl; exact hx hp
  | _ => first | exact rfl | exact Iff.rfl | exact ⟨rfl, rfl⟩

theorem OnlyIn.setDie {u : Nat} (v : Die) (hs : OnlyIn P s0 s) (hp : P (.die u)) : OnlyIn P s0 (s.setDie u v) := by
  refine hs.trans (fun x hx => ?_)
  cases x with
  | die k2 =>
    show (s.setDie u v).die k2 = s.die k2
    rw [State.die_setDie, if_neg]; rintro rfl; exact hx hp
  | _ => first | exact rfl | exact Iff.rfl | exact ⟨rfl, rfl⟩

theorem OnlyIn.setPart {u : Nat} (v : Part) (hs : OnlyIn P s0 s) (hp : P (.part u)) : OnlyIn P s0 (s.setPart u v) := by
  refine hs.trans (fun x hx => ?_)
  cases x with
  | part k2 =>
    show (s.setPart u v).part k2 = s.part k2
    rw [State.part_setPart, if_neg]; rintro rfl; exact hx hp
  | _ => first | exact rfl | exact Iff.rfl | exact ⟨rfl, rfl⟩

theorem OnlyIn.setSlot {u : Nat} (v : Slot) (hs : OnlyIn P s0 s) (hp : P (.slot u)) : OnlyIn P s0 (s.setSlot u v) := by
  refine hs.trans (fun x hx => ?_)
  cases x with
  | slot k2 =>
    show (s.setSlot u v).slot k2 = s.slot k2
    rw [State.slot_setSlot, if_neg]; rintro rfl; exact hx hp
  | _ => first | exact rfl | exact Iff.rfl | exact ⟨rfl, rfl⟩

theorem OnlyIn.setPage {p i : Nat} (v : PageSet) (hs : OnlyIn P s0 s) (hp : P (.page p i)) : OnlyIn P s0 (s.setPage p i v) := by
  refine hs.trans (fun x hx => ?_)
  cases x with
  | page p2 i2 =>
    show (s.setPage p i v).page p2 i2 = s.page p2 i2
    rw [State.page_setPage, if_neg]; rintro ⟨rfl, rfl⟩; exact hx hp
  | _ => first | exact rfl | exact Iff.rfl | exact ⟨rfl, rfl⟩

theorem OnlyIn.setIdx {e : Nat × Nat} (v : IdxEntry) (hs : OnlyIn P s0 s) (hp : P (.idx e)) : OnlyIn P s0 (s.setIdx e v) := by
  refine hs.trans (fun x hx => ?_)
  cases x with
  | idx e2 =>
    show (s.setIdx e v).idx e2 = s.idx e2
    rw [State.idx_setIdx, if_neg]; rintro rfl; exact hx hp
  | _ => first | exact rfl | exact Iff.rfl | exact ⟨rfl, rfl⟩

theorem OnlyIn.setLane {l n : Nat} (v : Lane) (hs : OnlyIn P s0 s) (hp : P (.lane l n)) : OnlyIn P s0 (s.setLane l n v) := by
  refine hs.trans (fun x hx => ?_)
  cases x with
  | lane l2 n2 =>
    show (s.setLane l n v).lane l2 n2 = s.lane l2 n2
    rw [State.lane_setLane, if_neg]; rintro ⟨rfl, rfl⟩; exact hx hp
  | _ => first | exact rfl | exact Iff.rfl | exact ⟨rfl, rfl⟩

theorem OnlyIn.setChan {q c : Nat} (v : Chan) (hs : OnlyIn P s0 s) (hp : P (.chan q c)) : OnlyIn P s0 (s.setChan q c v) := by
  refine hs.trans (fun x hx => ?_)
  cases x with
  | chan q2 c2 =>
    show (s.setChan q c v).chan q2 c2 = s.chan q2 c2
    rw [State.chan_setChan, if_neg]; rintro ⟨rfl, rfl⟩; exact hx hp
  | _ => first | exact rfl | exact Iff.rfl | exact ⟨rfl, rfl⟩

theorem OnlyIn.setLaser {m : Nat} (v : Laser) (hs : OnlyIn P s0 s) (hp : P (.laser m)) : OnlyIn P s0 (s.setLaser m v) := by
  refine hs.trans (fun x hx => ?_)
  cases x with
  | laser m2 =>
    show (s.setLaser m v).laser m2 = s.laser m2
    rw [State.laser_setLaser, if_neg]; rintro rfl; exact hx hp
  | _ => first | exact rfl | exact Iff.rfl | exact ⟨rfl, rfl⟩

theorem OnlyIn.setSensor {b : Nat} (v : Sensor) (hs : OnlyIn P s0 s) (hp : P (.sensor b)) : OnlyIn P s0 (s.setSensor b v) := by
  refine hs.trans (fun x hx => ?_)
  cases x with
  | sensor b2 =>
    show (s.setSensor b v).sensor b2 = s.sensor b2
    rw [State.sensor_setSensor, if_neg]; rintro rfl; exact hx hp
  | _ => first | exact rfl | exact Iff.rfl | exact ⟨rfl, rfl⟩

theorem OnlyIn.emit (o : Output) (hs : OnlyIn P s0 s) (hp : P .outputs) : OnlyIn P s0 (s.emit o) := by
  refine hs.trans (fun x hx => ?_)
  cases x with
  | outputs => exact absurd hp hx
  | _ => first | exact rfl | exact Iff.rfl | exact ⟨rfl, rfl⟩

theorem OnlyIn.draw (hs : OnlyIn P s0 s) (hp : P .fresh) : OnlyIn P s0 s.draw.2 := by
  refine hs.trans (fun x hx => ?_)
  cases x with
  | fresh => exact absurd hp hx
  | _ => first | exact rfl | exact Iff.rfl | exact ⟨rfl, rfl⟩

theorem OnlyIn.drawB (hs : OnlyIn P s0 s) (hp : P .fresh) : OnlyIn P s0 s.drawB.2 := by
  refine hs.trans (fun x hx => ?_)
  cases x with
  | fresh => exact absurd hp hx
  | _ => first | exact rfl | exact Iff.rfl | exact ⟨rfl, rfl⟩

theorem OnlyIn.setFld {k : RegKey} (lo len v : Nat) (hs : OnlyIn P s0 s) (hp : P (.reg k)) : OnlyIn P s0 (s.setFld k lo len v) :=
  hs.setReg _ hp

theorem OnlyIn.setBit {k : RegKey} (i : Nat) (hs : OnlyIn P s0 s) (hp : P (.reg k)) : OnlyIn P s0 (s.setBit k i) := hs.setReg _ hp

theorem OnlyIn.bump {k : RegKey} (lo len n : Nat) (hs : OnlyIn P s0 s) (hp : P (.reg k)) : OnlyIn P s0 (s.bump k lo len n) :=
  hs.setReg _ hp

theorem OnlyIn.setPair {lo hi : RegKey} (v : Nat) (hs : OnlyIn P s0 s) (hl : P (.reg lo)) (hh : P (.reg hi)) :
    OnlyIn P s0 (s.setPair lo hi v) := (hs.setReg _ hl).setReg _ hh

theorem OnlyIn.modTile {u : TileId} (f : Tile → Tile) (hs : OnlyIn P s0 s) (hp : P (.tile u)) : OnlyIn P s0 (s.modTile u f) :=
  hs.setTile _ hp

theorem OnlyIn.modArr {u : ArrayId} (f : Arr → Arr) (hs : OnlyIn P s0 s) (hp : P (.arr u)) : OnlyIn P s0 (s.modArr u f) := hs.setArr _ hp

theorem OnlyIn.modDie {u : Nat} (f : Die → Die) (hs : OnlyIn P s0 s) (hp : P (.die u)) : OnlyIn P s0 (s.modDie u f) := hs.setDie _ hp

theorem OnlyIn.modPart {u : Nat} (f : Part → Part) (hs : OnlyIn P s0 s) (hp : P (.part u)) : OnlyIn P s0 (s.modPart u f) :=
  hs.setPart _ hp

theorem OnlyIn.modSlot {u : Nat} (f : Slot → Slot) (hs : OnlyIn P s0 s) (hp : P (.slot u)) : OnlyIn P s0 (s.modSlot u f) :=
  hs.setSlot _ hp

theorem OnlyIn.modPage {p i : Nat} (f : PageSet → PageSet) (hs : OnlyIn P s0 s) (hp : P (.page p i)) : OnlyIn P s0 (s.modPage p i f) :=
  hs.setPage _ hp

theorem OnlyIn.modLane {l n : Nat} (f : Lane → Lane) (hs : OnlyIn P s0 s) (hp : P (.lane l n)) : OnlyIn P s0 (s.modLane l n f) :=
  hs.setLane _ hp

/-- A write of bytes changes those bytes and the poison marks of the 8-byte words that they touch. -/
theorem OnlyIn.setBytesP (a : Nat) (b : List Byte) (p : Bool) (hs : OnlyIn P s0 s)
    (hb : ∀ i, i < b.length → P (.byte (a + i))) (hw : ∀ w, a / 8 ≤ w → w ≤ (a + b.length - 1) / 8 → 0 < b.length → P (.poison w)) :
    OnlyIn P s0 (s.setBytesP a b p) := by
  refine hs.trans (fun x hx => ?_)
  cases x with
  | byte x =>
    show Memory.read (s.setBytesP a b p).mem x = Memory.read s.mem x
    rw [State.setBytesP_mem]
    refine Memory.read_writeN_other _ _ _ _ ?_
    by_contra h
    obtain ⟨h1, h2⟩ : a ≤ x ∧ x < a + b.length := by omega
    exact hx (by simpa [Nat.add_sub_cancel' h1] using hb (x - a) (by omega))
  | poison w =>
    show w ∈ (s.setBytesP a b p).poison ↔ w ∈ s.poison
    cases p with
    | true =>
      have he : (s.setBytesP a b true).poison = s.poison ++ ((List.range (if b.length = 0 then 0 else (a + b.length - 1) / 8 - a / 8 + 1)).map
          (a / 8 + ·)).filter (fun w => !s.poison.contains w) := rfl
      rw [he]
      simp only [List.mem_append, List.mem_filter, List.mem_map, List.mem_range]
      constructor
      · rintro (h | ⟨⟨i, hi, rfl⟩, -⟩)
        · exact h
        · split at hi
          · omega
          · exact absurd (hw _ (by omega) (by omega) (by omega)) hx
      · exact Or.inl
    | false =>
      have he : (s.setBytesP a b false).poison = s.poison.filter (fun w => decide (8 * w < a) || decide (a + b.length < 8 * w + 8)) := rfl
      rw [he, List.mem_filter]
      refine ⟨fun h => h.1, fun h => ⟨h, ?_⟩⟩
      by_contra hc
      simp only [Bool.or_eq_true, decide_eq_true_eq, not_or, not_lt] at hc
      exact hx (hw w (by omega) (by omega) (by omega))
  | _ => cases p <;> first | exact rfl | exact Iff.rfl | exact ⟨rfl, rfl⟩

theorem OnlyIn.setBytes (a : Nat) (b : List Byte) (hs : OnlyIn P s0 s)
    (hb : ∀ i, i < b.length → P (.byte (a + i))) (hw : ∀ w, a / 8 ≤ w → w ≤ (a + b.length - 1) / 8 → 0 < b.length → P (.poison w)) :
    OnlyIn P s0 (s.setBytes a b) := hs.setBytesP a b false hb hw

/-- A fault record changes the die's log, its way to the central log, and the registers that count it. -/
theorem OnlyIn.putFault (r : FaultRec) (hs : OnlyIn P s0 s) (hd : P (.die r.die)) (h1 : P (.reg (fltRegs r.die).1))
    (h2 : P (.reg (fltRegs r.die).2)) : OnlyIn P s0 (s.putFault r) := by
  have hb := hs.setDie { s.die r.die with toCentral := (s.die r.die).toCentral ++ [r] } hd
  unfold State.putFault
  refine OnlyIn.ite ?_ hb
  have h3 := (((hb.modDie (fun d => { d with flog := Tbl.put d.flog ((s.die r.die).fnext % 16) r, fnext := ((s.die r.die).fnext % 16 + 1) % 16 })
    hd).setFld (k := (fltRegs r.die).1) 0 4 ((s.die r.die).fnext % 16) h1).setBit 4 h1).bump 8 16 1 h1
  exact OnlyIn.ite (h3.bump _ 4 1 h2) h3

theorem OnlyIn.fault (code die unit region detail : Nat) (part : Option Nat) (opidx : Nat) (hs : OnlyIn P s0 s) (hd : P (.die die))
    (h1 : P (.reg (fltRegs die).1)) (h2 : P (.reg (fltRegs die).2)) :
    OnlyIn P s0 (s.fault code die unit region detail part opidx) := hs.putFault _ hd h1 h2

/-- What `fault` can change is `faultPlaces` of its die. -/
theorem Machine.State.fault_only (s : State) (code die unit region detail : Nat) (part : Option Nat) (opidx : Nat) :
    Only (faultPlaces die) s (s.fault code die unit region detail part opidx) :=
  (Only.refl _ s).fault code die unit region detail part opidx (by simp [faultPlaces]) (by simp [faultPlaces]) (by simp [faultPlaces])

/-- Counting an event changes only the counters of its region. -/
theorem OnlyIn.event (d region ev n : Nat) (layer : Option Nat) (hs : OnlyIn P s0 s)
    (h : ∀ k < 8, P (.reg (uReg d region .ctrValLo k)) ∧ P (.reg (uReg d region .ctrValHi k)) ∧ P (.reg (uReg d region .ctrStatus))) :
    OnlyIn P s0 (s.event d region ev n layer) := by
  unfold State.event
  refine OnlyIn.foldl _ _ hs (fun u k hk hu => OnlyIn.ite ?_ hu)
  obtain ⟨a, b, c⟩ := h k (List.mem_range.1 hk)
  unfold State.ctrAdd
  exact OnlyIn.ite (hu.setPair _ a b) ((hu.setPair _ a b).setBit _ c)

/-- What `putFault` leaves in the die's log and on its way to the central log. -/
theorem Machine.State.putFault_logged (r : FaultRec) (s : State) : Logged r s (s.putFault r) := by
  unfold Logged State.putFault
  by_cases h : r.die < 0x24
  · simp only [if_pos h]
    split <;>
      simp [State.bump, State.setBit, State.setFld, State.die_setReg, State.modDie]
  · simp only [if_neg h]
    simp [h]

theorem Machine.State.fault_logged (s : State) (code die unit region detail : Nat) (part : Option Nat) (opidx : Nat) :
    Logged ⟨BitVec.ofNat 16 code, faultFlags code, part, die, unit, region, opidx, (part.map s.stepOf).getD 0, s.bow.time, detail⟩ s
      (s.fault code die unit region detail part opidx) := s.putFault_logged _

theorem Machine.State.fault_faults (s : State) (code die unit region detail : Nat) (part : Option Nat) (opidx : Nat) :
    Faults (BitVec.ofNat 16 code) part die unit detail s (s.fault code die unit region detail part opidx) :=
  ⟨_, rfl, rfl, rfl, rfl, rfl, s.fault_logged ..⟩

/-- A fault record counts from any state with the same die log. -/
theorem Faults.cut {code : BitVec 16} {part : Option Nat} {die unit detail : Nat} {u : State} (h : Faults code part die unit detail s t)
    (hd : s.die die = u.die die) : Faults code part die unit detail u t := by
  obtain ⟨r, h1, h2, rfl, h4, h5, h6⟩ := h
  exact ⟨r, h1, h2, rfl, h4, h5, by unfold Logged at h6 ⊢; rwa [← hd]⟩

/-- A fault record stays in any state with the same die log. -/
theorem Faults.keep {code : BitVec 16} {part : Option Nat} {die unit detail : Nat} {u : State} (h : Faults code part die unit detail s t)
    (hd : u.die die = t.die die) : Faults code part die unit detail s u := by
  obtain ⟨r, h1, h2, rfl, h4, h5, h6⟩ := h
  exact ⟨r, h1, h2, rfl, h4, h5, by unfold Logged at h6 ⊢; rwa [hd]⟩

end Sys2Proof
end

