-- ==== Sys2Proof/Laws/Vector.lean ====
section
/-!
SUPPORT. What the shared operations of a tile's issue do: counting an event, charging a delay, making older engine writes visible, and
the issue of a vector operation, each by the fields of the tile it can change and the places it leaves alone.
-/

set_option Elab.async false

namespace Sys2Proof

open Machine

variable {s t : State}

/-! ## Units after an event -/

theorem Machine.State.event_eq (s : State) (d region ev n : Nat) (layer : Option Nat) :
    ∃ r, s.event d region ev n layer = { s with regs := r } := by
  unfold State.event
  generalize List.range 8 = l
  induction l generalizing s with
  | nil => exact ⟨s.regs, rfl⟩
  | cons k r ih =>
    rw [List.foldl_cons]
    have h1 : ∃ q, (if s.ctrCounts d region k ev layer then s.ctrAdd d region k n else s) = { s with regs := q } := by
      split
      · unfold State.ctrAdd
        extract_lets lo hi v s1
        split <;> exact ⟨_, rfl⟩
      · exact ⟨s.regs, rfl⟩
    obtain ⟨q, hq⟩ := h1
    rw [hq]
    obtain ⟨r2, h2⟩ := ih { s with regs := q }
    exact ⟨r2, h2⟩

@[simp] theorem Machine.State.tile_tileEvent (s : State) (t u : TileId) (ev n : Nat) (layer : Option Nat) :
    (s.tileEvent t ev n layer).tile u = s.tile u := by
  obtain ⟨r, h⟩ := s.event_eq t.die.val t.region.val ev n layer
  unfold State.tileEvent; rw [h]; rfl

@[simp] theorem Machine.State.mem_tileEvent (s : State) (t : TileId) (ev n : Nat) (layer : Option Nat) :
    (s.tileEvent t ev n layer).mem = s.mem := by
  obtain ⟨r, h⟩ := s.event_eq t.die.val t.region.val ev n layer
  unfold State.tileEvent; rw [h]

/-- A charge changes only the tile's delay and its shares of slack and reserve. -/
theorem Machine.State.charge_tile (s : State) (t : TileId) (n r : Nat) :
    ∃ δ su ru os, (s.charge t n r).tile t = { s.tile t with delta := δ, slackUse := su, resUse := ru, overSlack := os } := by
  unfold State.charge
  split
  · exact ⟨_, _, _, _, rfl⟩
  · extract_lets x
    split
    extract_lets res sl ov s1 s2 s3
    have e2 : s2.tile t = s1.tile t := by dsimp only [s2]; split <;> simp
    have e3 : s3.tile t = s2.tile t := by dsimp only [s3]; split <;> simp
    refine ⟨x.delta + n, x.slackUse + sl, x.resUse + res, x.overSlack || ov, ?_⟩
    rw [show (if ov = true then s3.tileEvent t 14 1 else s3).tile t = s1.tile t by split <;> simp [e2, e3]]
    dsimp only [s1]
    rw [State.tile_setTile, if_pos rfl]

theorem Machine.State.foldl_setBytes_tiles (l : List PendWrite) (s : State) :
    (l.foldl (fun s w => s.setBytesP w.addr w.bytes w.poison) s).tiles = s.tiles := by
  induction l generalizing s with
  | nil => rfl
  | cons w r ih => rw [List.foldl_cons, ih]; cases w.poison <;> rfl

/-- Making writes visible changes only the tile's list of them. -/
theorem Machine.State.flushW_tile (s : State) (t : TileId) (c : Nat) :
    (s.flushW t c).tile t = { s.tile t with wpend := (s.tile t).wpend.filter (fun w => decide (c ≤ w.cycle)) } := by
  unfold State.flushW State.modTile
  extract_lets x s1
  have e : s1.tile t = s.tile t := by
    unfold State.tile; dsimp only [s1]; rw [State.foldl_setBytes_tiles]
  rw [State.tile_setTile, if_pos rfl, e]

/-- An issue changes only the tile's delay, its pending writes and its log of accesses. -/
theorem Machine.State.issue_tile (s : State) (h : OpHdr) (c reserve : Nat) :
    ∃ δ su ru os wp ac, (s.issue h c reserve).tile h.tile =
      { s.tile h.tile with nextOp := h.opidx + 1, delta := δ, slackUse := su, resUse := ru, overSlack := os, wpend := wp, access := ac } := by
  unfold State.issue
  extract_lets w s1 s2
  obtain ⟨δ, su, ru, os, hc⟩ := s.charge_tile h.tile w reserve
  refine ⟨δ, su, ru, os, (s2.tile h.tile).wpend, (s2.tile h.tile).access, ?_⟩
  rw [State.tile_setReg]
  dsimp only [s2, State.modTile, s1]
  rw [State.tile_setTile, if_pos rfl, State.flushW_tile, hc]

/-- So does the issue of a vector operation, which also takes the vector unit. -/
theorem Machine.State.vecIssue_tile (s : State) (h : OpHdr) (n : Nat) :
    ∃ δ su ru os wp ac vf, (s.vecIssue h n).2.tile h.tile =
      { s.tile h.tile with
        nextOp := h.opidx + 1, delta := δ, slackUse := su, resUse := ru, overSlack := os, wpend := wp, access := ac, vecFree := vf } := by
  unfold State.vecIssue
  extract_lets c s1
  obtain ⟨δ, su, ru, os, wp, ac, hc⟩ := s.issue_tile h c 0
  refine ⟨δ, su, ru, os, wp, ac, c + n, ?_⟩
  rw [State.tile_tileEvent]
  dsimp only [s1, State.modTile]
  rw [State.tile_setTile, if_pos rfl, hc]

/-! ## Frames -/

variable {P : Place → Prop} {s0 : State}

/-- What counting an event of a tile can change. -/
def CtrPlaces (P : Place → Prop) (t : TileId) : Prop :=
  ∀ k : RegKey, k.die = t.die.val → k.region = t.region.val → k.reg ∈ [Reg.tilOpidx, .ctrValLo, .ctrValHi, .ctrStatus] → P (.reg k)

theorem OnlyIn.tileEvent {t : TileId} (ev n : Nat) (layer : Option Nat) (hs : OnlyIn P s0 s) (hp : CtrPlaces P t) :
    OnlyIn P s0 (s.tileEvent t ev n layer) :=
  hs.event _ _ _ _ _ (fun k _ => ⟨hp _ rfl rfl (by simp [uReg]), hp _ rfl rfl (by simp [uReg]), hp _ rfl rfl (by simp [uReg])⟩)

theorem OnlyIn.charge {t : TileId} (n r : Nat) (hs : OnlyIn P s0 s) (ht : P (.tile t)) (hp : CtrPlaces P t) :
    OnlyIn P s0 (s.charge t n r) := by
  unfold State.charge
  refine OnlyIn.ite hs ?_
  extract_lets x
  split
  extract_lets res sl ov s1 s2 s3
  have h1 : OnlyIn P s0 s1 := hs.setTile _ ht
  have h2 : OnlyIn P s0 s2 := OnlyIn.ite h1 (h1.tileEvent _ _ _ hp)
  have h3 : OnlyIn P s0 s3 := OnlyIn.ite h2 (h2.tileEvent _ _ _ hp)
  exact OnlyIn.ite (h3.tileEvent _ _ _ hp) h3

/-- The bytes and words that the tile's pending writes touch. -/
def WritePlaces (P : Place → Prop) (l : List PendWrite) : Prop :=
  ∀ w ∈ l, (∀ i, i < w.bytes.length → P (.byte (w.addr + i))) ∧
    ∀ p, w.addr / 8 ≤ p → p ≤ (w.addr + w.bytes.length - 1) / 8 → 0 < w.bytes.length → P (.poison p)

theorem OnlyIn.flushList (l : List PendWrite) (hs : OnlyIn P s0 s) (hw : WritePlaces P l) :
    OnlyIn P s0 (l.foldl (fun s w => s.setBytesP w.addr w.bytes w.poison) s) :=
  OnlyIn.foldl _ _ hs (fun _ w hm hu => hu.setBytesP _ _ _ (hw w hm).1 (hw w hm).2)

theorem OnlyIn.flushW {t : TileId} (c : Nat) (hs : OnlyIn P s0 s) (ht : P (.tile t)) (hw : WritePlaces P (s.tile t).wpend) :
    OnlyIn P s0 (s.flushW t c) :=
  OnlyIn.modTile _ (hs.flushList _ (fun w hm => hw w (List.mem_filter.1 hm).1)) ht

theorem OnlyIn.issue {h : OpHdr} (c r : Nat) (hs : OnlyIn P s0 s) (ht : P (.tile h.tile)) (hp : CtrPlaces P h.tile)
    (hw : WritePlaces P (s.tile h.tile).wpend) : OnlyIn P s0 (s.issue h c r) := by
  unfold State.issue
  extract_lets w s1 s2
  refine OnlyIn.setReg _ ?_ (hp _ rfl rfl (by simp [tReg]))
  refine OnlyIn.modTile _ ?_ ht
  refine OnlyIn.flushW _ (hs.charge _ _ ht hp) ht ?_
  obtain ⟨δ, su, ru, os, hc⟩ := s.charge_tile h.tile w r
  rw [hc]; exact hw

theorem OnlyIn.vecIssue {h : OpHdr} (n : Nat) (hs : OnlyIn P s0 s) (ht : P (.tile h.tile)) (hp : CtrPlaces P h.tile)
    (hw : WritePlaces P (s.tile h.tile).wpend) : OnlyIn P s0 (s.vecIssue h n).2 :=
  ((hs.issue _ _ ht hp hw).modTile _ ht).tileEvent _ _ _ hp

theorem OnlyIn.fillFree (l : List (Option Nat)) (hs : OnlyIn P s0 s) (hp : P .fresh) : OnlyIn P s0 (s.fillFree l).2 := by
  induction l generalizing s with
  | nil => exact hs
  | cons a r ih => cases a with
    | none => exact ih (hs.draw hp)
    | some v => exact ih hs

theorem Machine.State.fillFree_tile (s : State) (l : List (Option Nat)) (t : TileId) : (s.fillFree l).2.tile t = s.tile t := by
  induction l generalizing s with
  | nil => rfl
  | cons a r ih => cases a with
    | none => exact ih s.draw.2
    | some v => exact ih s

/-- Every stated element is filled with itself. -/
theorem Machine.State.fillFree_get (s : State) (l : List (Option Nat)) (i v : Nat) (h : l[i]? = some (some v)) :
    (s.fillFree l).1[i]? = some v := by
  induction l generalizing s i with
  | nil => simp at h
  | cons a r ih =>
    cases i with
    | zero => simp at h; subst h; rfl
    | succ i => cases a with
      | none => exact ih s.draw.2 i (by simpa using h)
      | some w => exact ih s i (by simpa using h)

theorem Machine.State.fillFree_length (s : State) (l : List (Option Nat)) : (s.fillFree l).1.length = l.length := by
  induction l generalizing s with
  | nil => rfl
  | cons a r ih => cases a with
    | none => simp [State.fillFree, ih]
    | some w => simp [State.fillFree, ih]

theorem OnlyIn.release {t : TileId} (e : VRes) (slot : Nat) (hs : OnlyIn P s0 s) (ht : P (.tile t)) (hp : CtrPlaces P t) :
    OnlyIn P s0 (s.release t e slot) := by
  unfold State.release
  extract_lets s1
  have h1 : OnlyIn P s0 s1 := hs.modTile _ ht
  refine OnlyIn.ite ?_ h1
  unfold State.poisonReport
  exact OnlyIn.ite h1 ((h1.modTile _ ht).tileEvent _ _ _ hp)

/-- A result that is released enters the tile's pending ones, and a poisoned one the list of poison reports. -/
theorem Machine.State.release_tile (s : State) (t : TileId) (e : VRes) (slot : Nat) :
    ∃ rd rp, (s.release t e slot).tile t = { s.tile t with vpend := insRes e (s.tile t).vpend, reported := rd, reports := rp } := by
  unfold State.release
  extract_lets s1
  have e1 : s1.tile t = { s.tile t with
      vpend := insRes e (s.tile t).vpend, reported := (s1.tile t).reported, reports := (s1.tile t).reports } := by
    dsimp only [s1, State.modTile]; rw [State.tile_setTile, if_pos rfl]
  split
  · unfold State.poisonReport
    split
    · exact ⟨(s1.tile t).reported, (s1.tile t).reports, e1⟩
    · refine ⟨(s1.tile t).reported ++ [slot], (s1.tile t).reports ++ [slot], ?_⟩
      rw [State.tile_tileEvent]
      simp only [State.modTile]
      rw [State.tile_setTile, if_pos rfl, e1]
  · exact ⟨(s1.tile t).reported, (s1.tile t).reports, e1⟩

/-! ## Elements -/

theorem leNat_lt (l : List Byte) : leNat l < 2 ^ (8 * l.length) := by
  induction l with
  | nil => simp [leNat]
  | cons b r ih =>
    have hb := b.isLt
    have : (2 : Nat) ^ (8 * (b :: r).length) = 256 * 2 ^ (8 * r.length) := by
      rw [List.length_cons, Nat.mul_add, pow_add]; norm_num; ring
    rw [this]; unfold leNat; omega

theorem leNat_leBytes (n v : Nat) : leNat (leBytes n v) = v % 2 ^ (8 * n) := by
  induction n generalizing v with
  | zero => simp [leBytes, leNat, Nat.mod_one]
  | succ n ih =>
    unfold leBytes leNat
    rw [ih, BitVec.toNat_ofNat]
    have : (2 : Nat) ^ (8 * (n + 1)) = 2 ^ 8 * 2 ^ (8 * n) := by rw [← pow_add]; congr 1; ring
    rw [this, Nat.mod_mul]; norm_num

theorem leBytes_length (n v : Nat) : (leBytes n v).length = n := by
  induction n generalizing v with
  | zero => rfl
  | succ n ih => simp [leBytes, ih]

/-- Bytes beyond the end of a list count as zero. -/
theorem leNat_append_zeros (l : List Byte) (n : Nat) : leNat (l ++ List.replicate n 0) = leNat l := by
  induction l with
  | nil =>
    induction n with
    | zero => rfl
    | succ n ih => rw [List.replicate_succ, List.nil_append]; rw [List.nil_append] at ih; show _ + 256 * leNat (List.replicate n 0) = 0; rw [ih]; rfl
  | cons b r ih => rw [List.cons_append]; simp only [leNat, ih]

theorem leAt_eq (l : List Byte) (off n : Nat) : leAt l off n = leNat ((l.drop off).take n) := by
  unfold leAt sliceB; exact leNat_append_zeros _ _

theorem elemsN_get (w n : Nat) (l : List Byte) (i : Nat) (h : i < n) : (elemsN w n l)[i]? = some (leNat ((l.drop (w * i)).take w)) := by
  induction n generalizing l i with
  | zero => omega
  | succ n ih =>
    unfold elemsN
    cases i with
    | zero => simp
    | succ i => rw [List.getElem?_cons_succ, ih _ _ (by omega), List.drop_drop, Nat.mul_succ, Nat.add_comm w]

theorem elemsN_length (w n : Nat) (l : List Byte) : (elemsN w n l).length = n := by
  induction n generalizing l with
  | zero => rfl
  | succ n ih => simp [elemsN, ih]

theorem elemBytes_elem (w : Nat) (l : List Nat) (i v : Nat) (h : l[i]? = some v) :
    leNat (((elemBytes w l).drop (w * i)).take w) = v % 2 ^ (8 * w) := by
  induction l generalizing i with
  | nil => simp at h
  | cons a r ih =>
    unfold elemBytes
    rw [List.map_cons, List.flatten_cons]
    cases i with
    | zero =>
      simp at h; subst h
      rw [Nat.mul_zero, List.drop_zero, List.take_append_of_le_length (by rw [leBytes_length]),
        List.take_of_length_le (by rw [leBytes_length]), leNat_leBytes]
    | succ i =>
      rw [Nat.mul_succ, Nat.add_comm, ← List.drop_drop, List.drop_append_of_le_length (by rw [leBytes_length]),
        List.drop_of_length_le (l := leBytes w a) (by rw [leBytes_length]), List.nil_append]
      exact ih i (by simpa using h)

/-- INT32 element `i` of a register image, as the operand forms read it. -/
theorem lane_eq (b : List Byte) (i : Nat) (h : i < 64) : (elemsN 4 64 b)[i]? = some (lane b i).toNat := by
  rw [elemsN_get _ _ _ _ h]
  unfold lane
  rw [leAt_eq, BitVec.toNat_ofNat, Nat.mod_eq_of_lt]
  refine lt_of_lt_of_le (leNat_lt _) (Nat.pow_le_pow_right (by norm_num) ?_)
  have := List.length_take_le 4 (b.drop (4 * i)); omega

theorem lane8_eq (b : List Byte) (i : Nat) (h : i < 256) : (elemsN 1 256 b)[i]? = some (lane8 b i).toNat := by
  rw [elemsN_get _ _ _ _ h]
  unfold lane8
  rw [leAt_eq, BitVec.toNat_ofNat, one_mul, Nat.mod_eq_of_lt]
  refine lt_of_lt_of_le (leNat_lt _) (Nat.pow_le_pow_right (by norm_num) ?_)
  have := List.length_take_le 1 (b.drop i); omega

theorem Holds.lane {b : List Byte} {i v : Nat} {l : List (Option Nat)} (h : Holds b 4 l) (hi : i < 64) (hl : l[i]? = some (some v)) :
    lane b i = BitVec.ofNat 32 v := by
  have h1 := h i v hl
  rw [show 256 / 4 = 64 from rfl, lane_eq b i hi] at h1
  apply BitVec.eq_of_toNat_eq
  rw [BitVec.toNat_ofNat]; exact Option.some.inj h1

theorem Holds.lane8 {b : List Byte} {i v : Nat} {l : List (Option Nat)} (h : Holds b 1 l) (hi : i < 256) (hl : l[i]? = some (some v)) :
    lane8 b i = BitVec.ofNat 8 v := by
  have h1 := h i v hl
  rw [show 256 / 1 = 256 from rfl, lane8_eq b i hi] at h1
  apply BitVec.eq_of_toNat_eq
  rw [BitVec.toNat_ofNat]; exact Option.some.inj h1

theorem sext_toInt (x : BitVec 32) : sext 32 x.toNat = x.toInt := by
  unfold sext; rw [BitVec.toInt_eq_toNat_cond]
  have := x.isLt
  simp only [Nat.mod_eq_of_lt this]
  split <;> split <;> first | rfl | omega

theorem sext8_toInt (x : BitVec 8) : sext 8 x.toNat = x.toInt := by
  unfold sext; rw [BitVec.toInt_eq_toNat_cond]
  have := x.isLt
  simp only [Nat.mod_eq_of_lt this]
  split <;> split <;> first | rfl | omega

theorem ofNat_toBits (n : Nat) (v : Int) : BitVec.ofNat n (toBits n v) = BitVec.ofInt n v := by
  apply BitVec.eq_of_toNat_eq
  unfold toBits
  rw [BitVec.toNat_ofNat, BitVec.toNat_ofInt, Nat.mod_eq_of_lt]
  have h0 : (0 : Int) < ((2 ^ n : Nat) : Int) := by positivity
  have := Int.emod_lt_of_pos v h0
  have := Int.emod_nonneg v (ne_of_gt h0)
  omega

theorem zip2_get {f : Nat → Nat → Option Nat} {l m : List Nat} {i p q : Nat} (h1 : l[i]? = some p) (h2 : m[i]? = some q) :
    (zip2 f l m)[i]? = some (f p q) := by
  have : (l.zip m)[i]? = some (p, q) := List.getElem?_zip_eq_some.2 ⟨h1, h2⟩
  unfold zip2
  rw [List.getElem?_map, this]; rfl

theorem zip3_get {f : Nat → Nat → Nat → Option Nat} {l m n : List Nat} {i p q r : Nat} (h1 : l[i]? = some p) (h2 : m[i]? = some q)
    (h3 : n[i]? = some r) : (zip3 f l m n)[i]? = some (f p q r) := by
  have h23 : (m.zip n)[i]? = some (q, r) := List.getElem?_zip_eq_some.2 ⟨h2, h3⟩
  have : (l.zip (m.zip n))[i]? = some (p, (q, r)) := List.getElem?_zip_eq_some.2 ⟨h1, h23⟩
  unfold zip3
  rw [List.getElem?_map, this]; rfl

theorem zip2_length {f : Nat → Nat → Option Nat} (w n : Nat) (a b : List Byte) : (zip2 f (elemsN w n a) (elemsN w n b)).length = n := by
  simp [zip2, elemsN_length]

theorem zip3_length {f : Nat → Nat → Nat → Option Nat} (w n : Nat) (a b c : List Byte) :
    (zip3 f (elemsN w n a) (elemsN w n b) (elemsN w n c)).length = n := by
  simp [zip3, elemsN_length]

/-! ## Vector operations -/

theorem issuePlaces_ctr (s : State) (t : TileId) : CtrPlaces (issuePlaces s t) t := fun _ h1 h2 h3 => ⟨h1, h2, h3⟩

theorem issuePlaces_writes (s : State) (t : TileId) : WritePlaces (issuePlaces s t) (s.tile t).wpend :=
  fun w hw => ⟨fun i hi => ⟨w, hw, by omega, by omega⟩, fun _ h1 h2 _ => ⟨w, hw, h1, h2⟩⟩

/-- An operation that can issue runs its body. -/
theorem Machine.State.tileOp_eq {h : OpHdr} {i : Instr} {body : State → State} (hs : CanIssue s h) (hi : s.inProgram h i = true) :
    s.tileOp h i body = body s := by
  unfold State.tileOp; rw [hs.1, hi, hs.2]; rfl

/-- An issue leaves the contract of its tile as it was. -/
theorem Machine.State.lat_same {h : OpHdr} (ht : OnlyIn (issuePlaces s h.tile) s t) (lc2 lc1 : Nat) : t.lat h.tile lc2 lc1 = s.lat h.tile lc2 lc1 := by
  have hp : t.partOf h.tile = s.partOf h.tile := by
    unfold State.partOf State.partOfDie State.regN
    dsimp only
    rw [show t.reg _ = s.reg _ from ht (.reg _) (by simp [issuePlaces, uReg])]
  unfold State.lat State.isLc1 State.formOf
  rw [hp, show t.part _ = s.part _ from ht (.part _) (by simp [issuePlaces])]

/-- A register operation that can issue, its residue check finding nothing: its stated elements stand in the result. -/
theorem Machine.vecAlu_spec {h : OpHdr} {i : Instr} {n lc2 lc1 dst src w : Nat} {more : List Nat} {fmt : VFmt} {checked : Bool}
    {f : (Nat → List Byte) → List (Option Nat)}
    (hs : CanIssue s h) (hi : s.inProgram h i = true) (hr : checked = true → h.env.residue = false)
    (hf : (f (vin s h)).length ≤ 256 / w) :
    VecDone s (vecAlu h i n lc2 lc1 dst (src :: more) fmt w checked f s) h dst src more lc2 lc1 (fun b => Holds b w (f (vin s h))) := by
  unfold vecAlu
  rw [State.tileOp_eq hs hi]
  extract_lets v x q bad s2 g
  have hb : bad = false := by dsimp only [bad]; cases checked <;> simp_all
  have e2 : s2 = q.2 := by dsimp only [s2]; rw [hb]; rfl
  obtain ⟨δ, su, ru, os, wp, ac, vf, h1⟩ := s.vecIssue_tile h n
  have ev : v.1 = vecCycle s h := rfl
  have ex : x = v.2.tile h.tile := rfl
  have exv : x.vregAt v.1 = vin s h := by funext r; rw [ex, h1]; rfl
  have ext : x.tagAt v.1 = vtag s h := by funext r; rw [ex, h1]; rfl
  have exs : x.satOf v.1 (src :: more) = (s.tile h.tile).satOf (vecCycle s h) (src :: more) := by rw [ex, h1]; rfl
  have h2 : s2.tile h.tile = v.2.tile h.tile := by rw [e2]; exact State.fillFree_tile _ _ _
  have hp : OnlyIn (issuePlaces s h.tile) s s2 := by
    rw [e2]
    exact OnlyIn.fillFree _ ((OnlyIn.refl _ s).vecIssue n rfl (issuePlaces_ctr s _) (issuePlaces_writes s _)) trivial
  obtain ⟨rd, rp, h3⟩ := s2.release_tile h.tile ⟨dst, v.1 + s2.lat h.tile lc2 lc1, some (elemBytes w q.1),
    { g with poison := g.poison || bad }, false, x.satOf v.1 (src :: more), some fmt⟩ g.slot
  refine ⟨?_, ?_, ?_, ?_⟩
  · exact OnlyIn.release _ _ hp rfl (issuePlaces_ctr s _)
  · show TileKept _ ((s2.release _ _ _).tile _)
    rw [h3, h2, h1]; constructor <;> simp
  · show ((s2.release _ _ _).tile _).nextOp = _
    rw [h3, h2, h1]
  · refine ⟨elemBytes w q.1, some fmt, ?_, ?_⟩
    · intro i v hv
      have hi : i < 256 / w := lt_of_lt_of_le (List.getElem?_eq_some_iff.1 hv).1 hf
      rw [elemsN_get _ _ _ _ hi, elemBytes_elem w q.1 i v (State.fillFree_get _ _ _ _ (by rw [exv]; exact hv))]
    · show ((s2.release _ _ _).tile _).vpend = _
      rw [h3, h2, h1, State.lat_same hp]
      dsimp only [g, Tile.srcTag, List.foldl_cons, List.foldl_nil]
      rw [hb, Bool.or_false, ext, exs, ev]

end Sys2Proof
end

