-- ==== Sys2Proof/Machine/Tap.lean ====
section
/-!
DEFINITION. The boundary-scan port (R535) and what the endpoint's configuration space shows (R470, R471). No row of the opcode table scans
the chain or accesses configuration space: these definitions say what the device does there (log 60).
-/

namespace Sys2Proof.Machine

/-! ## The boundary-scan chain (R535) -/

/-- The chain, from TDI. -/
def tapChain : List BrimDie := [0, 1, 2, 3]

/-- The instructions that stand in the chain's instruction registers after a scan; `codes` lists them from TDI. While TRST_N holds the chain
in reset nothing is scanned. -/
def State.irScan (s : State) (codes : List TapInstr) : State :=
  if s.power.jtag ∧ codes.length = tapChain.length then { s with power := { s.power with tapIr := codes } } else s

/-- TRST_N is driven, or falls to its internal pull-down: the chain leaves reset or returns to it. -/
def State.trstN (s : State) (high : Bool) : State :=
  { s with power := { s.power with jtag := high, tapIr := if high then s.power.tapIr else Power.reset.tapIr } }

/-- The instruction that acts: once OWNER_SET is 1, all but the four that are always available act as BYPASS. -/
def tapActs (ownerSet : Bool) (i : TapInstr) : TapInstr :=
  match i with
  | .bypass | .idcode | .samplePreload | .extest => i
  | .other _ => if ownerSet then .bypass else i

/-- What a Brim die's instruction register makes its port do. -/
def State.tapInstr (s : State) (b : BrimDie) : TapInstr := tapActs s.fuses.ownerSet (s.power.tapIr.getD b.val .idcode)

/-- The IDCODE of the device's stepping. -/
def State.idcode (s : State) : Nat := if s.fuses.stepping = 1 then 0x1C4006D7 else 0x0C4006D7

/-- Whether a Brim die's port reaches that die's BOOT_ registers, whether its ROM is halted or not. -/
def State.tapReaches (s : State) (b : BrimDie) : Bool :=
  s.power.jtag && match s.tapInstr b with
    | .other _ => true
    | .bypass | .idcode | .samplePreload | .extest => false

/-- What a Brim die's port reads at an offset of the BOOT_ region. BOOT_ registers permit no write from it (R469). -/
def State.tapRead (s : State) (b : BrimDie) (off : Nat) : Option Nat :=
  if s.tapReaches b then (regAt (mkAddr (brimIdx b.val) 0x200 off)).map (fun k => (s.view k).1) else none

/-- What a port scans out as its data register is selected: the IDCODE, or the single 0 of BYPASS (IEEE 1149.1, log 60). -/
def State.tapCapture (s : State) (b : BrimDie) : Option Nat :=
  match s.tapInstr b with
  | .idcode => some s.idcode
  | .bypass => some 0
  | .samplePreload | .extest | .other _ => none

/-! ## Configuration space (R470, R471) -/

/-- What the endpoint's function identifies itself by. -/
structure EndpointId where
  vendor    : BitVec 16
  device    : BitVec 16
  subsystem : BitVec 16
  revision  : Byte
  classCode : BitVec 24
  deriving DecidableEq, Repr

/-- The identification of the principal's function; its subsystem ID is the grade, and its revision ID the stepping. -/
def State.endpointId (s : State) : EndpointId :=
  { vendor := 0x1F6B, device := 0x0C40, subsystem := BitVec.ofNat 16 s.fuses.grade,
    revision := if s.fuses.stepping = 1 then 0x10 else 0x01, classCode := 0x120000 }

/-- Whether a Brim die's endpoint answers: a peripheral's is held in reset (R444). -/
def State.endpointUp (s : State) (b : BrimDie) : Bool := decide (brimIdx b.val = s.prinDie) && !s.pllDown .pcie

/-- Slot Clock Configuration: the endpoint runs from the device's own crystal. -/
def slotClockConfig : Bool := false

/-- A write of Common Clock Configuration, of either value, has no effect on the device. -/
def State.commonClockWrite (s : State) (_ : Bool) : State := s

end Sys2Proof.Machine
end

