-- ==== Sys2Proof/Tests/Slice0.lean ====
section
/-!
SUPPORT. The model's own tests. First, an ill-formed command for each check of WellFormed.lean. Then a few worked examples and tables of the
spec, one step or one operation each. Then, for every statement of Certificates/Slice0/Obligations.lean that has hypotheses, a theorem
`witness_<its name>` that shows a concrete state and operands meeting all of them together, one conjunct for each clause.
-/

-- One proof at a time: each runs the machine, and many at once take more memory than the check allows.
set_option Elab.async false

namespace Sys2Proof.Tests

open Sys2Proof Sys2Proof.Machine

/-! ## States for the tests -/

/-- The state after reset. -/
def s0 : State := State.reset

/-- The firmware runs on the principal, whose die runs. -/
def sUp : State := { s0 with boot := { s0.boot with running := true }, dies := [(0x20, { Die.reset with alive := true })] }

/-- A control core of Brim die 0. -/
def core : Port := .core 0 0

/-- A control core of Brim die 0: 0 runs the supervisor, 1 the serving assist, 3 the link manager, 4 the steward, 5 the calibration, 6 the
telemetry. -/
def coreOf (n : Fin 8) : Port := .core 0 n

/-- A tile, and the header of an operation on it that meets nothing in the silicon. -/
def tl : TileId := ⟨0, 0⟩
def op : OpHdr := ⟨tl, 0, 0, OpEnv.quiet⟩

/-- The tile's sequencer runs. -/
def sRun : State := s0.setFld (tReg tl .tilStatus) 0 3 2

/-- Firmware runs, and partition 0 has what `f` makes of an empty one. -/
def sPart (f : Part → Part) : State := sUp.setPart 0 (f Part.reset)

/-- An empty step. -/
def step0 : Step := ⟨0, [], [], false, [], []⟩

/-- Nothing met at start-up. -/
def env0 : BootEnv := ⟨false, true, [], [], [], [], [], [], [], true, [], []⟩

/-- A die is in partition 0. -/
def own (d : Nat) (s : State) : State := s.setFld (uReg d 0x201 .mshPart) 0 5 0x10

/-- A form without anything in it. -/
def form0 : Form := ⟨0, 1, 1, false, 1, 0, 64, 1, 0, 0, [], [], [], [], [], [], []⟩

/-! ## Ill-formed commands -/

def tl0 : TileId := ⟨0, 0⟩
def hdr0 : OpHdr := ⟨tl0, 0, 0, OpEnv.quiet⟩
def body0 : SubmitBody := ⟨0, 1, 0, 0, 0, 0, 0, 0, 0, 0, 0, 0, 0, 0, 0, 0, 0, []⟩
def lh0 : LinkHdr := ⟨0, 0, 0, 0, 64, 0, 1, none⟩
def osp0 : OspHdr := ⟨0, 0, 0, 0, 0, 0, 0⟩
def peerZ : PeerAddr := ⟨0, 0, false, 0⟩
def sq0 : SqEntry := ⟨1, 1, 0, 0, 64, 0, 0, 0, 0⟩

theorem smoke_addresses : [(.registerWrite .pcie 2 0 15 : Instr), .rcFieldRead .pcie 1, .pairLoRead .pcie 3, .pairHiWrite .pcie 6 0,
    .counterSelectWrite .pcie 2 0, .counterWrap 1 0 0, .descriptorWrite .pcie tl0 0x7FFC 0, .descriptorWrite .pcie tl0 0x8002 0,
    .eccWriteback tl0 0x60000].any Instr.wf = false := by decide

theorem smoke_headers : [({ hdr0 with cycle := 2 ^ 18 } : OpHdr), { hdr0 with opidx := 2 ^ 24 }, { hdr0 with env := ⟨[(0xC000, true)], [], false⟩ },
    { hdr0 with env := ⟨[], [⟨0x1800, tl0, 0, true⟩], false⟩ }].any (fun h => Instr.wf (.endOp h)) = false := by decide

theorem smoke_passes : [(⟨0, .none, 0, 0, []⟩ : PassOps), ⟨0, .none, 0, 0, [0, 1, 2, 3, 4]⟩, ⟨0, .none, -19, 0, [0]⟩, ⟨0, .none, 9, 0, [0]⟩].any
    (fun o => Instr.wf (.pass32 hdr0 o)) = false := by decide

theorem smoke_pass_outputs : [(⟨[⟨544, 0, 0, 1⟩], [], [], [], 0⟩ : PassEnv), ⟨[], [⟨0, 32, 0, 1⟩], [], [], 0⟩, ⟨[⟨0, 0, 4, 1⟩], [], [], [], 0⟩,
    ⟨[], [], [512], [], 0⟩, ⟨[], [], [], [2048], 0⟩].any
    (fun e => Instr.wf (.passOutputReady ⟨tl0, 0⟩ e)) = false := by decide

theorem smoke_registers_and_widths : [(.aout hdr0 29 0 .fp16 : Instr), .transpose hdr0 29 0 0 1, .transpose hdr0 0 0 3 1, .gather hdr0 0 0 0 3 1].any
    Instr.wf = false := by decide

theorem smoke_measurements : [(.sensorConversion 0 0 4096 : Instr), .ringHeaterCal 0 0 1001, .equaliserCal 0 0 101 [], .bowtrimCal [96],
    .equaliserCal 0 0 50 (List.replicate 65 0), .laserMonitorPoll 0 ⟨[1, 2, 3], [0, 0, 0, 0], 300⟩, .moduleInserted 0 [1, 2]].any Instr.wf = false := by
  decide +kernel

theorem smoke_crown_and_mesh : [(.crownStreamRead 0 tl0 0 0 .clean : Instr), .crownStreamRead 0 tl0 (2 ^ 35) 32 .clean, .crownAppendWrite 0 tl0 0 [] false,
    .crownPoolAccess 0 tl0 0 (some ([1], false)) 2 .clean, .adapterWindowRead 0 tl0 1 (2 ^ 35), .meshPacketArrival 0 0 ⟨.tile tl0, 0, false, false, false, []⟩,
    .dmaLanding tl0 0 ⟨[(0xC000, false)], [], false⟩].any Instr.wf = false := by decide +kernel

theorem smoke_loads_and_fulling : [(.boltData 0 0 0 1 1 [7] : Instr), .fullingComplete ⟨tl0, 0⟩ [], .fullingComplete ⟨tl0, 0⟩ (List.replicate 9 ⟨[], []⟩),
    .fullingComplete ⟨tl0, 0⟩ [⟨[], [⟨0, 0, [1]⟩]⟩]].any
    Instr.wf = false := by decide

theorem smoke_start_up : [(.pgoodRise { env0 with trips := List.replicate 41 (0, 100) } : Instr),
    .resetNRelease { env0 with diodes := List.replicate 37 (0, 0, 0, 0) }].any Instr.wf = false := by decide +kernel

theorem smoke_messages : [(.submit 0 peerZ osp0 ⟨1, some body0, []⟩ : Instr), .submit 0 peerZ osp0 ⟨0, none, []⟩,
    .submit 0 peerZ osp0 ⟨0, some { body0 with stops := [1, 2, 3, 4, 5] }, []⟩, .partialListArrive 0 ⟨0, 0, false, 2 ^ 17, []⟩,
    .partialListArrive 0 ⟨0, 0, false, 0, [(0, 2 ^ 16)]⟩, .partialListArrive 0 ⟨0, 2 ^ 24, false, 0, []⟩, .hostBoltData sq0 [1]].any Instr.wf = false := by
  decide +kernel

theorem smoke_links : [(.linkJobAck 0 { lh0 with channel := 64 } : Instr), .linkJobAck 0 { lh0 with kind := 256 }, .linkJobAck 0 { lh0 with packets := 2 ^ 16 },
    .linkJobWrite 0 lh0 [] [], .identityRecord 0 0 ⟨0, 48, 0, 0⟩].any Instr.wf = false := by decide

theorem smoke_long_data : (.submit 0 peerZ osp0 ⟨1, none, List.replicate 2049 0⟩ : Instr).wf = false ∧
    (.linkStoreWrite 0 lh0 (List.replicate 4065 0) : Instr).wf = false ∧
    (.partialListArrive 0 ⟨0, 0, false, 0, List.replicate 257 (0, 0)⟩ : Instr).wf = false := by decide +kernel

/-- And a well-formed one of each of a few shapes. -/
theorem smoke_well_formed : [(.registerWrite .pcie 4 0 15 : Instr), .endOp hdr0, .pass32 hdr0 ⟨0, .fp16, -18, 0, [0, 1, 2, 3]⟩,
    .boltData 0 0 0 1 2 [7], .linkJobWrite 0 lh0 [1] []].all Instr.wf = true := by decide

/-! ## Worked examples and published values -/

/-- The 32 FP16 values of the worked example of 02_number_formats.md ("one RM-240 block"). -/
def rmBlock : List FV := [2, -4, 6, 1, -7, 8, -2, 156, 4, -1, 5, 3, -6, 0, 7, -8, 1, 4, -3, 2, -104, 10, -5, 0, 3, -4, 6, -1, 8, -7, 2, 4].map
  (fun (v : Int) => FV.fin (decide (v < 0)) v.natAbs 0)

/-- Its swatch: block 1 has no outlier, block 2 one occupied nap slot, block 3 is zero; slot 0x2A5, layer 0x25, generation 3, position 0x75A0. -/
def rmSwatch : List Byte :=
  (quantSwatch (rmBlock ++ List.replicate 32 (FV.fin false 1 0) ++ (FV.fin false 100 0 :: List.replicate 31 (FV.fin false 1 0)) ++
    List.replicate 32 (FV.fin false 0 0)) 2 3 0x2A5 0x25 3 0x75A0).1

/-- The header bytes, the quotients, the scale, the two nap slots and the nap scale of the worked example. -/
theorem test_quantiser_worked_example :
    rmSwatch.take 8 = [0xA5, 0x52, 0x32, 0x00, 0x5A, 0x07, 0x00, 0x0E] ∧
    (rmSwatch.drop 8).take 32 = [0x17, 0xD1, 0x46, 0x0C, 0xAF, 0x5D, 0xE9, 0x00, 0x2F, 0xF4, 0x3A, 0x23, 0xBA, 0x00, 0x51, 0xA3,
      0x0C, 0x2F, 0xDD, 0x17, 0x00, 0x74, 0xC6, 0x00, 0x23, 0xD1, 0x46, 0xF4, 0x5D, 0xAF, 0x17, 0x2F] ∧
    (rmSwatch.drop 136).take 1 = [0x1B] ∧ (rmSwatch.drop 140).take 4 = [0x07, 0x7D, 0x14, 0xAD] ∧ (rmSwatch.drop 156).take 1 = [0x3A] := by
  decide +kernel

/-- R351: three packets of 4,064, 4,064 and 2,112 bytes in the worked example of 10_links.md; R333's 17 flits for the first. -/
theorem test_link_packets : ceilDiv 10240 4064 = 3 ∧ ceilDiv (4064 + 16) 240 = 17 := by decide

/-- R35: unit u is two dies of column pair u / 4 in row u mod 4, so unit 5 is BD10 and BD11. -/
theorem test_unit_dies : unitDies 5 = [10, 11] := by decide

/-- R497: the trims come off the raw code before any comparison, ties to even; the code is clamped to 0 to 4,095. -/
theorem test_trimmed : trimmed 1930 0 0 = 1930 ∧ trimmed 4090 (-10) 0 = 4095 ∧ trimmed 3 5 0 = 0 ∧ trimmed 1024 0 1 = 1024 := by decide

/-- The converter of the worked example of 13_calibration.md: offset 1.37 LSB, gain 1.0323 of 8-bit mode; trims of -5 and -25 steps. -/
theorem test_converter_trims : convOk false ⟨137, 10047, -9773⟩ = true ∧ convTrims false ⟨137, 10047, -9773⟩ = (-5, -25) := by decide

/-- The limit codes of the worked example of 17_sensor_converter.md: η = 1.008 as ideality word 0x020C, gain 8, the 1.250 V reference, ln 10.04 =
2.30658; release at 93 °C, warn at 95 °C, emergency at 102 °C. -/
theorem test_limit_codes (s : State) (hn : Config.lnRatio 0 5 = 230658) (hv : s.snsReference 0 = 1250000) (hi : s.idealOf 0 5 = 0x020C) :
    s.diodeCode 0 5 8 93 = 1924 ∧ s.diodeCode 0 5 8 95 = 1934 ∧ s.diodeCode 0 5 8 102 = 1971 := by
  simp only [State.diodeCode, State.diodeKelvin, hn, hv, hi]
  decide +kernel

/-- R500: at the pull-up's own resistance a thermistor reads 25.0 °C. -/
theorem test_thermistor : (s0.thermistorReading 2048).1 = 250 := by decide +kernel

/-- R73: a fused multiply-add rounds once; 2049 × 1 + 0 in FP16 is a tie that goes to the even 2048. -/
theorem test_fma_once : eFma .fp16 0x6800 0x3C00 0x3C00 = some 0x6800 ∧ eFma .int32 3 4 5 = some 17 := by decide +kernel

/-- R155: packed INT8 saturates, INT32 wraps (R73). -/
theorem test_integers : i8op (· + ·) 0x7F 1 = some 0x7F ∧ eAdd .int32 0xFFFFFFFF 1 = some 0 := by decide +kernel

/-- The check value of the IEEE 802.3 CRC-32: the digits 1 to 9 give 0xCBF43926 (the CRC that R332 names). -/
theorem test_crc : crc32 [0x31, 0x32, 0x33, 0x34, 0x35, 0x36, 0x37, 0x38, 0x39] = 0xCBF43926 := by decide +kernel

/-- PWR_ALLOT_n takes 12,000 W where the start record allots 15,000 W (the worked example of 12_power_thermal.md), and no more than that. -/
theorem test_allotment_write :
    (∃ t, exec (.registerWrite (coreOf 4) (BitVec.ofNat 48 (RegKey.addr (uReg 0x20 0x202 .pwrAllot 0))) 12000 15) (sPart (fun x => { x with startAllot := 15000 })) =
      .next t ∧ t.reg (uReg 0x20 0x202 .pwrAllot 0) = 12000) ∧
    ∃ t, exec (.registerWrite (coreOf 4) (BitVec.ofNat 48 (RegKey.addr (uReg 0x20 0x202 .pwrAllot 0))) 15001 15) (sPart (fun x => { x with startAllot := 15000 })) =
      .next t ∧ t.reg (uReg 0x20 0x202 .pwrAllot 0) = 0 := ⟨⟨_, rfl, by decide +kernel⟩, _, rfl, by decide +kernel⟩

/-! ## Every hypothesis of a statement is met somewhere: supply, reset, start-up, firmware -/

theorem witness_SupplyAndResetPins : 1000 ≤ 1000 ∧ 999 < 1000 ∧ Accepts s0 .pcie (s0.pReg 0x200 .bootReset) 0xC1E50000 := by decide

def sPgoodLow : State := { s0 with power := { s0.power with pgood := false, resetN := true } }

theorem witness_StartUpRunsWhenReleased :
    (sPgoodLow.power.vin48 = true ∧ sPgoodLow.power.v18 = true ∧ sPgoodLow.power.pgood = false ∧ sPgoodLow.power.resetN = true) ∧
    (s0.power.resetN = false ∧ s0.power.pgood = true) ∧ env0.flashOk = true ∧ { env0 with flashOk := false }.flashOk = false ∧
    s0.directory.1.trial = false := by decide

def sWdog (l : List Nat) : State :=
  { sUp with boot := { sUp.boot with expiries := l }, bow := { sUp.bow with time := 1000000000 } }

theorem witness_ComponentsAreSupervised :
    (Accepts s0 core (s0.pReg 0x200 .bootWdog) 1 ∧ (1 : W32).getLsbD 0 = true) ∧
    ((sWdog [0]).boot.running = true ∧ (sWdog [0]).degraded = false ∧ (sWdog [0]).boot.wdogKick + 1000000000 ≤ (sWdog [0]).bow.time ∧
      (sWdog [0]).updIs ≠ 6 ∧ ((sWdog [0]).boot.expiries.filter (fun t => decide ((sWdog [0]).bow.time < t + 60000000000))).length < 2) ∧
    2 ≤ ((sWdog [0, 1]).boot.expiries.filter (fun t => decide ((sWdog [0, 1]).bow.time < t + 60000000000))).length ∧
    (sUp.boot.running = true ∧ Component.telemetry.id ≠ 1 ∧ Component.powerSteward.id = 4 ∧ sUp.compState 6 < 2 ∧ sUp.compState 4 < 2 ∧
      sUp.degraded = false ∧ (sUp.setFld (sUp.pReg 0x200 .bootStatus) 22 1 1).degraded = true) := by decide

def sStaged (st : Nat) : State := sUp.updState st 0

theorem witness_UpdatesAreStagedAndActivated :
    (Accepts s0 core (s0.pReg 0x200 .bootUpdCmd) 1 ∧ (sStaged 2).updBusy = true ∧ s0.updBusy = false ∧ (1 : W32).getLsbD 2 = false) ∧
    (Accepts (sStaged 3) core (s0.pReg 0x200 .bootUpdCmd) 2 ∧ (sStaged 3).updIs = 3 ∧ (sStaged 3).boot.updKind = false ∧
      (sStaged 3).hostOutside (sStaged 3).boot.newMatrix = false ∧
      ((sStaged 3).setFld ((sStaged 3).pReg 0x20C .hifStatus) 6 2 1).hostOutside (leBytes 18 0 ++ leBytes 4 1 ++ leBytes 4 1) = true) ∧
    (Accepts (sStaged 4) core (s0.pReg 0x200 .bootUpdCmd) 3 ∧ (sStaged 4).updIs = 4 ∧ (sStaged 4).quiescent = true ∧ (sStaged 5).updIs = 5 ∧
      updOrder.filter (fun c => !(sStaged 4).boot.replaced.contains c) = [6, 5, 3, 2, 4, 1] ∧
      updOrder.filter (fun c => !([6, 5, 3, 2, 4] : List Nat).contains c) = [1]) ∧
    ((sStaged 6).updIs = 6 ∧ { (sStaged 6).boot with replaced := [5] }.replaced.contains Component.calibration.id = true) := by decide

def sTrial : State :=
  { sUp.writeDir { Dir.default with trial := true } with bow := { sUp.bow with time := 60000000000 } }

theorem witness_TrialsOwnerAndFenceMap :
    ((sStaged 6).updIs = 6 ∧ (sStaged 6).boot.updStart + 60000000000 ≤ sTrial.bow.time) ∧
    (sTrial.boot.running = true ∧ (sTrial.bootFld 19 1 1).fldOf (sTrial.pReg 0x200 .bootStatus) 19 1 = 1 ∧ sTrial.updIs ≠ 6 ∧
      sTrial.boot.restarted = false ∧ sTrial.boot.checkFail = false ∧ sTrial.boot.superAt + 60000000000 ≤ sTrial.bow.time) ∧
    (Accepts s0 .pcie (s0.pReg 0x200 .bootOwner 11) 1 ∧ s0.fuses.ownerSet = false ∧ { s0.fuses with ownerSet := true }.ownerSet = true) ∧
    (Accepts s0 .pcie (s0.pReg 0x200 .bootOwnerBurn) 1 ∧ (1 : W32).getLsbD 0 = true) := by decide

theorem witness_trial_directory : sTrial.directory.1.trial = true := by decide +kernel

/-! ## The bowstring -/

def sSlot (f : Part → Part) : State := sPart (fun x => { f x with job := .running })

def sLaunch : State := sSlot (fun x => { x with staged := true, next := some step0, running := some step0, readyAt := some 0, barrier := some 0 })

/-- The source has one command to send, or none. -/
def sSend (l : List BowCmd) : State := { sUp with bow := { sUp.bow with sendq := l } }

theorem witness_SymbolsOfTheBowstring : BowQuiet (sSend []) ∧ (sSend []).fallDue.bowNext = none ∧
    (∀ c ∈ [BowCmd.freeze, .thaw, .emergency, .skip true 0 8, .skip false 1 0], BowQuiet (sSend [c]) ∧ (sSend [c]).fallDue.bowNext = some c) ∧
    (sSend [.freeze]).frozen = false ∧ ({ sSend [.freeze] with dies := [(0x20, { Die.reset with alive := true, frozen := true })] }).frozen = true ∧
    skipIllegal 0 8 = false ∧ skipIllegal 1 0 = false ∧ skipIllegal 0 15 = false ∧ skipIllegal 3 0 = true := by decide +kernel

def at32 (s : State) : State := { s with bow := { s.bow with time := 32 } }

theorem witness_StepsLaunchAndHold :
    ((sLaunch.part 0).job = .running ∧ (sLaunch.part 0).staged = true ∧ (sLaunch.part 0).next.isSome = true ∧
      (sLaunch.part 0).running.isSome = true ∧ (sLaunch.part 0).readyAt = some 0 ∧ (sLaunch.part 0).barrier = some 0 ∧
      sLaunch.fldOf (sLaunch.pReg 0x201 .bowJob 0) 0 8 = 0) ∧
    ((max 0 (0 + 48) + 15) / 16 * 16 ≤ (at32 sLaunch).bow.time + 16 ∧ sLaunch.bow.time + 16 < (max 0 (0 + 48) + 15) / 16 * 16) ∧
    (BowQuiet (at32 sLaunch) ∧ 0 ∈ (at32 sLaunch).fallDue.launchesDue ∧ (at32 sLaunch).fallDue.bowNext = some (.launch 0)) ∧
    (let s := sSlot (fun x => { x with running := some step0, barrier := some 5 })
     let h := { s with bow := { s.bow with sendq := [.hold 0] } }
     BowQuiet h ∧ h.fallDue.bowNext = some (.hold 0) ∧ (h.part 0).heldSince = none ∧ (h.fallDue.part 0).barrier = some 5) := by decide

theorem witness_launch_keeps_next :
    let s := at32 sLaunch
    let u := ((((s.fallDue.sendFrame (BowCmd.code (.launch 0))).bowSent (.launch 0)).slotEnd).endHold 0).commit 0
    (u.part 0).next = some step0 ∧ (u.part 0).job = .running := by decide +kernel

/-- A step of 20,000 cycles runs, and has run `n` of them. -/
def sCycles (n : Nat) (f : Part → Part) : State :=
  sSlot (fun x => f { x with form := some { form0 with shapes := [⟨1, 0, 0, 20000, 10000, 1000, 64, 5000⟩] }, running := some step0, cyc := n })

theorem witness_barriers_and_limits :
    (((sCycles 19990 id).part 0).barrier = none ∧ ((sCycles 19990 id).part 0).idle = false ∧
      ((sCycles 19990 id).part 0).shape? = some ⟨1, 0, 0, 20000, 10000, 1000, 64, 5000⟩ ∧
      20000 - 19990 ≤ slotCycles (sCycles 19990 id).sourceThrottle.1 (sCycles 19990 id).sourceThrottle.2 ∧
      slotCycles (sCycles 0 id).sourceThrottle.1 (sCycles 0 id).sourceThrottle.2 < 20000 - 0 ∧
      (at32 (sCycles 19990 (fun x => { x with readyAt := some 0 }))).bow.time = 32 ∧ (sCycles 19990 id |>.peersReady 0).1 = true ∧
      ((sCycles 19990 id).part 0).readyAt = none ∧ ((sCycles 19990 id).part 0).staged = false) ∧
    ((sSlot (fun x => { x with units := 1 })).dieCanReady 0 0 = true ∧
      ((sSlot (fun x => { x with units := 1, prinReady := true, readyDies := [1] })).part 0).dies = [0, 1]) ∧
    (((sSlot (fun x => { x with heldSince := some 0 })).part 0).heldSince = some 0 ∧
      0 + 1000 * (sSlot id).fldOf ((sSlot id).pReg 0x201 .bowHoldlim 0) 0 16 < 1000000000 + 16) := by decide

theorem secded_half (v : Nat) : secded (frameHalf v) = some (v % 256, false) := by
  have h1 : frameHalf v % 256 = v % 256 := by unfold frameHalf; omega
  have h2 : frameHalf v / 256 % 32 = Config.bowCheck (v % 256) % 32 := by unfold frameHalf; omega
  simp [secded, h1, h2]

/-- A word read with a byte is that byte's half of a frame, or one bit away from it. -/
theorem secded_near {w : Nat} (hw : w < 2 ^ 13) {e : Nat × Bool} (h : secded w = some e) :
    ∃ b < 256, ∃ i < 14, w = frameHalf b ^^^ (if i < 13 then 2 ^ i else 0) := by
  have half : ∀ v < 2 ^ 13, (Config.bowCheck (v % 256) % 32 == v / 256 % 32) = true → v = frameHalf (v % 256) := by
    intro v hv h
    have h := eq_of_beq h
    unfold frameHalf; rw [Nat.mod_mod, h]; omega
  unfold secded at h
  simp only at h
  split at h
  · next h0 => exact ⟨w % 256, by omega, 13, by omega, by simpa using half w hw h0⟩
  · obtain ⟨i, hi, -⟩ := Option.map_eq_some_iff.1 h
    have hm := List.mem_of_find?_eq_some hi
    have ho := List.find?_some hi
    have hi := List.mem_range.1 hm
    have hx : w ^^^ 2 ^ i < 2 ^ 13 := Nat.xor_lt_two_pow hw (Nat.pow_lt_pow_right (by omega) hi)
    refine ⟨(w ^^^ 2 ^ i) % 256, by omega, i, by omega, ?_⟩
    rw [← half _ hx ho, if_pos hi, Nat.xor_assoc, Nat.xor_self, Nat.xor_zero]

/-- Fewer than 256 × 14 words are so near one of `m` halves. -/
theorem near_few (f : Nat → Nat) (n m k : Nat) (h : ∀ w < n, ∃ b < m, ∃ i < k, w = f b ^^^ (if i < 13 then 2 ^ i else 0)) : n ≤ m * k := by
  have hs : Finset.range n ⊆ (Finset.range m ×ˢ Finset.range k).image (fun x => f x.1 ^^^ (if x.2 < 13 then 2 ^ x.2 else 0)) := by
    intro w hw
    obtain ⟨b, hb, i, hi, e⟩ := h w (Finset.mem_range.1 hw)
    exact Finset.mem_image.2 ⟨(b, i), Finset.mem_product.2 ⟨Finset.mem_range.2 hb, Finset.mem_range.2 hi⟩, e.symm⟩
  have := (Finset.card_le_card hs).trans Finset.card_image_le
  rwa [Finset.card_range, Finset.card_product, Finset.card_range, Finset.card_range] at this

/-- Some word is uncorrectable, whatever the check bits are. -/
theorem witness_uncorrectable_frame : ∃ w < 2 ^ 13, secded w = none := by
  by_contra hc
  refine absurd (near_few frameHalf (2 ^ 13) 256 14 (fun w hw => ?_)) (by omega)
  cases he : secded w with
  | none => exact absurd ⟨w, hw, he⟩ hc
  | some e => exact secded_near hw he

theorem witness_unknown_symbol : secded (frameHalf 0x40) = some (0x40, false) ∧ symbolKnown 0x40 = false ∧ secded (frameHalf 1) = some (1, false) ∧
    symbolKnown 1 = true := ⟨secded_half _, by decide, secded_half _, by decide⟩

theorem witness_BowstringCommandRegisters :
    (s0.partOfDie 0 = none ∧ (own 1 (sSlot id)).partOfDie 1 = some 0) ∧
    (128 % 128 = 0 ∧ ({ s0 with bow := { s0.bow with time := 128 } }.die 0).timeCopy ≠ 128 ∧ (16 : W64).toNat = 128 - 112 ∧
      { s0.die 0 with timeCopy := 128 }.timeCopy = 128) ∧
    (Accepts s0 core (s0.pReg 0x201 .bowEmergSrc) 0x10000 ∧ (0x10000 : W32).getLsbD 16 = true) ∧
    (Accepts s0 (coreOf 4) (s0.pReg 0x201 .bowSkipCmd) 0x4F ∧ (0x4F : W32).getLsbD 6 = true ∧ (0x0F : W32).getLsbD 6 = false ∧
      s0.emergActive = false ∧ { s0 with power := { s0.power with ocActive := [.vcore 0] } }.emergActive = true) ∧
    (Accepts s0 (coreOf 4) (s0.pReg 0x201 .bowEmerg) 0x20 ∧ s0.bow.emergHeld = false ∧ { s0.bow with emergHeld := true }.emergHeld = true) ∧
    (Accepts s0 (coreOf 6) (s0.pReg 0x201 .bowFreezeCmd) 1 ∧ Accepts s0 (coreOf 6) (s0.pReg 0x201 .bowFreezeCmd) 2 ∧
      (1 : W32).getLsbD 0 = true ∧ (1 : W32).getLsbD 1 = false ∧ (2 : W32).getLsbD 0 = false ∧ (2 : W32).getLsbD 1 = true) ∧
    ((s0.setFld (s0.pReg 0x201 .bowFreezeCmd) 0 1 1).fldOf (s0.pReg 0x201 .bowFreezeCmd) 0 1 = 1 ∧ s0.bow.freezeAt ≤ s0.bow.time + 16 ∧
      s0.bow.sendq.contains .freeze = false) := by decide

/-! ## Power and temperature -/

def sForm : State := sPart (fun x => { x with form := some form0, planMicro := 1 })

/-- A calibration runs in the tile. -/
def sCalRun : State := { sUp with dies := [(0, { Die.reset with alive := true, calRun := [⟨tl.region.val, 3, 0, 0⟩], cycles := 1340 }), (0x20, { Die.reset with alive := true })] }

theorem witness_PowerBudgetAndScale : tl ∈ { sRun with tiles := [(tl, Tile.reset)] }.allTiles ∧ tl ∈ sCalRun.allTiles ∧
    sUp.due .leave = true ∧ { sUp with timers := [(.leave, 1000)] }.due .leave = false ∧ sUp.due .stewardK = true ∧
    calRunsTo 0 1340 96 = (134 * 8, 96) ∧
    sForm.stewardRuns = true ∧ (sForm.part 1).form = none ∧ (sForm.part 0).form.isSome = true ∧ (sForm.part 0).planMicro ≠ 0 := by decide

theorem witness_SkipCountsAndNormal :
    (sUp.stewardRuns = true ∧ sUp.due .powerSkip = true ∧ sUp.due .thermSkip = true ∧ { sUp with timers := [(.powerSkip, 1)] }.due .powerSkip = false ∧
      { sUp with timers := [(.thermSkip, 1)] }.due .thermSkip = false ∧ (∀ p < 16, (sUp.part p).job = .running → sUp.fldOf (sUp.pReg 0x202 .pwrK p) 0 9 = 8) ∧
      sUp.fldOf (sUp.pReg 0x202 .pwrDev) 0 16 < 20000 ∧
      ¬ (∀ p < 16, (sLaunch.part p).job = .running → sLaunch.fldOf (sLaunch.pReg 0x202 .pwrK p) 0 9 = 8) ∧
      100 * 0 < 95 * 1 ∧ ¬ 100 * 95 < 95 * 100) ∧
    ((∃ r ∈ { sUp with sensors := [(0, { Sensor.reset with temp := 2000 })] }.readings, 10 * sUp.thmLimit 0 r.2.1 ≤ r.1) ∧
      ¬ (∃ r ∈ sUp.readings, 10 * sUp.thmLimit 0 r.2.1 ≤ r.1) ∧ sUp.calm = true ∧
      { sUp with sensors := [(0, { Sensor.reset with temp := 940 })] }.calm = false ∧
      ¬ (∃ r ∈ { sUp with sensors := [(0, { Sensor.reset with temp := 940 })] }.readings, 10 * sUp.thmLimit 0 r.2.1 ≤ r.1)) ∧
    ((sUp.setFld (sUp.pReg 0x202 .pwrStatus) 0 1 1).fldOf (sUp.pReg 0x202 .pwrStatus) 0 1 = 1 ∧
      (sUp.setFld (sUp.pReg 0x202 .pwrStatus) 0 1 1).emergActive = false ∧ sUp.steward.lastActive = none) := by decide +kernel

theorem witness_NoRelease : NoRelease s0 := by intro _ _; exact ⟨by simp [s0, State.reset, Bow.reset], by simp [s0, State.reset, Bow.reset]⟩

def sRails : State := { s0 with dies := [(3, { Die.reset with alive := true, railsOn := true })] }

theorem witness_OvercurrentAndLostRails :
    (Rail.vful 3 ∉ sRails.power.ocActive ∧ Rail.vful 3 ∉ sRails.power.railsOff ∧ (sRails.die (railDie (.vful 3))).railsOn = true) ∧
    (Rail.vful 3 ∈ { sRails.power with ocActive := [.vful 3] }.ocActive ∧ railDie (.vful 3) ≠ sRails.prinDie ∧
      Tbl.find [(Rail.vful 3, 0)] (Rail.vful 3) = some 0 ∧ 0 + 100000 ≤ 100000 ∧ sRails.ocPersists (.vful 3) = false ∧
      ¬ (32 ≤ railDie (.vful 3) ∧ railDie (.vful 3) < 36) ∧ (sRails.die (railDie (.vful 3))).alive = true) ∧
    ((∀ c : Fin 20, c.val ∉ s0.power.downBus) ∧ (∃ c : Fin 20, converterOf s0.prinDie = c.val) ∧ (∃ c : Fin 20, converterOf s0.prinDie ≠ c.val) ∧
      s0.prinDie < 40) := by decide

theorem witness_lost_rail_of_a_job : { sSlot (fun x => { x with units := 1 }) with dies := sRails.dies }.usesDie 0 1 = true := by decide

theorem witness_ThermalTripAndLimits : (s0.die 39).tripped = false ∧
    Accepts sUp .pcie (uReg (brimIdx 0) 0x203 .thmLimits) 0x685F64 ∧ limitsOk 0x685F64 = true ∧ limitsOk 0x695F64 = false ∧
    (uReg (brimIdx 0) 0x203 .thmLimits).die = sUp.prinDie ∧ (uReg (brimIdx 1) 0x203 .thmLimits).die ≠ sUp.prinDie ∧
    0x601A80 % 32 < 9 ∧ 0x601A89 % 32 = 9 := by decide

/-! ## Sensors and lasers -/

/-- A running converter on Brim die 0, with entry 0 enabled in sequence 0 with both comparators. -/
def sSns : State :=
  ({ sUp with sensors := [(0, { Sensor.reset with due := [0], toFast := [1] })] }.setFld (snsReg 0 .snsCtrl) 0 1 1).setFld (snsReg 0 .snsEnt 0) 0 32 0x601A80

theorem witness_SensorPassesAndConversions :
    (sSns.fldOf (snsReg 0 .snsCtrl) 0 1 = 1 ∧ (sSns.die (brimIdx 0)).alive = true ∧ (∀ q ∈ (sSns.sensor 0).toFast, q < 4) ∧ sSns.due (.fastTick 0) = true ∧ sSns.due (.slowTick 0) = true ∧
      { sSns with timers := [(.fastTick 0, 1), (.slowTick 0, 1)] }.due (.fastTick 0) = false ∧ (sSns.dueNow 0).head? = some 0 ∧
      (sSns.dueNow 0).head? ≠ some 1 ∧ sSns.compState 6 = 0 ∧ (List.range 4).all (fun p => (sSns.fldOf (snsReg 0 .snsSeq p) 0 1 == 0)) = true ∧
      ((sSns.setFld (snsReg 0 .snsSeq 3) 0 1 1).fldOf (snsReg 0 .snsSeq 3) 0 1 = 1 ∧ (sSns.setFld (snsReg 0 .snsSeq 3) 0 1 1).fldOf (snsReg 0 .snsStatus) 3 1 = 0 ∧
        ∀ i ∈ sSns.seqEntries 0 3, i ∉ (sSns.dueNow 0).drop 1) ∧
      0x601A80 % 32 < 9 ∧ 0x601A89 % 32 = 9 ∧ 0x601A8A % 32 = 10 ∧ trimmed 2048 0 0 = 2048) ∧
    ((sSns.regN (snsReg 0 .snsEnt 0)).testBit 7 = true ∧ 0 ∈ (sSns.sensor 0).due ∧ sSns.fldOf (snsReg 0 .snsStatus) 4 1 = 0 ∧
      (sSns.regN (snsReg 0 .snsEnt 0)).testBit 21 = true ∧ (sSns.regN (snsReg 0 .snsEnt 0)).testBit 22 = true ∧
      sSns.fldOf (snsReg 0 .snsLim 0) 0 12 ≤ trimmed 4095 0 0 ∧ sSns.fldOf (snsReg 0 .snsLim 0) 16 12 ≤ trimmed 4095 0 0 ∧
      trimmed 0 0 0 < (sSns.setFld (snsReg 0 .snsRel 0) 0 12 1).fldOf (snsReg 0 .snsRel 0) 0 12 ∧ (sSns.sensor 0).line = false ∧
      (sSns.setFld (snsReg 0 .snsSeq 0) 1 1 1).fldOf (snsReg 0 .snsSeq 0) 1 1 = 1) ∧
    ((-32 : Int) ≤ -32 ∧ (-32 : Int) ≤ 31 ∧ (-128 : Int) ≤ -128 ∧ (-128 : Int) ≤ 127) := by decide

theorem witness_SensorConverterWrites :
    (Accepts sUp (coreOf 6) (snsReg 0 .snsCtrl) 0 ∧ Accepts sUp (coreOf 6) (snsReg 0 .snsCtrl) 2 ∧ 2 / 2 % 4 ≠ sUp.fldOf (snsReg 0 .snsCtrl) 1 2 ∧
      0 / 2 % 4 = sUp.fldOf (snsReg 0 .snsCtrl) 1 2 ∧ (0 : W32).getLsbD 0 = false ∧ sUp.coreRailsOff = true ∧ sRails.coreRailsOff = false) ∧
    ((sUp.setFld (snsReg 0 .snsStatus) 4 1 1).fldOf (snsReg 0 .snsStatus) 4 1 = 1 ∧ (sUp.sensor 0).settleFrom + 50000 ≤ 50000) ∧
    (Accepts sUp (coreOf 6) (snsReg 0 .snsEnt 15) 0x601A90 ∧ 0x601A90 % 32 ≤ 16 ∧ Accepts sUp (coreOf 6) (snsReg 0 .snsEnt 15) 0x601A91 ∧
      (sUp.storeReg (snsReg 0 .snsEnt 15) 0x601A90).snsBudget 0 ≤ 800 ∧ Accepts sUp (coreOf 6) (snsReg 0 .snsEnt 15) 0x73FF90 ∧
      800 < (sUp.storeReg (snsReg 0 .snsEnt 15) 0x73FF90).snsBudget 0) ∧
    Accepts sUp (coreOf 6) (snsReg 0 .snsLim 15) 0x0FFF0FFF := by decide

/-- An EEPROM that a module is accepted with, up to its identification CRC, and the CRC. -/
def idBytes : List Byte :=
  leBytes 2 1 ++ List.replicate 50 0 ++ leBytes 4 1 ++ leBytes 1 0 ++ leBytes 1 70 ++ List.replicate 6 0 ++
  (List.replicate 4 (leBytes 4 0 ++ leBytes 2 0 ++ leBytes 2 100)).flatten ++ List.replicate 156 0

def sLas (x : Laser → Laser) (st : Nat) : State :=
  { (sUp.lasSet 0 st) with lasers := [(0, x { Laser.reset with inCage := true, eeprom := idBytes })] }

theorem witness_accepted_module : laserAccept (idBytes ++ leBytes 4 (crc32 idBytes)) = true := by decide +kernel

theorem witness_LaserModulesComeAndGo :
    ((s0.laser 7).inCage = false ∧ (List.replicate 8192 (0 : Byte)).length = 8192) ∧
    (((sLas id 1).laser 0).inCage = true ∧ ((sLas id 1).laser 0).debounced = false ∧ (sLas id 1).lasSupplied 0 = true ∧
      ((sLas id 1).laser 0).since + 200000000 ≤ 200000000 ∧ (sLas id 1).bow.time < ((sLas id 1).laser 0).since + 200000000 ∧
      laserAccept ((sLas id 1).laser 0).eeprom = false) ∧
    ((sLas id 3).lasIs 0 = 3 ∧ ((sLas (fun x => { x with atPower := true }) 3).laser 0).atPower = true ∧
      s0.power.vlas.getD 0 false = true ∧ (s0.power.vlas.set 0 false).getD 0 false = false) := by
  refine ⟨⟨by decide, List.length_replicate⟩, by decide +kernel, by decide⟩

/-- Link 0 is in a job group of partition 0. -/
def sGroup : State := { sUp with start := { sUp.start with groups := [(0, ⟨true, 0, false, 0, 0, 0, 1, [0]⟩)] } }

theorem witness_LasersAreMonitoredAndSwitched :
    ((sLas (fun x => { x with powered := true }) 3).lasIs 0 ≠ 0 ∧ (sLas (fun x => { x with powered := true }) 3).lasIs 0 ≠ 2 ∧
      ((sLas (fun x => { x with powered := true }) 3).laser 0).powered = true ∧ ((sLas id 5).laser 0).powered = false ∧
      (∃ w < 4, leAt ((sLas id 5).laser 0).eeprom (70 + 8 * w) 2 ≤ [100, 0, 0, 0].getD w 0) ∧
      ¬ ((∃ w < 4, leAt ((sLas id 5).laser 0).eeprom (70 + 8 * w) 2 ≤ [99, 99, 99, 99].getD w 0) ∨
        ((10 * leAt ((sLas id 5).laser 0).eeprom 57 1 : Nat) : Int) < 700)) ∧
    ((sLas id 4).lasIs 0 = 4 ∧ (0 : Int) + 300 ≤ s16At (leBytes 66 0 ++ leBytes 2 300) 66 ∧ ¬ (1 : Int) + 300 ≤ s16At (leBytes 66 0 ++ leBytes 2 300) 66 ∧
      9 ≤ [9, 0, 0, 0].getD 0 0 ∧ (sLas id 4).due (.laser 0) = true ∧ { sLas id 4 with timers := [(.laser 0, 1)] }.due (.laser 0) = false) ∧
    (3600 ≤ ((sLas (fun x => { x with powered := true, secs := 3600 }) 3).laser 0).secs) ∧
    (Accepts (sLas id 3) (coreOf 3) (lasReg 0 .lasCtrl) 0 ∧ Accepts (sLas id 5) (coreOf 3) (lasReg 0 .lasCtrl) 1 ∧ (sLas id 5).lasIs 0 = 5 ∧
      sGroup.lasNeeded 0 = true) ∧
    Accepts (sLas id 4) (coreOf 3) (uReg (brimIdx 0) 0x20A .lasSpsrc) 2 := by decide +kernel

/-! ## Calibration -/

def arr0 : ArrayId := ⟨tl, 0⟩

/-- Array 0 is in a state, and its die runs. -/
def sArr (st : ArrState) : State :=
  { sUp with arrays := [(arr0, { Arr.reset with st := st })], dies := (0, { Die.reset with alive := true }) :: sUp.dies }

def inEmg (s : State) : State := s.setFld (s.pReg 0x202 .pwrStatus) 0 1 1

def goodCal : ArrayCalMeasure := ⟨[⟨137, 10047, -9773⟩], [⟨0, 2400, -2400⟩], [[-2000, -1000, 1000, 2000, 3000]], 15, 400, 30⟩
def badCal : ArrayCalMeasure := ⟨[⟨751, 9600, -9600⟩], [], [], 15, 400, 30⟩

theorem witness_ArrayCalibration :
    (((sArr .mapped).arr arr0).st = .mapped ∧ ((sArr .maint).die 0).alive = true ∧ ((sArr .maint).arr arr0).st = .maint ∧
      (inEmg (sArr .maint)).inEmergency = true ∧ (sArr .maint).inEmergency = false ∧ (sArr .maint).tileBusy tl = false) ∧
    ((sCalRun.die 0).calRun = [] ++ (⟨0, 3, 0, 0⟩ : CalRun) :: [] ∧ (⟨0, 3, 0, 0⟩ : CalRun).region = tl.region.val ∧
      64 ≤ 96 - (calRunsTo 0 134 96).2 ∧ 96 - (calRunsTo 0 1340 96).2 < 64 ∧ calOk goodCal = true ∧ calOk badCal = false ∧
      convOk true ⟨0, 2400, -2400⟩ = true ∧
      Tbl.get (sArr .maint).conf.arrFails arr0 0 + 1 < 3 ∧ 3 ≤ Tbl.get [(arr0, 2)] arr0 0 + 1) ∧
    ({ sArr .spare with dies := [(0, { Die.reset with alive := true, calQueue := [(0, 0)] })] }.calNext 0 = some arr0 ∧
      ((sArr .spare).arr arr0).st = .spare) := by decide +kernel

def sCal (x : CalState) : State := { sUp with conf := { sUp.conf with units := [(.ring 0 0, x), (.equaliser 0 0, x), (.sensor 0, x)] } }

def litUp (s : State) : State := s.setFld (lasReg 0 .lasState) 0 3 4

def glideOn (s : State) : State := s.setFld (uReg (brimIdx 0) 0x204 .cnfMode) 2 1 1

def lane0 : Lane := (s0.lane 0 0)

theorem witness_LaneSensorAndPllCalibration :
    (sUp.due (.cal (.ring 0 0)) = true ∧ { sUp with timers := [(.cal (.ring 0 0), 1), (.glide (.ring 0 0), 1), (.pll (.mesh 0), 1), (.bowtrim, 1)] }.due
        (.cal (.ring 0 0)) = false ∧ sUp.due (.glide (.ring 0 0)) = true ∧ sUp.due (.pll (.mesh 0)) = true ∧ sUp.due .bowtrim = true) ∧
    ((litUp sUp).lit 0 = true ∧ (20 ≤ 20 ∧ 20 ≤ 980) ∧ (19 < 20 ∨ 980 < 19) ∧ ((sCal CalState.reset).cal (.ring 0 0)).fails < 2 ∧
      ((sCal { CalState.reset with fails := 2 }).cal (.ring 0 0)).fails = 2 ∧ ((sCal CalState.reset).cal (.ring 0 0)).applied = [] ∧
      ((sCal { CalState.reset with applied := [1] }).cal (.ring 0 0)).applied ≠ [] ∧
      (glideOn (sCal { CalState.reset with applied := [1] })).glides (.ring 0 0) = true) ∧
    (({ lane0 with trained := true }).trained = true ∧ (inEmg sUp).inEmergency = true ∧ sUp.inEmergency = false ∧ 30 ≤ 30 ∧ 29 < 30 ∧
      ((sCal CalState.reset).cal (.equaliser 0 0)).fails < 2) ∧
    ((sUp.die (brimIdx 0)).alive = true ∧ (∀ q < 4, sUp.fldOf (snsReg 0 .snsStatus) q 1 = 0) ∧
      ((-16 : Int) ≤ 16 ∧ (-6144 : Int) ≤ 100 * 61 ∧ (100 : Int) * 61 ≤ 6144) ∧ ¬ ((-16 : Int) ≤ 17 ∧ (17 : Int) ≤ 16) ∧
      sUp.glides (.sensor 0) = false ∧ (sUp.sensor 0).due = [] ∧ ((sCal { CalState.reset with fails := 2 }).cal (.sensor 0)).fails = 2) ∧
    (tripOk (sUp.cal (.bowtrim 32)).last 13 = true ∧ tripOk (some 13) 22 = false ∧ (sUp.die 32).alive = true) ∧
    ((glideOn (sCal { CalState.reset with applied := [1], accepted := [7] })).glides (.ring 0 0) = true ∧
      ((sCal { CalState.reset with applied := [1], accepted := [7] }).cal (.ring 0 0)).applied = [1] ∧
      ((sCal { CalState.reset with applied := [1], accepted := [7] }).cal (.ring 0 0)).accepted = [7] ∧ (1 : Int) ≠ 7) ∧
    (((sArr .spare).die ((sArr .spare).pllDie (.fabric 0))).alive = true ∧ pllNominal (.fabric 0) ≤ 999999 + 1 ∧ 1000001 ≤ pllNominal (.fabric 0) + 1 ∧
      ¬ (pllNominal (.fabric 0) ≤ 999998 + 1) ∧ (own 0 (sSlot id)).partOfDie 0 = some 0) ∧
    ({ sUp with conf := { sUp.conf with pllBad := [.mesh 0] } }.pllDown (.mesh 0) = true ∧
      { sUp with conf := { sUp.conf with pllBad := [.mesh 0] } }.pllIdle (.mesh 0) = true) := by decide +kernel

/-! ## The Crown -/

/-- Partition 0 runs on unit 0 with two layers on die 0, tokens of 16 bytes and one lane; request 1 decodes at position 70 with one draft. -/
def kvPart : Part :=
  { Part.reset with
    present := true, started := true, units := 1, crownBase := 1, crownLen := 31, kvt := 16, lanes := 1, form := some form0, job := .running,
    running := some ⟨0, [⟨some 1, 70, 5, [9]⟩], [], true, [], [some 7]⟩, adpPages := 1, adapters := [⟨7, 0, .resident, [5]⟩], pageCount := 40,
    atLaunch := [(1, (70, [some 3, some 4]))] }

def sKv : State :=
  { ((own 0 sUp).setFld (sUp.pReg 0x207 .kvpLayers 0) 0 6 2).setPart 0 kvPart with
    slots := [(1, { Slot.reset with state := .decode, pos := 70, vector := [some 3, some 4] })] }

/-- The range on Crown die 0. -/
def kvBase : Nat := 2 ^ 30

/-- An adapter window of the pool, page set `i`, and page set 30, which stores. -/
def winAdr (i : Nat) : Nat := kvBase + sKv.poolOff kvPart 0 + i * sKv.strideC kvPart 0

theorem witness_CrownMemoryAnswers :
    (sKv.pllDown (.crownIf 0) = false ∧ sKv.crownBusy 0 0 (kvPart.crownStart 0 + 0) = false ∧ kvPart.fr ≠ 0 ∧ sKv.sumL kvPart 0 ≠ 0 ∧
      kvPart.lanes ≠ 0 ∧ 0 < sKv.streamLen kvPart 0 ∧ Tbl.find kvPart.readers (0 * 2 ^ 40 + 0) = none ∧
      sKv.layerAt kvPart 0 (0 / 1 % 2) = some (0, 0) ∧ kvPart.streamSlot 1 = none ∧ kvPart.streamSlot 0 = some 1 ∧
      Tbl.find kvPart.atLaunch 1 = some (70, [some 3, some 4]) ∧ 64 * 1 < 70 ∧ ([some 3, some 4][1]?).join = some 4 ∧
      Tbl.find kvPart.hotSnap 4 = none ∧ sKv.poison = []) ∧
    (sKv.crownArea kvPart 0 (mkAddr (crownIdx 0) 0 (winAdr 1)) 1024 = some (.window 1 0) ∧ kvPart.fr = 1024 ∧
      kvPart.streamAdapter ((2 - 1) / 1) = none ∧ kvPart.streamAdapter ((1 - 1) / 1) = some ⟨7, 0, .resident, [5]⟩ ∧
      ([5] : List Nat)[0 % 1]? = some 5 ∧ sKv.layerAt kvPart 0 (0 / 1024) = some (0, 0)) ∧
    (kvPart.appendToken 0 = some (1, 70, 0) ∧ kvPart.appendToken 1 = some (1, 71, 1) ∧ kvPart.appendToken 2 = none ∧
      ((sKv.slot 1).vector[70 / 64]?).join = some 4 ∧ Tbl.find kvPart.hotSnap 0 = none) := by decide +kernel

theorem witness_pool_and_refresh :
    (sKv.crownArea kvPart 0 (mkAddr (crownIdx 0) 0 (winAdr 330)) 32 = some .storage ∧
      sKv.areasAt 0 (mkAddr (crownIdx 0) 0 (winAdr 330) % 2 ^ 42) 32 = [] ∧ mkAddr (crownIdx 0) 0 0 < kvPart.crownStart 0) ∧
    (sKv.lineHolds 1 0 = .other ∧ sKv.lineHolds 0 1076887552 = .vectorOrRecord ∧
      (match { sKv with start := { sKv.start with boltCache := 4 } }.lineHolds 0 (2 ^ 35 - 64) with
       | .cached _ => true
       | _ => false) = true ∧ (sKv.setPart 0 { kvPart with wpages := 1 }).lineHolds 0 (winAdr 1) = .weightSlice 0 1 ∧
      sKv.lineHolds 0 (winAdr 330) = .other ∧ sKv.lineHolds 0 (winAdr 3) = .pageSlice 0 3 ∧
      { sKv with start := { sKv.start with pfxBase := 16 } }.lineHolds 0 (2 ^ 24 + 64) = .indexEntries 2) ∧
    (let held := { sKv with refresh := [((0, 1), ⟨0, 350⟩)] }
     held.crownBusy 0 0 (kvPart.crownStart 0) = true ∧ granuleOf (kvPart.crownStart 0) = 1) ∧
    (let due := { sKv with bow := { sKv.bow with time := 3900 } }
     (Tbl.get due.refresh (0, 1) Refresh.reset).last + 3900 ≤ due.bow.time ∧ due.crownHot 0 = false) ∧
    (let go := { kvPart with cyc := 3901, form := some { form0 with shapes := [⟨1, 0, 0, 20000, 10000, 1000, 64, 5000⟩] } }
     go.inStep = true ∧ sKv.plannedWindow go 0 = true ∧ sKv.plannedWindow kvPart 0 = false ∧
      (sKv.setPart 0 go).granulePart 0 1 = some 0) := by decide +kernel

/-! ## Fulling and repair -/

def fulJob (st : Fin 3) : FulJob := ⟨0, 0, st.val, 0, 5, .pushed, 0, 0⟩

/-- An array in a state, and the jobs of die 0. -/
def sFul (st : ArrState) (q f : List FulJob) : State :=
  { sArr st with dies := [(0x20, { Die.reset with alive := true }), (0, { Die.reset with alive := true, queue := q, full := f })] }

/-- A write of FUL_JOB_PUSH that asks for a fulling of array 0 of tile 0. -/
def fulPush : RegKey := fulReg 0 .fulJobPush

theorem witness_FullingJobsQueueAndStart :
    (Accepts (sFul .spare [] []) (coreOf 1) fulPush 0x50001 ∧ (0x50001 : W32).getLsbD 0 = true ∧ ((sFul .spare [] []).die 0).queue.length < 64 ∧
      ((sFul .spare [] []).arr arr0).st = .spare ∧ ((sFul .mapped [] []).arr arr0).st = .mapped ∧
      ((sFul .staged [] []).arr arr0).st = .staged) ∧
    (((sFul .spare [fulJob 0] []).die 0).alive = true ∧ ((sFul .spare [fulJob 0] []).die 0).queue = [fulJob 0] ∧ ((sFul .spare [fulJob 0] []).die 0).backlog = [] ∧
      (sFul .spare [fulJob 0] []).tileBusy tl = false) := by decide +kernel

theorem spread_empty (n a : Nat) : Memory.spread n [] a = List.replicate n Memory.blank := by
  induction n generalizing a with
  | zero => rfl
  | succ n ih => simp [Memory.spread, ih, List.replicate_succ]

theorem zeros_legal (fmt n k : Nat) (h : byteOk fmt Memory.blank = true) :
    (List.replicate n Memory.blank).all (byteOk fmt) = true ∧ (List.replicate k Memory.blank).all (fun b => decide (b.toNat < 0x7F)) = true := by
  constructor
  · exact List.all_eq_true.2 (fun x hx => by rw [(List.mem_replicate.1 hx).2]; exact h)
  · exact List.all_eq_true.2 (fun x hx => by rw [(List.mem_replicate.1 hx).2]; decide)

theorem zeros_illegal (fmt n : Nat) (h : byteOk fmt Memory.blank = false) : (List.replicate (n + 1) Memory.blank).all (byteOk fmt) = false := by
  simp [List.replicate_succ, h]

theorem witness_image_of_zeros : imageLegal 0 (Memory.bulk [] 0 imageLen) = true ∧ imageLegal 2 (Memory.bulk [] 0 imageLen) = false := by
  unfold imageLegal Memory.bulk
  rw [List.filter_nil, spread_empty, List.take_replicate, List.drop_replicate, List.length_replicate]
  constructor
  · rw [(zeros_legal 0 (min 65536 imageLen) (imageLen - 65536) (by decide)).1, (zeros_legal 0 (min 65536 imageLen) (imageLen - 65536) (by decide)).2]
    rfl
  · rw [show min 65536 imageLen = 65535 + 1 from rfl, zeros_illegal 2 65535 (by decide)]
    rfl

/-- A round that leaves rows 0 and 1 weak, and one that leaves more than 64 rows. -/
def round2 : FullRound := ⟨[0, 1], []⟩
def roundMany : FullRound := ⟨(List.finRange 512).take 65, []⟩

theorem witness_FullingEndsStagedOrFenced :
    ([fulJob 0].find? (fun j => j.tile == arr0.tile.region && j.phys == arr0.phys) = some (fulJob 0) ∧ ((sFul .fulling [] [fulJob 0]).arr arr0).st = .fulling ∧
      (fullRounds 8 512 [round2]).2.2 = [] ∧ (fullRounds 8 512 [roundMany]).2.2 ≠ [] ∧
      (fulJob 0).why = .pushed ∧ (paidDraws 10 ((fullDraws 8 512 [round2]).drop 0)).1 < (fullDraws 8 512 [round2]).length ∧
      (paidDraws 2000 ((fullDraws 8 512 [round2]).drop 0)).1 = (fullDraws 8 512 [round2]).length ∧
      (paidDraws 448 ((fullDraws 8 512 [roundMany]).drop 0)).1 = (fullDraws 8 512 [roundMany]).length ∧
      (fulJob 0).start + 4000000 ≤ 4000000 ∧ (fulJob 0).start + 4000000 < 4000001 ∧ s0.shut core (RegKey.addr (fulReg 0 .fulResult)) = false ∧ s0.shut .pcie (RegKey.addr (fulReg 0 .fulResult)) = true) ∧
    (weakRows ⟨[], []⟩ = [] ∧ weakRows round2 = [0, 1] ∧ 64 < (weakRows roundMany).length) := by decide +kernel

/-- R410: elements 0, 85, −86 and −1; row 1 takes v = (16 + 3) mod 4 in pass 16. -/
theorem test_probe : (List.range 4).map (probeByte 0) = [0x00, 0x55, 0xAA, 0xFF] ∧ probeByte 16 1 = 0xFF ∧ probeLevel 0 2 3 = -2 ∧
    probeLevel 0 3 3 = -1 := by decide

def armS (n : Nat) : State :=
  ((own 0 sUp).setPart 0 { Part.reset with launched := true, stepNo := 7 }).setFld (fulReg 0 .fulCommitStep) 0 32 n

/-- No array of tile 0 is SPARE. -/
def noSpare : State := { sArr .mapped with arrays := (List.finRange 64).map (fun a => (⟨tl, a⟩, { Arr.reset with st := .mapped })) }

theorem witness_CommitsMaintenanceAndSweep :
    (Accepts (armS 9) (coreOf 2) (fulReg 0 .fulCommitCtrl) 1 ∧ (armS 9).partOfDie 0 = some 0 ∧ (armS 9).regN (fulReg 0 .fulCommitStep) = 9 ∧
      (2 ≤ (9 + 2 ^ 32 - 7) % 2 ^ 32 ∧ (9 + 2 ^ 32 - 7) % 2 ^ 32 < 2 ^ 31) ∧ ¬ 2 ≤ (8 + 2 ^ 32 - 7) % 2 ^ 32 ∧
      ((armS 8).part 0).launched = true ∧ (s0.part 0).launched = false ∧
      Accepts (armS 9) (coreOf 2) (fulReg 0 .fulCommitCtrl) 2 ∧ (2 : W32).getLsbD 0 = false ∧ (2 : W32).getLsbD 1 = true) ∧
    (((sArr .staged).arr arr0).st = .staged ∧ ((sArr .spare).arr arr0).st = .spare ∧ ((sArr .fenced).arr arr0).st = .fenced ∧
      s0.due .pounce = true ∧ { s0 with timers := [(.pounce, 64000)] }.due .pounce = false ∧ noSpare.sparesOf tl = [] ∧ (noSpare.arr arr0).st = .mapped) := by decide +kernel

/-- Array 0 of tile 0 is fenced while a map entry names it, array 1 is SPARE, and the cache holds its image. -/
def chunk0 : Chunk := ⟨1, 0, 0, 0, 0, 0, 67584, [], 0⟩
def bolt0 : Bolt := ⟨0, 1, 9, 0, 1, 0, 0, 0xFFFF, 0, [chunk0]⟩

def sRep : State :=
  let s := (own 0 sUp).setPart 0 { Part.reset with present := true, job := .running, repair := some 0, repairCause := 0x2004, units := 1, chain := [bolt0], form := some form0 }
  let s1 := (((s.setReg (mapKey tl false 0) 0x100).setReg (tReg tl .arrBank) 0x100).modTile tl (fun x => { x with ltile := some 0 }))
  { s1 with
    arrays := [(arr0, { Arr.reset with st := .fenced }), (⟨tl, 1⟩, { Arr.reset with st := .spare })], cache := [⟨9, 0, [], 0⟩],
    dies := [(0x20, { Die.reset with alive := true }), (0, { Die.reset with alive := true, calRun := [⟨0, 5, 0, 0⟩] })] }

def flt0 : FaultRec := ⟨0x2003, 0, none, 0, 0x40, 0, 0, 0, 0, 0⟩

/-- A fenced array of a load whose flip waits. -/
def sFlip : State :=
  { sArr .fenced with arrays := [(arr0, { Arr.reset with st := .fenced }), (⟨tl, 1⟩, { Arr.reset with st := .spare })] }.setPart 0
    { Part.reset with present := true, flipStep := some 5, load := some ⟨9, some bolt0, [], [0], [0], 1, [], [(0, arr0)]⟩ }

theorem witness_PoisonRepairAndLog :
    ((kvPart.job = .running ∧ 1 ≠ kvPart.voidSlot ∧ kvPart.carriesSlot 1 = true) ∧ sRep.servingUp = true ∧
      (sRep.setFld (sRep.pReg 0x200 .bootComp) 2 2 2).servingUp = false ∧ sFlip.servingUp = true ∧ sRep.poisonedIn 0 64 = false ∧
      (sRep.tile tl).fenced = false ∧ sRep.sparesOf tl ≠ [] ∧ (sRep.part 0).repair = some 0 ∧ (sRep.arr arr0).st = .fenced ∧
      sRep.partOfDie 0 = some 0 ∧ 1 ∈ sRep.sparesOf tl ∧ sRep.tileBusy tl = true ∧ (sRep.part 0).job = .running ∧
      sRep.object 9 0 = some [] ∧ 0 + 1000000 * sRep.fldOf (sRep.pReg 0x20F .fltRepairlim) 0 16 ≤ { sRep.bow with time := 65535000000 }.time) ∧
    ({ Die.reset with toCentral := [flt0] }.toCentral = [flt0] ∧ s0.centralN < 4096 ∧ 4096 ≤ { s0 with centralN := 4096 }.centralN) ∧
    ((sFlip.part 0).flipStep.isSome = true ∧ (sFlip.part 0).launched = false ∧ (sFlip.arr arr0).st = .fenced ∧
      [(0, arr0)].find? (fun e => e.2 == arr0) = some (0, arr0) ∧ bolt0.chunks[0]? = some chunk0 ∧ sFlip.sparesOf tl = 1 :: (List.range 62).map (· + 2)) := by decide +kernel

theorem witness_image_of_a_fenced_array : sRep.imageFor arr0 = some (9, 0, chunk0) ∧ (sRep.die 0).queue.length < 64 ∧ (sRep.die 0).backlog = [] := by
  decide +kernel

/-- The same array, which a flip that waits leaves unchanged. -/
def sUnchanged : State := sRep.modPart 0 (fun x => { x with flipStep := some 5, load := some ⟨9, some bolt0, [], [], [], 0, [], []⟩ })

theorem witness_unchanged_array :
    (sUnchanged.part 0).flipStep.isSome = true ∧ (sUnchanged.part 0).launched = false ∧ (sUnchanged.arr arr0).st = .fenced ∧
    sUnchanged.sparesOf tl = 1 :: (List.range 62).map (· + 2) ∧ sUnchanged.bankRefs tl (sUnchanged.part 0).curBank 0 = true ∧
    sUnchanged.partOfDie 0 = some 0 ∧ sUnchanged.imageFor arr0 = some (9, 0, chunk0) ∧ sUnchanged.tileBusy tl = true ∧
    (sUnchanged.die 0).queue ++ (sUnchanged.die 0).full = [] ∧ (sUnchanged.die 0).backlog = [] := by decide +kernel

/-! ## Forms, bolts and requests -/

/-- A partition that exists with a form and a running job, and takes requests. -/
def jobPart : Part :=
  { Part.reset with
    present := true, started := true, units := 1, shareLen := 4, pageCount := 4, job := .running, curGen := 1,
    form := some { form0 with vocab := 16, shapes := [⟨1, 0, 0, 20000, 10000, 1000, 64, 5000⟩] } }

/-- The partition as `f` leaves it, port 0 works and channel 3 of it is open. -/
def peer0 : PeerAddr := ⟨1, 2, false, 3⟩

def sJob (f : Part → Part) : State :=
  ({ (own 0 sUp).setPart 0 (f jobPart) with chans := [((0, 3), { Chan.reset with isOpen := true, addr := peer0 })] }.setFld (ethReg 0 .ethCtrl) 0 1 1).setFld (lasReg 0 .lasState) 0 3 4

/-- A loaded form whose bolt, of one image, is STAGED. -/
def loadOf (l : List Nat) : BoltLoad := ⟨9, some bolt0, [], [0], l, 1, [], [(0, arr0)]⟩

def sLoaded : State :=
  { sJob (fun x => { x with job := .loaded, flipStep := some 1, load := some (loadOf [0]) }) with arrays := [(arr0, { Arr.reset with st := .staged })] }

theorem witness_FormsLoadAndJobsRun :
    ((sJob id).loadAccepted 0 [] = false ∧ (sJob (fun x => { x with units := 0, job := .ended, formSrc := some 1 })).loadAccepted 0 [] = true) ∧
    ((sLoaded.part 0).load = some (loadOf [0]) ∧ (sLoaded.part 0).job = .loaded ∧ (sLoaded.part 0).flipStep = some 1 ∧
      sLoaded.loadReady (loadOf [0]) = true) ∧
    (((sJob id).part 0).job = .running ∧ ∀ i, ((sJob id).slot i).twin = none ∧ ((sJob id).slot i).twinOf = none) :=
  ⟨by decide, by decide, by decide, fun _ => ⟨rfl, rfl⟩⟩

/-- A fetch of an image of 8 bytes, with and without its first piece. -/
def fetchOf (l : List (Nat × List Byte)) (t : Nat) : Fetch := ⟨2, 0, 9, 0, 8, true, l, t, 0⟩

def sFetch (f : Fetch) : State :=
  { sJob (fun x => { x with weightSrc := some 2 }) with
    fetches := [f], start := { s0.start with sources := [(2, ⟨true, 1, 0, 5, 6, 7, 8⟩)] }, bow := { s0.bow with time := 300000 } }

theorem witness_BoltsAreFetched :
    ((sFetch (fetchOf [] 0)).servingUp = true ∧ (sUp.setFld (sUp.pReg 0x200 .bootComp) 2 2 2).servingUp = false ∧
      ((sFetch (fetchOf [] 0)).part 0).weightSrc = some 2 ∧
      (∀ f ∈ (sFetch (fetchOf [] 0)).fetches, ¬ (f.part = 0 ∧ f.boltId = 9 ∧ f.chunk = manifestChunk))) ∧
    ((sFetch (fetchOf [] 0)).portOn 0 = true ∧ (sFetch (fetchOf [] 0)).fetchFor (fun x => x.kind == 1 && x.via == 0) 9 1 = none ∧
      (sFetch (fetchOf [] 0)).fetchFor (fun x => x.kind == 1 && x.via == 0) 9 0 = some (fetchOf [] 0) ∧
      pieceGaps 8 0 (insPiece (4, [1, 2, 3, 4]) (fetchOf [] 0).pieces) ≠ []) ∧
    ((sFetch (fetchOf [(4, [1])] 0)).fetches.find? (fun f => f.part == 0 && f.chunk == 0 && !f.pieces.isEmpty) = some (fetchOf [(4, [1])] 0) ∧
      (fetchOf [(4, [1])] 0).lastAt + 200000 ≤ 300000 ∧
      ∃ src, Tbl.find (sFetch (fetchOf [(4, [1])] 0)).start.sources 2 = some src ∧ src.kind ≠ 2) := by
  refine ⟨by decide, by decide, by decide, by decide, ⟨true, 1, 0, 5, 6, 7, 8⟩, by decide, by decide⟩

/-- A SUBMIT of two prompt tokens, to a partition. -/
def body (p : Byte) : SubmitBody := ⟨2, 3, p, 0, 5, 0, 11, 0, 0x3C00, 0, 0x3C00, 0, 0xFFFF, 0, 0, 0, 0, []⟩
def hdr3 : OspHdr := ⟨0x534F, 1, 1, 3, 0, 1, 0⟩

theorem witness_SubmitsAreRefusedOrAdmitted :
    OspFits (sJob id) 0 peer0 hdr3 ∧ ((sJob id).chan 0 3).pend = none ∧ promptTokens (body 0) ≤ 2048 ∧ [(4 : W32), 5].length = promptTokens (body 0) ∧
    (sJob id).refusal (body 1) [4, 5] 5 = some 2 ∧ (sJob id).refusal (body 0) [4, 5] 5 = none ∧
    (sJob id).freeSlots 0 = 1 :: [2, 3] ∧ (body 0).ctrl.toNat / 16 % 4 ≠ 2 ∧ (sJob id).earmarkPick 0 (pagesWanted (body 0)) = some [1] := by
  decide +kernel

/-- A queued request of 130 equal tokens, whose first block's index entry `e` names. -/
def ctx130 : List Nat := List.replicate 130 4

/-- The prefix key of tenant 5 in partition 0 and epoch 0. -/
def key5 : Nat := prefixKey 0 0xFFFF 5 0

def qSlot : Slot := { Slot.reset with state := .queued, part := 0, promptLen := 130, ctx := ctx130, key := key5, tenant := 5, adapter := 0xFFFF }

def idx0 (cold : Bool) : IdxEntry := ⟨true, BitVec.ofNat 64 (blockHash key5 ctx130 0), 1, cold, 6, 0, 0, 0, 5⟩

def sQ (x : Slot) (e : IdxEntry) : State :=
  { sJob id with
    slots := [(1, x)], index := [((1, 0), e)], coldUsed := if e.cold then [((0, 6), ⟨PageSet.reset, []⟩)] else [],
    pages := [((0, 1), { PageSet.reset with state := .indexed, fill := 64 }), ((0, 2), { PageSet.reset with state := .priv, fill := 64 })],
    start := { s0.start with cold := [(0, (0, 8))] } }

def fSlot : Slot := { qSlot with fetching := [0, 1], vector := [some 1] }

def hSlot : Slot := { qSlot with state := .decode, vector := [some 2] }

/-- Request 1 waits, and fewer pages than `n` are to be kept free. -/
def sLow (n : Nat) : State := let s := sQ qSlot (idx0 false); s.setFld (s.pReg 0x207 .kvpLowater) 0 24 n

theorem witness_PagesOfRequests :
    (((sQ qSlot (idx0 false)).slot 1).state = .queued ∧ ((sQ qSlot (idx0 false)).slot 1).eligible = false ∧
      ((sQ qSlot (idx0 false)).slot 1).vector = [] ∧
      ((State.probe 1 ((qSlot.promptLen - 1) / 64) 0 (sQ qSlot (idx0 false))).2.slot 1).fetching = [] ∧
      (State.probe 1 ((qSlot.promptLen - 1) / 64) 0 (sQ qSlot (idx0 false))).1 = 1) ∧
    (0 ∈ fSlot.fetching ∧ fSlot.fetching ≠ [0] ∧ (fSlot.vector[0]?).join = some 1 ∧
      (sQ fSlot (idx0 true)).entryOfHash (blockHash fSlot.key fSlot.ctx 0) fSlot.part fSlot.tenant = some ((1, 0), idx0 true)) ∧
    ((sQ hSlot (idx0 false)).promoteNext 0 = some 2 ∧ (sQ hSlot (idx0 false)).promoteNext 0 ≠ some 1 ∧
      0 < { jobPart with hotCap := 2 }.hotCap ∧ 0 ∉ (sQ hSlot (idx0 false)).hotUsed 0 ∧ 0 ∉ jobPart.hotFreed ∧
      (sQ hSlot (idx0 false)).pagePoisoned 0 2 = false) ∧
    ((sLow 9).entryOfPage 0 1 = some ((1, 0), idx0 false) ∧ Tbl.find (sLow 9).start.cold 0 = some (0, 8) ∧ 6 < 8 ∧
      Tbl.find (sLow 9).coldUsed (0, 6) = none ∧ (sLow 9).coldNext 0 = some 1 ∧ (sLow 9).pagePoisoned 0 1 = false ∧
      (sLow 0).fldOf ((sLow 0).pReg 0x207 .kvpLowater) 0 24 ≤ ((sLow 0).freePages 0).length) := by decide +kernel

def outDone : Outgoing := ⟨1, 0, [], true⟩

def sMsg (st : SlotState) (l : List Outgoing) : State :=
  { sJob (fun x => { x with outgoing := l }) with
    slots := [(1, { qSlot with state := st, channel := 3, subSeq := 9 })], bow := { s0.bow with time := 1000 } }

theorem witness_MessagesAndCancellation :
    (((sMsg .done [outDone]).part 0).launchTime + 1000 ≤ (sMsg .done [outDone]).bow.time ∧ ((sMsg .done [outDone]).part 0).outgoing = [outDone] ∧
      outDone.ended = true ∧ outDone.tokens = [] ∧ ((sMsg .done [outDone]).slot 1).host = false ∧ ((sMsg .done [outDone]).chan 0 3).isOpen = true) ∧
    (OspFits (sMsg .queued []) 0 peer0 hdr3 ∧ ((sMsg .queued []).chan 0 3).pend = none ∧ (sMsg .queued []).slotOfChan 0 3 8 = none ∧
      (sMsg .queued []).slotOfChan 0 3 9 = some 1 ∧ ((sMsg .queued []).slot 1).state.live = true ∧ ((sMsg .queued []).slot 1).cancelReq = none ∧
      ((sMsg .queued []).part 0).idle = false ∧ (sMsg .done []).slotOfChan 0 3 9 = some 1 ∧ ((sMsg .done []).slot 1).state = .done) ∧
    (Accepts (sMsg .queued []) (coreOf 1) ((sMsg .queued []).pReg 0x205 .reqKill) 1 ∧ ((sMsg .done []).slot 1).state.live = false ∧
      ((sMsg .parked []).slot 1).state = .parked ∧ ((sMsg .parked []).slot 1).twinOf = none) := by decide +kernel

def stepRun : Step := ⟨0, [], [⟨1, 1⟩], true, [], []⟩

def groupOf2 : Group := ⟨1, 1, true, 0, false, []⟩

/-- Request 1, of two prompt tokens, decodes or has its last prompt token in the running step. -/
def sCut (x : Slot) (f : Part → Part) : State :=
  ({ sJob (fun y => f { y with running := some stepRun }) with slots := [(1, x)] }).setFld (sUp.pReg 0x206 .smpLists 0) 0 7 2

def cSlot (st : SlotState) : Slot := { Slot.reset with state := st, part := 0, promptLen := 2, ctx := [4, 5], eligible := true, assigned := 2, maxNew := 3 }

def list1 : PartialList := ⟨1, 1, false, 0, [(0x3C00, 7), (0x4000, 8)]⟩

theorem witness_StepsAreComposedAndSampled :
    (((sCut (cSlot .decode) id).part 0).job = .running ∧ ((sCut (cSlot .decode) id).part 0).next = none ∧
      ((sCut (cSlot .decode) id).part 0).running.isSome = true ∧ ((sCut (cSlot .decode) id).part 0).cutDone = false ∧
      ((sCut (cSlot .decode) id).part 0).allVoid = false ∧ (sCut (cSlot .done) id).decodeCands 0 = [] ∧ (sCut (cSlot .done) id).prefillCands 0 = [] ∧
      (sCut (cSlot .decode) id).peers 0 = 0 ∧ (sCut (cSlot .decode) id).decodeCands 0 = [1] ∧
      ({ form0 with shapes := [⟨1, 0, 0, 20000, 10000, 1000, 64, 5000⟩] }.pickShape (min 1 1) (min 0 0)).isSome = true) ∧
    (((sCut (cSlot .prefill) id).part 0).voidSlot = 0 ∧ (sCut (cSlot .prefill) (fun x => { x with groups := [groupOf2] })).listsPer 0 = 2 ∧
      stepRun.dec.find? (fun d => d.slot == some 1) = none ∧ stepRun.hasLast 1 2 = true ∧
      (({ jobPart with groups := [groupOf2] }.choice 1).final = false ∧ ({ jobPart with groups := [groupOf2] }.choice 1).tokens = []) ∧
      (cSlot .prefill).select 2 [4, 5] ([] ++ listEntries list1) = some 8) ∧
    ({ jobPart with running := some stepRun }.sampled = true ∧ { jobPart with next := some step0 }.next = some step0 ∧ step0.filled = false ∧
      jobPart.flipStep = none ∧ jobPart.staged = false ∧ (sJob id).fldOf ((sJob id).pReg 0x201 .bowJob 0) 0 8 = 0) := by decide +kernel

/-! ## Links -/

/-- Link 0 is in group 0 of partition 0, with its laser locked, and lane 0 as `f` makes it; the other three are alike. -/
def sLink (f : Lane → Lane) : State :=
  { litUp (sJob id) with
    start := { s0.start with groups := [(0, ⟨true, 0, false, 0, 0, 0, 1, [0]⟩)] },
    lanes := (List.range 4).map (fun n => ((0, n), f Lane.reset)), bow := { s0.bow with time := 2000000000 } }

/-- A first flit of VC 0 or of VC 1. -/
def flitA (vc : Bool) : TxFlit := ⟨vc, true, false, [7, 9]⟩

def upLane (x : Lane) : Lane := { x with trained := true, identity := some ⟨9, 5, 0, 0⟩, credit0 := 10, held := [(4, 1, flitA false), (5, 1, flitA false), (6, 2, flitA true)], rxNext := 3 }

def flit (bad : Bool) (seq : BitVec 16) : Flit := ⟨bad, false, 0, 1, seq, 0, 1, false, false, 0, 3, false, 0, 0⟩

theorem witness_LanesReceiveRetryAndFail :
    (((sLink upLane).lane 0 0).trained = true ∧ ((sLink upLane).lane 0 0).nakFor = none ∧ (flit true 3).bad = true ∧
      (flit false 3).seq.toNat = ((sLink upLane).lane 0 0).rxNext ∧ (flit false 4).seq.toNat ≠ ((sLink upLane).lane 0 0).rxNext ∧
      (flit false 3).type = 1) ∧
    (((sLink upLane).lane 0 0).held = [(4, 1, flitA false)] ++ (5, 1, flitA false) :: [(6, 2, flitA true)] ∧
      (∀ e ∈ [(4, 1, flitA false)], e.1 ≠ 5) ∧ (∀ e ∈ [(5, 1, flitA false), (6, 2, flitA true)], e.2.1 < 8)) ∧
    (((sLink upLane).lane 0 0).held ≠ [] ∧ ((sLink upLane).lane 0 0).ackTime + 4000 ≤ (sLink upLane).bow.time) ∧
    (s0.lane 0 0).trained = false := by decide

/-- The lane sends its oldest new flit with a NAK and two credits, and of the held ones first what is to be sent again (R335, R336). -/
theorem witness_flits :
    (let x := { upLane Lane.reset with txSeq := 9, txq0 := [flitA false], symq := [(0x01, 3)], due0 := 2 }
     x.pick = some 0 ∧ x.hasNews true = true ∧ (x.flit 7 true).2.2.1 = true ∧ (x.flit 7 true).1.cvc = false ∧ (x.flit 7 true).1.credits = 2 ∧
      (x.flit 7 true).1.seq = 9 ∧ (x.flit 7 true).1.symbol = 1 ∧ (x.flit 7 true).1.ack = 3 ∧
      (({ x with again := 2 } : Lane).flit 7 true).1.seq = 5 ∧ (({ x with due1 := 300 } : Lane).flit 7 true).1.credits = 255) ∧
    (Lane.reset.flit 7 true).2.2.1 = false ∧ Lane.reset.hasNews true = false := by decide

def inTrain (x : Lane) : Lane := { x with training := true }

def inTime (x : Lane) : Lane := { x with training := true, lockTime := 1995000000 }

def wrongId : Identity := ⟨9, 5, 0, 0⟩

/-- Partition 0's group expects the partner with serial number 8. -/
def sExpect : State := { sLink upLane with start := { s0.start with groups := [(0, ⟨true, 0, false, 8, 0, 0, 1, [0]⟩)] } }

theorem witness_LanesTrainAndMeasure :
    (((sLink id).lane 0 0).training = false ∧ ((sLink id).lane 0 0).trained = false ∧ ((sLink id).lane 0 0).retryAt ≤ (sLink id).bow.time ∧
      ((sLink id).groupOf 0).isSome = true ∧ (sLink id).lit 0 = true ∧ (sLink id).pllDown (.linkPhy 0) = false) ∧
    (((sLink inTrain).lane 0 0).training = true ∧ ((sLink inTrain).lane 0 0).lockTime + 12000000 < (sLink inTrain).bow.time ∧
      (sLink inTrain).lit 0 = true ∧ ((sLink inTime).lane 0 0).training = true ∧ (sLink inTime).lit 0 = true ∧
      (sLink inTime).bow.time ≤ ((sLink inTime).lane 0 0).lockTime + 12000000 ∧ (sLink upLane).due (.latency 0 0) = true ∧
      ((sLink upLane).armTimer (.latency 0 0) 3000000000).due (.latency 0 0) = false) ∧
    (sExpect.expects 0 wrongId = false ∧ (sLink upLane).expects 0 wrongId = true ∧ (∀ m : LaneIdx, ((sLink upLane).lane 0 m.val).trained = true) ∧
      (∀ m : LaneIdx, m ≠ 0 → ((sLink upLane).lane 0 m.val).identity = some wrongId)) ∧
    ((2 ^ 24 - 8 + 100 + 7) % 2 ^ 24 = (99 : BitVec 24).toNat ∧ 2 ≤ ((sLink (fun x => { x with pings := 2 })).lane 0 0).pings ∧
      ((sLink (fun x => { x with pings := 1 })).lane 0 0).pings = 1 ∧ (∀ m : LaneIdx, ((sLink upLane).lane 0 m.val).lat = 0)) := by decide

/-- Lane 0 has a HOLD, a BARRIER and a ping to send: the HOLD goes before the BARRIER, and a ping after both (R341). -/
theorem witness_symbols_due :
    ({ Lane.reset with symq := [(0x10, 5), (0x11, 0)], pingsDue := 1 }.symbol 7 = some ((0x11, 0), { Lane.reset with symq := [(0x10, 5)], pingsDue := 1 })) ∧
    ({ Lane.reset with pingsDue := 1 }.symbol 7 = some ((0x02, 7), { Lane.reset with pingsDue := 0 })) ∧ flitTimes 0 = [0, 5, 10, 15] ∧
    flitTimes 16 = [20, 25, 30] := by decide

/-! ## Link symbols, transfers and store traffic -/

def group0 : LGroup := ⟨true, 0, false, 0, 0, 0, 1, [0]⟩

/-- The lanes of link 0 work; lane 0 has received the symbols `l`. -/
def sSym (l : Tbl Nat (Nat × Nat)) : State :=
  let s := sLink (fun x => { x with trained := true, identity := some wrongId, credit0 := 10, credit1 := 10, lastSym := l })
  (s.setPart 0 { jobPart with grantBase := 1, grantLen := 16 }).showLink 0

theorem witness_PeerSymbolsAndJobTransfers :
    (((sSym []).groupOf 0 = some (0, group0) ∧ group0.store = false ∧ group0.links.head? = some 0) ∧ ((sSym []).part 0).barriersRx = [] ∧
      ((0 % 2 ^ 16 + 2 ^ 16 - ((sSym []).part 0).stepArg) % 2 ^ 16 < 2 ^ 15) ∧
      2 ^ 15 ≤ ((2 ^ 15 : Nat) % 2 ^ 16 + 2 ^ 16 - ((sSym []).part 0).stepArg) % 2 ^ 16 ∧ ((sSym []).part 0).job = .running ∧
      Tbl.find ((sSym [(0x12, (5, 2000000000))]).lane 0 0).lastSym 0x12 = some (5, 2000000000) ∧
      (sSym [(0x12, (5, 2000000000))]).bow.time < 2000000000 + 1000) := by decide

/-- Channel 5 of partition 0: an in channel, or an out channel, of group 0 with a window of two pages. -/
def sChan (out : Bool) (xs : List LinkXfer) : State :=
  let s := sSym []
  ((s.modPart 0 (fun x => { x with xfers := xs })).setReg (s.pReg 0x209 .lnkChan 5) (BitVec.ofNat 32 (1 + (if out then 0 else 2) + 9 * 2 ^ 11))).setReg
    (s.pReg 0x209 .lnkCwin 5) (BitVec.ofNat 32 (1 + 2 * 2 ^ 16))

def xfer0 (started : Bool) : LinkXfer := ⟨7, 5, 0, 0x8003, BitVec.ofNat 48 (2 ^ 47 + 65536 + 4096 + 8), 5000, started⟩

def lhdr (len : Nat) (packets : Nat) : LinkHdr := ⟨5, 0, 0x8003, 8, len, 7, packets, none⟩

theorem witness_transfers :
    (((sChan true [xfer0 false]).part 0).xfers = [xfer0 false] ∧ Tbl.find (sChan true [xfer0 false]).start.groups 0 = some group0 ∧
      (sChan true [xfer0 false]).workingLanes group0 ≠ [] ∧ (sLink id).workingLanes group0 = []) ∧
    (bit ((sChan false []).regN ((sChan false []).pReg 0x209 .lnkChan 5)) 0 = true ∧
      bit ((sChan false []).regN ((sChan false []).pReg 0x209 .lnkChan 5)) 1 = true ∧
      fld ((sChan false []).regN ((sChan false []).pReg 0x209 .lnkChan 5)) 6 5 = 0 ∧
      (lhdr 4 1).offset + (lhdr 4 1).len ≤ ((sChan false []).chanWindow 5).2 ∧ ((sChan false []).part 0).inXfers = [] ∧
      bit (lhdr 4 1).land.toNat 15 = true ∧ ((sChan false []).tile ((sChan false []).notifyTile 5)).fenced = false ∧
      ((sChan false []).chanWindow 5).2 < (lhdr 8192 1).offset + (lhdr 8192 1).len) ∧
    (((sChan true [xfer0 true]).part 0).xfers = [xfer0 true] ∧ (xfer0 true).xfer % 2 ^ 16 = (lhdr 4 1).xfer.toNat ∧
      (sChan true [xfer0 true]).fldOf ((sChan true []).pReg 0x209 .lnkChan 5) 11 6 = 9) := by decide

/-- Group 1 serves link 0 as a store of one unit of Crown die 0. -/
def group1 : LGroup := ⟨true, 0, true, 0, 0, 0, 1, [0]⟩

def sStore (l : List Fetch) : State :=
  { sSym [] with start := { s0.start with groups := [(1, group1)], sources := [(2, ⟨true, 0, 1, 0, 0, 0, 0⟩)] }, fetches := l }

theorem witness_StoreRequestsAndChannels :
    ((sStore []).groupOf 0 = some (1, group1) ∧ group1.store = true ∧ group1.links ≠ [] ∧
      (lhdr 4 1).offset + (lhdr 4 1).len ≤ group1.storeLen * 2 ^ 30 ∧ group1.storeLen * 2 ^ 30 < (lhdr (2 ^ 30) 1).offset + (lhdr (2 ^ 30) 1).len) ∧
    (let kid := { sStore [] with start := { (sStore []).start with children := [1] }, cache := [⟨9, 0, [7], 0⟩] }
     1 ∈ kid.start.children ∧ ({ lhdr 4 1 with object := some (9, 0) }).object = some (9, 0) ∧ kid.object 9 0 = some [7] ∧ kid.object 9 1 = none) ∧
    ((sStore [fetchOf [] 0]).fetches = [fetchOf [] 0] ∧ 1 < (lhdr 4 2).packets ∧
      Tbl.find (sStore []).start.sources (fetchOf [] 0).src = some ⟨true, 0, 1, 0, 0, 0, 0⟩) ∧
    (Accepts (sStore []) (coreOf 3) ((sStore []).pReg 0x209 .lnkChan 5) 1 ∧ (coreOf 3).isCore = true ∧ ((sStore []).part 0).job = .running ∧
      ((sStore []).part 1).job ≠ .running ∧ fld (5 : Nat) 2 4 = 1) := by decide

/-! ## Service ports and counters -/

/-- A good datagram for port 0 with a message type, and a VLAN tag. -/
def frame0 (ty : Byte) (vid : Option (BitVec 12)) : EthFrame :=
  ⟨false, false, false, false, vid, false, false, false, false, BitVec.ofNat 16 ((sJob id).fldOf (ethReg 0 .ethUdp) 0 16), false, peer0, { hdr3 with type := ty }⟩

/-- Port 0 works and has an IPv4 address of 192.0.2.1, as its bytes stand on the wire. -/
def sEth : State := (sJob id).setReg (ethReg 0 .ethIpv4) 0x010200C0

theorem witness_ServicePortTraffic :
    ((sJob id).portOn 0 = true ∧ (sJob id).vlanOk 0 none = true ∧ (sJob id).vlanOk 0 (some 5) = false ∧
      (frame0 1 none).udpPort.toNat = (sJob id).fldOf (ethReg 0 .ethUdp) 0 16 ∧ (frame0 1 none).hdr.magic = 0x534F ∧
      (frame0 1 none).hdr.version = 1 ∧ (frame0 1 none).hdr.type.toNat ∈ [0x01, 0x02, 0x03, 0x04, 0x11] ∧
      (frame0 9 none).hdr.type.toNat ∉ [0x01, 0x02, 0x03, 0x04, 0x11]) ∧
    ((sJob id).portEnabled 0 = true ∧ (sUp.lasIs (2 * 0 + sUp.spSource 0)) ≠ 4) ∧
    (beNat (leBytes 4 (sEth.regN (ethReg 0 .ethIpv4))) = (0xC0000201 : BitVec 32).toNat ∧
      beNat ((List.range 4).flatMap (fun i => leBytes 4 ((sEth.setReg (uReg (brimIdx 0) 0x20B .ethIpv6 3) 0x01000000).regN (uReg (brimIdx 0) 0x20B .ethIpv6 i)))) =
        (1 : BitVec 128).toNat) ∧
    (OspFits (sJob id) 0 peer0 hdr3 ∧ ((sJob id).chan 0 3).pend = none ∧ hdr3.ack = 0 ∧ hdr3.channel.toNat < 1024 ∧
      (1 : W32).getLsbD 0 = true ∧ (0 : W32).getLsbD 0 = false ∧ ((sJob id).chan 0 3).isOpen = true ∧ ((sJob id).chan 0 4).isOpen = false) := by
  decide +kernel

def selKey : RegKey := tReg tl .ctrSel 2

theorem witness_CountersAndReader :
    (regAt selKey.addr = some selKey ∧ selKey.reg = .ctrSel ∧ Accepts (sArr .spare) (coreOf 6) selKey 0x11A ∧
      (sArr .spare).absent selKey = false ∧ (sArr .spare).barred (coreOf 6) selKey = false ∧ eventOk selKey.die selKey.region (0x1B % 256) = false) ∧
    ((RUnit.ctr.base 0 0).isSome = true ∧ bit ((s0.setReg selKey 0x11A).regN selKey) 8 = true ∧
      2 ^ 48 ≤ (s0.setPair (tReg tl .ctrValLo 2) (tReg tl .ctrValHi 2) (2 ^ 48 - 1)).pair (tReg tl .ctrValLo 2) (tReg tl .ctrValHi 2) + 1) ∧
    (Accepts sUp (coreOf 6) (sUp.pReg 0x20E .ctrRdCtrl) 1 ∧ (sUp.setFld (sUp.pReg 0x20E .ctrRdStatus) 0 2 1).fldOf (sUp.pReg 0x20E .ctrRdStatus) 0 2 = 1 ∧
      (sUp.setFld (sUp.pReg 0x20E .ctrRdStatus) 0 2 2).fldOf (sUp.pReg 0x20E .ctrRdStatus) 0 2 = 2 ∧
      sUp.fldOf (sUp.pReg 0x20E .ctrRdStatus) 0 2 ≠ 2) := by decide

/-! ## The host interface -/

/-- A session in a state, with rings of 64 entries, one entry exposed on each submission ring, and version 1. -/
def sHost (session : Nat) (h : HostSess → HostSess) : State :=
  let s := { sJob id with boot := { sUp.boot with matrix := List.replicate 22 0 ++ List.replicate 8 1 }, host := h s0.host,
                          bow := { s0.bow with time := 2 ^ 40 } }
  (((((s.setFld (s.hif .hifStatus) 6 2 session).setReg (s.hif .hifRingcfg) 0x640666).setReg (s.hif .hifSq0Tail) 1).setReg (s.hif .hifSq1Tail) 1).setReg
    (s.hif .hifSessionVer) 1).setReg (s.hif .hifCqTail) 0

theorem witness_HostSessions :
    (Accepts (sHost 0 id) .pcie ((sHost 0 id).hif .hifSessionCmd) 1 ∧ Accepts (sHost 0 id) .pcie ((sHost 0 id).hif .hifSessionCmd) 2 ∧
      (1 : W32).getLsbD 0 = true ∧ (1 : W32).getLsbD 1 = false ∧ (2 : W32).getLsbD 0 = false ∧ (2 : W32).getLsbD 1 = true ∧
      (sHost 0 id).openRefusal = 0 ∧ ((sHost 0 id).setReg ((sHost 0 id).hif .hifSessionVer) 0x2020202).openRefusal ≠ 0 ∧ (sHost 1 id).session = 1) ∧
    (Accepts (sHost 2 id) .pcie ((sHost 0 id).hif .hifHeartbeat) 0 ∧ (sHost 2 id).session = 2) ∧
    ((sHost 1 id).host.hbSeen + 1000000 * (sHost 1 id).regN ((sHost 1 id).hif .hifHbMs) ≤ (sHost 1 id).bow.time) ∧
    ((sHost 0 id).pcieUp = true ∧ 0x80000 ≤ (0x80000 : BitVec 30).toNat ∧ s0.boot.running = false ∧
      (sHost 0 (fun x => { x with bar2Seen := true })).host.bar2Seen = true ∧ (sHost 0 id).host.bar2Seen = false) := by decide

/-- Entry 1 of a ring. -/
def entry (ty : Byte) (res : BitVec 24) : SqEntry := ⟨1, ty, res, if ty = 1 ∨ ty = 0x11 then 16 else 0, if ty = 1 then 64 else 0, 9, 0, 9, 0⟩

/-- Request 1 of the host's, in a state. -/
def sHReq (session : Nat) (st : SlotState) : State :=
  { sHost session id with slots := [(1, { qSlot with state := st, prev := .decode, host := true, subSeq := 9, parkTime := 5 })] }

/-- A chunk of 3 bytes of a resident bolt, asked of the host. -/
def chunkB : Chunk := ⟨3, 0, 0, 0, 0, 0, 3, sha384 [7, 8, 9], 0⟩
def sBolt : State :=
  { (sHost 1 id).modPart 0 (fun x => { x with chain := [{ bolt0 with chunks := [chunkB] }] }) with
    fetches := [⟨2, 0, 9, 0, 3, false, [], 0, 0⟩], start := { s0.start with sources := [(2, ⟨true, 2, 0, 0, 0, 0, 0⟩)] } }

theorem witness_SubmissionRings :
    (Accepts (sHost 1 id) .pcie ((sHost 1 id).hif .hifSq0Tail) 63 ∧ Accepts (sHost 1 id) .pcie ((sHost 1 id).hif .hifSq1Tail) 64 ∧
      63 < (sHost 1 id).ringSize 0 ∧ (sHost 1 id).ringSize 1 ≤ 64) ∧
    ((sHost 0 id).sqReads 0 = false ∧ (sHost 1 id).sqReads 0 = true ∧ (entry 1 0).seq.toNat = hostNext ((sHost 1 id).regN ((sHost 1 id).hif .hifLastAcc)) ∧
      ({ entry 1 0 with seq := 2 }).seq.toNat ≠ hostNext ((sHost 1 id).regN ((sHost 1 id).hif .hifLastAcc)) ∧ Sq0Fits (sHost 1 id) (entry 1 5) ∧
      (entry 1 5).reserved ≠ 0 ∧ (∀ ty ∈ [0x01, 0x02, 0x03, 0x05, 0x11], entryOk (entry ty 0) = true) ∧
      (sHReq 1 .queued).slotOfHost 9 = some 1 ∧ (sHost 1 id).slotOfHost 9 = none ∧ ((sHReq 1 .queued).slot 1).state.live = true ∧
      ((sHReq 1 .queued).slot 1).cancelReq = none ∧ ((sHReq 1 .queued).part 0).idle = false ∧ ((sHReq 1 .parked).slot 1).state = .parked) ∧
    ((sHost 1 (fun x => { x with bodyFor := some 4 })).host.bodyFor = some 4 ∧ (sHost 1 id).host.bodyFor ≠ some 4 ∧
      [(4 : W32), 5].length = promptTokens (body 0) ∧ (sHost 1 id).refusal (body 0) [4, 5] 0 = none ∧ (sHost 1 id).freeSlots 0 = [1, 2, 3]) ∧
    ((sBolt.sqReads 1 = true ∧ (entry 0x11 0).type = 0x11 ∧ entryOk { entry 0x11 0 with len := 3 } = true ∧
      ({ entry 0x11 0 with len := 3 }).len.toNat = [7, 8, 9].length ∧ sBolt.fetchFor (fun x => x.kind == 2) 9 0 = some ⟨2, 0, 9, 0, 3, false, [], 0, 0⟩ ∧
      (0 : Nat) ≠ manifestChunk ∧ (sBolt.part 0).chunkOf 9 0 = some chunkB ∧ chunkB.digestOk [7, 8, 9] = true ∧ chunkB.type ≠ 2 ∧
      chunkB.type ≠ 1 ∧ sBolt.childAsks = [] ∧
      sBolt.object 9 0 = none ∧ (∀ p : PartIdx, (sBolt.part p.val).load = none)) ∧
      (sHost 1 id).fetchFor (fun x => x.kind == 2) 9 0 = none) := by decide +kernel

def waitDone (x : HostSess) : HostSess := { x with waiting := [.done 9 0x21 false 3 0] }
def passing (x : HostSess) : HostSess := { x with inCq := [(0, .tokens 9 130 [1, 2] [])] }

/-- The queue of completions is full: its tail is one before its head. -/
def sFullCq : State := (sHost 1 waitDone).setReg ((sHost 1 id).hif .hifCqHead) 1

theorem witness_CompletionRing :
    ((sHost 1 waitDone).host.waiting = [.done 9 0x21 false 3 0] ∧ (sHost 1 waitDone).pcieUp = true ∧
      (0 + 1) % sFullCq.ringSize 2 = sFullCq.fldOf (sFullCq.hif .hifCqHead) 0 12 ∧ sFullCq.fldOf (sFullCq.hif .hifCqTail) 0 12 = 0 ∧
      (0 + 1) % (sHost 1 waitDone).ringSize 2 ≠ (sHost 1 id).fldOf ((sHost 1 id).hif .hifCqHead) 0 12 ∧ (sHost 1 waitDone).ringSize 2 ≤ 4096) ∧
    (Accepts (sHost 1 passing) .pcie ((sHost 1 id).hif .hifCqHead) 1 ∧ Accepts (sHost 1 passing) .pcie ((sHost 1 id).hif .hifCqHead) 64 ∧
      (sHost 1 passing).ringSize 2 ≤ 64 ∧ (∀ p : PartIdx, ((sHost 1 passing).part p.val).idle = false) ∧ 1 % 2 ^ 12 = (0 + 1) % (sHost 1 passing).ringSize 2 ∧
      { sHReq 1 .decode with host := passing s0.host }.slotOfHost 9 = some 1) ∧
    ((sHost 1 id).host.sbDue ≤ (sHost 1 id).bow.time ∧ (sHost 2 id).session = 2) ∧
    (((sHReq 1 .parked).slot 1).host = true ∧ ((sHReq 1 .parked).slot 1).state = .parked ∧
      ((sHReq 1 .parked).bow.time < ((sHReq 1 .parked).slot 1).parkTime + 1000000000 * ((sHReq 1 .parked).setReg ((sHost 1 id).hif .hifOrphanS) 5000).regN ((sHost 1 id).hif .hifOrphanS)) ∧
      ((sHReq 1 .parked).slot 1).parkTime + 1000000000 * (sHReq 1 .parked).regN ((sHost 1 id).hif .hifOrphanS) ≤ (sHReq 1 .parked).bow.time ∧
      ((sHReq 1 .parked).slot 1).twinOf = none ∧ ((sHReq 1 .parked).slot 1).twin = none ∧ ((sHReq 1 .parked).part 0).outgoing = []) := by decide +kernel

/-! ## Steps and registers -/

theorem witness_StepRunsFrontCommand : { s0 with pending := [.faultLogAppend 0] }.pending = .faultLogAppend 0 :: [] ∧ s0.pending = [] := by decide

theorem witness_EveryStepKeeps : Inv s0 ∧ ∃ t, step s0 = .next t := ⟨rfl, s0, rfl⟩

theorem witness_ResetState : (tReg tl .tilStatus).reg ≠ .snsEnt ∧ ∃ f, f ∈ (tReg tl .tilStatus).reg.row.fields := ⟨by decide, _, List.mem_cons_self ..⟩

theorem witness_QuietCommandsLeaveMemory : storesNothing (.hostStatus (entry 3 0)) = true ∧ s0.deferred = [] := by decide

/-- A plain register, a register with RC fields and one of a pair, and their addresses. -/
def kEvt : RegKey := s0.pReg 0x20C .hifEvents
def kLo : RegKey := s0.pReg 0x206 .smpDrawnLo
def kErr : RegKey := s0.pReg 0x20C .hifErrcnt
def kSrc : RegKey := fulReg 0 .fulJobSrcLo
def kSrcHi : RegKey := fulReg 0 .fulJobSrcHi
def adr (k : RegKey) : DevAddr := BitVec.ofNat 48 k.addr

theorem witness_RegisterWriteByAccessType :
    regAt ((adr kEvt).toNat / 4 * 4) = some kEvt ∧ kEvt.reg.row.half = .single ∧ sUp.shut .pcie ((adr kEvt).toNat / 4 * 4) = false ∧
    (sUp.linkSeen .pcie).ownWrite .pcie kEvt 1 = none ∧ kEvt.reg ≠ .pfxEpoch ∧ sUp.sessionLocked kEvt = false ∧ sUp.absent kEvt = false ∧
    sUp.barred .pcie kEvt = false ∧ coreOnly kEvt.reg = false ∧ sUp.writeOk kEvt 1 = true := by decide

theorem witness_ReadClearsRcFields :
    regAt ((adr kErr).toNat / 4 * 4) = some kErr ∧ kErr.reg.row.half = .single ∧ sUp.shut .pcie ((adr kErr).toNat / 4 * 4) = false ∧
    sUp.absent kErr = false ∧ sUp.viewOf kErr = none ∧ kErr.reg ∉ [Reg.fulResult, .smpStatus, .hifStatus, .pwrDieCore, .pwrDieArr] := by decide

theorem witness_RegisterPairs :
    (regAt ((adr kLo).toNat / 4 * 4) = some kLo ∧ kLo.reg.row.half = .lo ∧ kLo.reg.hiOf = some .smpDrawnHi ∧
      sUp.shut core ((adr kLo).toNat / 4 * 4) = false) ∧
    (let serve := coreOf 1
     regAt ((adr kSrcHi).toNat / 4 * 4) = some kSrcHi ∧ kSrcHi.reg.row.half = .hi ∧ sUp.shut serve ((adr kSrcHi).toNat / 4 * 4) = false ∧
      (sUp.linkSeen serve).ownWrite serve kSrcHi 5 = none ∧ sUp.sessionLocked kSrcHi = false ∧ sUp.absent kSrcHi = false ∧
      sUp.barred serve kSrcHi = false ∧ serve.isCore = true ∧ sUp.writeOk kSrcHi 5 = true ∧ kSrcHi.loKey = kSrc) ∧
    (let serve := coreOf 2
     regAt ((adr kSrc).toNat / 4 * 4) = some kSrc ∧ kSrc.reg.row.half = .lo ∧ (sUp.linkSeen serve).ownWrite serve kSrc 5 = none ∧
      sUp.sessionLocked kSrc = false ∧ sUp.absent kSrc = false ∧ sUp.barred serve kSrc = false ∧ sUp.writeOk kSrc 5 = true) := by decide

/-- A register of the boot unit that the principal alone has, on another Brim die, and an address that holds nothing. -/
def kPtgt : RegKey := uReg 0x20 0x205 .reqPtgt 0
def kOther : RegKey := uReg 0x21 0x205 .reqPtgt 0
/-- An address without a register in the Partitions region of another Brim die. -/
def gapAdr : DevAddr := BitVec.ofNat 48 (mkAddr 0x21 0x210 0)

def noAdr : DevAddr := BitVec.ofNat 48 (mkAddr 63 0 0)

/-- The aperture of BAR0 reaches a device address. -/
def sAp (a : Nat) : State :=
  (sUp.setReg (sUp.hif .hifApertureLo) (BitVec.ofNat 32 (a / 2 ^ 25 * 2 ^ 25))).setReg (sUp.hif .hifApertureHi) (BitVec.ofNat 32 (a / 2 ^ 32))

theorem witness_RefusedAccessesAreDropped :
    (coreOnly kSrc.reg = true ∧ Port.pcie.isCore = false ∧ (sUp.linkSeen .pcie).ownWrite .pcie kSrc 5 = none ∧ (sAp kSrc.addr).barred .pcie kSrc = false ∧
      sUp.shut .pcie kSrc.addr = true) ∧
    (regAt ((adr kPtgt).toNat / 4 * 4) = some kPtgt ∧ coreOnly kPtgt.reg = false ∧ sUp.writeOk kPtgt 63 = false ∧ sUp.absent kPtgt = false ∧
      sUp.barred .pcie kPtgt = false ∧ (sUp.linkSeen .pcie).ownWrite .pcie kPtgt 63 = none ∧ kPtgt.reg ≠ .pfxEpoch ∧ sUp.sessionLocked kPtgt = false) ∧
    (regAt ((adr kOther).toNat / 4 * 4) = some kOther ∧ sUp.absent kOther = true ∧ sUp.barred (coreOf 1) kOther = false ∧
      sUp.shut core kPtgt.addr = false ∧ sUp.blocked core kPtgt.reg = true ∧ sUp.blocked (coreOf 1) kPtgt.reg = false) ∧
    (memAt (mkAddr 0 0 64) = some .scratchpad ∧ memAt (mkAddr 0x24 0 64) = some .dram ∧ regAt (mkAddr 0 0 64) = none ∧
      sUp.shut (coreOf 6) (mkAddr 0 0 64) = false ∧ sUp.shut (coreOf 7) (mkAddr 0 0 64) = true) ∧
    ((sHost 1 id).sessionLocked ((sHost 1 id).hif .hifRingcfg) = true ∧ (sHost 1 id).barred .pcie ((sHost 1 id).hif .hifRingcfg) = false) ∧
    (regAt (noAdr.toNat / 4 * 4) = none ∧ memAt (noAdr.toNat / 4 * 4) = none ∧ (sAp noAdr.toNat).shut .pcie (noAdr.toNat / 4 * 4) = false ∧
      sUp.otherRole (noAdr.toNat / 4 * 4) = false ∧ sUp.otherRole kSrc.addr = false) ∧
    (regAt (gapAdr.toNat / 4 * 4) = none ∧ memAt (gapAdr.toNat / 4 * 4) = none ∧ (sAp gapAdr.toNat).shut .pcie (gapAdr.toNat / 4 * 4) = false ∧
      sUp.otherRole (gapAdr.toNat / 4 * 4) = true) := by decide

/-! ## Records as bytes -/

def idxRec : IdxEntry := ⟨true, 0x1122334455667788, 0x0ABCDEF, true, 5, 7, 9, 3, 0x0201⟩
def pageRec : PageSet := { PageSet.reset with ref := 2, state := .indexed, fill := 64, owner := 0x123, hotIdx := some 4, earmark := some 0x345, tokens := [6, 7] }

/-- R289 and R268: fields at the offsets of their tables, and read back. -/
theorem witness_RecordsStandInTheirBytes :
    (idxRec.page < 2 ^ 28 ∧ idxRec.coldSlot < 2 ^ 32 ∧ idxRec.lastUse < 2 ^ 64 ∧ idxRec.hits < 2 ^ 16 ∧ idxRec.part < 16 ∧ idxRec.tenant < 2 ^ 16 ∧
      IdxEntry.ofBytes idxRec.bytes = idxRec ∧ idxRec.bytes.take 12 = [0x88, 0x77, 0x66, 0x55, 0x44, 0x33, 0x22, 0x11, 0xEF, 0xCD, 0xAB, 0xA0]) ∧
    (pageRec.ref < 2 ^ 24 ∧ pageRec.fill < 256 ∧ pageRec.owner < 2 ^ 12 ∧ pageRec.hotIdx = some 4 ∧ 4 < 0xFFFF ∧ pageRec.earmark = some 0x345 ∧
      0x345 < 2 ^ 12 ∧ pageRec.tokens.length ≤ 64 ∧ (∀ t ∈ pageRec.tokens, t < 2 ^ 17) ∧ PageSet.ofBytes (pageRec.bytes 1) = pageRec ∧
      (pageRec.bytes 1).take 8 = [2, 0, 0, 0, 2, 64, 1, 0] ∧ ((pageRec.bytes 1).drop 24).take 6 = [0x23, 0x01, 4, 0, 0x45, 0x83] ∧
      ((pageRec.bytes 1).drop 64).take 4 = [6, 0, 0, 0x80]) ∧
    (ospHdrBytes ⟨0x534F, 1, 0x81, 3, 0, 0x01020304, 5⟩ = [0x4F, 0x53, 1, 0x81, 3, 0, 0, 0, 4, 3, 2, 1, 5, 0, 0, 0]) ∧
    (s0.start.pfxBase < 2 ^ 15 ∧ (1 : Nat) < 2 ^ 17 ∧ s0.dramBytes 0 (mkAddr (crownIdx 0) 0 (s0.start.pfxBase * 2 ^ 20 + 1 * 256 + 2 * 32)) 32 = (s0.idx (1, 2)).bytes) := by
  decide +kernel

/-- R332, R333, R346, R351: a first flit with SEQ 3, ACK 4, a NAK for 5 and three credits of VC 1; a header; an identity record. -/
theorem witness_flit_layout :
    (let f : Flit := ⟨false, false, 0, 0, 3, 4, 1, false, true, 2, 3, true, 1, 5⟩
     (2 : Nat) = f.valid.toNat ∧ (flitBytes f [7, 9]).take 14 = [3, 0, 4, 0, 0x29, 0x30, 0x10, 0, 1, 5, 0, 0, 7, 9] ∧ flitOf (flitBytes f [7, 9]) = (f, [7, 9]) ∧
      (flitOf ((flitBytes f [7, 9]).set 0 2)).1.bad = true) ∧
    (let h : LinkHdr := ⟨9, 2, 0x8001, 0x01020304, 240, 7, 1, none⟩
     hdrBytes h = [9, 2, 1, 0x80, 4, 3, 2, 1, 240, 0, 0, 0, 7, 0, 1, 0] ∧ linkHdrOf (hdrBytes h) = h ∧ (txFlits 0 h (List.replicate 240 5) [1]).length = 2) ∧
    ((identityBytes ⟨0x0807060504030201, 47, 15, 0x0D0C0B0A⟩).take 14 = [1, 2, 3, 4, 5, 6, 7, 8, 47, 15, 10, 11, 12, 13]) := by
  decide +kernel

/-- R535: the IDCODE of A1 and of B0; and with OWNER_SET a private instruction acts as BYPASS and reaches no register. -/
theorem test_tap :
    ({ s0 with fuses := { s0.fuses with stepping := 1 } }.idcode = 0x1C4006D7 ∧ { s0 with fuses := { s0.fuses with stepping := 0 } }.idcode = 0x0C4006D7) ∧
    (let open' (o : Bool) : State := (({ s0 with fuses := { s0.fuses with ownerSet := o } }.trstN true).irScan (List.replicate 4 (.other 0x40)))
     (open' false).tapReaches 2 = true ∧ (open' true).tapReaches 2 = false ∧ (open' true).tapCapture 2 = some 0 ∧
      ((open' true).irScan [.idcode, .idcode, .idcode, .idcode]).tapCapture 2 = some (open' true).idcode) := by decide

/-! ## Tiles -/

/-- The sequencer of the tile runs a form of partition 0 whose layer 0 has no naps and whose layer 1 has two nap slots and a norm watch. -/
def sTile (f : Tile → Tile) : State :=
  let form : Form := { form0 with contract := 2, maxContext := 64, layers := [⟨0, 0, 0, 3, 0, 0⟩, ⟨2, 3, 0, 0, 1, 100⟩] }
  ((own 0 sRun).setPart 0 { jobPart with form := some form }).setTile tl (f { Tile.reset with opTickets := 50, meter := 50 })

theorem witness_VectorOperations : CanIssue (sTile id) op ∧ op.env.residue = false ∧ vIsFloat .fp16 = true ∧ Clear (sTile id) op ∧
    1 ≤ ((sTile id).tile tl).opTickets ∧ 1 ≤ ((sTile id).tile tl).meter ∧ ((sTile id).tile tl).waitDraw = false ∧
    (∀ c ∈ [Instr.add op 1 2 3 .int32, .exp2 op 1 2 .fp16, .load op 3 0x40, .endOp op], (sTile id).inProgram op c = true) :=
  ⟨by decide, by decide, by decide, ⟨by decide, by decide, by decide⟩, by decide, by decide, by decide, by decide⟩

/-- ADD of INT32 in cycle 9 as an operation word, and the tile running a step program of it and END in cycle 12. -/
def addOp : FormOp := ⟨9, 0x20, [1, 2, 3, 0, 2, 0, 0, 0, 0, 0, 0, 0]⟩
def sProg : State :=
  (sTile (fun x => { x with ltile := some 0 })).modPart 0 (fun x => { x with
    running := some step0, form := x.form.map (fun f => { f with
      tiles := [⟨⟨0, 0, 0, 0⟩, [[addOp, ⟨12, 0x7F, List.replicate 12 0⟩]], [], [], [], []⟩] }) })

/-- R194, R195: a pass of two swatches on logical array 5, closing in FP16 with A = −1, and the ADD. -/
theorem test_operation_words :
    FormOp.instr op ⟨0, 0x01, [5, 5, 0xFF, 7, 3, 0, 1, 0, 0, 0, 0, 0]⟩ = some (.pass32 op ⟨5, .fp16, -1, 7, [3, 4]⟩) ∧
    addOp.instr op = some (.add op 1 2 3 .int32) := by decide +kernel

/-- The tile runs its program in order, each operation in its cycle and as it stands there. -/
theorem test_step_program :
    sProg.inProgram ⟨tl, 9, 0, OpEnv.quiet⟩ (.add ⟨tl, 9, 0, OpEnv.quiet⟩ 1 2 3 .int32) = true ∧
    sProg.inProgram ⟨tl, 9, 0, OpEnv.quiet⟩ (.add ⟨tl, 9, 0, OpEnv.quiet⟩ 1 2 4 .int32) = false ∧
    sProg.inProgram ⟨tl, 12, 1, OpEnv.quiet⟩ (.endOp ⟨tl, 12, 1, OpEnv.quiet⟩) = false := by decide +kernel

/-- A result in cycle 20 for register 3, beside one in cycle 10 for register 4. -/
theorem witness_RegisterResultsShowOnTheirCycle :
    [(⟨4, 10, some [1], Tag.reset, false, false, none⟩ : VRes)].Pairwise (fun a b => a.ready ≤ b.ready) ∧
    (let e : VRes := ⟨3, 20, some [7], ⟨1, 2, 3, false⟩, false, false, none⟩
     let y : Tile := { Tile.reset with vpend := insRes e [⟨4, 10, some [1], Tag.reset, false, false, none⟩] }
     y.vregAt 20 3 = [7] ∧ (y.tagAt 20 3).slot = 1 ∧ y.vregAt 19 3 = Tile.reset.vregAt 19 3 ∧ y.vregAt 10 4 = [1]) := by decide +kernel

theorem witness_NarrowSums : ([3] : List Int).length = [List.replicate 544 (1 : Int)].length ∧ (∀ q ∈ ([3] : List Int), -128 ≤ q ∧ q ≤ 127) ∧
    (∀ r ∈ [List.replicate 544 (1 : Int)], r.length = 544) ∧
    groupOver (convertGroup (-4096) 4095 [] 0 [3] [List.replicate 544 (1 : Int)]) = false := by decide +kernel

theorem witness_LoadAndStore : (0x40 : BitVec 19).toNat / 64 * 64 + 256 ≤ 0x60000 ∧
    (vin (sTile (fun x => { x with vr := [(3, List.replicate 256 7)] })) op 3).length = 256 ∧ (sTile id).isCalib tl = false ∧
    (vtag (sTile (fun x => { x with tags := [(3, ⟨0, 0, 0, true⟩)] })) op 3).poison = true := by decide +kernel

/-- A swatch of a layer of 128 equal values, for position 3 of slot 1 under generation 5. -/
def swatchOf (layer slots : Nat) : List Byte := (quantSwatch (List.replicate 128 (FV.fin false 1 0)) slots 3 1 layer 5 3).1

/-- Generation 5 is live in bank 0; swatches stand at offsets 0 and 0x4000. -/
def sSw (f : Tile → Tile) : State :=
  ((((sTile f).setReg (tReg tl .arrBank) 0x105).setReg (mapKey tl false 0) 0x100).setBytes (tAddr tl 0) (swatchOf 0 0)).setBytes (tAddr tl 0x4000) (swatchOf 1 2)

theorem witness_SwatchAndStridedReads :
    (0 + swSize 0 ≤ 0x60000 ∧ (sSw id).poisonedIn (tAddr tl 0) (swSize 0) = false ∧ ((sSw id).swCtx tl 0).slots = 0 ∧
      ((sSw id).bytes (tAddr tl 0) 160) = swatchOf 0 0 ∧ swPoison (swatchOf 0 0) = false ∧ swMalformed ((sSw id).swCtx tl 0) (swatchOf 0 0) = none) ∧
    ((3 + 1) * 2 ^ 1 ≤ 256 ∧ 0x40 % 2 ^ 1 = 0 ∧ (∀ k ≤ 3, 0x40 + k * 32 * 2 ^ 1 + 2 ^ 1 ≤ 0x60000) ∧
      (∀ k ≤ 3, ∀ j ≤ 3, k / 4 = j / 4 → (0x40 + k * 8192 * 2) / 64 = (0x40 + j * 8192 * 2) / 64 ∨
        scpBank (0x40 + k * 8192 * 2) ≠ scpBank (0x40 + j * 8192 * 2))) ∧
    ((∀ i < 32, 0 + i * (0x180 * 32) + 32 ≤ 0x60000) ∧ scpBank (0 + 0 * (0x180 * 32)) = scpBank (0 + 1 * (0x180 * 32)) ∧
      (sSw id).partOfDie 0 = some 0 ∧ ((sSw id).part 0).job = .running) ∧
    ((Tbl.find [(2, some 5)] 2).join = some 5 ∧ { Arr.reset with out := List.replicate 512 7 }.out.length = 512 ∧ Arr.reset.passes = []) := by
  decide +kernel

/-- Window 0 of the tile watches layer 1, and has taken a swatch of position `pos` of slot 1. -/
def sWin (l : Tbl Nat Slice) : State := sSw (fun x => { x with windows := [⟨true, 1, 0, 0⟩], slices := l })

theorem witness_QuantiseSampleAndSelect :
    ((vtag (sTile id) op 0).poison = false ∧ ((sTile id).layerOf tl 0).napSlots ∈ [0, 2, 4] ∧
      (∀ v ∈ ((vElems .fp16 (vin (sTile id) op 0)).map (vVal .fp16)).take 128, v.isFinite = true) ∧
      ((sTile id).tile tl).satAt (vecCycle (sTile id) op) 0 = false ∧ ((sTile id).tile tl).nwHits = []) ∧
    (((sWin []).layerOf tl 1).nwPolicy ≠ 3 ∧ (((sWin []).tile tl).window 0).used = true ∧ (sWin []).isCalib tl = false ∧
      (sWin []).isVoid tl (swSlot (swatchOf 1 2)) = false ∧ Tbl.find ((sWin []).tile tl).slices 0 = none ∧
      Tbl.find ((sWin [(0, ⟨1, 2, 0, 0x3F800000, false, false⟩)]).tile tl).slices 0 = some ⟨1, 2, 0, 0x3F800000, false, false⟩ ∧
      swPos (swatchOf 1 2) = 3 ∧ normLevel 0x3F800000 = some 0 ∧ (NormWindow.mk true 1 0 0).jumps ⟨2, 3, 0, 0, 1, 100⟩ 0 = false) ∧
    (∀ v ∈ elemsN 2 4 ((sTile id).bytes (tAddr tl 0) 8), (FFmt.fp16.decode v).isFinite = true) := by decide +kernel

def passOf (w : List (Fin 12288)) : PassOps := ⟨0, .fp16, 0, 0, w⟩

def sPass (a : Arr → Arr) : State :=
  { sSw (fun x => { x with lastMain := [(0, 0)] }) with arrays := [(arr0, a { Arr.reset with st := .mapped })] }

theorem witness_PassesLaunchOnSchedule :
    ([(0 : Fin 12288)].map (fun w => scpBank (32 * w.val))).Nodup ∧ scpBank (32 * 0) = scpBank (32 * 0 + swSize 0 - 1) ∧
    swSat (swatchOf 0 0) = false ∧ passMalformed ((sPass id).swCtx tl 0) [(swatchOf 0 0, false)] = none ∧
    (sPass id).resolve tl (swWgen (swatchOf 0 0)) 0 = some (0, 0) ∧ ((sPass id).arr arr0).st = .mapped ∧ (sPass id).isLc1 tl = false ∧
    ((sPass id).arr arr0).lastPoison = false ∧ (sPass id).inProgram op (.pass32 op (passOf [0])) = true ∧
    3 * 1 ≤ ((sPass id).tile tl).opTickets ∧ 3 * 1 ≤ ((sPass id).tile tl).meter ∧ Tbl.find ((sPass id).tile tl).lastMain 0 = some 0 ∧
    [swatchOf 0 0] ≠ [] := by decide +kernel

def pass0 (fires : Bool) : Pass :=
  ⟨false, true, passOf [0], 0, 1, fires, ⟨1, 3, 5, false⟩, 0, [swatchOf 0 0], 100, 130, 2, 0, none⟩

/-- What a pass over an array of zero weights sums to. -/
theorem witness_PassesDeliverTheirOutput :
    ((sPass (fun a => { a with passes := [pass0 false] })).arr arr0).passes = [pass0 false] ∧ (pass0 false).closing = true ∧ (pass0 true).isNap = false ∧
    (pass0 true).g32 = true ∧ (pass0 true).met = none ∧ (pass0 true).fires = true ∧ ((sPass id).tile tl).fenced = false ∧ (sPass id).badScale = [] := by decide +kernel

/-- Descriptor 2 moves 64 bytes from 0 to 0x100 of the tile's scratchpad, within bound entry 1, landing in counter 3. -/
def sDma (xs : List Xfer) : State :=
  let s := sTile (fun x => { x with xfers := xs })
  let s1 := s.setWords (fun i => tReg tl .tilDesc (16 + i)) [0, 0, 0x100, 0, 64, 0x10001, 0x8003 + 3 * 2 ^ 16, 0]
  s1.setReg (tReg tl .tilBoundLen 1) 0x400

def xf (landed : Bool) : Xfer := ⟨0, 0, 0x100, 64, 0x8003, 0, 2, false, landed⟩

theorem witness_SequencerOperations :
    (((sDma []).tile tl).xfers.length < 8 ∧ (sDma []).dmaCheck tl 2 ((sDma []).desc tl 2) = none ∧ ((sDma []).tile tl).waitDraw = false ∧
      ((sDma []).desc tl 2).tickets ≤ ((sDma []).tile tl).opTickets ∧ (sDma []).poison = []) ∧
    ((0 : BitVec 16).toNat ≤ (sDma []).fldOf (tReg tl .tilLand 3) 0 16 ∧ (sDma []).fldOf (tReg tl .tilLand 3) 0 16 < (5 : BitVec 16).toNat) ∧
    ((sTile (fun x => { x with waitq := [.waitl op 3 0] })).running tl = true ∧
      ((sTile (fun x => { x with waitq := [.waitl op 3 0] })).modTile tl (fun x => { x with waitq := [] })).inProgram op (.waitl op 3 0) = true) ∧
    ((sTile (fun x => { x with waitq := [.exp2 op 1 2 .fp16], waitDraw := true })).tile tl).waitDraw = true := by decide

/-- A packet of 64 bytes from the tile to a device address. -/
def pkt (dst : Nat) : Packet := ⟨.tile tl, BitVec.ofNat 48 dst, false, false, false, List.replicate 64 0⟩

theorem witness_TransfersLandAndRelease :
    (((sDma [xf false]).tile tl).xfers = [xf false] ∧ memAt (xf false).src.toNat = some .scratchpad ∧ memAt (xf false).dst.toNat = some .scratchpad ∧
      ((sDma [xf false]).tile tl).shields = [] ∧ ((sDma [xf false]).tile tl).wpend = [] ∧ ((sDma [xf true]).tile tl).xfers = [xf true]) ∧
    ((sDma []).mesh = [] ∧ packetFlits (pkt 0x100) ≤ 4 ∧ (sDma []).hop tl (pkt 0x100) = .deliver ∧
      (sTile (fun x => { x with fenced := true })).hop tl (pkt 0x100) = .fenced ∧
      (sTile id).hop ⟨0, 480⟩ (pkt (mkAddr 8 0 0)) = .discard ∧ (sTile id).hop tl (pkt (mkAddr 0 1 0)) = .onward 1) ∧
    (∃ e < 4, (sTile id).crosses 0 0 e = true) ∧ ((sTile id).part 0).job = .running := by decide +kernel

theorem witness_mesh_fits : ∀ b, ((sDma []).meshBuf b).foldl (fun a e => a + packetFlits e.1) 0 ≤ 4 := fun _ => Nat.zero_le _

theorem witness_TileTableWrites :
    s0.pllDown (.controlCore 0) = false ∧ s0.boot.anyForm = false ∧ s0.arrRefusedEntry tl 0x40 = false ∧ { sSw id with arrays := [(⟨tl, 0⟩, { Arr.reset with st := .mapped })] }.arrRefusedEntry tl 0x100 = false ∧ (s0.bankLive tl false && s0.commitArmed tl) = false ∧
    (sSw id).bankLive tl false = true ∧ s0.bankLive tl false = false ∧ s0.bankLive tl true = false ∧ (0x105 : W32).getLsbD 8 = true ∧
    (0x105 : W32).getLsbD 24 = false := by decide

end Sys2Proof.Tests
end

section
/-!
SUPPORT. Register accesses (R6 to R12): what a port's access passes on its way to a register, what each bit of a register holds after a
write, and the halves of 64-bit pairs; with the statement that they settle.
-/

namespace Sys2Proof.Machine

/-! ## The bits of a write (R6, R8) -/

/-- Whether a field holds bit `i`. -/
def RField.Holds (f : RField) (i : Nat) : Prop := f.lo ≤ i ∧ i < f.lo + f.len

/-- Two fields that share no bit. -/
abbrev RField.Apart (f g : RField) : Prop := f.lo + f.len ≤ g.lo ∨ g.lo + g.len ≤ f.lo

/-- A field's bit after a write of bit `d` over bit `o`, by its access type (R6). -/
def Acc.bitAfter (a : Acc) (o d : Bool) : Bool :=
  match a with
  | .rw => d
  | .w1c => o && !d
  | .w1s => o || d
  | .ro | .wo | .rc => o

theorem bitAfter_cons_of_holds {f : RField} {i : Nat} (h : f.Holds i) (fs : List RField) (old d : Nat) :
    bitAfter (f :: fs) old d i = f.acc.bitAfter (old.testBit i) (d.testBit i) := by
  have hf : fieldAt (f :: fs) i = some f := by simp [fieldAt, h.1, h.2]
  cases hacc : f.acc <;> simp [bitAfter, hf, hacc, Acc.bitAfter]

theorem bitAfter_cons_of_not_holds {f : RField} {i : Nat} (h : ¬ f.Holds i) (fs : List RField) (old d : Nat) :
    bitAfter (f :: fs) old d i = bitAfter fs old d i := by
  have hf : fieldAt (f :: fs) i = fieldAt fs i := by
    unfold RField.Holds at h
    rw [fieldAt, List.find?_cons_of_neg (by simpa using h), fieldAt]
  unfold bitAfter
  rw [hf]

theorem bitAfter_of_no_field {fs : List RField} {i : Nat} (h : ∀ f ∈ fs, ¬ f.Holds i) (old d : Nat) :
    bitAfter fs old d i = old.testBit i := by
  induction fs with
  | nil => rfl
  | cons f r ih =>
    rw [bitAfter_cons_of_not_holds (h f (by simp))]
    exact ih (fun g hg => h g (by simp [hg]))

/-- Bit `i` after a write depends on bit `i` of the old word alone. -/
theorem bitAfter_congr {old old' i : Nat} (h : old'.testBit i = old.testBit i) (fs : List RField) (d : Nat) :
    bitAfter fs old' d i = bitAfter fs old d i := by
  unfold bitAfter
  rw [h]

theorem RField.testBit_write_of_holds {f : RField} {i : Nat} (h : f.Holds i) (old d : Nat) :
    (f.write old d).testBit i = f.acc.bitAfter (old.testBit i) (d.testBit i) := by
  obtain ⟨h1, h2⟩ := h
  have hlen : i - f.lo < f.len := by omega
  have hi : f.lo + (i - f.lo) = i := by omega
  unfold RField.write Acc.bitAfter
  cases f.acc <;>
    simp [testBit_putFld, testBit_fld, h1, h2, hlen, hi]
  case w1c => cases old.testBit i <;> cases d.testBit i <;> rfl

theorem RField.testBit_write_of_not_holds {f : RField} {i : Nat} (h : ¬ f.Holds i) (old d : Nat) :
    (f.write old d).testBit i = old.testBit i := by
  unfold RField.Holds at h
  unfold RField.write
  cases f.acc <;> simp only [testBit_putFld, if_neg h]

/-- Each bit of a register word after a write, where no two of its fields share a bit. -/
theorem testBit_fieldsWrite {fs : List RField} (h : fs.Pairwise RField.Apart) (old d i : Nat) :
    (fieldsWrite fs old d).testBit i = bitAfter fs old d i := by
  induction fs generalizing old with
  | nil => rfl
  | cons f r ih =>
    obtain ⟨hf, hr⟩ := List.pairwise_cons.1 h
    rw [fieldsWrite, ih hr]
    by_cases hi : f.Holds i
    · have hout : ∀ g ∈ r, ¬ g.Holds i := by
        intro g hg ⟨h1, h2⟩
        obtain ⟨h3, h4⟩ := hi
        rcases hf g hg with h5 | h5 <;> omega
      rw [bitAfter_of_no_field hout, RField.testBit_write_of_holds hi, bitAfter_cons_of_holds hi]
    · rw [bitAfter_congr (RField.testBit_write_of_not_holds hi old d), bitAfter_cons_of_not_holds hi]

/-- In the register tables no two fields of a register share a bit. -/
theorem Reg.fields_apart (r : Reg) : r.row.fields.Pairwise RField.Apart := by
  cases r <;> decide

theorem State.getLsbD_storeReg (s : State) (k : RegKey) (d : Nat) {i : Nat} (hi : i < 32) :
    ((s.storeReg k d).reg k).getLsbD i = bitAfter k.reg.row.fields (s.regN k) d i := by
  unfold State.storeReg
  rw [State.reg_setReg_same, BitVec.getLsbD_ofNat, testBit_fieldsWrite k.reg.fields_apart]
  simp [hi]

theorem State.reg_storeReg_other (s : State) {k k2 : RegKey} (d : Nat) (h : k2 ≠ k) : (s.storeReg k d).reg k2 = s.reg k2 := by
  unfold State.storeReg
  rw [State.reg_setReg, if_neg h]

/-! ## The halves of pairs (R9) -/

/-- The registers whose reads draw a free value. -/
abbrev drawnViews : List Reg := [.smpStatus, .hifStatus, .pwrDieCore, .pwrDieArr]

/-- The registers that a whole access treats by a rule of their own are no halves. -/
theorem Reg.special_single {r : Reg} (h : r ∈ .fulResult :: .pfxEpoch :: drawnViews) : r.row.half = .single := by
  revert r; decide

theorem Reg.ne_of_half {r q : Reg} (h : r.row.half ≠ .single) (hq : q ∈ .fulResult :: .pfxEpoch :: drawnViews) : r ≠ q := by
  rintro rfl
  exact h (Reg.special_single hq)

theorem Reg.loOf_of_hi {r : Reg} (h : r.row.half = .hi) : ∃ q, r.loOf = some q := by
  rw [← Option.isSome_iff_exists]
  revert h
  cases r <;> decide

theorem Reg.hiOf_of_hi {r : Reg} (h : r.row.half = .hi) : r.hiOf = none := by
  revert h
  cases r <;> decide

theorem Reg.hiOf_of_loOf {r q : Reg} (h : r.loOf = some q) : q.hiOf = some r := by
  simpa using List.find?_some h

/-- The two halves of a pair are two registers. -/
theorem RegKey.loKey_ne {k : RegKey} (h : k.reg.row.half = .hi) : k.loKey ≠ k := by
  obtain ⟨q, hq⟩ := Reg.loOf_of_hi h
  intro he
  have hreg : q = k.reg := by
    have := congrArg RegKey.reg he
    simpa [RegKey.loKey, hq] using this
  have hhi := Reg.hiOf_of_loOf hq
  rw [hreg, Reg.hiOf_of_hi h] at hhi
  simp at hhi

/-! ## What the endpoint's sign of life leaves as it is -/

section linkSeen

variable (s : State) (port : Port)

@[simp] theorem State.linkSeen_snaps : (s.linkSeen port).snaps = s.snaps := by cases port <;> rfl
@[simp] theorem State.linkSeen_loHeld : (s.linkSeen port).loHeld = s.loHeld := by cases port <;> rfl
@[simp] theorem State.reg_linkSeen (k : RegKey) : (s.linkSeen port).reg k = s.reg k := by cases port <;> rfl
@[simp] theorem State.regN_linkSeen (k : RegKey) : (s.linkSeen port).regN k = s.regN k := by cases port <;> rfl
@[simp] theorem State.sessionLocked_linkSeen (k : RegKey) : (s.linkSeen port).sessionLocked k = s.sessionLocked k := by cases port <;> rfl
@[simp] theorem State.absent_linkSeen (k : RegKey) : (s.linkSeen port).absent k = s.absent k := by cases port <;> rfl
@[simp] theorem State.barred_linkSeen (q : Port) (k : RegKey) : (s.linkSeen port).barred q k = s.barred q k := by cases port <;> rfl
@[simp] theorem State.writeOk_linkSeen (k : RegKey) (d : Nat) : (s.linkSeen port).writeOk k d = s.writeOk k d := by cases port <;> rfl

theorem accepts_linkSeen {s : State} {port q : Port} {k : RegKey} {d : Nat} : Accepts (s.linkSeen port) q k d ↔ Accepts s q k d := by
  simp [Accepts]

end linkSeen

/-! ## An access that reaches a register -/

section reach

variable {s : State} {port : Port} {addr : DevAddr} {k : RegKey}
variable (hk : regAt (addr.toNat / 4 * 4) = some k) (hs : s.shut port (addr.toNat / 4 * 4) = false)
include hk hs

theorem exec_registerWrite_reg (data : W32) :
    exec (.registerWrite port addr data 15) s = .next ((s.linkSeen port).writeReg port k data) := by
  simp [exec, execRegisterWrite, runRegisterWrite, State.busWrite, hk, hs]

theorem exec_pairHiWrite_reg (data : W32) :
    exec (.pairHiWrite port addr data) s = .next ((s.linkSeen port).writeReg port k data) := by
  simp [exec, execPairHiWrite, runPairHiWrite, State.busWrite, hk, hs]

theorem exec_rcFieldRead_reg : exec (.rcFieldRead port addr) s = .next ((s.linkSeen port).readReg port k) := by
  simp [exec, execRcFieldRead, runRcFieldRead, State.busRead, hk, hs]

theorem exec_pairLoRead_reg : exec (.pairLoRead port addr) s = .next ((s.linkSeen port).readReg port k) := by
  simp [exec, execPairLoRead, runPairLoRead, State.busRead, hk, hs]

end reach

/-! ## Writes that pass their checks -/

/-- The agent's check of `Accepts` (R544), from the two cases that pass it. -/
theorem agent_of_or {port : Port} {r : Reg} (h : port.isCore = true ∨ coreOnly r = false) : coreOnly r = true → port.isCore = true :=
  fun hc => h.resolve_right (by simp [hc])

theorem State.guardedWrite_of_accepts {s : State} {port : Port} {k : RegKey} {d : Nat} (h : Accepts s port k d) (f : State → State) :
    s.guardedWrite port k d f = f s := by
  obtain ⟨habs, hbar, hcore, hok⟩ := h
  obtain ⟨hshut, hblk⟩ : s.shut port k.addr = false ∧ s.blocked port k.reg = false := by simpa [State.barred] using hbar
  have hagent : (coreOnly k.reg && !port.isCore) = false := by
    cases hc : coreOnly k.reg
    · rfl
    · simp [hcore hc]
  simp [State.guardedWrite, hshut, hblk, habs, hagent, hok]

/-- A write that no command of its own and no open session takes up, and that passes every check, stores the register's fields. -/
theorem State.writeReg_of_accepts {s : State} {port : Port} {k : RegKey} {data : W32} (hown : s.ownWrite port k data = none)
    (hne : k.reg ≠ .pfxEpoch) (hlock : s.sessionLocked k = false) (h : Accepts s port k data.toNat) :
    s.writeReg port k data = s.plainWrite port k data.toNat := by
  rw [State.writeReg, hown]
  simp only [hne, if_false, State.regWrite, hlock, Bool.false_and, Bool.false_eq_true]
  exact State.guardedWrite_of_accepts h _

theorem State.plainWrite_lo {k : RegKey} (h : k.reg.row.half = .lo) (s : State) (port : Port) (d : Nat) :
    s.plainWrite port k d = { s with loHeld := Tbl.put s.loHeld (port, k) (BitVec.ofNat 32 d) } := by
  rw [State.plainWrite, h]

theorem State.plainWrite_hi {k : RegKey} (h : k.reg.row.half = .hi) (s : State) (port : Port) (d : Nat) :
    s.plainWrite port k d = s.pairHi port k d := by
  rw [State.plainWrite, h]

theorem State.pairHi_of_held {s : State} {port : Port} {k : RegKey} {lo : W32} (h : Tbl.find s.loHeld (port, k.loKey) = some lo) (d : Nat) :
    s.pairHi port k d = (s.storeReg k.loKey lo.toNat).storeReg k d := by
  rw [State.pairHi, h]

theorem State.pairHi_of_not_held {s : State} {port : Port} {k : RegKey} (h : Tbl.find s.loHeld (port, k.loKey) = none) (d : Nat) :
    s.pairHi port k d = s.storeReg k d := by
  rw [State.pairHi, h]

/-! ## Reads of the halves (R10, R11) -/

/-- A read that draws no free value changes nothing. -/
theorem State.view_state {k : RegKey} (h : k.reg ∉ drawnViews) (s : State) : (s.view k).2 = s := by
  simp only [drawnViews, List.mem_cons, List.not_mem_nil, or_false, not_or] at h
  obtain ⟨hsmp, hhif, hcore, harr⟩ := h
  unfold State.view
  extract_lets hidden
  split
  · rfl
  · split
    · exact absurd ‹_› hsmp
    · exact absurd ‹_› hhif
    · exact absurd ‹_› hcore
    · exact absurd ‹_› harr
    · split <;> rfl

theorem State.readReg_lo {k : RegKey} {hi : Reg} (h : k.reg.row.half = .lo) (hhi : k.reg.hiOf = some hi) (s : State) (port : Port) :
    s.readReg port k =
      { s.answer port (s.view k).1 with
        snaps := Tbl.put s.snaps (port, k) (BitVec.ofNat 32 (s.view ⟨k.die, k.region, hi, k.idx⟩).1) } := by
  have hne : k.reg.row.half ≠ .single := by simp [h]
  have hview : (s.view k).2 = s :=
    State.view_state (fun hm => hne (Reg.special_single (List.mem_cons_of_mem _ (List.mem_cons_of_mem _ hm)))) s
  unfold State.readReg
  split
  · exact absurd ‹_› (Reg.ne_of_half hne (by simp))
  · simp only [h, hhi, hview]

theorem State.readReg_hi {k : RegKey} (h : k.reg.row.half = .hi) (s : State) (port : Port) :
    s.readReg port k = s.answer port (Tbl.get s.snaps (port, k.loKey) 0).toNat := by
  unfold State.readReg
  split
  · exact absurd ‹_› (Reg.ne_of_half (by simp [h]) (by simp))
  · simp only [h]

end Sys2Proof.Machine

namespace Sys2Proof

open Machine

/-! ## Frames of the operations of register access -/

section frames

variable {P : Place → Prop} {s0 s : State}

theorem OnlyIn.linkSeen (port : Port) (hs : OnlyIn P s0 s) (hp : P .host) : OnlyIn P s0 (s.linkSeen port) := by
  cases port with
  | core b n => exact hs
  | pcie =>
    refine hs.trans (fun x hx => ?_)
    cases x with
    | host => exact absurd hp hx
    | _ => first | exact rfl | exact Iff.rfl | exact ⟨rfl, rfl⟩

theorem OnlyIn.answer (port : Port) (v : Nat) (hs : OnlyIn P s0 s) (hp : P (.readOut port)) : OnlyIn P s0 (s.answer port v) := by
  refine hs.trans (fun x hx => ?_)
  cases x with
  | readOut q => exact Tbl.find_put_other _ _ (by rintro rfl; exact hx hp)
  | _ => first | exact rfl | exact Iff.rfl | exact ⟨rfl, rfl⟩

theorem OnlyIn.putSnap (q : Port × RegKey) (v : W32) (hs : OnlyIn P s0 s) (hp : P (.snap q)) :
    OnlyIn P s0 { s with snaps := Tbl.put s.snaps q v } := by
  refine hs.trans (fun x hx => ?_)
  cases x with
  | snap q2 => exact Tbl.find_put_other _ _ (by rintro rfl; exact hx hp)
  | _ => first | exact rfl | exact Iff.rfl | exact ⟨rfl, rfl⟩

theorem OnlyIn.putLoHeld (q : Port × RegKey) (v : W32) (hs : OnlyIn P s0 s) (hp : P (.loHeld q)) :
    OnlyIn P s0 { s with loHeld := Tbl.put s.loHeld q v } := by
  refine hs.trans (fun x hx => ?_)
  cases x with
  | loHeld q2 => exact Tbl.find_put_other _ _ (by rintro rfl; exact hx hp)
  | _ => first | exact rfl | exact Iff.rfl | exact ⟨rfl, rfl⟩

theorem OnlyIn.storeReg {k : RegKey} (d : Nat) (hs : OnlyIn P s0 s) (hp : P (.reg k)) : OnlyIn P s0 (s.storeReg k d) := hs.setReg _ hp

theorem OnlyIn.pairHi (port : Port) {k : RegKey} (d : Nat) (hs : OnlyIn P s0 s) (hk : P (.reg k)) (hlo : P (.reg k.loKey)) :
    OnlyIn P s0 (s.pairHi port k d) := by
  unfold State.pairHi
  split
  · exact (hs.storeReg _ hlo).storeReg _ hk
  · exact hs.storeReg _ hk

end frames

/-! ## What a write of a high half leaves in the pair (R12) -/

section pairHi

variable {s : State} {port : Port} {k : RegKey}

theorem Machine.State.getLsbD_pairHi (h : k.reg.row.half = .hi) (d : Nat) {i : Nat} (hi : i < 32) :
    ((s.pairHi port k d).reg k).getLsbD i = bitAfter k.reg.row.fields (s.regN k) d i := by
  cases hheld : Tbl.find s.loHeld (port, k.loKey) with
  | none => rw [State.pairHi_of_not_held hheld, State.getLsbD_storeReg _ _ _ hi]
  | some lo =>
    have hold : (s.storeReg k.loKey lo.toNat).regN k = s.regN k := by
      rw [State.regN, State.reg_storeReg_other _ _ (RegKey.loKey_ne h).symm, State.regN]
    rw [State.pairHi_of_held hheld, State.getLsbD_storeReg _ _ _ hi, hold]

theorem Machine.State.getLsbD_pairHi_lo (h : k.reg.row.half = .hi) {lo : W32} (hheld : Tbl.find s.loHeld (port, k.loKey) = some lo)
    (d : Nat) {i : Nat} (hi : i < 32) :
    ((s.pairHi port k d).reg k.loKey).getLsbD i = bitAfter k.loKey.reg.row.fields (s.regN k.loKey) lo.toNat i := by
  rw [State.pairHi_of_held hheld, State.reg_storeReg_other _ _ (RegKey.loKey_ne h), State.getLsbD_storeReg _ _ _ hi]

theorem Machine.State.reg_pairHi_lo_of_not_held (h : k.reg.row.half = .hi) (hheld : Tbl.find s.loHeld (port, k.loKey) = none) (d : Nat) :
    (s.pairHi port k d).reg k.loKey = s.reg k.loKey := by
  rw [State.pairHi_of_not_held hheld, State.reg_storeReg_other _ _ (RegKey.loKey_ne h)]

end pairHi

/-! ## The accesses of a pair's halves -/

section accesses

variable {s : State} {port : Port} {addr : DevAddr} {k : RegKey} {data : W32}
variable (hk : regAt (addr.toNat / 4 * 4) = some k) (hs : s.shut port (addr.toNat / 4 * 4) = false)
include hk hs

/-- R10: the read of a low half answers its word and captures the other in the port's snapshot. -/
theorem pairLoRead_completes {hi : Reg} (hhalf : k.reg.row.half = .lo) (hhi : k.reg.hiOf = some hi) :
    Completes (.pairLoRead port addr) s (fun t =>
      Only [.host, .readOut port, .snap (port, k)] s t ∧
      Tbl.find t.readOut port = some (BitVec.ofNat 32 ((s.linkSeen port).view k).1) ∧
      Tbl.find t.snaps (port, k) = some (BitVec.ofNat 32 ((s.linkSeen port).view ⟨k.die, k.region, hi, k.idx⟩).1)) := by
  refine ⟨_, exec_pairLoRead_reg hk hs, ?_⟩
  rw [State.readReg_lo hhalf hhi]
  have hseen : Only [.host, .readOut port, .snap (port, k)] s (s.linkSeen port) := (Only.refl _ s).linkSeen port (by simp)
  exact ⟨(hseen.answer port _ (by simp)).putSnap (port, k) _ (by simp), Tbl.find_put_same .., Tbl.find_put_same ..⟩

/-- R11: the read of a high half answers from the port's snapshot. -/
theorem rcFieldRead_hi_completes (hhalf : k.reg.row.half = .hi) :
    Completes (.rcFieldRead port addr) s (fun t =>
      Only [.host, .readOut port] s t ∧ Tbl.find t.readOut port = some ((Tbl.find s.snaps (port, k.loKey)).getD 0)) := by
  refine ⟨_, exec_rcFieldRead_reg hk hs, ?_⟩
  rw [State.readReg_hi hhalf]
  refine ⟨((Only.refl _ s).linkSeen port (by simp)).answer port _ (by simp), ?_⟩
  simp [State.answer, Tbl.get]

variable (hown : (s.linkSeen port).ownWrite port k data = none) (hlock : s.sessionLocked k = false) (hacc : Accepts s port k data.toNat)
include hown hlock hacc

/-- R12: the write of a low half is held for its port. -/
theorem registerWrite_lo_completes (hhalf : k.reg.row.half = .lo) :
    Completes (.registerWrite port addr data 15) s (fun t =>
      Only [.host, .loHeld (port, k)] s t ∧ Tbl.find t.loHeld (port, k) = some data) := by
  have hne : k.reg ≠ .pfxEpoch := Reg.ne_of_half (by simp [hhalf]) (by simp)
  refine ⟨_, exec_registerWrite_reg hk hs data, ?_⟩
  rw [State.writeReg_of_accepts hown hne (by simpa using hlock) (accepts_linkSeen.2 hacc), State.plainWrite_lo hhalf]
  exact ⟨((Only.refl _ s).linkSeen port (by simp)).putLoHeld (port, k) _ (by simp), by simp⟩

/-- R12: the write of a high half stores the pair, its low half with the value held for the port. -/
theorem pairHiWrite_completes (hhalf : k.reg.row.half = .hi) :
    Completes (.pairHiWrite port addr data) s (fun t =>
      Only [.host, .reg k, .reg k.loKey] s t ∧
      (∀ i < 32, (t.reg k).getLsbD i = bitAfter k.reg.row.fields (s.regN k) data.toNat i) ∧
      (∀ lo, Tbl.find s.loHeld (port, k.loKey) = some lo → ∀ i < 32,
        (t.reg k.loKey).getLsbD i = bitAfter k.loKey.reg.row.fields (s.regN k.loKey) lo.toNat i) ∧
      (Tbl.find s.loHeld (port, k.loKey) = none → t.reg k.loKey = s.reg k.loKey)) := by
  have hne : k.reg ≠ .pfxEpoch := Reg.ne_of_half (by simp [hhalf]) (by simp)
  have hseen : Only [.host, .reg k, .reg k.loKey] s (s.linkSeen port) := (Only.refl _ s).linkSeen port (by simp)
  refine ⟨_, exec_pairHiWrite_reg hk hs data, ?_⟩
  rw [State.writeReg_of_accepts hown hne (by simpa using hlock) (accepts_linkSeen.2 hacc), State.plainWrite_hi hhalf]
  refine ⟨hseen.pairHi port _ (by simp) (by simp), fun i hi => ?_, fun lo hlo i hi => ?_, fun hlo => ?_⟩
  · rw [State.getLsbD_pairHi hhalf _ hi, State.regN_linkSeen]
  · rw [State.getLsbD_pairHi_lo hhalf (by simpa using hlo) _ hi, State.regN_linkSeen]
  · rw [State.reg_pairHi_lo_of_not_held hhalf (by simpa using hlo), State.reg_linkSeen]

end accesses

/-- Settles O8: an access of a half is its port's one access of a register (`readReg`, `writeReg`), which on a half updates the port's
snapshot, its held value, or the two registers of the pair. -/
theorem registerPairs : Obligations.RegisterPairs := by
  refine ⟨⟨?loRead, ?hiRead⟩, ?loWrite, ?hiWrite⟩
  case loRead => exact fun s port addr k hi hk hhalf hhi hs => pairLoRead_completes hk hs hhalf hhi
  case hiRead => exact fun s port addr k hk hhalf hs => rcFieldRead_hi_completes hk hs hhalf
  case loWrite =>
    intro s port addr data k hk hhalf hs hown hlock habs hbar hagent hok
    exact registerWrite_lo_completes hk hs hown hlock ⟨habs, hbar, agent_of_or hagent, hok⟩ hhalf
  case hiWrite =>
    intro s port addr data k hk hhalf hs hown hlock habs hbar hagent hok
    exact pairHiWrite_completes hk hs hown hlock ⟨habs, hbar, agent_of_or hagent, hok⟩ hhalf

end Sys2Proof
end

section
/-!
SUPPORT. Power leave and the steward's loop (R390 to R397, R403): what happens at an interval, the settling and the refill of a tile at a
leave window, the steward's move of k, and the skip counts; with the statement that they settle.
-/

namespace Sys2Proof.Machine

/-! ## Folds -/

/-- A fold over distinct elements: what holds before the turn of `a`, what that turn makes of it, and what the later turns keep. -/
theorem foldl_turn {σ α : Type} {f : σ → α → σ} {l : List α} {a : α} {s : σ} {Pre Post : σ → Prop} (hl : l.Nodup) (ha : a ∈ l)
    (h0 : Pre s) (hpre : ∀ u b, b ≠ a → Pre u → Pre (f u b)) (hturn : ∀ u, Pre u → Post (f u a))
    (hpost : ∀ u b, b ≠ a → Post u → Post (f u b)) : Post (l.foldl f s) := by
  obtain ⟨l1, l2, rfl⟩ := List.append_of_mem ha
  obtain ⟨hnot, -⟩ := List.nodup_cons.1 (List.nodup_middle.1 hl)
  rw [List.foldl_append, List.foldl_cons]
  have h1 : Pre (l1.foldl f s) := List.foldlRecOn l1 f h0 (fun u hu b hb => hpre u b (by rintro rfl; simp [hb] at hnot) hu)
  exact List.foldlRecOn l2 f (hturn _ h1) (fun u hu b hb => hpost u b (by rintro rfl; simp [hb] at hnot) hu)

theorem nodup_eraseDups {α : Type} [BEq α] [LawfulBEq α] (l : List α) : l.eraseDups.Nodup := by
  induction h : l.length using Nat.strong_induction_on generalizing l with
  | _ n ih =>
    cases l with
    | nil => simp
    | cons a r =>
      rw [List.eraseDups_cons, List.nodup_cons]
      refine ⟨by simp [List.mem_eraseDups], ih _ ?_ _ rfl⟩
      have hle := List.length_filter_le (fun b => !b == a) r
      rw [List.length_cons] at h
      omega

/-! ## Intervals (log 61) -/

theorem State.every_of_due {s : State} {x : Timer} (h : s.due x = true) (next : Nat) (f : State → State) :
    s.every x next f = f (s.armTimer x next) := by rw [State.every, if_pos h]

theorem State.every_of_not_due {s : State} {x : Timer} (h : s.due x = false) (next : Nat) (f : State → State) :
    s.every x next f = s := by simp [State.every, h]

/-! ## The scale of a leave window (R390) -/

theorem State.partOfDie_congr {s t : State} {d : Nat} (h : t.reg (uReg d 0x201 .mshPart) = s.reg (uReg d 0x201 .mshPart)) :
    t.partOfDie d = s.partOfDie d := by rw [State.partOfDie, State.regN, h]; rfl

theorem State.scaleOf_congr {s t : State} {d : Nat} (hboot : t.boot = s.boot)
    (hpart : t.reg (uReg d 0x201 .mshPart) = s.reg (uReg d 0x201 .mshPart))
    (hk : ∀ p, t.reg (s.pReg 0x202 .pwrK p) = s.reg (s.pReg 0x202 .pwrK p)) : t.scaleOf d = s.scaleOf d := by
  have hpr (p : Nat) : t.pReg 0x202 .pwrK p = s.pReg 0x202 .pwrK p := by simp only [State.pReg, State.prinDie, hboot]
  simp only [State.scaleOf, State.partOfDie_congr hpart, State.fldOf, hpr, hk]

theorem State.grants_congr {s t : State} {u : TileId} (hm : t.reg (uReg u.die.val 0x201 .mshPart) = s.reg (uReg u.die.val 0x201 .mshPart))
    (hp : ∀ p, t.part p = s.part p) (hl : (t.tile u).ltile = (s.tile u).ltile) : t.grants u = s.grants u := by
  simp only [State.grants, State.partOfDie_congr hm, hp, hl]

theorem State.scaleOf_lt (s : State) (d : Nat) : s.scaleOf d < 2 ^ 9 := by
  unfold State.scaleOf
  split
  · exact fld_lt _ _ _
  · norm_num

/-- A living die shows its scale. -/
def State.showScale (s : State) (d : Nat) : State :=
  if (s.die d).alive then s.setReg (uReg d 0x203 .pwrDieK) (BitVec.ofNat 32 (s.scaleOf d)) else s

/-- What a leave window does first: every living Body die shows its scale. -/
def State.showScales (s : State) : State := (List.range 32).foldl State.showScale s

theorem State.scaleOf_showScale (s : State) (d e : Nat) : (s.showScale d).scaleOf e = s.scaleOf e := by
  unfold State.showScale
  split
  · refine State.scaleOf_congr rfl ?_ (fun p => ?_) <;> (rw [State.reg_setReg, if_neg]; simp [uReg, State.pReg])
  · rfl

theorem State.showScales_eq (s : State) : ∃ r, s.showScales = { s with regs := r } := by
  refine List.foldlRecOn (motive := fun t : State => ∃ r, t = { s with regs := r }) _ _ ⟨s.regs, rfl⟩ ?_
  rintro _ ⟨r, rfl⟩ d -
  unfold State.showScale
  split
  · exact ⟨_, rfl⟩
  · exact ⟨r, rfl⟩

theorem State.scaleOf_showScales (s : State) (d : Nat) : s.showScales.scaleOf d = s.scaleOf d :=
  List.foldlRecOn (motive := fun t : State => t.scaleOf d = s.scaleOf d) _ _ rfl (fun t ht e _ => (t.scaleOf_showScale e d).trans ht)

theorem State.regN_showScale_same {s : State} {d : Nat} (h : (s.die d).alive = true) :
    (s.showScale d).regN (uReg d 0x203 .pwrDieK) = s.scaleOf d := by
  rw [State.showScale, if_pos h, State.regN, State.reg_setReg_same, BitVec.toNat_ofNat]
  exact Nat.mod_eq_of_lt ((s.scaleOf_lt d).trans (by norm_num))

theorem State.regN_showScale_other {s : State} {d e : Nat} (h : e ≠ d) :
    (s.showScale e).regN (uReg d 0x203 .pwrDieK) = s.regN (uReg d 0x203 .pwrDieK) := by
  unfold State.showScale
  split
  · rw [State.regN, State.reg_setReg, if_neg (by simp [uReg, h.symm]), State.regN]
  · rfl

theorem State.die_showScale (s : State) (d e : Nat) : (s.showScale d).die e = s.die e := by
  unfold State.showScale; split <;> rfl

theorem State.regN_showScales {s : State} {d : Nat} (hd : d < 32) (h : (s.die d).alive = true) :
    s.showScales.regN (uReg d 0x203 .pwrDieK) = s.scaleOf d := by
  rw [State.showScales]
  refine foldl_turn (Pre := fun t : State => (t.die d).alive = true ∧ t.scaleOf d = s.scaleOf d)
    (Post := fun t : State => t.regN (uReg d 0x203 .pwrDieK) = s.scaleOf d) List.nodup_range (List.mem_range.2 hd) ⟨h, rfl⟩ ?before ?turn ?after
  case before => exact fun t e _ ht => ⟨by rw [State.die_showScale]; exact ht.1, (t.scaleOf_showScale e d).trans ht.2⟩
  case turn => exact fun t ht => (State.regN_showScale_same ht.1).trans ht.2
  case after => exact fun t e he ht => (State.regN_showScale_other he).trans ht

/-! ## The draws of a calibration (R408) -/

theorem tileId_eq {u v : TileId} (hd : u.die = v.die) (hr : u.region.val = v.region.val) : u = v := by
  obtain ⟨d, r⟩ := u
  obtain ⟨e, q⟩ := v
  exact congrArg₂ TileId.mk hd (Fin.ext hr)

/-- The calibration that runs in a tile. -/
def State.calRunIn (s : State) (u : TileId) : Option CalRun := (s.die u.die.val).calRun.find? (fun c => c.region == u.region.val)

/-- What the calibration that runs in a tile has drawn up to the cycle its die is in. -/
def State.calDrawn (s : State) (u : TileId) : Nat :=
  match s.calRunIn u with
  | none => 0
  | some c => (calRunsTo c.act ((s.die u.die.val).cycles - c.last) (s.tile u).fullTickets).2

/-- An entry of a die's running calibrations, where that of `c` is settled up to a cycle. -/
def CalRun.settle (c : CalRun) (now act : Nat) (k : CalRun) : CalRun :=
  if k.region == c.region && k.phys == c.phys then { k with last := now, act := act } else k

theorem CalRun.settle_region (c k : CalRun) (now act : Nat) : (c.settle now act k).region = k.region := by
  unfold CalRun.settle; split <;> rfl

theorem CalRun.settle_other {c k : CalRun} (h : k.region ≠ c.region) (now act : Nat) : c.settle now act k = k := by
  simp [CalRun.settle, h]

theorem State.calDrawn_of_none {s : State} {u : TileId} (h : s.calRunIn u = none) : s.calDrawn u = 0 := by simp [State.calDrawn, h]

theorem State.calDrawn_of_some {s : State} {u : TileId} {c : CalRun} (h : s.calRunIn u = some c) :
    s.calDrawn u = (calRunsTo c.act ((s.die u.die.val).cycles - c.last) (s.tile u).fullTickets).2 := by simp [State.calDrawn, h]

theorem State.calRunIn_region {s : State} {u : TileId} {c : CalRun} (h : s.calRunIn u = some c) : c.region = u.region.val := by
  simpa using List.find?_some h

theorem State.calSettle_of_none {s : State} {u : TileId} (h : s.calRunIn u = none) : s.calSettle u = s := by
  unfold State.calRunIn at h
  simp only [State.calSettle, h]

theorem State.calSettle_of_some {s : State} {u : TileId} {c : CalRun} (h : s.calRunIn u = some c) :
    ∃ act, s.calSettle u = (s.modDie u.die.val (fun x => { x with calRun := x.calRun.map (c.settle x.cycles act) })).drawFull u (s.calDrawn u) := by
  rw [State.calDrawn_of_some h]
  unfold State.calRunIn at h
  refine ⟨(calRunsTo c.act ((s.die u.die.val).cycles - c.last) (s.tile u).fullTickets).1, ?_⟩
  simp only [State.calSettle, h]
  rfl

theorem State.die_tileEvent (s : State) (t : TileId) (ev n : Nat) (layer : Option Nat) (d : Nat) :
    (s.tileEvent t ev n layer).die d = s.die d := by
  obtain ⟨r, h⟩ := s.event_eq t.die.val t.region.val ev n layer
  rw [State.tileEvent, h]; rfl

@[simp] theorem State.die_drawFull (s : State) (u : TileId) (n d : Nat) : (s.drawFull u n).die d = s.die d := State.die_tileEvent ..

theorem State.tile_drawFull (s : State) (u v : TileId) (n : Nat) :
    (s.drawFull u n).tile v = if v = u then { s.tile u with fullTickets := (s.tile u).fullTickets - n } else s.tile v := by
  rw [State.drawFull, State.tile_tileEvent, State.modTile_eq, State.tile_setTile]

theorem State.tile_calSettle (s : State) (u : TileId) :
    (s.calSettle u).tile u = { s.tile u with fullTickets := (s.tile u).fullTickets - s.calDrawn u } := by
  cases h : s.calRunIn u with
  | none => rw [State.calSettle_of_none h, State.calDrawn_of_none h]; rfl
  | some c => obtain ⟨act, e⟩ := State.calSettle_of_some h; rw [e, State.tile_drawFull, if_pos rfl]; rfl

theorem State.tile_calSettle_other {s : State} {u v : TileId} (hv : v ≠ u) : (s.calSettle u).tile v = s.tile v := by
  cases h : s.calRunIn u with
  | none => rw [State.calSettle_of_none h]
  | some c => obtain ⟨act, e⟩ := State.calSettle_of_some h; rw [e, State.tile_drawFull, if_neg hv]; rfl

theorem State.cycles_calSettle (s : State) (u : TileId) (d : Nat) : ((s.calSettle u).die d).cycles = (s.die d).cycles := by
  cases h : s.calRunIn u with
  | none => rw [State.calSettle_of_none h]
  | some c =>
    obtain ⟨act, e⟩ := State.calSettle_of_some h
    rw [e, State.die_drawFull, State.modDie_eq, State.die_setDie]
    split
    · next hd => rw [hd]
    · rfl

/-- Settling one tile leaves the calibrations of the other tiles alone, those of its own die too. -/
theorem State.calRunIn_calSettle_other {s : State} {u v : TileId} (hv : v ≠ u) : (s.calSettle u).calRunIn v = s.calRunIn v := by
  cases h : s.calRunIn u with
  | none => rw [State.calSettle_of_none h]
  | some c =>
    obtain ⟨act, e⟩ := State.calSettle_of_some h
    rw [e, State.calRunIn, State.die_drawFull, State.modDie_eq, State.die_setDie]
    split
    case isFalse => rfl
    case isTrue hd =>
      have hr : v.region.val ≠ c.region := by
        rw [State.calRunIn_region h]
        exact fun hreg => hv (tileId_eq (Fin.ext hd) hreg)
      rw [State.calRunIn, hd, List.find?_map]
      simp only [Function.comp_def, CalRun.settle_region]
      cases hf : (s.die u.die.val).calRun.find? (fun k => k.region == v.region.val) with
      | none => rfl
      | some k =>
        have hk : k.region = v.region.val := by simpa using List.find?_some hf
        rw [Option.map_some, CalRun.settle_other (hk ▸ hr)]

theorem State.calDrawn_congr {s t : State} {u : TileId} (hrun : t.calRunIn u = s.calRunIn u)
    (hcyc : (t.die u.die.val).cycles = (s.die u.die.val).cycles) (htile : t.tile u = s.tile u) : t.calDrawn u = s.calDrawn u := by
  simp only [State.calDrawn, hrun, hcyc, htile]

/-! ## The refill of a tile (R390) -/

/-- A counter after a refill (R390): floor(k G + f) tickets more, k in units of 1/256, saturating at 2 G. -/
def refilledCount (k n count frac : Nat) : Nat := if 2 * n ≤ count then count else min (2 * n) (count + (k * n + frac) / 256)

/-- A tile after a refill with k and the GRANT and FULL of its running shape (R198, R390). -/
def Tile.refilled (x : Tile) (k : Nat) (g : Nat × Nat) : Tile :=
  { x with
    opTickets := refilledCount k g.1 x.opTickets x.opFrac, opFrac := (k * g.1 + x.opFrac) % 256,
    fullTickets := refilledCount k g.2 x.fullTickets x.fullFrac, fullFrac := (k * g.2 + x.fullFrac) % 256, meter := g.1 }

theorem State.refillTile_eq (s : State) (u : TileId) :
    s.refillTile u = s.setTile u ((s.tile u).refilled (s.scaleOf u.die.val) (s.grants u)) := rfl

/-- What a leave window does with each tile at work. -/
def State.leaveTile (s : State) (u : TileId) : State := (s.calSettle u).refillTile u

theorem State.tile_leaveTile_other {s : State} {u v : TileId} (hv : v ≠ u) : (s.leaveTile u).tile v = s.tile v := by
  rw [State.leaveTile, State.refillTile_eq, State.tile_setTile, if_neg hv, State.tile_calSettle_other hv]

theorem State.calDrawn_leaveTile_other {s : State} {u v : TileId} (hv : v ≠ u) : (s.leaveTile u).calDrawn v = s.calDrawn v :=
  State.calDrawn_congr (State.calRunIn_calSettle_other (s := s) hv) (s.cycles_calSettle u _) (State.tile_leaveTile_other hv)

theorem runLeaveWindow_of_due {s : State} (h : s.due .leave = true) :
    runLeaveWindow s = (s.armTimer .leave (nextTick s.bow.time 1000)).showScales.allTiles.foldl State.leaveTile
      (s.armTimer .leave (nextTick s.bow.time 1000)).showScales := State.every_of_due h _ _

theorem State.allTiles_nodup (s : State) : s.allTiles.Nodup := nodup_eraseDups _

end Sys2Proof.Machine

namespace Sys2Proof

open Machine

/-! ## Frames of a leave window -/

section leaveFrames

variable {P : Place → Prop} {s0 s t : State}

theorem OnlyIn.armTimer {x : Timer} (next : Nat) (hs : OnlyIn P s0 s) (hp : P (.timer x)) : OnlyIn P s0 (s.armTimer x next) := by
  refine hs.trans (fun y hy => ?_)
  cases y with
  | timer x2 => exact Tbl.find_put_other _ _ (by rintro rfl; exact hy hp)
  | _ => first | exact rfl | exact Iff.rfl | exact ⟨rfl, rfl⟩

/-- What an interval brings leaves the turn that was set for it. -/
theorem OnlyIn.turn {x : Timer} {next : Nat} (h : OnlyIn P (s.armTimer x next) t) (hx : ¬ P (.timer x)) : Turn t x next :=
  (h (.timer x) hx).trans (Tbl.find_put_same ..)

theorem OnlyIn.showScales (hs : OnlyIn P s0 s) (hp : ∀ d < 32, P (.reg (uReg d 0x203 .pwrDieK))) : OnlyIn P s0 s.showScales :=
  OnlyIn.foldl _ _ hs (fun _ d hd hu => OnlyIn.ite (hu.setReg _ (hp d (List.mem_range.1 hd))) hu)

theorem OnlyIn.drawFull {u : TileId} (n : Nat) (hs : OnlyIn P s0 s) (hu : P (.tile u))
    (hc : ∀ k < 8, P (.reg (tReg u .ctrValLo k)) ∧ P (.reg (tReg u .ctrValHi k)) ∧ P (.reg (tReg u .ctrStatus))) :
    OnlyIn P s0 (s.drawFull u n) := by
  unfold State.drawFull State.tileEvent
  exact OnlyIn.event _ _ _ _ _ (hs.modTile _ hu) hc

theorem OnlyIn.calSettle {u : TileId} (hs : OnlyIn P s0 s) (hu : P (.tile u)) (hd : (s.die u.die.val).calRun ≠ [] → P (.die u.die.val))
    (hc : ∀ k < 8, P (.reg (tReg u .ctrValLo k)) ∧ P (.reg (tReg u .ctrValHi k)) ∧ P (.reg (tReg u .ctrStatus))) :
    OnlyIn P s0 (s.calSettle u) := by
  cases h : s.calRunIn u with
  | none => rwa [State.calSettle_of_none h]
  | some c =>
    obtain ⟨act, e⟩ := State.calSettle_of_some h
    rw [e]
    have hrun : (s.die u.die.val).calRun ≠ [] := List.ne_nil_of_mem (List.mem_of_find?_eq_some h)
    exact (hs.modDie _ (hd hrun)).drawFull _ hu hc

end leaveFrames

/-- What the settling and the refill of tiles can change: tiles, event counters, and the dies in which a calibration runs. -/
def refillPlaces (s : State) : Place → Prop
  | .tile _ => True
  | .reg k => k.reg ∈ [Reg.ctrValLo, .ctrValHi, .ctrStatus]
  | .die d => (s.die d).calRun ≠ []
  | _ => False

section refill

variable {s t : State}

theorem OnlyIn.leaveTile (u : TileId) (h : OnlyIn (refillPlaces s) s t) : OnlyIn (refillPlaces s) s (t.leaveTile u) := by
  refine OnlyIn.modTile _ (h.calSettle trivial (fun hrun hnone => ?_) (by simp [refillPlaces, tReg])) trivial
  rw [show t.die u.die.val = s.die u.die.val from h (.die u.die.val) (by simp [refillPlaces, hnone])] at hrun
  exact hrun hnone

theorem OnlyIn.leaveTiles (s : State) (l : List TileId) : OnlyIn (refillPlaces s) s (l.foldl State.leaveTile s) :=
  OnlyIn.foldl _ _ (OnlyIn.refl _ s) (fun _ u _ h => h.leaveTile u)

theorem OnlyIn.scaleOf_refill (h : OnlyIn (refillPlaces s) s t) (d : Nat) : t.scaleOf d = s.scaleOf d :=
  State.scaleOf_congr (h .boot id) (h (.reg _) (by simp [refillPlaces, uReg])) (fun _ => h (.reg _) (by simp [refillPlaces, State.pReg]))

theorem OnlyIn.grants_refill (h : OnlyIn (refillPlaces s) s t) {u : TileId} (hl : (t.tile u).ltile = (s.tile u).ltile) :
    t.grants u = s.grants u :=
  State.grants_congr (h (.reg _) (by simp [refillPlaces, uReg])) (fun _ => h (.part _) id) hl

/-- A tile at a leave window: what its calibration has drawn is settled, then its counters are refilled. -/
theorem Machine.State.tile_leaveTile (s : State) (u : TileId) :
    (s.leaveTile u).tile u = { s.tile u with fullTickets := (s.tile u).fullTickets - s.calDrawn u }.refilled
      (s.scaleOf u.die.val) (s.grants u) := by
  have hset : OnlyIn (refillPlaces s) s (s.calSettle u) := (OnlyIn.refl _ s).calSettle trivial id (by simp [refillPlaces, tReg])
  have htile := s.tile_calSettle u
  rw [State.leaveTile, State.refillTile_eq, State.tile_setTile_same, hset.scaleOf_refill, hset.grants_refill (by rw [htile]), htile]

/-- Each tile of a leave window is settled and refilled as if it were the only one. -/
theorem Machine.State.tile_leaveTiles (s : State) {l : List TileId} (hl : l.Nodup) {u : TileId} (hu : u ∈ l) :
    (l.foldl State.leaveTile s).tile u = (s.leaveTile u).tile u := by
  refine foldl_turn (Pre := fun t => OnlyIn (refillPlaces s) s t ∧ t.tile u = s.tile u ∧ t.calDrawn u = s.calDrawn u)
    (Post := fun t => t.tile u = (s.leaveTile u).tile u) hl hu ⟨OnlyIn.refl _ s, rfl, rfl⟩ ?before ?turn ?after
  case before =>
    rintro t v hv ⟨hin, htile, hdrawn⟩
    exact ⟨hin.leaveTile v, (State.tile_leaveTile_other hv.symm).trans htile, (State.calDrawn_leaveTile_other hv.symm).trans hdrawn⟩
  case turn =>
    rintro t ⟨hin, htile, hdrawn⟩
    rw [State.tile_leaveTile, State.tile_leaveTile, htile, hdrawn, hin.scaleOf_refill, hin.grants_refill (by rw [htile])]
  case after => exact fun t v hv ht => (State.tile_leaveTile_other hv.symm).trans ht

end refill

end Sys2Proof

namespace Sys2Proof.Machine

/-! ## The steward's move of k (R393, R394) -/

theorem clampI_eq {lo hi : Int} (h : lo ≤ hi) (v : Int) : clampI lo hi v = max lo (min hi v) := by
  unfold clampI
  split
  · omega
  · split <;> omega

theorem State.measured_congr {s t : State} (h : t.parts = s.parts) (x : Part) (unitW : List Nat) (edgeW : Nat) :
    t.measured x unitW edgeW = s.measured x unitW edgeW := by simp only [State.measured, State.assignedUnits, h]

/-- k of a partition after an update of R394. -/
def State.movedK (s : State) (unitW : List Nat) (edgeW p : Nat) : Int :=
  let m := s.measured (s.part p) unitW edgeW
  let allot := s.fldOf (s.pReg 0x202 .pwrAllot p) 0 16
  max 8 (min 256 (s.fldOf (s.pReg 0x202 .pwrK p) 0 9 +
    256000000 * ((allot * m.2 : Nat) - (m.1 : Int)) / ((m.2 * (s.part p).planMicro : Nat) : Int)))

/-- Whether a partition measures above its allotment (PWR_EVENTS.OVER_ALLOT). -/
def State.overAllot (s : State) (unitW : List Nat) (edgeW p : Nat) : Bool :=
  let m := s.measured (s.part p) unitW edgeW
  decide (s.fldOf (s.pReg 0x202 .pwrAllot p) 0 16 * m.2 < m.1)

/-- What an update of a partition leaves: its measured power, its k, and its marks in PWR_EVENTS. -/
def State.withK (s : State) (p fresh : Nat) (meas : W32) (k : Nat) (above floor : Bool) : State :=
  let s1 := (({ s with fresh := fresh } : State).setReg (s.pReg 0x202 .pwrMeas p) meas).setReg (s.pReg 0x202 .pwrK p) (BitVec.ofNat 32 k)
  let s2 := if above then s1.setBit (s.pReg 0x202 .pwrEvents) 3 else s1
  if floor then s2.setBit (s.pReg 0x202 .pwrEvents) 4 else s2

theorem State.nextK_state (s : State) (p k : Nat) (m : Nat × Nat) : ∃ n, (s.nextK p k m).2 = { s with fresh := n } := by
  unfold State.nextK
  extract_lets plan allot
  split
  · exact ⟨s.fresh + 1, rfl⟩
  · exact ⟨s.fresh, rfl⟩

theorem State.nextK_of_plan {s : State} {p : Nat} (h : (s.part p).planMicro ≠ 0) (k : Nat) (m : Nat × Nat) :
    ((s.nextK p k m).1 : Int) = max 8 (min 256 (k + 256000000 * ((s.fldOf (s.pReg 0x202 .pwrAllot p) 0 16 * m.2 : Nat) - (m.1 : Int)) /
      ((m.2 * (s.part p).planMicro : Nat) : Int))) := by
  unfold State.nextK
  extract_lets plan allot num
  rw [if_neg h, clampI_eq (by norm_num), Int.toNat_of_nonneg (by omega)]
  rfl

/-- The steward's update of one partition (R394). -/
theorem State.stewardOne_eq (s : State) (unitW : List Nat) (edgeW p : Nat) : ∃ (n : Nat) (meas : W32) (k : Nat) (floor : Bool),
    ((s.part p).planMicro ≠ 0 → (k : Int) = s.movedK unitW edgeW p) ∧
    s.stewardOne unitW edgeW p = s.withK p n meas k (s.overAllot unitW edgeW p) floor := by
  unfold State.stewardOne
  extract_lets x m kr k allot r watts s1 q s2 s3
  obtain ⟨n, hn⟩ := s1.nextK_state p k m
  refine ⟨n, BitVec.ofNat 32 (watts % 2 ^ 16), q.1, decide (q.1 = 8 ∧ k ≠ 8), fun h => ?_, ?_⟩
  · rw [State.nextK_of_plan (s := s1) h, State.fldOf_setReg_other _ _ _ _ _ _ (by simp [State.pReg])]
    rfl
  · have h2 : s2 = (({ s with fresh := n } : State).setReg (s.pReg 0x202 .pwrMeas p) (BitVec.ofNat 32 (watts % 2 ^ 16))).setReg kr
        (BitVec.ofNat 32 q.1) := by
      dsimp only [s2]
      rw [show q.2 = _ from hn]
      rfl
    have hev2 : s2.pReg 0x202 .pwrEvents = s.pReg 0x202 .pwrEvents := by rw [h2]; rfl
    have h3 : s3 = if s.overAllot unitW edgeW p then s2.setBit (s.pReg 0x202 .pwrEvents) 3 else s2 := by
      rw [← hev2, State.overAllot]
      simp only [decide_eq_true_eq]
      rfl
    have hev : s3.pReg 0x202 .pwrEvents = s.pReg 0x202 .pwrEvents := by rw [h3, h2]; split <;> rfl
    rw [hev, h3, h2]
    simp only [State.withK, decide_eq_true_eq]
    rfl

theorem State.stewardOne_parts (s : State) (unitW : List Nat) (edgeW p : Nat) : (s.stewardOne unitW edgeW p).parts = s.parts := by
  obtain ⟨n, meas, k, floor, -, e⟩ := s.stewardOne_eq unitW edgeW p
  rw [e]
  unfold State.withK
  cases floor <;> cases s.overAllot unitW edgeW p <;> rfl

theorem State.reg_withK {s : State} {p n : Nat} {meas : W32} {k : Nat} {above floor : Bool} {j : RegKey}
    (h : j ≠ s.pReg 0x202 .pwrEvents) :
    (s.withK p n meas k above floor).reg j =
      if j = s.pReg 0x202 .pwrK p then BitVec.ofNat 32 k else if j = s.pReg 0x202 .pwrMeas p then meas else s.reg j := by
  unfold State.withK
  cases floor <;> cases above <;> simp [State.reg_setReg, h] <;> rfl

theorem State.movedK_bounds (s : State) (unitW : List Nat) (edgeW p : Nat) : 8 ≤ s.movedK unitW edgeW p ∧ s.movedK unitW edgeW p ≤ 256 :=
  ⟨le_max_left .., max_le (by norm_num) (min_le_left ..)⟩

theorem State.regN_stewardOne_pwrK {s : State} {p : Nat} (h : (s.part p).planMicro ≠ 0) (unitW : List Nat) (edgeW : Nat) :
    ((s.stewardOne unitW edgeW p).regN (s.pReg 0x202 .pwrK p) : Int) = s.movedK unitW edgeW p := by
  obtain ⟨n, meas, k, floor, hk, e⟩ := s.stewardOne_eq unitW edgeW p
  have hb := s.movedK_bounds unitW edgeW p
  rw [← hk h] at hb
  rw [e, State.regN, State.reg_withK (by simp [State.pReg]), if_pos rfl, BitVec.toNat_ofNat, Nat.mod_eq_of_lt (by omega), hk h]

theorem State.reg_stewardOne_pwrK_other {s : State} {p q : Nat} (h : q ≠ p) (unitW : List Nat) (edgeW : Nat) :
    (s.stewardOne unitW edgeW q).reg (s.pReg 0x202 .pwrK p) = s.reg (s.pReg 0x202 .pwrK p) := by
  obtain ⟨n, meas, k, floor, -, e⟩ := s.stewardOne_eq unitW edgeW q
  rw [e, State.reg_withK (by simp [State.pReg]), if_neg (by simp [State.pReg, h.symm]), if_neg (by simp [State.pReg])]

/-- OVER_ALLOT after an update: set where the partition measures above its allotment, and else as it was. -/
theorem State.fldOf_stewardOne_over (s : State) (unitW : List Nat) (edgeW p : Nat) :
    (s.stewardOne unitW edgeW p).fldOf (s.pReg 0x202 .pwrEvents) 3 1 =
      if s.overAllot unitW edgeW p then 1 else s.fldOf (s.pReg 0x202 .pwrEvents) 3 1 := by
  obtain ⟨n, meas, k, floor, -, e⟩ := s.stewardOne_eq unitW edgeW p
  rw [e]
  unfold State.withK
  extract_lets s1 s2
  have h1 : s1.fldOf (s.pReg 0x202 .pwrEvents) 3 1 = s.fldOf (s.pReg 0x202 .pwrEvents) 3 1 := by
    dsimp only [s1]
    rw [State.fldOf_setReg_other _ _ _ _ _ _ (by simp [State.pReg]), State.fldOf_setReg_other _ _ _ _ _ _ (by simp [State.pReg])]
    rfl
  have h2 : s2.fldOf (s.pReg 0x202 .pwrEvents) 3 1 = if s.overAllot unitW edgeW p then 1 else s.fldOf (s.pReg 0x202 .pwrEvents) 3 1 := by
    rw [← h1]
    dsimp only [s2]
    split
    · exact State.fldOf_setBit_same _ _ _ (by norm_num)
    · rfl
  rw [← h2]
  split
  · exact State.fldOf_setBit_other _ _ _ _ _ (by norm_num) (by norm_num)
  · rfl

/-- The partitions with a loaded form. -/
def State.loadedParts (s : State) : List Nat := (List.range 16).filter (fun p => (s.part p).form.isSome)

theorem State.mem_loadedParts {s : State} {p : Nat} : p ∈ s.loadedParts ↔ p < 16 ∧ (s.part p).form.isSome = true := by
  simp [State.loadedParts]

theorem State.loadedParts_nodup (s : State) : s.loadedParts.Nodup := List.nodup_range.filter _

/-- The steward's updates of the partitions with a loaded form. -/
def State.stewardAll (s : State) (unitW : List Nat) (edgeW : Nat) : State :=
  s.loadedParts.foldl (fun t p => t.stewardOne unitW edgeW p) s

theorem runStewardKUpdate_of_due {s : State} (hr : s.stewardRuns = true) (h : s.due .stewardK = true) (unitW : List Nat) (edgeW : Nat) :
    runStewardKUpdate unitW edgeW s = ((s.armTimer .stewardK (nextTick s.bow.time 100000)).stewardAll unitW edgeW).showPower := by
  rw [runStewardKUpdate, if_pos hr, State.every_of_due h]
  rfl

theorem runStewardKUpdate_of_not_due {s : State} (h : s.due .stewardK = false) (unitW : List Nat) (edgeW : Nat) :
    runStewardKUpdate unitW edgeW s = s := by
  rw [runStewardKUpdate, State.every_of_not_due h, ite_self]

end Sys2Proof.Machine

namespace Sys2Proof

open Machine

section stewardFrames

variable {P : Place → Prop} {s0 s t : State}

theorem OnlyIn.setFresh (n : Nat) (hs : OnlyIn P s0 s) (hp : P .fresh) : OnlyIn P s0 { s with fresh := n } := by
  refine hs.trans (fun x hx => ?_)
  cases x with
  | fresh => exact absurd hp hx
  | _ => first | exact rfl | exact Iff.rfl | exact ⟨rfl, rfl⟩

/-- Where the boot record stands, the principal's registers are the same ones. -/
theorem OnlyIn.pReg (h : OnlyIn P s t) (hb : ¬ P .boot) (region : Nat) (r : Reg) (i : Nat) : t.pReg region r i = s.pReg region r i := by
  rw [State.pReg, State.pReg, State.prinDie, State.prinDie, show t.boot = s.boot from h .boot hb]

theorem OnlyIn.stewardOne {p : Nat} (unitW : List Nat) (edgeW : Nat) (hs : OnlyIn P s0 s) (hf : P .fresh)
    (hm : P (.reg (s.pReg 0x202 .pwrMeas p))) (hk : P (.reg (s.pReg 0x202 .pwrK p))) (he : P (.reg (s.pReg 0x202 .pwrEvents))) :
    OnlyIn P s0 (s.stewardOne unitW edgeW p) := by
  obtain ⟨n, meas, k, floor, -, e⟩ := s.stewardOne_eq unitW edgeW p
  rw [e]
  unfold State.withK
  extract_lets s1 s2
  have h1 : OnlyIn P s0 s1 := ((hs.setFresh n hf).setReg _ hm).setReg _ hk
  have h2 : OnlyIn P s0 s2 := OnlyIn.ite (h1.setBit _ he) h1
  exact OnlyIn.ite (h2.setBit _ he) h2

theorem OnlyIn.showPower (hs : OnlyIn P s0 s) (hp : P (.reg (s.pReg 0x202 .pwrStatus))) : OnlyIn P s0 s.showPower :=
  ((((hs.setFld _ _ _ hp).setFld _ _ _ hp).setFld _ _ _ hp).setFld _ _ _ hp).setFld _ _ _ hp

end stewardFrames

/-- What the steward's updates of k can change. -/
def stewardPlaces (s : State) : Place → Prop
  | .reg k => k.die = s.prinDie ∧ k.region = 0x202 ∧ k.reg ∈ [Reg.pwrMeas, .pwrK, .pwrEvents, .pwrStatus]
  | .fresh => True
  | _ => False

section steward

variable {s t : State}

theorem OnlyIn.stewardPReg (h : OnlyIn (stewardPlaces s) s t) (r : Reg) (i : Nat) : t.pReg 0x202 r i = s.pReg 0x202 r i :=
  h.pReg (by simp [stewardPlaces]) _ _ _

theorem OnlyIn.stewardStep (h : OnlyIn (stewardPlaces s) s t) (unitW : List Nat) (edgeW p : Nat) :
    OnlyIn (stewardPlaces s) s (t.stewardOne unitW edgeW p) :=
  h.stewardOne _ _ trivial (by rw [h.stewardPReg]; simp [stewardPlaces, State.pReg]) (by rw [h.stewardPReg]; simp [stewardPlaces, State.pReg])
    (by rw [h.stewardPReg]; simp [stewardPlaces, State.pReg])

/-- The state during the updates of one turn, before that of partition `p`. -/
structure BeforeK (s : State) (p : Nat) (t : State) : Prop where
  places : OnlyIn (stewardPlaces s) s t
  parts  : t.parts = s.parts
  k      : t.reg (s.pReg 0x202 .pwrK p) = s.reg (s.pReg 0x202 .pwrK p)

theorem BeforeK.measured {p : Nat} (h : BeforeK s p t) (unitW : List Nat) (edgeW : Nat) :
    t.measured (t.part p) unitW edgeW = s.measured (s.part p) unitW edgeW := by
  rw [State.measured_congr h.parts, show t.part p = s.part p from h.places (.part p) id]

theorem BeforeK.allot {p : Nat} (h : BeforeK s p t) :
    t.fldOf (t.pReg 0x202 .pwrAllot p) 0 16 = s.fldOf (s.pReg 0x202 .pwrAllot p) 0 16 := by
  rw [h.places.stewardPReg, State.fldOf, State.fldOf,
    show t.reg (s.pReg 0x202 .pwrAllot p) = s.reg _ from h.places (.reg _) (by simp [stewardPlaces, State.pReg])]

theorem BeforeK.movedK {p : Nat} (h : BeforeK s p t) (unitW : List Nat) (edgeW : Nat) : t.movedK unitW edgeW p = s.movedK unitW edgeW p := by
  rw [State.movedK, h.measured, h.allot, h.places.stewardPReg, State.fldOf, h.k, show t.part p = s.part p from h.places (.part p) id]
  rfl

theorem BeforeK.overAllot {p : Nat} (h : BeforeK s p t) (unitW : List Nat) (edgeW : Nat) :
    t.overAllot unitW edgeW p = s.overAllot unitW edgeW p := by
  rw [State.overAllot, h.measured, h.allot]; rfl

theorem BeforeK.step {p q : Nat} (h : BeforeK s p t) (hq : q ≠ p) (unitW : List Nat) (edgeW : Nat) : BeforeK s p (t.stewardOne unitW edgeW q) := by
  refine ⟨h.places.stewardStep _ _ _, (t.stewardOne_parts ..).trans h.parts, ?_⟩
  have := State.reg_stewardOne_pwrK_other (s := t) hq unitW edgeW
  rw [h.places.stewardPReg] at this
  exact this.trans h.k

/-- The state after the update of partition `p`: what is shown for it stays until the turn ends. -/
structure AfterK (s : State) (unitW : List Nat) (edgeW p : Nat) (t : State) : Prop where
  places : OnlyIn (stewardPlaces s) s t
  k      : (s.part p).planMicro ≠ 0 → (t.regN (s.pReg 0x202 .pwrK p) : Int) = s.movedK unitW edgeW p
  events : s.overAllot unitW edgeW p = true → t.fldOf (s.pReg 0x202 .pwrEvents) 3 1 = 1

variable (unitW : List Nat) (edgeW : Nat)

theorem BeforeK.update {p : Nat} (h : BeforeK s p t) : AfterK s unitW edgeW p (t.stewardOne unitW edgeW p) := by
  refine ⟨h.places.stewardStep _ _ _, fun hplan => ?_, fun hover => ?_⟩
  · rw [← h.movedK, ← h.places.stewardPReg]
    exact State.regN_stewardOne_pwrK (by rwa [show t.part p = s.part p from h.places (.part p) id]) _ _
  · rw [← h.places.stewardPReg, State.fldOf_stewardOne_over, if_pos ((h.overAllot ..).trans hover)]

theorem AfterK.step {p q : Nat} (h : AfterK s unitW edgeW p t) (hq : q ≠ p) : AfterK s unitW edgeW p (t.stewardOne unitW edgeW q) := by
  have hreg := State.reg_stewardOne_pwrK_other (s := t) hq unitW edgeW
  have hev := t.fldOf_stewardOne_over unitW edgeW q
  rw [h.places.stewardPReg] at hreg
  rw [h.places.stewardPReg] at hev
  refine ⟨h.places.stewardStep _ _ _, fun hplan => ?_, fun hover => ?_⟩
  · rw [State.regN, hreg]; exact h.k hplan
  · rw [hev, h.events hover, ite_self]

theorem stewardAll_only (s : State) : OnlyIn (stewardPlaces s) s (s.stewardAll unitW edgeW) :=
  OnlyIn.foldl _ _ (OnlyIn.refl _ s) (fun _ _ _ h => h.stewardStep _ _ _)

theorem stewardAll_unloaded {p : Nat} (h : (s.part p).form = none) :
    (s.stewardAll unitW edgeW).reg (s.pReg 0x202 .pwrK p) = s.reg (s.pReg 0x202 .pwrK p) := by
  have hnot (q : Nat) (hq : q ∈ s.loadedParts) : q ≠ p := by
    rintro rfl
    simp [State.mem_loadedParts, h] at hq
  exact (List.foldlRecOn (motive := BeforeK s p) s.loadedParts _ ⟨OnlyIn.refl _ s, rfl, rfl⟩
    (fun _ hu q hq => hu.step (hnot q hq) unitW edgeW)).k

theorem stewardAll_loaded {p : Nat} (hp : p < 16) (h : (s.part p).form.isSome = true) :
    AfterK s unitW edgeW p (s.stewardAll unitW edgeW) :=
  foldl_turn (Pre := BeforeK s p) s.loadedParts_nodup (State.mem_loadedParts.2 ⟨hp, h⟩) ⟨OnlyIn.refl _ s, rfl, rfl⟩
    (fun _ _ hq hu => hu.step hq unitW edgeW) (fun _ hu => hu.update unitW edgeW) (fun _ _ hq hu => hu.step unitW edgeW hq)

end steward

end Sys2Proof

namespace Sys2Proof.Machine

/-! ## PWR_STATUS and SKIP (R395 to R397) -/

theorem State.fldOf_showPower_mT (s : State) : s.showPower.fldOf (s.pReg 0x202 .pwrStatus) 4 4 = s.steward.mT % 16 := by
  unfold State.showPower
  extract_lets k floor m p
  rw [State.fldOf_setFld_other _ _ _ _ _ _ _ (by norm_num) (by norm_num), State.fldOf_setFld_same _ _ _ _ _ (by norm_num)]
  rfl

theorem State.fldOf_showPower_mP (s : State) : s.showPower.fldOf (s.pReg 0x202 .pwrStatus) 8 4 = s.steward.mP % 16 := by
  unfold State.showPower
  extract_lets k floor m p
  exact State.fldOf_setFld_same _ _ _ _ _ (by norm_num)

theorem State.reg_showPower_other {s : State} {k : RegKey} (h : k ≠ s.pReg 0x202 .pwrStatus) : s.showPower.reg k = s.reg k := by
  unfold State.showPower
  simp only [State.reg_setFld_other _ _ _ _ _ _ h]

/-- The steward with its counts at `x`, shown in PWR_STATUS, and the SKIP of their maximum where it is to be sent. -/
def State.countSkips (s : State) (x : Steward) : State := ({ s with steward := x } : State).showPower.writeSkip

/-- Whether the steward sends nothing (R397): the maximum has not changed, or the emergency latch is set. -/
def State.skipStill (s : State) : Prop := s.skipCount = s.steward.lastSkip ∨ (s.die s.prinDie).emerg = true ∨ s.bow.emergHeld = true

theorem State.writeSkip_of_still {s : State} (h : s.skipStill) : s.writeSkip = s := if_pos h

theorem State.writeSkip_of_not_still {s : State} (h : ¬ s.skipStill) :
    s.writeSkip = State.bowSend { s with steward := { s.steward with lastSkip := s.skipCount } } (.skip false 0 s.skipCount) := if_neg h

theorem State.writeSkip_counts (s : State) : s.writeSkip.steward.mT = s.steward.mT ∧ s.writeSkip.steward.mP = s.steward.mP := by
  by_cases h : s.skipStill
  · rw [State.writeSkip_of_still h]; exact ⟨rfl, rfl⟩
  · rw [State.writeSkip_of_not_still h]; exact ⟨rfl, rfl⟩

theorem State.writeSkip_regs (s : State) : s.writeSkip.regs = s.regs := by
  by_cases h : s.skipStill
  · rw [State.writeSkip_of_still h]
  · rw [State.writeSkip_of_not_still h]; rfl

theorem State.fldOf_writeSkip (s : State) (k : RegKey) (lo len : Nat) : s.writeSkip.fldOf k lo len = s.fldOf k lo len := by
  rw [State.fldOf, State.reg, s.writeSkip_regs]; rfl

/-! ## The power skip count (R395) -/

/-- Whether k of every partition with a running job is at its floor. -/
def State.kAtFloor (s : State) : Bool :=
  (List.range 16).all (fun p => (s.part p).job != .running || s.fldOf (s.pReg 0x202 .pwrK p) 0 9 == 8)

theorem State.kAtFloor_iff {s : State} :
    s.kAtFloor = true ↔ ∀ p < 16, (s.part p).job = .running → s.fldOf (s.pReg 0x202 .pwrK p) 0 9 = 8 := by
  simp only [State.kAtFloor, List.all_eq_true, List.mem_range, Bool.or_eq_true, bne_iff_ne, beq_iff_eq, imp_iff_not_or, ne_eq]

/-- M_p after an update with this input power. -/
def State.nextMP (s : State) (inputW : Nat) : Nat :=
  if s.kAtFloor && decide (s.fldOf (s.pReg 0x202 .pwrDev) 0 16 < inputW) then min 12 (s.steward.mP + 1)
  else if 100 * inputW < 95 * s.fldOf (s.pReg 0x202 .pwrDev) 0 16 then s.steward.mP - 1 else s.steward.mP

section nextMP

variable {s : State} {inputW : Nat}

theorem State.nextMP_rises (hf : s.kAtFloor = true) (h : s.fldOf (s.pReg 0x202 .pwrDev) 0 16 < inputW) :
    s.nextMP inputW = min 12 (s.steward.mP + 1) := by simp [State.nextMP, hf, h]

theorem State.nextMP_stays (hf : s.kAtFloor = false) (h : s.fldOf (s.pReg 0x202 .pwrDev) 0 16 < inputW) :
    s.nextMP inputW = s.steward.mP := by
  simp only [State.nextMP, hf, Bool.false_and, Bool.false_eq_true, if_false]
  exact if_neg (by omega)

theorem State.nextMP_within (h : inputW ≤ s.fldOf (s.pReg 0x202 .pwrDev) 0 16) :
    s.nextMP inputW = if 100 * inputW < 95 * s.fldOf (s.pReg 0x202 .pwrDev) 0 16 then s.steward.mP - 1 else s.steward.mP := by
  simp [State.nextMP, Nat.not_lt.2 h]

end nextMP

/-- PWR_INPUT shows the input power and voltage. -/
def State.showInput (s : State) (inputW vin : Nat) : State :=
  s.setReg (s.pReg 0x202 .pwrInput) (BitVec.ofNat 32 (inputW % 2 ^ 16 + vin % 2 ^ 12 * 2 ^ 16))

theorem State.fldOf_showInput (s : State) (inputW vin : Nat) (r : Reg) (i lo len : Nat) (h : r ≠ .pwrInput) :
    (s.showInput inputW vin).fldOf (s.pReg 0x202 r i) lo len = s.fldOf (s.pReg 0x202 r i) lo len :=
  State.fldOf_setReg_other _ _ _ _ _ _ (by simp [State.pReg, h])

theorem State.regN_showInput (s : State) (inputW vin : Nat) :
    (s.showInput inputW vin).regN (s.pReg 0x202 .pwrInput) = inputW % 2 ^ 16 + vin % 2 ^ 12 * 2 ^ 16 := by
  rw [State.showInput, State.regN, State.reg_setReg_same, BitVec.toNat_ofNat]
  omega

theorem State.nextMP_showInput (s : State) (inputW vin : Nat) : (s.showInput inputW vin).nextMP inputW = s.nextMP inputW := by
  have hfloor : (s.showInput inputW vin).kAtFloor = s.kAtFloor := by
    rw [Bool.eq_iff_iff, State.kAtFloor_iff, State.kAtFloor_iff]
    simp only [← State.fldOf_showInput s inputW vin .pwrK _ 0 9 (by simp)]
    rfl
  rw [State.nextMP, hfloor, State.nextMP, ← State.fldOf_showInput s inputW vin .pwrDev 0 0 16 (by simp)]
  rfl

theorem runPowerSkipUpdate_of_due {s : State} (hr : s.stewardRuns = true) (h : s.due .powerSkip = true) (inputW vin : Nat) :
    runPowerSkipUpdate inputW vin s =
      ((s.armTimer .powerSkip (nextTick s.bow.time 1000000)).showInput inputW vin).countSkips { s.steward with mP := s.nextMP inputW } := by
  rw [runPowerSkipUpdate, if_pos hr, State.every_of_due h,
    show s.nextMP inputW = (s.armTimer .powerSkip (nextTick s.bow.time 1000000)).nextMP inputW from rfl, ← State.nextMP_showInput _ inputW vin]
  rfl

theorem runPowerSkipUpdate_of_not_due {s : State} (h : s.due .powerSkip = false) (inputW vin : Nat) : runPowerSkipUpdate inputW vin s = s := by
  rw [runPowerSkipUpdate, State.every_of_not_due h, ite_self]

/-! ## The thermal skip count (R396) -/

/-- Whether a reading is at or above its warn limit. -/
def State.hot (s : State) : Bool := s.readings.any (s.atLimit 0)

theorem State.hot_iff {s : State} : s.hot = true ↔ ∃ r ∈ s.readings, 10 * s.thmLimit 0 r.2.1 ≤ r.1 := by
  simp only [State.hot, State.atLimit, List.any_eq_true, decide_eq_true_eq]

/-- M_t after an update. -/
def State.nextMT (s : State) : Nat :=
  if s.hot then min 12 (s.steward.mT + 1) else if s.calm then s.steward.mT - 1 else s.steward.mT

theorem State.nextMT_hot {s : State} (h : s.hot = true) : s.nextMT = min 12 (s.steward.mT + 1) := if_pos h

theorem State.nextMT_not_hot {s : State} (h : ¬ s.hot = true) : s.nextMT = if s.calm then s.steward.mT - 1 else s.steward.mT := if_neg h

theorem runThermalSkipUpdate_of_due {s : State} (hr : s.stewardRuns = true) (h : s.due .thermSkip = true) :
    runThermalSkipUpdate s = (s.armTimer .thermSkip (nextTick s.bow.time 100000)).countSkips { s.steward with mT := s.nextMT } := by
  rw [runThermalSkipUpdate, if_pos hr, State.every_of_due h]
  rfl

theorem runThermalSkipUpdate_of_not_due {s : State} (h : s.due .thermSkip = false) : runThermalSkipUpdate s = s := by
  rw [runThermalSkipUpdate, State.every_of_not_due h, ite_self]

/-! ## NORMAL (R403) -/

/-- The deferred calibrations of every Brim die may start (R414). -/
def State.clearDeferred (s : State) : State := (List.range 4).foldl (fun s b => s.setFld (uReg (brimIdx b) 0x204 .cnfStatus) 5 1 0) s

theorem State.clearDeferred_eq (s : State) : ∃ r, s.clearDeferred = { s with regs := r } := by
  refine List.foldlRecOn (motive := fun t : State => ∃ r, t = { s with regs := r }) _ _ ⟨s.regs, rfl⟩ ?_
  rintro _ ⟨r, rfl⟩ b -
  exact ⟨_, rfl⟩

theorem State.fldOf_clearDeferred (s : State) {b : Nat} (hb : b < 4) :
    s.clearDeferred.fldOf (uReg (brimIdx b) 0x204 .cnfStatus) 5 1 = 0 := by
  rw [State.clearDeferred]
  refine foldl_turn (Pre := fun _ => True) (Post := fun t : State => t.fldOf (uReg (brimIdx b) 0x204 .cnfStatus) 5 1 = 0)
    List.nodup_range (List.mem_range.2 hb) trivial (fun _ _ _ _ => trivial)
    (fun t _ => t.fldOf_setFld_same _ 5 1 0 (by norm_num)) (fun t c hc ht => ?_)
  rw [State.fldOf_setFld_reg _ _ _ _ _ _ _ _ (by simp [uReg, brimIdx, hc.symm])]
  exact ht

/-- NORMAL is declared: PWR_STATUS shows it, and the steward sends RELEASE with the skip count (R397, R403). -/
def State.declareNormal (s : State) : State :=
  let s1 : State := { s with steward := { s.steward with normalAt := s.bow.time, lastSkip := s.skipCount } }
  (s1.setFld (s.pReg 0x202 .pwrStatus) 0 1 0).bowSend (.skip true 0 s.skipCount)

theorem State.fldOf_declareNormal_state (s : State) : s.declareNormal.fldOf (s.pReg 0x202 .pwrStatus) 0 1 = 0 :=
  State.fldOf_setFld_same { s with steward := { s.steward with normalAt := s.bow.time, lastSkip := s.skipCount } } _ 0 1 0 (by norm_num)

theorem State.fldOf_declareNormal_other {s : State} {k : RegKey} (h : k ≠ s.pReg 0x202 .pwrStatus) (lo len : Nat) :
    s.declareNormal.fldOf k lo len = s.fldOf k lo len :=
  State.fldOf_setFld_reg { s with steward := { s.steward with normalAt := s.bow.time, lastSkip := s.skipCount } } _ 0 1 0 k lo len h

theorem State.pReg_clearDeferred (s : State) (region : Nat) (q : Reg) (i : Nat) : s.clearDeferred.pReg region q i = s.pReg region q i := by
  obtain ⟨r, e⟩ := s.clearDeferred_eq
  rw [e]; rfl

theorem runNormalDeclared_eq {s : State} (hr : s.stewardRuns = true) (hst : s.fldOf (s.pReg 0x202 .pwrStatus) 0 1 = 1)
    (hact : s.emergActive = false) (hcalm : s.calm = true) (hlast : ∀ x, s.steward.lastActive = some x → x + 1000000 ≤ s.bow.time) :
    runNormalDeclared s = s.clearDeferred.declareNormal := by
  have hquiet : (match s.steward.lastActive with | some x => decide (x + 1000000 ≤ s.bow.time) | none => true) = true := by
    cases h : s.steward.lastActive with
    | none => rfl
    | some x => exact decide_eq_true (hlast x h)
  obtain ⟨r, e⟩ := s.clearDeferred_eq
  unfold runNormalDeclared
  extract_lets quiet m s0 s1
  rw [if_pos (by simp [hr, hst, hact, hcalm, show quiet = true from hquiet])]
  change s0 = _ at e
  change _ = s0.declareNormal
  clear_value s0
  subst e
  rfl

end Sys2Proof.Machine

namespace Sys2Proof

open Machine

section skipFrames

variable {P : Place → Prop} {s0 s t : State}

theorem OnlyIn.setSteward (x : Steward) (hs : OnlyIn P s0 s) (hp : P .steward) : OnlyIn P s0 { s with steward := x } := by
  refine hs.trans (fun y hy => ?_)
  cases y with
  | steward => exact absurd hp hy
  | _ => first | exact rfl | exact Iff.rfl | exact ⟨rfl, rfl⟩

theorem OnlyIn.bowSend (c : BowCmd) (hs : OnlyIn P s0 s) (hp : P .bow) : OnlyIn P s0 (s.bowSend c) := by
  refine hs.trans (fun y hy => ?_)
  cases y with
  | bow => exact absurd hp hy
  | _ => first | exact rfl | exact Iff.rfl | exact ⟨rfl, rfl⟩

theorem OnlyIn.writeSkip (hs : OnlyIn P s0 s) (hp : P .steward) (hb : P .bow) : OnlyIn P s0 s.writeSkip :=
  OnlyIn.ite hs ((hs.setSteward _ hp).bowSend _ hb)

theorem OnlyIn.countSkips (x : Steward) (hs : OnlyIn P s0 s) (hp : P .steward) (hb : P .bow) (hr : P (.reg (s.pReg 0x202 .pwrStatus))) :
    OnlyIn P s0 (s.countSkips x) := ((hs.setSteward x hp).showPower hr).writeSkip hp hb

end skipFrames

theorem skipWritten_writeSkip (s : State) : SkipWritten s s.writeSkip s.skipCount := by
  refine ⟨fun h => ?_, fun h => ?_⟩
  · rw [State.writeSkip_of_still h]; exact ⟨rfl, rfl⟩
  · rw [State.writeSkip_of_not_still h]; exact ⟨rfl, rfl⟩

/-- Counts that move, the last SKIP written staying what it was, leave the steward to write the SKIP of the new maximum. -/
theorem skipWritten_countSkips {s : State} {x : Steward} (h : x.lastSkip = s.steward.lastSkip) :
    SkipWritten s (s.countSkips x) (max x.mT x.mP) := by
  have hw := skipWritten_writeSkip ({ s with steward := x } : State).showPower
  unfold SkipWritten at hw ⊢
  rw [← h]
  exact hw

/-- What the steward writes counts from any state with the same steward, bowstring and latches. -/
theorem SkipWritten.cut {s u t : State} {n : Nat} (h : SkipWritten u t n) (hs : u.steward = s.steward) (hbow : u.bow = s.bow)
    (hboot : u.boot = s.boot) (hd : ∀ d, u.die d = s.die d) : SkipWritten s t n := by
  unfold SkipWritten State.prinDie at h ⊢
  rwa [hs, hbow, hboot, hd] at h

/-! ## The turns -/

/-- What an interval brings, and that its next turn is set. -/
theorem OnlyIn.due {P Q : Place → Prop} {s t : State} {x : Timer} {next : Nat} (h : OnlyIn Q (s.armTimer x next) t) (hx : ¬ Q (.timer x))
    (hp : P (.timer x)) (hQ : ∀ y, Q y → P y) : OnlyIn P s t ∧ Turn t x next :=
  ⟨((OnlyIn.refl P s).armTimer next hp).trans (h.mono hQ), h.turn hx⟩

/-- The registers that show the scale. -/
def scalePlaces (x : Place) : Prop := ∃ d, x = .reg (uReg d 0x203 .pwrDieK)

/-- What a leave window can change. -/
def leavePlaces (s : State) : Place → Prop
  | .tile _ => True
  | .reg k => k.reg ∈ [Reg.pwrDieK, .ctrValLo, .ctrValHi, .ctrStatus]
  | .die d => (s.die d).calRun ≠ []
  | .timer q => q = .leave
  | _ => False

theorem leavePlaces_of_scale {s : State} {x : Place} (h : scalePlaces x) : leavePlaces s x := by
  obtain ⟨d, rfl⟩ := h
  simp [leavePlaces, uReg]

theorem leavePlaces_of_refill {s : State} {x : Place} (h : refillPlaces s x) : leavePlaces s x := by
  cases x with
  | tile u => trivial
  | reg k => exact List.mem_cons_of_mem _ h
  | die d => exact h
  | _ => exact h.elim

/-- What a leave window leaves in the device: the scale of every living Body die, and each tile at work settled and refilled. -/
structure LeaveDone (s t : State) : Prop where
  places : OnlyIn (leavePlaces s) s t
  turn   : Turn t .leave (nextTick s.bow.time 1000)
  scales : ∀ d < 32, (s.die d).alive = true → t.regN (uReg d 0x203 .pwrDieK) = s.scaleOf d
  tiles  : ∀ u ∈ s.allTiles, t.tile u =
    { s.tile u with fullTickets := (s.tile u).fullTickets - s.calDrawn u }.refilled (s.scaleOf u.die.val) (s.grants u)

theorem runLeaveWindow_done {s : State} (h : s.due .leave = true) : LeaveDone s (runLeaveWindow s) := by
  rw [runLeaveWindow_of_due h]
  set a := s.armTimer .leave (nextTick s.bow.time 1000)
  obtain ⟨r, hb⟩ := a.showScales_eq
  set b := a.showScales
  have hscales : OnlyIn scalePlaces a b := (OnlyIn.refl _ a).showScales (fun d _ => ⟨d, rfl⟩)
  have hrefill : OnlyIn (refillPlaces b) b (b.allTiles.foldl State.leaveTile b) := OnlyIn.leaveTiles b _
  have hplaces : refillPlaces b = refillPlaces s := by rw [hb]; rfl
  have htiles : b.allTiles = s.allTiles := by rw [hb]; rfl
  have hframe : OnlyIn (fun x => scalePlaces x ∨ refillPlaces s x) a (b.allTiles.foldl State.leaveTile b) :=
    (hscales.mono fun _ => .inl).trans (hrefill.mono fun x hx => .inr (hplaces ▸ hx))
  obtain ⟨hin, hturn⟩ := hframe.due (P := leavePlaces s) (by simp [scalePlaces, refillPlaces]) rfl
    (fun _ => Or.rec leavePlaces_of_scale leavePlaces_of_refill)
  refine ⟨hin, hturn, fun d hd hal => ?_, fun u hu => ?_⟩
  · have hkeep : (b.allTiles.foldl State.leaveTile b).reg (uReg d 0x203 .pwrDieK) = b.reg (uReg d 0x203 .pwrDieK) :=
      hrefill (.reg _) (by simp [refillPlaces, uReg])
    have hshow : b.regN (uReg d 0x203 .pwrDieK) = a.scaleOf d := State.regN_showScales (s := a) hd hal
    rw [State.regN, hkeep]
    exact hshow
  · have htile : b.tile u = s.tile u := by rw [hb]; rfl
    have hdrawn : b.calDrawn u = s.calDrawn u := by rw [hb]; rfl
    have hgrants : b.grants u = s.grants u :=
      State.grants_congr (s := s) (hscales (.reg _) (by simp [scalePlaces, uReg])) (fun p => by rw [hb]; rfl) (by rw [htile])
    rw [State.tile_leaveTiles b b.allTiles_nodup (by rwa [htiles]), State.tile_leaveTile, htile, hdrawn, hgrants, a.scaleOf_showScales]
    rfl

/-- What a turn of the steward leaves in the device. -/
structure StewardDone (s : State) (unitW : List Nat) (edgeW : Nat) (t : State) : Prop where
  places   : OnlyIn (fun x => stewardPlaces s x ∨ x = .timer .stewardK) s t
  turn     : Turn t .stewardK (nextTick s.bow.time 100000)
  unloaded : ∀ p, (s.part p).form = none → t.reg (s.pReg 0x202 .pwrK p) = s.reg (s.pReg 0x202 .pwrK p)
  loaded   : ∀ p < 16, (s.part p).form.isSome = true → (s.part p).planMicro ≠ 0 →
    (t.regN (s.pReg 0x202 .pwrK p) : Int) = s.movedK unitW edgeW p
  events   : ∀ p < 16, (s.part p).form.isSome = true → s.overAllot unitW edgeW p = true → t.fldOf (s.pReg 0x202 .pwrEvents) 3 1 = 1

/-- PWR_STATUS shows nothing of what an update leaves for its partition. -/
theorem AfterK.showPower {s t : State} {unitW : List Nat} {edgeW p : Nat} (h : AfterK s unitW edgeW p t) : AfterK s unitW edgeW p t.showPower := by
  have hkeep (r : Reg) (i : Nat) (hr : r ≠ .pwrStatus) : t.showPower.reg (s.pReg 0x202 r i) = t.reg (s.pReg 0x202 r i) :=
    State.reg_showPower_other (by rw [h.places.stewardPReg]; simp [State.pReg, hr])
  refine ⟨h.places.showPower (by rw [h.places.stewardPReg]; simp [stewardPlaces, State.pReg]), fun hp => ?_, fun ho => ?_⟩
  · rw [State.regN, hkeep .pwrK p (by simp)]; exact h.k hp
  · rw [State.fldOf, hkeep .pwrEvents 0 (by simp)]; exact h.events ho

theorem runStewardKUpdate_done {s : State} (hr : s.stewardRuns = true) (h : s.due .stewardK = true) (unitW : List Nat) (edgeW : Nat) :
    StewardDone s unitW edgeW (runStewardKUpdate unitW edgeW s) := by
  rw [runStewardKUpdate_of_due hr h]
  set a := s.armTimer .stewardK (nextTick s.bow.time 100000)
  have hall : OnlyIn (stewardPlaces a) a (a.stewardAll unitW edgeW) := stewardAll_only unitW edgeW a
  have hstatus : (a.stewardAll unitW edgeW).pReg 0x202 .pwrStatus = a.pReg 0x202 .pwrStatus := hall.stewardPReg _ _
  have hloaded (p : Nat) (hp : p < 16) (hf : (s.part p).form.isSome = true) : AfterK a unitW edgeW p (a.stewardAll unitW edgeW).showPower :=
    (stewardAll_loaded (s := a) unitW edgeW hp hf).showPower
  obtain ⟨hin, hturn⟩ := (hall.showPower (by rw [hstatus]; simp [stewardPlaces, State.pReg])).due
    (P := fun x => stewardPlaces s x ∨ x = .timer .stewardK) id (.inr rfl) (fun _ => .inl)
  refine ⟨hin, hturn, fun p hf => ?_, fun p hp hf => (hloaded p hp hf).k, fun p hp hf => (hloaded p hp hf).events⟩
  exact (State.reg_showPower_other (by rw [hstatus]; simp [State.pReg])).trans (stewardAll_unloaded (s := a) unitW edgeW hf)

/-! ## The turns of the skip counts -/

section countSkips

variable (s : State) (x : Steward)

theorem Machine.State.countSkips_counts : (s.countSkips x).steward.mT = x.mT ∧ (s.countSkips x).steward.mP = x.mP :=
  State.writeSkip_counts _

theorem Machine.State.fldOf_countSkips_mT : (s.countSkips x).fldOf (s.pReg 0x202 .pwrStatus) 4 4 = x.mT % 16 :=
  (State.fldOf_writeSkip ..).trans (State.fldOf_showPower_mT { s with steward := x })

theorem Machine.State.fldOf_countSkips_mP : (s.countSkips x).fldOf (s.pReg 0x202 .pwrStatus) 8 4 = x.mP % 16 :=
  (State.fldOf_writeSkip ..).trans (State.fldOf_showPower_mP { s with steward := x })

theorem Machine.State.regN_countSkips {k : RegKey} (h : k ≠ s.pReg 0x202 .pwrStatus) : (s.countSkips x).regN k = s.regN k := by
  have hshow := State.reg_showPower_other (s := { s with steward := x }) h
  rw [State.regN, State.reg, State.countSkips, State.writeSkip_regs]
  exact congrArg BitVec.toNat hshow

end countSkips

/-- What a turn of the power skip count leaves in the device. -/
structure PowerSkipDone (s : State) (inputW vin : Nat) (t : State) : Prop where
  places : Only [.steward, .bow, .reg (s.pReg 0x202 .pwrInput), .reg (s.pReg 0x202 .pwrStatus), .timer .powerSkip] s t
  turn   : Turn t .powerSkip (nextTick s.bow.time 1000000)
  input  : t.regN (s.pReg 0x202 .pwrInput) = inputW % 2 ^ 16 + vin % 2 ^ 12 * 2 ^ 16
  count  : t.steward.mP = s.nextMP inputW
  skip   : SkipWritten s t (max s.steward.mT t.steward.mP)
  shown  : t.fldOf (s.pReg 0x202 .pwrStatus) 8 4 = t.steward.mP % 16

theorem runPowerSkipUpdate_done {s : State} (hr : s.stewardRuns = true) (h : s.due .powerSkip = true) (inputW vin : Nat) :
    PowerSkipDone s inputW vin (runPowerSkipUpdate inputW vin s) := by
  rw [runPowerSkipUpdate_of_due hr h]
  set a := s.armTimer .powerSkip (nextTick s.bow.time 1000000)
  set b := a.showInput inputW vin
  set x : Steward := { s.steward with mP := s.nextMP inputW }
  have hinput : Only [.steward, .bow, .reg (s.pReg 0x202 .pwrInput), .reg (s.pReg 0x202 .pwrStatus)] a b :=
    (Only.refl _ a).setReg _ (.tail _ (.tail _ (.head _)))
  obtain ⟨hin, hturn⟩ := (hinput.countSkips x (.head _) (.tail _ (.head _)) (.tail _ (.tail _ (.tail _ (.head _))))).due
    (P := (· ∈ [Place.steward, .bow, .reg (s.pReg 0x202 .pwrInput), .reg (s.pReg 0x202 .pwrStatus), .timer .powerSkip]))
    (by simp) (by simp) (by simp)
  obtain ⟨-, hcount⟩ := b.countSkips_counts x
  refine ⟨hin, hturn, ?_, hcount, ?_, ?_⟩
  · exact (b.regN_countSkips x (by simp [State.pReg])).trans (a.regN_showInput inputW vin)
  · rw [hcount]
    exact (skipWritten_countSkips (s := b) (x := x) rfl).cut rfl rfl rfl (fun _ => rfl)
  · rw [hcount]
    exact b.fldOf_countSkips_mP x

/-- What a turn of the thermal skip count leaves in the device. -/
structure ThermalSkipDone (s t : State) : Prop where
  places : Only [.steward, .bow, .reg (s.pReg 0x202 .pwrStatus), .timer .thermSkip] s t
  turn   : Turn t .thermSkip (nextTick s.bow.time 100000)
  count  : t.steward.mT = s.nextMT
  skip   : SkipWritten s t (max t.steward.mT s.steward.mP)
  shown  : t.fldOf (s.pReg 0x202 .pwrStatus) 4 4 = t.steward.mT % 16

theorem runThermalSkipUpdate_done {s : State} (hr : s.stewardRuns = true) (h : s.due .thermSkip = true) :
    ThermalSkipDone s (runThermalSkipUpdate s) := by
  rw [runThermalSkipUpdate_of_due hr h]
  set a := s.armTimer .thermSkip (nextTick s.bow.time 100000)
  set x : Steward := { s.steward with mT := s.nextMT }
  have hrefl : Only [.steward, .bow, .reg (s.pReg 0x202 .pwrStatus)] a a := Only.refl _ a
  obtain ⟨hin, hturn⟩ := (hrefl.countSkips x (.head _) (.tail _ (.head _)) (.tail _ (.tail _ (.head _)))).due
    (P := (· ∈ [Place.steward, .bow, .reg (s.pReg 0x202 .pwrStatus), .timer .thermSkip])) (by simp) (by simp) (by simp)
  obtain ⟨hcount, -⟩ := a.countSkips_counts x
  refine ⟨hin, hturn, hcount, ?_, ?_⟩
  · rw [hcount]
    exact (skipWritten_countSkips (s := a) (x := x) rfl).cut rfl rfl rfl (fun _ => rfl)
  · rw [hcount]
    exact a.fldOf_countSkips_mT x

/-- Settles O32: every command of the loops is an interval's turn, or NORMAL's, and its turn is read off the lemmas above: tiles and
partitions are updated one after another without touching each other's, and the counts move by their three cases. -/
theorem powerAndThermalLoops : Obligations.PowerAndThermalLoops := by
  refine ⟨⟨?leaveEarly, ?leave, ?stewardEarly, ?steward⟩, ?powerEarly, ?power, ?thermalEarly, ?thermal, ?normal⟩
  case leaveEarly => exact fun s h => ⟨_, rfl, State.every_of_not_due h _ _⟩
  case stewardEarly => exact fun s unitW edgeW h => ⟨_, rfl, runStewardKUpdate_of_not_due h unitW edgeW⟩
  case powerEarly => exact fun s inputW vin h => ⟨_, rfl, runPowerSkipUpdate_of_not_due h inputW vin⟩
  case thermalEarly => exact fun s h => ⟨_, rfl, runThermalSkipUpdate_of_not_due h⟩
  case leave =>
    intro s h
    have hd := runLeaveWindow_done h
    refine ⟨_, rfl, hd.places, hd.turn, hd.scales, fun u hu => ?_⟩
    extract_lets x g k add
    have htile := hd.tiles u hu
    split
    · next hnone =>
      rw [htile, State.calDrawn_of_none hnone]
      rfl
    · next c hsome =>
      rw [htile, State.calDrawn_of_some hsome]
      exact ⟨rfl, rfl, rfl⟩
  case steward =>
    intro s unitW edgeW hr h
    have hd := runStewardKUpdate_done hr h unitW edgeW
    refine ⟨_, rfl, hd.places.mono ?_, hd.turn, fun p hp => ⟨hd.unloaded p, fun hf hplan => ⟨hd.loaded p hp hf hplan, fun ho => ?_⟩⟩⟩
    · rintro x (hx | rfl)
      · cases x with
        | reg k => exact hx
        | fresh => trivial
        | _ => exact hx.elim
      · rfl
    · exact hd.events p hp hf (decide_eq_true ho)
  case power =>
    intro s inputW vin hr h
    have hd := runPowerSkipUpdate_done hr h inputW vin
    refine ⟨_, rfl, hd.places, hd.turn, hd.input, fun hf ha => ?_, fun hf ha => ?_, fun ha hlow => ?_, fun ha hlow => ?_, hd.skip, hd.shown⟩
    · exact hd.count.trans (State.nextMP_rises (State.kAtFloor_iff.2 hf) ha)
    · exact hd.count.trans (State.nextMP_stays (Bool.eq_false_iff.2 (hf ∘ State.kAtFloor_iff.1)) ha)
    · exact hd.count.trans ((State.nextMP_within ha).trans (if_pos hlow))
    · exact hd.count.trans ((State.nextMP_within ha).trans (if_neg (Nat.not_lt.2 hlow)))
  case thermal =>
    intro s hr h
    have hd := runThermalSkipUpdate_done hr h
    refine ⟨_, rfl, hd.places, hd.turn, fun hh => ?_, fun hh hc => ?_, fun hh hc => ?_, hd.skip, hd.shown⟩
    · exact hd.count.trans (State.nextMT_hot (State.hot_iff.2 hh))
    · exact hd.count.trans ((State.nextMT_not_hot (hh ∘ State.hot_iff.1)).trans (if_pos hc))
    · exact hd.count.trans ((State.nextMT_not_hot (hh ∘ State.hot_iff.1)).trans (if_neg (by simp [hc])))
  case normal =>
    intro s hr hst hact hcalm hlast
    refine ⟨_, rfl, ?_⟩
    rw [runNormalDeclared_eq hr hst hact hcalm hlast]
    have hstate := s.clearDeferred.fldOf_declareNormal_state
    rw [State.pReg_clearDeferred] at hstate
    have hcnf (b : Nat) (hb : b < 4) : s.clearDeferred.declareNormal.fldOf (uReg (brimIdx b) 0x204 .cnfStatus) 5 1 = 0 := by
      rw [State.fldOf_declareNormal_other (by simp [uReg, State.pReg])]
      exact s.fldOf_clearDeferred hb
    obtain ⟨r, e⟩ := s.clearDeferred_eq
    refine ⟨hstate, ?_, ?_, hcnf, ?_, fun p => ?_⟩ <;> (rw [e]; rfl)

end Sys2Proof
end
